-- ==== Sys2Proof/Word.lean ====
section
/-! DEFINITION. The word types of the NZ-7128 and their plainest arithmetic (R8, R55: every register is 64 bits wide). -/

namespace Sys2Proof

/-- A 64-bit register, ring entry word or table image word (R8, R55). -/
abbrev Word := BitVec 64

/-- A byte of a frame's data field, of a Storeroom cell or of the boot flash. -/
abbrev Byte := BitVec 8

/-- Unsigned value of bits [lo + len - 1 : lo] of a number (R8: bit 0 is least significant). -/
def natField (n lo len : Nat) : Nat := n / 2 ^ lo % 2 ^ len

/-- Unsigned value of bits [lo + len - 1 : lo] of a word. -/
def Word.field (w : Word) (lo len : Nat) : Nat := natField w.toNat lo len

/-- One bit of a word. -/
def Word.bit (w : Word) (i : Nat) : Bool := w.getLsbD i

/-- A Bool as the number 0 or 1. -/
def b2n (b : Bool) : Nat := if b then 1 else 0

/-- The greatest 64-bit value: where a counter saturates (R13). -/
def Word.max : Word := 0xFFFFFFFFFFFFFFFF#64

end Sys2Proof
end

