-- ==== Sys2Proof/Syntax.lean ====
section
/-! DEFINITION. The commands of the block: one constructor of Instr per row of spec/opcode_table.json, with the operands
that the outside world or the unit concerned supplies (log entry 1). Operand types come first. -/

namespace Sys2Proof

/-- A PCI Express endpoint (R10). -/
inductive Ep where
  | a | b
deriving DecidableEq, Repr

/-- The path a register write comes from: an endpoint, or management firmware (R56, R66). -/
inductive Path where
  | ep (e : Ep)
  | mgmt
deriving DecidableEq, Repr

/-- A copy of a register that carries parity (R72). -/
inductive RegCopy where
  | staged | held | inForce
deriving DecidableEq, Repr

/-- The verdict a port engine reaches on a received frame (R104, R105); a lost frame is correct on the bus or not. -/
inductive RxVerdict where
  | valid | invalid | lost | lostErroneous
deriving DecidableEq, Repr

/-- What an engine detects on the bus (R95, R109): the error types of PORT.LAST_ERR, codes 1 to 6, with the two that
ISO 11898-1:2024 excepts from a rise of TEC, a stuff error in arbitration and a missing acknowledgement with no dominant bit
in the passive error flag that follows; then what may follow an error: a bit error in an active error flag or an overload
flag, a dominant first bit after a flag, and a run of dominant bits after it. -/
inductive BusErr where
  | stuff | form | ack | bitRecessive | bitDominant | crc
  | stuffArb | ackAlone | bitInFlag | dominantAfterFlag | dominantRun
deriving DecidableEq, Repr

/-- The bit phase of an error (R109). -/
inductive BitPhase where
  | nominal | fdData | xlData
deriving DecidableEq, Repr

/-- The header and payload of a frame as it stands on the bus (R86, R165). fmt is the format code of R86; the DLC codes the
data length. -/
structure BusFrame where
  fmt  : Nat
  ident : Nat
  dlc  : Nat
  brs  : Bool
  esi  : Bool
  sec  : Bool
  sdt  : Nat
  vcid : Nat
  af   : Nat
  data : List Byte
deriving DecidableEq, Repr

/-- How the shadowing spare saw a frame (R155): its own judgement, whether either engine saw an error, and agreement. -/
structure ShadowView where
  spareValid : Bool
  errorFree  : Bool
  agree      : Bool
deriving DecidableEq, Repr

/-- Both engines saw the frame end in an error. -/
def ShadowView.bothSawError : ShadowView := { spareValid := false, errorFree := false, agree := true }

/-- The base addresses that the root complex has given an endpoint's three BARs (R322). -/
structure Bars where
  bar0 : Word := 0
  bar2 : Word := 0
  bar4 : Word := 0
deriving DecidableEq, Repr

/-- Where a write of the MSI-X structures lands (R393): at an offset of the table in BAR4, or at the function mask of the
capability, whose new value is bit 0 of the data. -/
inductive MsixPlace where
  | table (off : Nat)
  | functionMask
deriving DecidableEq, Repr

/-- A command ring entry as the ring engine reads it (R344): the ring that carried it and its eight words. -/
structure CmdEntry where
  ep   : Ep
  ring : Nat
  w0   : Word
  w1   : Word
  w2   : Word
  w3   : Word
  w4   : Word
  w5   : Word
  w6   : Word
  w7   : Word
deriving DecidableEq, Repr

/-- What the Cellar finds of the NAND at identification (R362, R377, R385). -/
structure NandGeometry where
  /-- Bit 4c + e: chip enable e of channel c present. -/
  targets   : Nat
  /-- All targets have identical parameter pages. -/
  uniform   : Bool
  /-- LUNs per target. -/
  luns      : Nat
  /-- Spare bytes per page. -/
  spare     : Nat
  /-- Raw capacity of all targets, in MiB. -/
  rawMib    : Nat
  /-- Page size code: 0 4 KiB, 1 8 KiB, 2 16 KiB. -/
  pageCode  : Nat
  /-- Pages per SLC block. -/
  pages     : Nat
  /-- Blocks per target. -/
  blocks    : Nat
  /-- Maximum SLC program time in µs. -/
  tprogUs   : Nat
  /-- The SET FEATURES of SLC entry succeeds. -/
  slcOk     : Bool
  /-- Blocks whose factory marker is not 0xFF, as block numbers over all targets (R377). -/
  factoryBad : List Nat
  /-- Root blocks whose newest page does not read as a valid root (R386). -/
  badRoots  : List Nat
deriving DecidableEq, Repr

/-- The read of one codeword (R376): bits corrected by the try that succeeded, read retries made, and whether every try
failed. -/
structure CodewordRead where
  bits    : Nat
  retries : Nat
  lost    : Bool
deriving DecidableEq, Repr

/-- The read of one page: its codewords from the first on, those not listed being clean, and whether the page's CRC fails
after correction (R376). -/
structure PageRead where
  words  : List CodewordRead
  crcBad : Bool
deriving DecidableEq, Repr

/-- A page that did not read clean: its block, its place there, and its read. -/
structure PageOutcome where
  block : Nat
  page  : Nat
  read  : PageRead
deriving DecidableEq, Repr

/-- A debug or boundary vector on the test access port, or an image signature: raw bytes. -/
abbrev Bytes := List Byte

/-- What the internal debug port is asked for (R434): a read of on-chip memory, the halt or a step of a management core, or the
scan of a slice. -/
inductive DbgOp where
  | read (addr : Nat)
  | halt (core : Nat)
  | step (core : Nat)
  | scan (slice : Nat)
deriving DecidableEq, Repr

/-- The commands: one constructor per row of the opcode table, in the table's order. An operand with a default says what the
surroundings add where something unusual happens; the default is the usual case (log entry 1). -/
inductive Instr where
  | registerWrite (p : Path) (off size : Nat) (val : Word)
  | aliasWrite (p : Path) (off size : Nat) (val : Word)
  | genUnlock (p : Path) (val : Word)
  | genOwnerWrite (p : Path) (val : Word)
  | ownHbBeat (p : Path) (val : Word)
  | ownerJudge
  | genSnapTake (p : Path) (val : Word)
  | snapshotComplete
  | parityScan (bad : List (RegCopy × Nat)) (later : List (RegCopy × Nat) := [])
  | configReload (off : Nat)
  | cut
  | stagingFreeze
  | epochBoundary
  | freezeEnd
  | closeRecord
  | silentBoundary
  | genCommit (p : Path) (val : Word)
  | commitSwapEligible
  | epochCtlRunStart (p : Path) (val : Word)
  | epochCtlRunStop (p : Path) (val : Word)
  | epochCtlHold (p : Path) (val : Word)
  | genSwapReq (p : Path) (val : Word)
  | genSwapCancel (p : Path) (val : Word)
  | rxHeader (port : Nat) (f : BusFrame) (sofAgo : Nat)
  | rxFrameEnd (port : Nat) (v : RxVerdict) (sv : ShadowView) (toAck : Bool := false)
  | busError (port : Nat) (e : BusErr) (transmitter : Bool) (ph : BitPhase) (loop : Option Nat := none)
    (sv : ShadowView := ShadowView.bothSawError)
  | boDelayExpire (port : Nat)
  | busOffRecovery (port occurrences : Nat)
  | portCmdRecover (p : Path) (eng : Nat) (val : Word)
  | portIntegrated (eng : Nat)
  | portStopComplete (eng : Nat)
  | portHoldExpire (port : Nat)
  | txChoice (port : Nat)
  | txSuccess (port loopMtq : Nat) (sv : ShadowView)
  | arbLost (port : Nat)
  | selfAbort (port : Nat) (ph : BitPhase) (loop : Option Nat := none) (sv : ShadowView := ShadowView.bothSawError)
  | ctUnderrun (port : Nat) (ph : BitPhase) (loop : Option Nat := none) (sv : ShadowView := ShadowView.bothSawError)
  | xcvrModeEffect (port : Nat)
  | xcvrSettled (port : Nat)
  | lpStbEffect (port : Nat)
  | vbusUndervoltage (bank mv : Nat)
  | violUnpowered (bank mv : Nat)
  | fgSample (port mv ua : Nat)
  | fgCoolExpire (port : Nat)
  | fgRetry (port : Nat)
  | fgClear (p : Path) (val : Word)
  | wakeUpPattern (port dom1 rec dom2 total : Nat)
  | wakeUpFrame (port : Nat) (ide : Bool) (ident dlc : Nat) (remote fd erroneous : Bool) (data : Word)
  | wakeN
  | wakeAck (p : Path) (val : Word)
  | takeoverCopy (port : Nat)
  | takeoverSwitch (port : Nat) (overload : Bool)
  | hoTimeout (port : Nat)
  | lookup (fid : Nat) (eccSlot : Option Nat)
  | decodeOp (fid : Nat)
  | recordCommit (fid : Nat)
  | pantryLineFill (line : Nat) (lost : Option (Word × Word × Word × Word))
  | sweepVisit (eccBad : List Nat)
  | sweepComplete
  | sweepStall
  | walkOp
  | watchWsel (p : Path) (val : Word)
  | forceCmdForce (p : Path) (val : Word)
  | forceCmdRelease (p : Path) (val : Word)
  | scrivRecSel (p : Path) (val : Word)
  | scrivHashIn (p : Path) (val : Word)
  | loadImage (c : CmdEntry)
  | imageWaitEnd (header : Option (List Word))
  | imageCopyDone
  | imageRecordRead (words : Option (List Word))
  | imageEndCheck (readOk : Bool := true)
  | imageBankCheck
  | subscribe (c : CmdEntry) (words : Option (List Word))
  | copyPlacement (fid copy : Nat)
  | txqDropHead (p : Path) (val : Word)
  | txBackfill (port tag : Nat) (fetched : Option Bytes)
  | sealFArrival (fid : Nat)
  | locksmithVerdict (fid : Nat)
  | sealStart (lane : Nat)
  | sealComplete (lane : Nat)
  | keyLoad (c : CmdEntry) (blob : Option Bytes)
  | kekLoad (c : CmdEntry) (blob : Option Bytes)
  | keyClear (c : CmdEntry)
  | nextHalfWrite (slot : Nat)
  | keySwap (c : CmdEntry)
  | zeroize (c : CmdEntry)
  | lockZeroize (p : Path) (val : Word)
  | alarm (code : Nat)
  | kek0Derive
  | lockCmdAck (p : Path) (val : Word)
  | kmLockClaim (p : Path) (val : Word)
  | kmLockRelease (p : Path) (val : Word)
  | kmTimeout
  | drbgInstantiate
  | drbgReseed
  | healthTestFail
  | entropyRetry (passes : Bool)
  | drbgAlarm
  | endpointUsableChange (e : Ep) (link mse bme d3 : Bool) (width speed : Nat) (bars : Bars := {})
  | endpointReset (e : Ep) (active : Bool) (fundamental : Bool := false)
  | d3hotEntry (e : Ep)
  | ringRunning (e : Ep) (ring : Nat)
  | ringStopComplete (e : Ep) (ring : Nat)
  | doorbell (e : Ep) (ring off : Nat) (val : Word)
  | completionWrite (e : Ep) (ring : Nat)
  | nop (c : CmdEntry)
  | opcodeUnknown (c : CmdEntry)
  | commit (c : CmdEntry)
  | portCtl (c : CmdEntry)
  | timeSet (c : CmdEntry)
  | timeSetApply
  | timeSetTimeout
  | transmitEntry (e : Ep) (ring : Nat) (w0 w1 w2 w3 : Word)
  | txResourcesReady (e : Ep) (ring : Nat)
  | captureRecordFinish (fid copy : Nat)
  | cellarStart (c : CmdEntry) (media : NandGeometry)
  | cellarRestoreDone (reads : List PageOutcome := []) (failing : List Nat := [])
  | cellarStop (c : CmdEntry)
  | cellarStopped
  | cellarCheckpoint (c : CmdEntry)
  | cellarFormat (c : CmdEntry) (media : NandGeometry)
  | cellarFormatDone (failed : List Nat)
  | batchExpire
  | journalPageProgram (failing : List Nat := [])
  | pageProgramDone (target : Nat) (ok : Bool) (failing : List Nat := [])
  | checkpointTimer
  | checkpointSeal (reads : List PageOutcome := []) (failing : List Nat := [])
  | scrub (words : List CodewordRead) (crcBad : Bool) (failing : List Nat)
  | pfail
  | flushComplete (failing : List Nat := [])
  | pfailRelease
  | sourceRaise (src : Nat)
  | bellPendClr (p : Path) (val : Word)
  | bellClaim (e : Ep) (l : Nat)
  | bellEoi (e : Ep) (l : Nat) (val : Word)
  | bellMask (e : Ep) (l : Nat) (val : Word)
  | bellGdis (p : Path) (val : Word)
  | bellSrcEn (p : Path) (src : Nat) (val : Word)
  | faultEvent (f : Nat)
  | brokenWire (f : Nat) (high : Bool := false)
  | levelRestored (f : Nat) (fault : Bool)
  | subBucketAdvance (f : Nat)
  | recovery (f : Nat)
  | rcntDecay (f : Nat)
  | windowClose (f : Nat)
  | stewCmdAck (p : Path) (val : Word)
  | stewCmdRecover (p : Path) (val : Word)
  | stewCmdRclr (p : Path) (val : Word)
  | watchdogTrip
  | sliceSelect
  | testResult (slice : Nat) (misr : Word) (saved : Bytes) (reloaded : Bytes := saved)
  | goldenCheck (good : Bool)
  | pairHandoverTimer
  | lcCmdGo (p : Path) (val : Word)
  | lcProgramDone (verified : Bool)
  | idcode
  | bypass (opcode : Nat)
  | samplePreload (preload : Option Bytes)
  | extest (vector : Bytes)
  | dbgChal (request : Nat)
  | dbgResp (key sig : Bytes)
  | debugAuthResult
  | dbgAccess (op : DbgOp)
  | nonceLapse
  | tapReset
  | dbgCtlEnd (p : Path) (val : Word)
  | pwrCtlTarget (p : Path) (val : Word)
  | powerMoveStart
  | powerOn (bootSel : Nat)
  | resetN (bootSel lowNs : Nat)
  | rstCmdFull (p : Path) (val : Word)
  | firmwareReady
  | bootReadyTimeout
  | fwCmdActivate (p : Path) (val : Word)
  | fwCmdConfirm (p : Path) (val : Word)
  | fwCmdRevert (p : Path) (val : Word)
  | fwCmdRoll (p : Path) (val : Word)
  | fwCmdErase (p : Path) (val : Word) (flashOk : Bool)
  | fwCmdProgram (p : Path) (val : Word) (flashOk : Bool)
  | flData (p : Path) (val : Word)
  | flAddr (p : Path) (val : Word)
  | fwSel (p : Path) (val : Word)
  | pairSwitch
  | switchTimeout
  | confirmTimeout
  | ppsEdge (rising : Bool)
  | ppsLost
  | lockSlotSel (p : Path) (val : Word)
  | tinkSliceSel (p : Path) (val : Word)
  | protocolExceptionExit (eng : Nat)
  | msiXTableWrite (e : Ep) (w : MsixPlace) (size : Nat) (val : Word)
  | ringReadFailure (e : Ep) (ring : Nat)
  | minimumLowTime
  | lossOfPower
  | tempUpdate (sensors : List Int)
deriving DecidableEq, Repr

end Sys2Proof
end

