-- ==== Sys2Proof/Decode.lean ====
section
/-! DEFINITION. The command a word spells by the opcode table's bits. No row of spec/opcode_table.json gives any bits
(every row's list of fields is empty): the commands are events and accesses, not encoded instructions, and no word
spells one. -/

namespace Sys2Proof

/-- The command that a word of nbits bits spells: none, since the table gives no row a bit. -/
def decodeTableWord (_nbits _w : Nat) : Option Instr := none

end Sys2Proof
end

