-- ==== Sys2Proof/Config.lean ====
section
/-! DEFINITION. What an implementation fixes and what the spec leaves open: free values, opaque and without a body,
so that no proof can lean on a chosen number (log entries 3 to 10). -/

namespace Sys2Proof.Config

/-- The binary64 NaN pattern that an undefined float operation stores (log entry 3); the operands are passed in. -/
opaque nanResult : Word → Word → Word

/-- Whether two floats whose difference is not a number count as within the deadband (log entry 3). -/
opaque deadbandUnordered : Word → Word → Bool

/-- Order of two floats of which one is a NaN, in a median (log entry 3). -/
opaque nanOrder : Word → Word → Bool

/-- A value of the model's own free-value counter: applied to State.free (log entry 4). -/
opaque freeWord : Nat → Word

/-- Trim of the undervoltage threshold of VBUSn inside 4.25 V ± 0.10 V, per bank (R128, log entry 5). -/
opaque uvAssertTrim : Nat → Nat
/-- Trim of the threshold at which VBUSn undervoltage clears, inside 4.40 V ± 0.10 V, per bank (R128). -/
opaque uvClearTrim : Nat → Nat
/-- Trim of the VIOLn threshold inside 1.50 V ± 0.08 V, per I/O bank (R129). -/
opaque violTrim : Nat → Nat
/-- Trim of the wake-up filter time t_Filter between 0.5 µs and 1.8 µs, per port (R138). -/
opaque wakeFilterTrim : Nat → Nat
/-- Trim of t_Wake between 1.2 ms and 2.0 ms, per port (R138). -/
opaque wakeTimeTrim : Nat → Nat
/-- Rounding of a Fireguard energy sample to 1 nJ: 0 down, otherwise up, from mV and µA (R130, log entry 5). -/
opaque fgRound : Nat → Nat → Nat

/-- KEK0 as derived from the fuse secret at a reset (R311, log entry 6). -/
opaque kek0 : Nat → BitVec 256
/-- A 32-byte debug nonce from the entropy source (R435, log entry 6). -/
opaque nonce : Nat → BitVec 256
/-- The 16-byte fuse-unique identifier (R435). -/
opaque uniqueId : Unit → BitVec 128
/-- Hash of the Balrum debug public key in mask ROM (R435). -/
opaque balrumDebugHash : Unit → BitVec 384
/-- The Balrum firmware public key in mask ROM (R453). -/
opaque balrumFirmwareKey : Unit → List Byte

/-- A byte that a free value stands for, by the number of the free value and the byte's address or index: boot flash after
a failed erase or program (R458), sampled pins and debug reads (R433, R434) (log entry 4). -/
opaque freeByte : Nat → Nat → Byte

/-- Whether a RESET_N pulse shorter than 1 µs is taken (R447, log entry 4). -/
opaque shortResetTaken : Nat → Bool

/-- Latest ingress verdict, earliest CRC and data offsets of an XL frame or an XL copy, in picoseconds, whose bit
layout only ISO 11898-1:2024 gives (R267, log entry 7): arguments are the in-use bit timing words and the length. -/
opaque xlVerdictLatest : Word → Word → Nat → Nat
opaque xlCrcEarliest : Word → Word → Nat → Nat
opaque xlByteLatest : Word → Word → Nat → Nat
opaque xlByteEarliest : Word → Word → Nat → Nat

/-- The Tinker's golden signature for a slice type and a seed set (R424, log entry 6). -/
opaque goldenSignature : Nat → Nat → Word

/-- DDR4 fitted beyond the 4 GiB minimum, in MiB: the board's choice (R29, log entry 15). -/
opaque extraDdrMib : Unit → Nat

/-- Base of the records region in the Larder, which management firmware places with the first table image; the argument is
the capture buffer's size in MiB, which shares the remainder (R29, R199, log entry 77). -/
opaque recordsBase : Nat → Nat

/-- Byte k of the parity of a codeword under the Cellar's own BCH code over GF(2^15), whose generator the spec does not give
(R376, log entry 87). -/
opaque bchByte : List Byte → Nat → Byte
/-- Byte k of the body of the root page with a number: only the Cellar writes and reads it (R364, log entry 87). -/
opaque rootByte : Nat → Nat → Byte

end Sys2Proof.Config
end

