-- ==== Sys2Proof/Machine/Registers.lean ====
section
/-! DEFINITION. The register map: every register of the blocks GEN to SYS, PORT, XBAR and XCVR, with its place, the
masks of its fields by type, its reset word and the ranges its fields are clamped to (R54, R83, R84, R90, R120, R146,
R164, R178, R206, R233, R252, R276, R291, R321, R361, R388, R402, R417, R429, R446, R463). -/

namespace Sys2Proof.Machine

/-- A ranged field: its lowest bit, its width, its limits, and whether 0 is kept as written because it means off (R90, R361). -/
structure Clamp where
  lo    : Nat
  len   : Nat
  min   : Nat
  max   : Nat
  zero  : Bool
deriving DecidableEq, Repr

/-- A register, or a run of like registers at base + stride × i for i below count. Masks are 64-bit numbers. -/
structure RegGroup where
  base    : Nat
  stride  : Nat := 8
  count   : Nat := 1
  /-- Index of the first register of the run. -/
  first   : Nat := 0
  /-- RW fields. -/
  rw      : Nat := 0
  /-- RWI fields. -/
  rwi     : Nat := 0
  /-- WC fields. -/
  wc      : Nat := 0
  /-- Reserved bits that are live test controls (R76). -/
  live    : Nat := 0
  guarded : Bool := false
  /-- A counter's RS register (R13). -/
  counter : Bool := false
  reset   : Nat := 0
  clamps  : List Clamp := []
deriving DecidableEq, Repr

/-! ## Offsets in the normal window -/

/-- GEN.EPOCH_CTL (R54). -/
def Reg.genEpochCtl : Nat := 0x100
/-- GEN.EPOCH_STAT (R54). -/
def Reg.genEpochStat : Nat := 0x108
/-- GEN.EPOCH_NUM (R54). -/
def Reg.genEpochNum : Nat := 0x110
/-- GEN.BOUNDARY_TAI (R54). -/
def Reg.genBoundaryTai : Nat := 0x118
/-- GEN.NEXT_BOUNDARY_TAI (R54). -/
def Reg.genNextBoundaryTai : Nat := 0x120
/-- GEN.LAST_COMMIT (R54). -/
def Reg.genLastCommit : Nat := 0x128
/-- GEN.COMMIT (R54). -/
def Reg.genCommit : Nat := 0x130
/-- GEN.SWAP (R54). -/
def Reg.genSwap : Nat := 0x138
/-- GEN.SWAP_DEFERRED (R54). -/
def Reg.genSwapDeferred : Nat := 0x140
/-- GEN.HELD_WRITES (R54). -/
def Reg.genHeldWrites : Nat := 0x148
/-- GEN.COMMIT_IGNORED (R54). -/
def Reg.genCommitIgnored : Nat := 0x150
/-- GEN.EPOCH_STRETCH (R54). -/
def Reg.genEpochStretch : Nat := 0x158
/-- GEN.SILENT_BOUNDARIES (R54). -/
def Reg.genSilentBoundaries : Nat := 0x160
/-- GEN.ID (R83). -/
def Reg.genId : Nat := 0x0
/-- GEN.OWNER (R83). -/
def Reg.genOwner : Nat := 0x8
/-- GEN.UNLOCK (R83). -/
def Reg.genUnlock : Nat := 0x10
/-- GEN.REG_STAT (R83). -/
def Reg.genRegStat : Nat := 0x18
/-- GEN.SNAP (R83). -/
def Reg.genSnap : Nat := 0x20
/-- GEN.SNAP_AUTO (R83). -/
def Reg.genSnapAuto : Nat := 0x28
/-- GEN.PARITY_STAT (R83). -/
def Reg.genParityStat : Nat := 0x38
/-- GEN.SNAP_SEQ (R83). -/
def Reg.genSnapSeq : Nat := 0x30
/-- GEN.PARITY_ADDR (R83). -/
def Reg.genParityAddr : Nat := 0x40
/-- GEN.UNLOCK_FAIL (R83). -/
def Reg.genUnlockFail : Nat := 0x48
/-- GEN.GUARD_REFUSED (R83). -/
def Reg.genGuardRefused : Nat := 0x50
/-- GEN.BAD_ACCESS (R83). -/
def Reg.genBadAccess : Nat := 0x58
/-- GEN.NONOWNER_WRITES (R83). -/
def Reg.genNonownerWrites : Nat := 0x60
/-- SYS.CLK_STAT (R84). -/
def Reg.sysClkStat : Nat := 0xc0000
/-- SYS.PWR_CTL (R84). -/
def Reg.sysPwrCtl : Nat := 0xc0008
/-- SYS.PWR_STAT (R84). -/
def Reg.sysPwrStat : Nat := 0xc0010
/-- SYS.LIFECYCLE (R84). -/
def Reg.sysLifecycle : Nat := 0xc0018
/-- SYS.DBG_STAT (R84). -/
def Reg.sysDbgStat : Nat := 0xc0020
/-- SYS.TIME_CTL (R84). -/
def Reg.sysTimeCtl : Nat := 0xc0108
/-- SYS.TIME_STAT (R84). -/
def Reg.sysTimeStat : Nat := 0xc0110
/-- SYS.TIME_NOW (R84). -/
def Reg.sysTimeNow : Nat := 0xc0100
/-- SYS.PPS_CAPTURE (R84). -/
def Reg.sysPpsCapture : Nat := 0xc0118
/-- PORT.ID (R121). -/
def Reg.portId (n : Nat) : Nat := 0x100000 + 0x400 * n
/-- PORT.MCODE (R121). -/
def Reg.portMcode (n : Nat) : Nat := 0x100008 + 0x400 * n
/-- PORT.STAT (R121). -/
def Reg.portStat (n : Nat) : Nat := 0x100010 + 0x400 * n
/-- PORT.ERRCNT (R121). -/
def Reg.portErrcnt (n : Nat) : Nat := 0x100018 + 0x400 * n
/-- PORT.LAST_ERR (R121). -/
def Reg.portLastErr (n : Nat) : Nat := 0x100020 + 0x400 * n
/-- PORT.TDC_STAT (R121). -/
def Reg.portTdcStat (n : Nat) : Nat := 0x100028 + 0x400 * n
/-- PORT.CMD (R121). -/
def Reg.portCmd (n : Nat) : Nat := 0x100030 + 0x400 * n
/-- PORT.CTL (R121). -/
def Reg.portCtl (n : Nat) : Nat := 0x100080 + 0x400 * n
/-- PORT.NBT (R121). -/
def Reg.portNbt (n : Nat) : Nat := 0x100088 + 0x400 * n
/-- PORT.DBT (R121). -/
def Reg.portDbt (n : Nat) : Nat := 0x100090 + 0x400 * n
/-- PORT.XBT (R121). -/
def Reg.portXbt (n : Nat) : Nat := 0x100098 + 0x400 * n
/-- PORT.TDC (R121). -/
def Reg.portTdc (n : Nat) : Nat := 0x1000a0 + 0x400 * n
/-- PORT.XL_CTL (R121). -/
def Reg.portXlCtl (n : Nat) : Nat := 0x1000a8 + 0x400 * n
/-- PORT.BO_CTL (R121). -/
def Reg.portBoCtl (n : Nat) : Nat := 0x1000b0 + 0x400 * n
/-- PORT.TS_OFFSET (R121). -/
def Reg.portTsOffset (n : Nat) : Nat := 0x1000b8 + 0x400 * n
/-- PORT.EWL (R121). -/
def Reg.portEwl (n : Nat) : Nat := 0x1000c0 + 0x400 * n
/-- PORT.RX_FRAMES (R121). -/
def Reg.portRxFrames (n : Nat) : Nat := 0x100040 + 0x400 * n
/-- PORT.TX_FRAMES (R121). -/
def Reg.portTxFrames (n : Nat) : Nat := 0x100048 + 0x400 * n
/-- PORT.RX_OVERRUN (R121). -/
def Reg.portRxOverrun (n : Nat) : Nat := 0x100050 + 0x400 * n
/-- PORT.ERR_STUFF (R121). -/
def Reg.portErrStuff (n : Nat) : Nat := 0x100058 + 0x400 * n
/-- PORT.ERR_FORM (R121). -/
def Reg.portErrForm (n : Nat) : Nat := 0x100060 + 0x400 * n
/-- PORT.ERR_CRC (R121). -/
def Reg.portErrCrc (n : Nat) : Nat := 0x100068 + 0x400 * n
/-- PORT.ERR_BIT (R121). -/
def Reg.portErrBit (n : Nat) : Nat := 0x100070 + 0x400 * n
/-- PORT.ERR_ACK (R121). -/
def Reg.portErrAck (n : Nat) : Nat := 0x100078 + 0x400 * n
/-- PORT.ARB_LOST (R121). -/
def Reg.portArbLost (n : Nat) : Nat := 0x1000c8 + 0x400 * n
/-- PORT.SELF_ABORT (R121). -/
def Reg.portSelfAbort (n : Nat) : Nat := 0x1000d0 + 0x400 * n
/-- PORT.CT_UNDERRUN (R121). -/
def Reg.portCtUnderrun (n : Nat) : Nat := 0x1000d8 + 0x400 * n
/-- PORT.BUS_OFF (R121). -/
def Reg.portBusOff (n : Nat) : Nat := 0x1000e0 + 0x400 * n
/-- PORT.PEX (R121). -/
def Reg.portPex (n : Nat) : Nat := 0x1000e8 + 0x400 * n
/-- PORT.TDC_CLAMPED (R121). -/
def Reg.portTdcClamped (n : Nat) : Nat := 0x1000f0 + 0x400 * n
/-- PORT.TX_DROP (R121). -/
def Reg.portTxDrop (n : Nat) : Nat := 0x1000f8 + 0x400 * n
/-- XCVR.BANK_STAT (R146). -/
def Reg.xcvrBankStat (b : Nat) : Nat := 0x150000 + 0x8 * b
/-- XCVR.LBANK_STAT (R146). -/
def Reg.xcvrLbankStat (l : Nat) : Nat := 0x150040 + 0x8 * l
/-- XCVR.WAKE_CAUSE (R146). -/
def Reg.xcvrWakeCause : Nat := 0x150100
/-- XCVR.CMD (R146). -/
def Reg.xcvrCmd : Nat := 0x150108
/-- XCVR.IP_CTL (R146). -/
def Reg.xcvrIpCtl (p : Nat) : Nat := 0x151000 + 0x40 * p
/-- XCVR.FG_CTL (R146). -/
def Reg.xcvrFgCtl (p : Nat) : Nat := 0x151008 + 0x40 * p
/-- XCVR.IP_STAT (R146). -/
def Reg.xcvrIpStat (p : Nat) : Nat := 0x151010 + 0x40 * p
/-- XCVR.FG_ENERGY (R146). -/
def Reg.xcvrFgEnergy (p : Nat) : Nat := 0x151018 + 0x40 * p
/-- XCVR.WUF_ID (R146). -/
def Reg.xcvrWufId (p : Nat) : Nat := 0x151020 + 0x40 * p
/-- XCVR.WUF_DATA (R146). -/
def Reg.xcvrWufData (p : Nat) : Nat := 0x151028 + 0x40 * p
/-- XCVR.FG_TRIPS (R146). -/
def Reg.xcvrFgTrips (p : Nat) : Nat := 0x151030 + 0x40 * p
/-- XCVR.WAKE_MORE (R146). -/
def Reg.xcvrWakeMore : Nat := 0x150110
/-- XCVR.LP_CTL (R146). -/
def Reg.xcvrLpCtl (p : Nat) : Nat := 0x153000 + 0x10 * (p - 32)
/-- XCVR.LP_STAT (R146). -/
def Reg.xcvrLpStat (p : Nat) : Nat := 0x153008 + 0x10 * (p - 32)
/-- XBAR.PMAP (R164). -/
def Reg.xbarPmap (p : Nat) : Nat := 0x140000 + 0x8 * p
/-- XBAR.PSTAT (R164). -/
def Reg.xbarPstat (p : Nat) : Nat := 0x140400 + 0x8 * p
/-- XBAR.HO_CTL (R164). -/
def Reg.xbarHoCtl : Nat := 0x140800
/-- XBAR.FREE0 (R164). -/
def Reg.xbarFree0 : Nat := 0x140810
/-- XBAR.FREE1 (R164). -/
def Reg.xbarFree1 : Nat := 0x140818
/-- XBAR.FREE2 (R164). -/
def Reg.xbarFree2 : Nat := 0x140820
/-- XBAR.HO_DONE (R164). -/
def Reg.xbarHoDone : Nat := 0x140840
/-- XBAR.HO_FAIL (R164). -/
def Reg.xbarHoFail : Nat := 0x140848
/-- XBAR.HO_DISAGREE (R164). -/
def Reg.xbarHoDisagree : Nat := 0x140850
/-- XBAR.HO_OVERLOAD (R164). -/
def Reg.xbarHoOverload : Nat := 0x140858
/-- XBAR.SHADOW_WRITES (R164). -/
def Reg.xbarShadowWrites : Nat := 0x140860
/-- XBAR.SPARE_USED (R164). -/
def Reg.xbarSpareUsed : Nat := 0x140868
/-- WATCH.PORT_CTL (R178). -/
def Reg.watchPortCtl (p : Nat) : Nat := 0x80000 + 0x8 * p
/-- WATCH.LOAD_STAT (R178). -/
def Reg.watchLoadStat : Nat := 0x80800
/-- WATCH.BANK_STAT (R178). -/
def Reg.watchBankStat (b : Nat) : Nat := 0x80810 + 0x8 * b
/-- WATCH.PEEK_SEL (R178). -/
def Reg.watchPeekSel : Nat := 0x80840
/-- WATCH.BANK_SEED (R178). -/
def Reg.watchBankSeed (b : Nat) : Nat := 0x80820 + 0x8 * b
/-- WATCH.BANK_IMAGE (R178). -/
def Reg.watchBankImage (b : Nat) : Nat := 0x80830 + 0x8 * b
/-- WATCH.PEEK0 (R178). -/
def Reg.watchPeek0 : Nat := 0x80848
/-- WATCH.PEEK1 (R178). -/
def Reg.watchPeek1 : Nat := 0x80850
/-- WATCH.PEEK2 (R178). -/
def Reg.watchPeek2 : Nat := 0x80858
/-- WATCH.LOOKUPS (R178). -/
def Reg.watchLookups : Nat := 0x80900
/-- WATCH.HITS (R178). -/
def Reg.watchHits : Nat := 0x80908
/-- WATCH.STASH_HITS (R178). -/
def Reg.watchStashHits : Nat := 0x80910
/-- WATCH.ECC_FAIL (R178). -/
def Reg.watchEccFail : Nat := 0x80918
/-- WATCH.LOADS (R178). -/
def Reg.watchLoads : Nat := 0x80920
/-- WATCH.LOAD_FAIL (R178). -/
def Reg.watchLoadFail : Nat := 0x80928
/-- WATCH.SWAP_REFUSED (R178). -/
def Reg.watchSwapRefused : Nat := 0x80930
/-- WATCH.UNK_DROP (R178). -/
def Reg.watchUnkDrop (p : Nat) : Nat := 0x81000 + 0x18 * p
/-- WATCH.UNK_CAP (R178). -/
def Reg.watchUnkCap (p : Nat) : Nat := 0x81008 + 0x18 * p
/-- WATCH.UNK_ROUTED (R178). -/
def Reg.watchUnkRouted (p : Nat) : Nat := 0x81010 + 0x18 * p
/-- SCRIV.PIPE_MAP (R206). -/
def Reg.scrivPipeMap (j : Nat) : Nat := 0x90000 + 0x8 * j
/-- SCRIV.PIPE_STAT (R206). -/
def Reg.scrivPipeStat : Nat := 0x90100
/-- SCRIV.HASH_IN (R206). -/
def Reg.scrivHashIn : Nat := 0x90108
/-- SCRIV.HASH_OUT (R206). -/
def Reg.scrivHashOut : Nat := 0x90110
/-- SCRIV.REC_SEL (R206). -/
def Reg.scrivRecSel : Nat := 0x90118
/-- SCRIV.DESC_SEL (R206). -/
def Reg.scrivDescSel : Nat := 0x90140
/-- SCRIV.OP_SEL (R206). -/
def Reg.scrivOpSel : Nat := 0x90158
/-- SCRIV.REC_PEEK0 (R206). -/
def Reg.scrivRecPeek0 : Nat := 0x90120
/-- SCRIV.REC_PEEK1 (R206). -/
def Reg.scrivRecPeek1 : Nat := 0x90128
/-- SCRIV.REC_PEEK2 (R206). -/
def Reg.scrivRecPeek2 : Nat := 0x90130
/-- SCRIV.REC_PEEK3 (R206). -/
def Reg.scrivRecPeek3 : Nat := 0x90138
/-- SCRIV.DESC_PEEK0 (R206). -/
def Reg.scrivDescPeek0 : Nat := 0x90148
/-- SCRIV.DESC_PEEK1 (R206). -/
def Reg.scrivDescPeek1 : Nat := 0x90150
/-- SCRIV.OP_PEEK (R206). -/
def Reg.scrivOpPeek : Nat := 0x90160
/-- SCRIV.DISCARD_INVALID (R206). -/
def Reg.scrivDiscardInvalid : Nat := 0x90200
/-- SCRIV.DISCARD_UNVERIFIED (R206). -/
def Reg.scrivDiscardUnverified : Nat := 0x90208
/-- SCRIV.DISCARD_FENCED (R206). -/
def Reg.scrivDiscardFenced : Nat := 0x90210
/-- SCRIV.SHORT_DATA (R206). -/
def Reg.scrivShortData : Nat := 0x90218
/-- SCRIV.INV_CODE (R206). -/
def Reg.scrivInvCode : Nat := 0x90220
/-- SCRIV.OUT_RANGE (R206). -/
def Reg.scrivOutRange : Nat := 0x90228
/-- SCRIV.NOT_NUMBER (R206). -/
def Reg.scrivNotNumber : Nat := 0x90230
/-- SCRIV.BAD_BCD (R206). -/
def Reg.scrivBadBcd : Nat := 0x90238
/-- SCRIV.PAGE_STALE (R206). -/
def Reg.scrivPageStale : Nat := 0x90240
/-- SCRIV.DEADBAND_HELD (R206). -/
def Reg.scrivDeadbandHeld : Nat := 0x90248
/-- SCRIV.NO_MAJORITY (R206). -/
def Reg.scrivNoMajority : Nat := 0x90250
/-- SCRIV.OUTVOTED (R206). -/
def Reg.scrivOutvoted : Nat := 0x90258
/-- SCRIV.FORCED_KEPT (R206). -/
def Reg.scrivForcedKept : Nat := 0x90260
/-- SCRIV.PANTRY_HITS (R206). -/
def Reg.scrivPantryHits : Nat := 0x90268
/-- SCRIV.PANTRY_MISSES (R206). -/
def Reg.scrivPantryMisses : Nat := 0x90270
/-- SCRIV.DATA_LOST (R206). -/
def Reg.scrivDataLost : Nat := 0x90278
/-- SCRIV.MAP_OVERRIDE (R206). -/
def Reg.scrivMapOverride : Nat := 0x90280
/-- SCRIV.BAD_OP (R206). -/
def Reg.scrivBadOp : Nat := 0x90288
/-- SCRIV.FRAMES (R206). -/
def Reg.scrivFrames (q : Nat) : Nat := 0x90400 + 0x20 * q
/-- SCRIV.OPS (R206). -/
def Reg.scrivOps (q : Nat) : Nat := 0x90408 + 0x20 * q
/-- SCRIV.QFULL (R206). -/
def Reg.scrivQfull (q : Nat) : Nat := 0x90410 + 0x20 * q
/-- WATCH.WM_STAT (R233). -/
def Reg.watchWmStat : Nat := 0x82000
/-- WATCH.WSEL (R233). -/
def Reg.watchWsel : Nat := 0x82008
/-- WATCH.WSTAT (R233). -/
def Reg.watchWstat : Nat := 0x82010
/-- WATCH.FORCE_SEL (R233). -/
def Reg.watchForceSel : Nat := 0x82040
/-- WATCH.FORCE_CMD (R233). -/
def Reg.watchForceCmd : Nat := 0x82050
/-- WATCH.WTIME0 (R233). -/
def Reg.watchWtime0 : Nat := 0x82018
/-- WATCH.WTIME1 (R233). -/
def Reg.watchWtime1 : Nat := 0x82020
/-- WATCH.WTIME2 (R233). -/
def Reg.watchWtime2 : Nat := 0x82028
/-- WATCH.FORCE_VAL (R233). -/
def Reg.watchForceVal : Nat := 0x82048
/-- WATCH.STEP_LAST (R233). -/
def Reg.watchStepLast : Nat := 0x82058
/-- WATCH.STEP_TAI (R233). -/
def Reg.watchStepTai : Nat := 0x82060
/-- WATCH.STALE_EVENTS (R233). -/
def Reg.watchStaleEvents : Nat := 0x82100
/-- WATCH.LATE_REFRESH (R233). -/
def Reg.watchLateRefresh : Nat := 0x82108
/-- WATCH.RETIRED (R233). -/
def Reg.watchRetired : Nat := 0x82110
/-- WATCH.ORPHANS (R233). -/
def Reg.watchOrphans : Nat := 0x82118
/-- WATCH.WALK_RECORDS (R233). -/
def Reg.watchWalkRecords : Nat := 0x82120
/-- WATCH.STATE_ECC (R233). -/
def Reg.watchStateEcc : Nat := 0x82128
/-- WATCH.FORCES (R233). -/
def Reg.watchForces : Nat := 0x82130
/-- WATCH.RELEASES (R233). -/
def Reg.watchReleases : Nat := 0x82138
/-- CRIER.SUB_CTL (R254). -/
def Reg.crierSubCtl (s : Nat) : Nat := 0xa0000 + 0x8 * s
/-- CRIER.SUB_STAT (R254). -/
def Reg.crierSubStat (s : Nat) : Nat := 0xa0100 + 0x8 * s
/-- CRIER.CTL (R254). -/
def Reg.crierCtl : Nat := 0xa0200
/-- CRIER.MAP_SEL (R254). -/
def Reg.crierMapSel : Nat := 0xa0408
/-- CRIER.SUB_COUNT (R254). -/
def Reg.crierSubCount (s : Nat) : Nat := 0xa0300 + 0x8 * s
/-- CRIER.PEND (R254). -/
def Reg.crierPend : Nat := 0xa0400
/-- CRIER.MAP_PEEK (R254). -/
def Reg.crierMapPeek : Nat := 0xa0410
/-- CRIER.READS (R254). -/
def Reg.crierReads : Nat := 0xa0500
/-- CRIER.SUB_FULL (R254). -/
def Reg.crierSubFull : Nat := 0xa0508
/-- CRIER.CHANGES (R254). -/
def Reg.crierChanges (s : Nat) : Nat := 0xa1000 + 0x40 * s
/-- CRIER.GROUPS (R254). -/
def Reg.crierGroups (s : Nat) : Nat := 0xa1008 + 0x40 * s
/-- CRIER.INITS (R254). -/
def Reg.crierInits (s : Nat) : Nat := 0xa1010 + 0x40 * s
/-- CRIER.CLOSES (R254). -/
def Reg.crierCloses (s : Nat) : Nat := 0xa1018 + 0x40 * s
/-- CRIER.LOSSES (R254). -/
def Reg.crierLosses (s : Nat) : Nat := 0xa1020 + 0x40 * s
/-- CRIER.LOST_EPOCHS (R254). -/
def Reg.crierLostEpochs (s : Nat) : Nat := 0xa1028 + 0x40 * s
/-- CRIER.RESYNCS (R254). -/
def Reg.crierResyncs (s : Nat) : Nat := 0xa1030 + 0x40 * s
/-- CRIER.HELD (R254). -/
def Reg.crierHeld (s : Nat) : Nat := 0xa1038 + 0x40 * s
/-- DRAY.PORT_CTL (R276). -/
def Reg.drayPortCtl (p : Nat) : Nat := 0x70000 + 0x8 * p
/-- DRAY.PORT_STAT (R276). -/
def Reg.drayPortStat (p : Nat) : Nat := 0x70400 + 0x8 * p
/-- DRAY.CTL (R276). -/
def Reg.drayCtl : Nat := 0x70800
/-- DRAY.RT_SEL (R276). -/
def Reg.drayRtSel : Nat := 0x70810
/-- DRAY.RT_STATE (R276). -/
def Reg.drayRtState : Nat := 0x70838
/-- DRAY.RT_PEEK0 (R276). -/
def Reg.drayRtPeek0 : Nat := 0x70818
/-- DRAY.RT_PEEK1 (R276). -/
def Reg.drayRtPeek1 : Nat := 0x70820
/-- DRAY.RT_PEEK2 (R276). -/
def Reg.drayRtPeek2 : Nat := 0x70828
/-- DRAY.RT_PEEK3 (R276). -/
def Reg.drayRtPeek3 : Nat := 0x70830
/-- DRAY.FRAMES (R276). -/
def Reg.drayFrames : Nat := 0x70900
/-- DRAY.MIRROR_LOST (R276). -/
def Reg.drayMirrorLost : Nat := 0x70908
/-- DRAY.PCNT_PLACED (R276). -/
def Reg.drayPcntPlaced (p : Nat) : Nat := 0x71000 + 0x40 * p
/-- DRAY.PCNT_CT_STARTS (R276). -/
def Reg.drayPcntCtStarts (p : Nat) : Nat := 0x71008 + 0x40 * p
/-- DRAY.PCNT_FALLBACK (R276). -/
def Reg.drayPcntFallback (p : Nat) : Nat := 0x71010 + 0x40 * p
/-- DRAY.PCNT_DOWN (R276). -/
def Reg.drayPcntDown (p : Nat) : Nat := 0x71018 + 0x40 * p
/-- DRAY.PCNT_NO_CREDIT (R276). -/
def Reg.drayPcntNoCredit (p : Nat) : Nat := 0x71020 + 0x40 * p
/-- DRAY.PCNT_FORMAT (R276). -/
def Reg.drayPcntFormat (p : Nat) : Nat := 0x71028 + 0x40 * p
/-- DRAY.PCNT_EXPIRED (R276). -/
def Reg.drayPcntExpired (p : Nat) : Nat := 0x71030 + 0x40 * p
/-- DRAY.PCNT_FLUSHED (R276). -/
def Reg.drayPcntFlushed (p : Nat) : Nat := 0x71038 + 0x40 * p
/-- DRAY.CS_SENT (R276). -/
def Reg.drayCsSent (c : Nat) : Nat := 0x78000 + 0x80 * c
/-- DRAY.CS_DOWN (R276). -/
def Reg.drayCsDown (c : Nat) : Nat := 0x78008 + 0x80 * c
/-- DRAY.CS_NO_CREDIT (R276). -/
def Reg.drayCsNoCredit (c : Nat) : Nat := 0x78010 + 0x80 * c
/-- DRAY.CS_NO_CELL (R276). -/
def Reg.drayCsNoCell (c : Nat) : Nat := 0x78018 + 0x80 * c
/-- DRAY.CS_RATE (R276). -/
def Reg.drayCsRate (c : Nat) : Nat := 0x78020 + 0x80 * c
/-- DRAY.CS_VERIFY (R276). -/
def Reg.drayCsVerify (c : Nat) : Nat := 0x78028 + 0x80 * c
/-- DRAY.CS_FORMAT (R276). -/
def Reg.drayCsFormat (c : Nat) : Nat := 0x78030 + 0x80 * c
/-- DRAY.CS_SEAL_FAIL (R276). -/
def Reg.drayCsSealFail (c : Nat) : Nat := 0x78038 + 0x80 * c
/-- DRAY.CS_EXPIRED (R276). -/
def Reg.drayCsExpired (c : Nat) : Nat := 0x78040 + 0x80 * c
/-- DRAY.CS_FLUSHED (R276). -/
def Reg.drayCsFlushed (c : Nat) : Nat := 0x78048 + 0x80 * c
/-- DRAY.CS_SELF_ABORT (R276). -/
def Reg.drayCsSelfAbort (c : Nat) : Nat := 0x78050 + 0x80 * c
/-- DRAY.CS_TX_DROP (R276). -/
def Reg.drayCsTxDrop (c : Nat) : Nat := 0x78058 + 0x80 * c
/-- DRAY.CS_SELF (R276). -/
def Reg.drayCsSelf (c : Nat) : Nat := 0x78060 + 0x80 * c
/-- DRAY.CS_CT_STARTS (R276). -/
def Reg.drayCsCtStarts (c : Nat) : Nat := 0x78068 + 0x80 * c
/-- DRAY.CS_FALLBACK (R276). -/
def Reg.drayCsFallback (c : Nat) : Nat := 0x78070 + 0x80 * c
/-- DRAY.CS_MIRRORED (R276). -/
def Reg.drayCsMirrored (c : Nat) : Nat := 0x78078 + 0x80 * c
/-- DRAY.TXQ_CTL (R291). -/
def Reg.drayTxqCtl (p : Nat) : Nat := 0x73000 + 0x8 * p
/-- DRAY.TXQ_STAT (R291). -/
def Reg.drayTxqStat (p : Nat) : Nat := 0x73400 + 0x8 * p
/-- DRAY.TXQ_CMD (R291). -/
def Reg.drayTxqCmd : Nat := 0x73800
/-- DRAY.CELL_CTL (R291). -/
def Reg.drayCellCtl : Nat := 0x73808
/-- DRAY.CELL_STAT (R291). -/
def Reg.drayCellStat : Nat := 0x73810
/-- DRAY.TXQ_DROPCMD (R291). -/
def Reg.drayTxqDropcmd (p : Nat) : Nat := 0x74000 + 0x20 * p
/-- DRAY.TXQ_OPEN_STALL (R291). -/
def Reg.drayTxqOpenStall (p : Nat) : Nat := 0x74008 + 0x20 * p
/-- DRAY.TXQ_LEVEL (R291). -/
def Reg.drayTxqLevel (p : Nat) : Nat := 0x74010 + 0x20 * p
/-- DRAY.TXQ_ABANDON (R291). -/
def Reg.drayTxqAbandon (p : Nat) : Nat := 0x74018 + 0x20 * p
/-- LOCK.CTL (R321). -/
def Reg.lockCtl : Nat := 0x40000
/-- LOCK.STAT (R321). -/
def Reg.lockStat : Nat := 0x40008
/-- LOCK.CMD (R321). -/
def Reg.lockCmd : Nat := 0x40010
/-- LOCK.ZEROIZE (R321). -/
def Reg.lockZeroize : Nat := 0x40018
/-- LOCK.KM_LOCK (R321). -/
def Reg.lockKmLock : Nat := 0x40020
/-- LOCK.KM_CTL (R321). -/
def Reg.lockKmCtl : Nat := 0x40028
/-- LOCK.KM_RESULT (R321). -/
def Reg.lockKmResult : Nat := 0x40030
/-- LOCK.SLOT_SEL (R321). -/
def Reg.lockSlotSel : Nat := 0x40040
/-- LOCK.SLOT_PEEK0 (R321). -/
def Reg.lockSlotPeek0 : Nat := 0x40048
/-- LOCK.SLOT_PEEK1 (R321). -/
def Reg.lockSlotPeek1 : Nat := 0x40050
/-- LOCK.SLOT_PEEK2 (R321). -/
def Reg.lockSlotPeek2 : Nat := 0x40058
/-- LOCK.SLOT_PEEK3 (R321). -/
def Reg.lockSlotPeek3 : Nat := 0x40060
/-- LOCK.SLOT_PEEK4 (R321). -/
def Reg.lockSlotPeek4 : Nat := 0x40068
/-- LOCK.SLOT_PEEK5 (R321). -/
def Reg.lockSlotPeek5 : Nat := 0x40070
/-- LOCK.WARN (R321). -/
def Reg.lockWarn (j : Nat) : Nat := 0x40100 + 0x8 * j
/-- LOCK.SPENT (R321). -/
def Reg.lockSpent (j : Nat) : Nat := 0x40180 + 0x8 * j
/-- LOCK.VERIFIED (R321). -/
def Reg.lockVerified : Nat := 0x40200
/-- LOCK.TAG_FAIL (R321). -/
def Reg.lockTagFail : Nat := 0x40208
/-- LOCK.REPLAY (R321). -/
def Reg.lockReplay : Nat := 0x40210
/-- LOCK.NO_KEY (R321). -/
def Reg.lockNoKey : Nat := 0x40218
/-- LOCK.FORM_FAIL (R321). -/
def Reg.lockFormFail : Nat := 0x40220
/-- LOCK.KEY_GONE (R321). -/
def Reg.lockKeyGone : Nat := 0x40228
/-- LOCK.LANE_LOST (R321). -/
def Reg.lockLaneLost : Nat := 0x40230
/-- LOCK.AHEAD_HITS (R321). -/
def Reg.lockAheadHits : Nat := 0x40238
/-- LOCK.SEALS (R321). -/
def Reg.lockSeals : Nat := 0x40240
/-- LOCK.SEAL_SPENT (R321). -/
def Reg.lockSealSpent : Nat := 0x40248
/-- LOCK.SEAL_LONG (R321). -/
def Reg.lockSealLong : Nat := 0x40250
/-- LOCK.SEAL_RESTART (R321). -/
def Reg.lockSealRestart : Nat := 0x40258
/-- LOCK.KM_BUSY (R321). -/
def Reg.lockKmBusy : Nat := 0x40260
/-- LOCK.KM_TIMEOUTS (R321). -/
def Reg.lockKmTimeouts : Nat := 0x40268
/-- LOCK.ERASES (R321). -/
def Reg.lockErases : Nat := 0x40270
/-- LOCK.HEALTH_FAILS (R321). -/
def Reg.lockHealthFails : Nat := 0x40278
/-- LOCK.RESEEDS (R321). -/
def Reg.lockReseeds : Nat := 0x40280
/-- HOST.EP_CTL (R361). -/
def Reg.hostEpCtl (e : Nat) : Nat := 0x60000 + 0x8 * e
/-- HOST.EP_STAT (R361). -/
def Reg.hostEpStat (e : Nat) : Nat := 0x60010 + 0x8 * e
/-- HOST.OWN_CTL (R361). -/
def Reg.hostOwnCtl : Nat := 0x60020
/-- HOST.OWN_HB (R361). -/
def Reg.hostOwnHb : Nat := 0x60028
/-- HOST.OWN_STAT (R361). -/
def Reg.hostOwnStat : Nat := 0x60030
/-- HOST.CAP_CTL (R361). -/
def Reg.hostCapCtl : Nat := 0x60040
/-- HOST.RING_BASE (R361). -/
def Reg.hostRingBase (e k : Nat) : Nat := 0x61000 + 0x1000 * e + 0x20 * k
/-- HOST.RING_CTL (R361). -/
def Reg.hostRingCtl (e k : Nat) : Nat := 0x61008 + 0x1000 * e + 0x20 * k
/-- HOST.RING_STAT (R361). -/
def Reg.hostRingStat (e k : Nat) : Nat := 0x61010 + 0x1000 * e + 0x20 * k
/-- HOST.RING_POS (R361). -/
def Reg.hostRingPos (e k : Nat) : Nat := 0x61018 + 0x1000 * e + 0x20 * k
/-- HOST.OWNER_MOVES (R361). -/
def Reg.hostOwnerMoves : Nat := 0x60100
/-- HOST.NOT_OWNER_CMDS (R361). -/
def Reg.hostNotOwnerCmds : Nat := 0x60108
/-- HOST.CAP_VOIDED (R361). -/
def Reg.hostCapVoided : Nat := 0x60110
/-- HOST.RING_ENTRIES (R361). -/
def Reg.hostRingEntries (e k : Nat) : Nat := 0x63000 + 0x1000 * e + 0x20 * k
/-- HOST.RING_BAD_DB (R361). -/
def Reg.hostRingBadDb (e k : Nat) : Nat := 0x63008 + 0x1000 * e + 0x20 * k
/-- HOST.RING_LOST (R361). -/
def Reg.hostRingLost (e k : Nat) : Nat := 0x63010 + 0x1000 * e + 0x20 * k
/-- HOST.RING_MEM_ERR (R361). -/
def Reg.hostRingMemErr (e k : Nat) : Nat := 0x63018 + 0x1000 * e + 0x20 * k
/-- CELL.CTL (R388). -/
def Reg.cellCtl : Nat := 0x50000
/-- CELL.CTL2 (R388). -/
def Reg.cellCtl2 : Nat := 0x50008
/-- CELL.MEDIA (R388). -/
def Reg.cellMedia : Nat := 0x50010
/-- CELL.GEOM (R388). -/
def Reg.cellGeom : Nat := 0x50018
/-- CELL.GEOM2 (R388). -/
def Reg.cellGeom2 : Nat := 0x50020
/-- CELL.STAT (R388). -/
def Reg.cellStat : Nat := 0x50028
/-- CELL.SEQ (R388). -/
def Reg.cellSeq : Nat := 0x50030
/-- CELL.CKPT_ID (R388). -/
def Reg.cellCkptId : Nat := 0x50038
/-- CELL.CKPT_TAI (R388). -/
def Reg.cellCkptTai : Nat := 0x50040
/-- CELL.MARK (R388). -/
def Reg.cellMark : Nat := 0x50048
/-- CELL.BLOCKS0 (R388). -/
def Reg.cellBlocks0 : Nat := 0x50050
/-- CELL.BLOCKS1 (R388). -/
def Reg.cellBlocks1 : Nat := 0x50058
/-- CELL.PENDING (R388). -/
def Reg.cellPending : Nat := 0x50060
/-- CELL.TOKENS (R388). -/
def Reg.cellTokens : Nat := 0x50068
/-- CELL.WEAR (R388). -/
def Reg.cellWear : Nat := 0x50070
/-- CELL.STAGED (R388). -/
def Reg.cellStaged : Nat := 0x50100
/-- CELL.COALESCED (R388). -/
def Reg.cellCoalesced : Nat := 0x50108
/-- CELL.DROP_C1 (R388). -/
def Reg.cellDropC1 : Nat := 0x50110
/-- CELL.DROP_C2 (R388). -/
def Reg.cellDropC2 : Nat := 0x50118
/-- CELL.DROP_C3 (R388). -/
def Reg.cellDropC3 : Nat := 0x50120
/-- CELL.JPAGES (R388). -/
def Reg.cellJpages : Nat := 0x50128
/-- CELL.CKPTS (R388). -/
def Reg.cellCkpts : Nat := 0x50130
/-- CELL.CKPT_FORCED (R388). -/
def Reg.cellCkptForced : Nat := 0x50138
/-- CELL.OVERDRAFT_PAGES (R388). -/
def Reg.cellOverdraftPages : Nat := 0x50140
/-- CELL.ERASES (R388). -/
def Reg.cellErases : Nat := 0x50148
/-- CELL.ECC_CORR (R388). -/
def Reg.cellEccCorr : Nat := 0x50150
/-- CELL.ECC_FAIL (R388). -/
def Reg.cellEccFail : Nat := 0x50158
/-- CELL.RETRIES (R388). -/
def Reg.cellRetries : Nat := 0x50160
/-- CELL.GROWN_BAD (R388). -/
def Reg.cellGrownBad : Nat := 0x50168
/-- CELL.WORN (R388). -/
def Reg.cellWorn : Nat := 0x50170
/-- CELL.SCRUB_MOVES (R388). -/
def Reg.cellScrubMoves : Nat := 0x50178
/-- CELL.DISTURB_MOVES (R388). -/
def Reg.cellDisturbMoves : Nat := 0x50180
/-- CELL.WL_MOVES (R388). -/
def Reg.cellWlMoves : Nat := 0x50188
/-- CELL.RESTORED (R388). -/
def Reg.cellRestored : Nat := 0x50190
/-- CELL.RESTORE_SKIPPED (R388). -/
def Reg.cellRestoreSkipped : Nat := 0x50198
/-- CELL.FUTURE_STAMP (R388). -/
def Reg.cellFutureStamp : Nat := 0x501a0
/-- CELL.FLUSHES (R388). -/
def Reg.cellFlushes : Nat := 0x501a8
/-- BELL.CTL (R401). -/
def Reg.bellCtl : Nat := 0x10000
/-- BELL.SRC_CFG (R401). -/
def Reg.bellSrcCfg (s : Nat) : Nat := 0x11000 + 0x8 * s
/-- BELL.PEND_CLR (R401). -/
def Reg.bellPendClr : Nat := 0x10180
/-- BELL.TGT_CFG (R401). -/
def Reg.bellTgtCfg (t : Nat) : Nat := 0x10200 + 0x8 * t
/-- BELL.TGT_STAT (R401). -/
def Reg.bellTgtStat (t : Nat) : Nat := 0x10300 + 0x8 * t
/-- BELL.PEND (R401). -/
def Reg.bellPend (j : Nat) : Nat := 0x10100 + 0x8 * j
/-- BELL.ACT (R401). -/
def Reg.bellAct (j : Nat) : Nat := 0x10140 + 0x8 * j
/-- BELL.COALESCED (R401). -/
def Reg.bellCoalesced : Nat := 0x10700
/-- BELL.MSGS (R401). -/
def Reg.bellMsgs (t : Nat) : Nat := 0x10800 + 0x40 * t
/-- BELL.CLAIMS (R401). -/
def Reg.bellClaims (t : Nat) : Nat := 0x10808 + 0x40 * t
/-- BELL.SPURIOUS (R401). -/
def Reg.bellSpurious (t : Nat) : Nat := 0x10810 + 0x40 * t
/-- BELL.STRAY (R401). -/
def Reg.bellStray (t : Nat) : Nat := 0x10818 + 0x40 * t
/-- BELL.NESTED (R401). -/
def Reg.bellNested (t : Nat) : Nat := 0x10820 + 0x40 * t
/-- STEW.CTL (R417). -/
def Reg.stewCtl : Nat := 0x20000
/-- STEW.PIN_STAT (R417). -/
def Reg.stewPinStat : Nat := 0x20008
/-- STEW.CMD (R417). -/
def Reg.stewCmd : Nat := 0x20010
/-- STEW.SRC_CFG (R417). -/
def Reg.stewSrcCfg (f : Nat) : Nat := 0x21000 + 0x8 * f
/-- STEW.SRC_STAT (R417). -/
def Reg.stewSrcStat (f : Nat) : Nat := 0x22000 + 0x8 * f
/-- STEW.STICKY (R417). -/
def Reg.stewSticky (j : Nat) : Nat := 0x20100 + 0x8 * j
/-- STEW.BROKEN (R417). -/
def Reg.stewBroken (j : Nat) : Nat := 0x20140 + 0x8 * j
/-- STEW.FAULTED (R417). -/
def Reg.stewFaulted (j : Nat) : Nat := 0x20180 + 0x8 * j
/-- STEW.MASKED (R417). -/
def Reg.stewMasked (j : Nat) : Nat := 0x201c0 + 0x8 * j
/-- STEW.BROKEN_EVENTS (R417). -/
def Reg.stewBrokenEvents : Nat := 0x20200
/-- STEW.WINDOWS (R417). -/
def Reg.stewWindows : Nat := 0x20208
/-- STEW.RETIRED (R417). -/
def Reg.stewRetired : Nat := 0x20210
/-- STEW.EVENTS (R417). -/
def Reg.stewEvents (f : Nat) : Nat := 0x24000 + 0x20 * f
/-- STEW.SHADOW (R417). -/
def Reg.stewShadow (f : Nat) : Nat := 0x24008 + 0x20 * f
/-- STEW.CLASSIFIED (R417). -/
def Reg.stewClassified (f : Nat) : Nat := 0x24010 + 0x20 * f
/-- STEW.RECOVERIES (R417). -/
def Reg.stewRecoveries (f : Nat) : Nat := 0x24018 + 0x20 * f
/-- TINK.CTL (R429). -/
def Reg.tinkCtl : Nat := 0x30000
/-- TINK.CTL2 (R429). -/
def Reg.tinkCtl2 : Nat := 0x30008
/-- TINK.STAT (R429). -/
def Reg.tinkStat : Nat := 0x30010
/-- TINK.SLICE_SEL (R429). -/
def Reg.tinkSliceSel : Nat := 0x30040
/-- TINK.SLICE_PEEK0 (R429). -/
def Reg.tinkSlicePeek0 : Nat := 0x30048
/-- TINK.EXCL0 (R429). -/
def Reg.tinkExcl0 : Nat := 0x30020
/-- TINK.EXCL1 (R429). -/
def Reg.tinkExcl1 : Nat := 0x30028
/-- TINK.EXCL2 (R429). -/
def Reg.tinkExcl2 : Nat := 0x30030
/-- TINK.SLICE_PEEK1 (R429). -/
def Reg.tinkSlicePeek1 : Nat := 0x30050
/-- TINK.SLICE_PEEK2 (R429). -/
def Reg.tinkSlicePeek2 : Nat := 0x30058
/-- TINK.SLICE_PEEK3 (R429). -/
def Reg.tinkSlicePeek3 : Nat := 0x30060
/-- TINK.PASSES (R429). -/
def Reg.tinkPasses : Nat := 0x30100
/-- TINK.MISMATCHES (R429). -/
def Reg.tinkMismatches : Nat := 0x30108
/-- TINK.RESTORE_FAILS (R429). -/
def Reg.tinkRestoreFails : Nat := 0x30110
/-- TINK.SKIPS (R429). -/
def Reg.tinkSkips : Nat := 0x30118
/-- TINK.ABORTS (R429). -/
def Reg.tinkAborts : Nat := 0x30120
/-- TINK.ROTATIONS (R429). -/
def Reg.tinkRotations : Nat := 0x30128
/-- SYS.PWR_WAIT (R446). -/
def Reg.sysPwrWait : Nat := 0xc0028
/-- SYS.DBG_CTL (R446). -/
def Reg.sysDbgCtl : Nat := 0xc0030
/-- SYS.DBG_SESS (R446). -/
def Reg.sysDbgSess : Nat := 0xc0038
/-- SYS.LC_STAT (R446). -/
def Reg.sysLcStat : Nat := 0xc0040
/-- SYS.LC_CMD (R446). -/
def Reg.sysLcCmd : Nat := 0xc0048
/-- SYS.LC_DATA (R446). -/
def Reg.sysLcData (i : Nat) : Nat := 0xc0050 + 0x8 * i
/-- SYS.DBG_AUTH_FAIL (R446). -/
def Reg.sysDbgAuthFail : Nat := 0xc0200
/-- SYS.PWR_MOVES (R446). -/
def Reg.sysPwrMoves : Nat := 0xc0208
/-- SYS.BOOT_STAT (R463). -/
def Reg.sysBootStat : Nat := 0xc0400
/-- SYS.FW_SLOTS (R463). -/
def Reg.sysFwSlots : Nat := 0xc0410
/-- SYS.FW_CTL (R463). -/
def Reg.sysFwCtl : Nat := 0xc0428
/-- SYS.FW_CMD (R463). -/
def Reg.sysFwCmd : Nat := 0xc0430
/-- SYS.FL_ADDR (R463). -/
def Reg.sysFlAddr : Nat := 0xc0438
/-- SYS.FW_STAT (R463). -/
def Reg.sysFwStat : Nat := 0xc0448
/-- SYS.FW_SEL (R463). -/
def Reg.sysFwSel : Nat := 0xc0450
/-- SYS.FW_PEEK (R463). -/
def Reg.sysFwPeek : Nat := 0xc0458
/-- SYS.FW_VER (R463). -/
def Reg.sysFwVer : Nat := 0xc0408
/-- SYS.RST_CMD (R463). -/
def Reg.sysRstCmd : Nat := 0xc0420
/-- SYS.FL_DATA (R463). -/
def Reg.sysFlData : Nat := 0xc0440
/-- SYS.FW_HANDOVERS (R463). -/
def Reg.sysFwHandovers : Nat := 0xc0460
/-- SYS.FW_REVERTS (R463). -/
def Reg.sysFwReverts : Nat := 0xc0468
/-- SYS.TEMP (R487). -/
def Reg.sysTemp : Nat := 0xc0300

/-! ## The groups, block by block -/

/-- Registers of the GEN block. The reserved bits of EPOCH_STAT read 0 without effect, as R77 has them (log entry 95). -/
def genGroups0 : List RegGroup :=
  [ { base := 0x100, rw := 0x7f0fff0002, rwi := 0x5, live := 0xffffff80f000fff8, reset := 0x300500000, clamps := [⟨32, 7, 2, 64, false⟩, ⟨16, 12, 1, 4000, false⟩] },
    { base := 0x108 },
    { base := 0x110 },
    { base := 0x118 },
    { base := 0x120 },
    { base := 0x128 },
    { base := 0x130, wc := 0x1 },
    { base := 0x138, wc := 0x3 },
    { base := 0x140, counter := true },
    { base := 0x148, counter := true },
    { base := 0x150, counter := true },
    { base := 0x158, counter := true },
    { base := 0x160, counter := true },
    { base := 0x0 },
    { base := 0x8, rwi := 0x1, live := 0xfffffffffffffffe, guarded := true },
    { base := 0x10, wc := 0xffffffff },
    { base := 0x18 },
    { base := 0x20, wc := 0x3 },
    { base := 0x28, rwi := 0x1, live := 0xfffffffffffffffe },
    { base := 0x38 },
    { base := 0x30 },
    { base := 0x40 },
    { base := 0x48, counter := true },
    { base := 0x50, counter := true } ]

/-- Registers of the GEN block. -/
def genGroups1 : List RegGroup :=
  [ { base := 0x58, counter := true },
    { base := 0x60, counter := true } ]

/-- Registers of the GEN block. -/
def genGroups : List RegGroup := genGroups0 ++ genGroups1

/-- Registers of the BELL block. -/
def bellGroups : List RegGroup :=
  [ { base := 0x10000, rwi := 0x1, live := 0xfffffffffffffffe },
    { base := 0x11008, stride := 0x8, count := 511, first := 1, rw := 0xf0f00, rwi := 0x1, live := 0xfffffffffff0f0fe },
    { base := 0x10180, wc := 0x1ff },
    { base := 0x10200, stride := 0x8, count := 16, rw := 0x3f, live := 0xffffffffffffffc0 },
    { base := 0x10300, stride := 0x8, count := 16 },
    { base := 0x10100, stride := 0x8, count := 8 },
    { base := 0x10140, stride := 0x8, count := 8 },
    { base := 0x10700, counter := true },
    { base := 0x10800, stride := 0x40, count := 16, counter := true },
    { base := 0x10808, stride := 0x40, count := 16, counter := true },
    { base := 0x10810, stride := 0x40, count := 16, counter := true },
    { base := 0x10818, stride := 0x40, count := 16, counter := true },
    { base := 0x10820, stride := 0x40, count := 16, counter := true } ]

/-- Registers of the STEW block. -/
def stewGroups : List RegGroup :=
  [ { base := 0x20000, rw := 0x3fff, live := 0xffffffffffffc000, guarded := true, reset := 0x32, clamps := [⟨0, 14, 1, 10000, false⟩] },
    { base := 0x20008 },
    { base := 0x20010, wc := 0xf01ff, guarded := true },
    { base := 0x21000, stride := 0x8, count := 319, rw := 0x3fffffb3fffff0ff, live := 0xc000004c00000f00, guarded := true, clamps := [⟨42, 16, 1, 65535, false⟩, ⟨12, 22, 1, 3600000, false⟩, ⟨0, 8, 1, 255, false⟩] },
    { base := 0x21b40, stride := 0x8, count := 2, first := 360, rw := 0x3fffffb3fffff0ff, live := 0xc000004c00000f00, guarded := true, clamps := [⟨42, 16, 1, 65535, false⟩, ⟨12, 22, 1, 3600000, false⟩, ⟨0, 8, 1, 255, false⟩] },
    { base := 0x22000, stride := 0x8, count := 319 },
    { base := 0x22b40, stride := 0x8, count := 2, first := 360 },
    { base := 0x20100, stride := 0x8, count := 6 },
    { base := 0x20140, stride := 0x8, count := 6 },
    { base := 0x20180, stride := 0x8, count := 6 },
    { base := 0x201c0, stride := 0x8, count := 6 },
    { base := 0x20200, counter := true },
    { base := 0x20208, counter := true },
    { base := 0x20210, counter := true },
    { base := 0x24000, stride := 0x20, count := 319, counter := true },
    { base := 0x26d00, stride := 0x20, count := 2, first := 360, counter := true },
    { base := 0x24008, stride := 0x20, count := 319, counter := true },
    { base := 0x26d08, stride := 0x20, count := 2, first := 360, counter := true },
    { base := 0x24010, stride := 0x20, count := 319, counter := true },
    { base := 0x26d10, stride := 0x20, count := 2, first := 360, counter := true },
    { base := 0x24018, stride := 0x20, count := 319, counter := true },
    { base := 0x26d18, stride := 0x20, count := 2, first := 360, counter := true } ]

/-- Registers of the TINK block. -/
def tinkGroups : List RegGroup :=
  [ { base := 0x30000, rw := 0xffff000f0301, live := 0xffff0000fff0fcfe, reset := 0x6400020100, clamps := [⟨32, 16, 1, 65535, false⟩, ⟨16, 4, 0, 8, false⟩, ⟨8, 2, 1, 2, false⟩] },
    { base := 0x30008, rw := 0xffff, live := 0xffffffffffff0000, reset := 0xa8 },
    { base := 0x30010 },
    { base := 0x30040, rwi := 0xff, live := 0xffffffffffffff00, clamps := [⟨0, 8, 0, 173, false⟩] },
    { base := 0x30048 },
    { base := 0x30020, rw := 0xffffffffffffffff },
    { base := 0x30028, rw := 0xffffffffffffffff },
    { base := 0x30030, rw := 0x3fffffffffff, live := 0xffffc00000000000 },
    { base := 0x30050 },
    { base := 0x30058 },
    { base := 0x30060 },
    { base := 0x30100, counter := true },
    { base := 0x30108, counter := true },
    { base := 0x30110, counter := true },
    { base := 0x30118, counter := true },
    { base := 0x30120, counter := true },
    { base := 0x30128, counter := true } ]

/-- Registers of the LOCK block. -/
def lockGroups0 : List RegGroup :=
  [ { base := 0x40000, rw := 0x7f, live := 0xffffffffffffff80, reset := 0x5a, clamps := [⟨0, 7, 50, 99, false⟩] },
    { base := 0x40008 },
    { base := 0x40010, wc := 0x1 },
    { base := 0x40018, wc := 0x1, guarded := true },
    { base := 0x40020, wc := 0x300 },
    { base := 0x40028, rw := 0xffff, live := 0xffffffffffff0000, guarded := true, reset := 0x3e8, clamps := [⟨0, 16, 1, 60000, false⟩] },
    { base := 0x40030 },
    { base := 0x40040, rwi := 0x7ff, live := 0xfffffffffffff800 },
    { base := 0x40048 },
    { base := 0x40050 },
    { base := 0x40058 },
    { base := 0x40060 },
    { base := 0x40068 },
    { base := 0x40070 },
    { base := 0x40100, stride := 0x8, count := 16 },
    { base := 0x40180, stride := 0x8, count := 16 },
    { base := 0x40200, counter := true },
    { base := 0x40208, counter := true },
    { base := 0x40210, counter := true },
    { base := 0x40218, counter := true },
    { base := 0x40220, counter := true },
    { base := 0x40228, counter := true },
    { base := 0x40230, counter := true },
    { base := 0x40238, counter := true } ]

/-- Registers of the LOCK block. -/
def lockGroups1 : List RegGroup :=
  [ { base := 0x40240, counter := true },
    { base := 0x40248, counter := true },
    { base := 0x40250, counter := true },
    { base := 0x40258, counter := true },
    { base := 0x40260, counter := true },
    { base := 0x40268, counter := true },
    { base := 0x40270, counter := true },
    { base := 0x40278, counter := true },
    { base := 0x40280, counter := true } ]

/-- Registers of the LOCK block. -/
def lockGroups : List RegGroup := lockGroups0 ++ lockGroups1

/-- Registers of the CELL block. -/
def cellGroups0 : List RegGroup :=
  [ { base := 0x50000, rw := 0xffff0000ffff, live := 0xffff0000ffff0000, reset := 0x1800000fa0, clamps := [⟨32, 16, 1, 720, false⟩, ⟨0, 16, 100, 65535, false⟩] },
    { base := 0x50008, rw := 0xff03ff, live := 0xffffffffff00fc00, reset := 0x40064, clamps := [⟨16, 8, 1, 64, false⟩, ⟨0, 10, 1, 1000, false⟩] },
    { base := 0x50010, rw := 0xffffbfffff01ffff, live := 0x400000fe0000, guarded := true, reset := 0x3a9807d048001e64, clamps := [⟨47, 17, 1000, 100000, false⟩, ⟨32, 14, 100, 10000, false⟩, ⟨24, 8, 8, 119, false⟩, ⟨8, 9, 1, 365, false⟩, ⟨0, 8, 10, 255, false⟩] },
    { base := 0x50018 },
    { base := 0x50020 },
    { base := 0x50028 },
    { base := 0x50030 },
    { base := 0x50038 },
    { base := 0x50040 },
    { base := 0x50048 },
    { base := 0x50050 },
    { base := 0x50058 },
    { base := 0x50060 },
    { base := 0x50068 },
    { base := 0x50070 },
    { base := 0x50100, counter := true },
    { base := 0x50108, counter := true },
    { base := 0x50110, counter := true },
    { base := 0x50118, counter := true },
    { base := 0x50120, counter := true },
    { base := 0x50128, counter := true },
    { base := 0x50130, counter := true },
    { base := 0x50138, counter := true },
    { base := 0x50140, counter := true } ]

/-- Registers of the CELL block. -/
def cellGroups1 : List RegGroup :=
  [ { base := 0x50148, counter := true },
    { base := 0x50150, counter := true },
    { base := 0x50158, counter := true },
    { base := 0x50160, counter := true },
    { base := 0x50168, counter := true },
    { base := 0x50170, counter := true },
    { base := 0x50178, counter := true },
    { base := 0x50180, counter := true },
    { base := 0x50188, counter := true },
    { base := 0x50190, counter := true },
    { base := 0x50198, counter := true },
    { base := 0x501a0, counter := true },
    { base := 0x501a8, counter := true } ]

/-- Registers of the CELL block. -/
def cellGroups : List RegGroup := cellGroups0 ++ cellGroups1

/-- Registers of the HOST block. -/
def hostGroups0 : List RegGroup :=
  [ { base := 0x60000, stride := 0x8, count := 2, rw := 0xff03, live := 0xffffffffffff00fc, reset := 0x1, clamps := [⟨8, 8, 0, 127, false⟩] },
    { base := 0x60010, stride := 0x8, count := 2 },
    { base := 0x60020, rw := 0xffff0000ffff, live := 0xffff0000ffff0000, reset := 0xc800000000, clamps := [⟨32, 16, 1, 10000, false⟩, ⟨0, 16, 10, 60000, true⟩] },
    { base := 0x60028, wc := 0x1 },
    { base := 0x60030 },
    { base := 0x60040, rw := 0x7ff, live := 0xfffffffffffff800, reset := 0x100, clamps := [⟨0, 11, 64, 1024, false⟩] },
    { base := 0x61000, stride := 0x20, count := 128, rw := 0xfffffffffffff000, live := 0xfff },
    { base := 0x62000, stride := 0x20, count := 128, rw := 0xfffffffffffff000, live := 0xfff },
    { base := 0x61008, stride := 0x20, count := 128, rw := 0xfff001f0701, live := 0xfffff000ffe0f8fe, reset := 0xc0000, clamps := [⟨16, 5, 12, 30, false⟩] },
    { base := 0x62008, stride := 0x20, count := 128, rw := 0xfff001f0701, live := 0xfffff000ffe0f8fe, reset := 0xc0000, clamps := [⟨16, 5, 12, 30, false⟩] },
    { base := 0x61010, stride := 0x20, count := 128 },
    { base := 0x62010, stride := 0x20, count := 128 },
    { base := 0x61018, stride := 0x20, count := 128 },
    { base := 0x62018, stride := 0x20, count := 128 },
    { base := 0x60100, counter := true },
    { base := 0x60108, counter := true },
    { base := 0x60110, counter := true },
    { base := 0x63000, stride := 0x20, count := 128, counter := true },
    { base := 0x64000, stride := 0x20, count := 128, counter := true },
    { base := 0x63008, stride := 0x20, count := 128, counter := true },
    { base := 0x64008, stride := 0x20, count := 128, counter := true },
    { base := 0x63010, stride := 0x20, count := 128, counter := true },
    { base := 0x64010, stride := 0x20, count := 128, counter := true },
    { base := 0x63018, stride := 0x20, count := 128, counter := true } ]

/-- Registers of the HOST block. -/
def hostGroups1 : List RegGroup :=
  [ { base := 0x64018, stride := 0x20, count := 128, counter := true } ]

/-- Registers of the HOST block. -/
def hostGroups : List RegGroup := hostGroups0 ++ hostGroups1

/-- Registers of the DRAY block. -/
def drayGroups0 : List RegGroup :=
  [ { base := 0x70000, stride := 0x8, count := 128, rw := 0xff0003, live := 0xffffffffff00fffc },
    { base := 0x70400, stride := 0x8, count := 128 },
    { base := 0x70800, rw := 0x1, live := 0xfffffffffffffffe, reset := 0x1 },
    { base := 0x70810, rwi := 0x1ffff, live := 0xfffffffffffe0000 },
    { base := 0x70838 },
    { base := 0x70818 },
    { base := 0x70820 },
    { base := 0x70828 },
    { base := 0x70830 },
    { base := 0x70900, counter := true },
    { base := 0x70908, counter := true },
    { base := 0x71000, stride := 0x40, count := 128, counter := true },
    { base := 0x71008, stride := 0x40, count := 128, counter := true },
    { base := 0x71010, stride := 0x40, count := 128, counter := true },
    { base := 0x71018, stride := 0x40, count := 128, counter := true },
    { base := 0x71020, stride := 0x40, count := 128, counter := true },
    { base := 0x71028, stride := 0x40, count := 128, counter := true },
    { base := 0x71030, stride := 0x40, count := 128, counter := true },
    { base := 0x71038, stride := 0x40, count := 128, counter := true },
    { base := 0x78080, stride := 0x80, count := 255, first := 1, counter := true },
    { base := 0x78088, stride := 0x80, count := 255, first := 1, counter := true },
    { base := 0x78090, stride := 0x80, count := 255, first := 1, counter := true },
    { base := 0x78098, stride := 0x80, count := 255, first := 1, counter := true },
    { base := 0x780a0, stride := 0x80, count := 255, first := 1, counter := true } ]

/-- Registers of the DRAY block. -/
def drayGroups1 : List RegGroup :=
  [ { base := 0x780a8, stride := 0x80, count := 255, first := 1, counter := true },
    { base := 0x780b0, stride := 0x80, count := 255, first := 1, counter := true },
    { base := 0x780b8, stride := 0x80, count := 255, first := 1, counter := true },
    { base := 0x780c0, stride := 0x80, count := 255, first := 1, counter := true },
    { base := 0x780c8, stride := 0x80, count := 255, first := 1, counter := true },
    { base := 0x780d0, stride := 0x80, count := 255, first := 1, counter := true },
    { base := 0x780d8, stride := 0x80, count := 255, first := 1, counter := true },
    { base := 0x780e0, stride := 0x80, count := 255, first := 1, counter := true },
    { base := 0x780e8, stride := 0x80, count := 255, first := 1, counter := true },
    { base := 0x780f0, stride := 0x80, count := 255, first := 1, counter := true },
    { base := 0x780f8, stride := 0x80, count := 255, first := 1, counter := true },
    { base := 0x73000, stride := 0x8, count := 128, rw := 0xffff003f0000, live := 0xffff0000ffc0ffff, reset := 0x406000100000, clamps := [⟨40, 8, 0, 128, false⟩, ⟨32, 8, 1, 128, true⟩, ⟨16, 6, 0, 32, false⟩] },
    { base := 0x73400, stride := 0x8, count := 128 },
    { base := 0x73800, wc := 0x1037f },
    { base := 0x73808, rw := 0x7fff, live := 0xffffffffffff8000, reset := 0x800, clamps := [⟨0, 15, 0, 16384, false⟩] },
    { base := 0x73810 },
    { base := 0x74000, stride := 0x20, count := 128, counter := true },
    { base := 0x74008, stride := 0x20, count := 128, counter := true },
    { base := 0x74010, stride := 0x20, count := 128, counter := true },
    { base := 0x74018, stride := 0x20, count := 128, counter := true } ]

/-- Registers of the DRAY block. -/
def drayGroups : List RegGroup := drayGroups0 ++ drayGroups1

/-- Registers of the WATCH block. -/
def watchGroups0 : List RegGroup :=
  [ { base := 0x80000, stride := 0x8, count := 128, rw := 0xfffffcff00000007, live := 0x300fffffff8 },
    { base := 0x80800 },
    { base := 0x80810, stride := 0x8, count := 2 },
    { base := 0x80840, rwi := 0x7ffff, live := 0xfffffffffff80000 },
    { base := 0x80820, stride := 0x8, count := 2 },
    { base := 0x80830, stride := 0x8, count := 2 },
    { base := 0x80848 },
    { base := 0x80850 },
    { base := 0x80858 },
    { base := 0x80900, counter := true },
    { base := 0x80908, counter := true },
    { base := 0x80910, counter := true },
    { base := 0x80918, counter := true },
    { base := 0x80920, counter := true },
    { base := 0x80928, counter := true },
    { base := 0x80930, counter := true },
    { base := 0x81000, stride := 0x18, count := 128, counter := true },
    { base := 0x81008, stride := 0x18, count := 128, counter := true },
    { base := 0x81010, stride := 0x18, count := 128, counter := true },
    { base := 0x82000 },
    { base := 0x82008, rwi := 0x3ffff, live := 0xfffffffffffc0000 },
    { base := 0x82010 },
    { base := 0x82040, rwi := 0x7fffff, live := 0xffffffffff800000 },
    { base := 0x82050, wc := 0x3, guarded := true } ]

/-- Registers of the WATCH block. -/
def watchGroups1 : List RegGroup :=
  [ { base := 0x82018 },
    { base := 0x82020 },
    { base := 0x82028 },
    { base := 0x82048, rwi := 0xffffffffffffffff },
    { base := 0x82058 },
    { base := 0x82060 },
    { base := 0x82100, counter := true },
    { base := 0x82108, counter := true },
    { base := 0x82110, counter := true },
    { base := 0x82118, counter := true },
    { base := 0x82120, counter := true },
    { base := 0x82128, counter := true },
    { base := 0x82130, counter := true },
    { base := 0x82138, counter := true } ]

/-- Registers of the WATCH block. -/
def watchGroups : List RegGroup := watchGroups0 ++ watchGroups1

/-- Registers of the SCRIV block. -/
def scrivGroups0 : List RegGroup :=
  [ { base := 0x90000, stride := 0x8, count := 32, rw := 0x7777777777777777, live := 0x8888888888888888, reset := 0x7654321076543210 },
    { base := 0x90100 },
    { base := 0x90108, rwi := 0xfffffffff, live := 0xfffffff000000000 },
    { base := 0x90110 },
    { base := 0x90118, rwi := 0x7fffff, live := 0xffffffffff800000 },
    { base := 0x90140, rwi := 0xffffff, live := 0xffffffffff000000 },
    { base := 0x90158, rwi := 0xffffff, live := 0xffffffffff000000 },
    { base := 0x90120 },
    { base := 0x90128 },
    { base := 0x90130 },
    { base := 0x90138 },
    { base := 0x90148 },
    { base := 0x90150 },
    { base := 0x90160 },
    { base := 0x90200, counter := true },
    { base := 0x90208, counter := true },
    { base := 0x90210, counter := true },
    { base := 0x90218, counter := true },
    { base := 0x90220, counter := true },
    { base := 0x90228, counter := true },
    { base := 0x90230, counter := true },
    { base := 0x90238, counter := true },
    { base := 0x90240, counter := true },
    { base := 0x90248, counter := true } ]

/-- Registers of the SCRIV block. -/
def scrivGroups1 : List RegGroup :=
  [ { base := 0x90250, counter := true },
    { base := 0x90258, counter := true },
    { base := 0x90260, counter := true },
    { base := 0x90268, counter := true },
    { base := 0x90270, counter := true },
    { base := 0x90278, counter := true },
    { base := 0x90280, counter := true },
    { base := 0x90288, counter := true },
    { base := 0x90400, stride := 0x20, count := 8, counter := true },
    { base := 0x90408, stride := 0x20, count := 8, counter := true },
    { base := 0x90410, stride := 0x20, count := 8, counter := true } ]

/-- Registers of the SCRIV block. -/
def scrivGroups : List RegGroup := scrivGroups0 ++ scrivGroups1

/-- Registers of the CRIER block. -/
def crierGroups : List RegGroup :=
  [ { base := 0xa0000, stride := 0x8, count := 32, rw := 0xffff00007f01, live := 0xffff0000ffff80fe, reset := 0x100000000000 },
    { base := 0xa0100, stride := 0x8, count := 32 },
    { base := 0xa0200, rw := 0xfffff, live := 0xfffffffffff00000, reset := 0x10000, clamps := [⟨0, 20, 1024, 1048575, false⟩] },
    { base := 0xa0408, rwi := 0x3fffff, live := 0xffffffffffc00000 },
    { base := 0xa0300, stride := 0x8, count := 32 },
    { base := 0xa0400 },
    { base := 0xa0410 },
    { base := 0xa0500, counter := true },
    { base := 0xa0508, counter := true },
    { base := 0xa1000, stride := 0x40, count := 32, counter := true },
    { base := 0xa1008, stride := 0x40, count := 32, counter := true },
    { base := 0xa1010, stride := 0x40, count := 32, counter := true },
    { base := 0xa1018, stride := 0x40, count := 32, counter := true },
    { base := 0xa1020, stride := 0x40, count := 32, counter := true },
    { base := 0xa1028, stride := 0x40, count := 32, counter := true },
    { base := 0xa1030, stride := 0x40, count := 32, counter := true },
    { base := 0xa1038, stride := 0x40, count := 32, counter := true } ]

/-- Registers of the SYS block. -/
def sysGroups0 : List RegGroup :=
  [ { base := 0xc0000 },
    { base := 0xc0008, rwi := 0x3, live := 0xfffffffffffffffc, guarded := true },
    { base := 0xc0010 },
    { base := 0xc0018 },
    { base := 0xc0020 },
    { base := 0xc0108, rw := 0x3, live := 0xfffffffffffffffc },
    { base := 0xc0110 },
    { base := 0xc0100 },
    { base := 0xc0118 },
    { base := 0xc0028 },
    { base := 0xc0030, rwi := 0x1, wc := 0x2, live := 0xfffffffffffffffc, guarded := true },
    { base := 0xc0038 },
    { base := 0xc0040 },
    { base := 0xc0048, wc := 0xd, guarded := true },
    { base := 0xc0050, stride := 0x8, count := 6, rwi := 0xffffffffffffffff, guarded := true },
    { base := 0xc0200, counter := true },
    { base := 0xc0208, counter := true },
    { base := 0xc0400 },
    { base := 0xc0410 },
    { base := 0xc0428, rw := 0xf0001ffff, live := 0xfffffff0fffe0000, reset := 0x400000258, clamps := [⟨32, 4, 1, 8, false⟩, ⟨0, 17, 10, 86400, false⟩] },
    { base := 0xc0430, wc := 0x707, guarded := true },
    { base := 0xc0438, rwi := 0x7fff00, live := 0xffffffffff8000ff },
    { base := 0xc0448 },
    { base := 0xc0450, rwi := 0x7, live := 0xfffffffffffffff8 } ]

/-- Registers of the SYS block. -/
def sysGroups1 : List RegGroup :=
  [ { base := 0xc0458 },
    { base := 0xc0408 },
    { base := 0xc0420, wc := 0x1, guarded := true },
    { base := 0xc0440, wc := 0xffffffffffffffff },
    { base := 0xc0460, counter := true },
    { base := 0xc0468, counter := true },
    { base := 0xc0300 } ]

/-- Registers of the SYS block. -/
def sysGroups : List RegGroup := sysGroups0 ++ sysGroups1

/-- Registers of the PORT block. -/
def portGroups0 : List RegGroup :=
  [ { base := 0x100000, stride := 0x400, count := 136 },
    { base := 0x100008, stride := 0x400, count := 136 },
    { base := 0x100010, stride := 0x400, count := 136 },
    { base := 0x100018, stride := 0x400, count := 136 },
    { base := 0x100020, stride := 0x400, count := 136 },
    { base := 0x100028, stride := 0x400, count := 136 },
    { base := 0x100030, stride := 0x400, count := 136, wc := 0x1 },
    { base := 0x100080, stride := 0x400, count := 136, rw := 0xf3f7 },
    { base := 0x100088, stride := 0x400, count := 136, rw := 0x1ff01ff00ff00ff, reset := 0x4003f00100010, clamps := [⟨48, 9, 1, 256, false⟩, ⟨32, 9, 2, 256, false⟩, ⟨16, 8, 1, 128, false⟩, ⟨0, 8, 1, 128, false⟩] },
    { base := 0x100090, stride := 0x400, count := 136, rw := 0x3f7f003f003f, reset := 0x40e00050005, clamps := [⟨40, 6, 1, 32, false⟩, ⟨32, 7, 1, 64, false⟩, ⟨16, 6, 1, 32, false⟩, ⟨0, 6, 1, 32, false⟩] },
    { base := 0x100098, stride := 0x400, count := 136, rw := 0x3f7f003f003f, reset := 0x10b00040004, clamps := [⟨40, 6, 1, 32, false⟩, ⟨32, 7, 1, 64, false⟩, ⟨16, 6, 1, 32, false⟩, ⟨0, 6, 1, 32, false⟩] },
    { base := 0x1000a0, stride := 0x400, count := 136, rw := 0x17f0000017f0000 },
    { base := 0x1000a8, stride := 0x400, count := 136, rw := 0x3, reset := 0x1 },
    { base := 0x1000b0, stride := 0x400, count := 136, rw := 0xffff, reset := 0x64, clamps := [⟨0, 16, 1, 65535, false⟩] },
    { base := 0x1000b8, stride := 0x400, count := 136, rw := 0xffff },
    { base := 0x1000c0, stride := 0x400, count := 136, rw := 0xff, reset := 0x60, clamps := [⟨0, 8, 1, 255, false⟩] },
    { base := 0x100040, stride := 0x400, count := 136, counter := true },
    { base := 0x100048, stride := 0x400, count := 136, counter := true },
    { base := 0x100050, stride := 0x400, count := 136, counter := true },
    { base := 0x100058, stride := 0x400, count := 136, counter := true },
    { base := 0x100060, stride := 0x400, count := 136, counter := true },
    { base := 0x100068, stride := 0x400, count := 136, counter := true },
    { base := 0x100070, stride := 0x400, count := 136, counter := true },
    { base := 0x100078, stride := 0x400, count := 136, counter := true } ]

/-- Registers of the PORT block. -/
def portGroups1 : List RegGroup :=
  [ { base := 0x1000c8, stride := 0x400, count := 136, counter := true },
    { base := 0x1000d0, stride := 0x400, count := 136, counter := true },
    { base := 0x1000d8, stride := 0x400, count := 136, counter := true },
    { base := 0x1000e0, stride := 0x400, count := 136, counter := true },
    { base := 0x1000e8, stride := 0x400, count := 136, counter := true },
    { base := 0x1000f0, stride := 0x400, count := 136, counter := true },
    { base := 0x1000f8, stride := 0x400, count := 136, counter := true } ]

/-- Registers of the PORT block. -/
def portGroups : List RegGroup := portGroups0 ++ portGroups1

/-- Registers of the XBAR block. -/
def xbarGroups : List RegGroup :=
  [ { base := 0x140000, stride := 0x8, count := 128, rw := 0xff, live := 0xffffffffffffff00 },
    { base := 0x140400, stride := 0x8, count := 128 },
    { base := 0x140800, rw := 0xffffff, live := 0xffffffffff000000, reset := 0x803e8, clamps := [⟨16, 8, 1, 255, false⟩, ⟨0, 16, 1, 65535, false⟩] },
    { base := 0x140810 },
    { base := 0x140818 },
    { base := 0x140820 },
    { base := 0x140840, counter := true },
    { base := 0x140848, counter := true },
    { base := 0x140850, counter := true },
    { base := 0x140858, counter := true },
    { base := 0x140860, counter := true },
    { base := 0x140868, counter := true } ]

/-- Registers of the XCVR block. -/
def xcvrGroups : List RegGroup :=
  [ { base := 0x150000, stride := 0x8, count := 4 },
    { base := 0x150040, stride := 0x8, count := 12 },
    { base := 0x150100 },
    { base := 0x150108, wc := 0x300ff },
    { base := 0x151000, stride := 0x40, count := 32, rw := 0xcf0307, live := 0xffffffffff30fcf8, reset := 0x880000 },
    { base := 0x151008, stride := 0x40, count := 32, rw := 0x7ff3fff0f7f, live := 0xfffff800c000f080, guarded := true, reset := 0x7d00064084b, clamps := [⟨32, 11, 10, 2000, false⟩, ⟨16, 14, 10, 10000, false⟩, ⟨0, 7, 25, 75, false⟩] },
    { base := 0x151010, stride := 0x40, count := 32 },
    { base := 0x151018, stride := 0x40, count := 32 },
    { base := 0x151020, stride := 0x40, count := 32, rw := 0x3fffffff1fffffff, live := 0xc0000000e0000000 },
    { base := 0x151028, stride := 0x40, count := 32, rw := 0xffffffffffffffff },
    { base := 0x151030, stride := 0x40, count := 32, counter := true },
    { base := 0x150110, counter := true },
    { base := 0x153000, stride := 0x10, count := 96, first := 32, rw := 0x3f3f3f01, live := 0xffffffffc0c0c0fe, reset := 0x60201, clamps := [⟨16, 6, 1, 63, false⟩, ⟨8, 6, 1, 63, false⟩] },
    { base := 0x153008, stride := 0x10, count := 96, first := 32 } ]

/-- The groups of the block that holds a normal-window offset (R81). -/
def blockGroups (off : Nat) : List RegGroup :=
  match off / 0x10000 with
  | 0 => genGroups
  | 1 => bellGroups
  | 2 => stewGroups
  | 3 => tinkGroups
  | 4 => lockGroups
  | 5 => cellGroups
  | 6 => hostGroups
  | 7 => drayGroups
  | 8 => watchGroups
  | 9 => scrivGroups
  | 10 => crierGroups
  | 12 => sysGroups
  | 16 | 17 | 18 => portGroups
  | 20 => xbarGroups
  | 21 => xcvrGroups
  | _ => []

/-- The offset reached inside a PORT block: offset mod 0x100 of each 1 KiB block; elsewhere the offset itself (R78). -/
def canonicalOff (off : Nat) : Nat :=
  if 0x100000 ≤ off ∧ off < 0x122000 then off / 0x400 * 0x400 + off % 0x100 else off

/-- The register of the group at an offset, as its index in the run. -/
def RegGroup.indexOf (g : RegGroup) (off : Nat) : Option Nat :=
  if g.base ≤ off ∧ (off - g.base) % g.stride = 0 ∧ (off - g.base) / g.stride < g.count
  then some (g.first + (off - g.base) / g.stride) else none

/-- The first group of a list that holds an offset, with the register's index. -/
def findGroup (off : Nat) : List RegGroup → Option (RegGroup × Nat)
  | [] => none
  | g :: gs =>
    match g.indexOf off with
    | some i => some (g, i)
    | none => findGroup off gs

/-- The register at a canonical offset, with its index in its run; none where no register sits (R59). -/
def regAt (off : Nat) : Option (RegGroup × Nat) := findGroup off (blockGroups off)

/-! ## Reset words -/

/-- Default of STEW.SRC_CFG, packed from severity, reaction, threshold, window, quiet period and RMAX (R406, R417). -/
def stewDefault (sev react thresh window quiet rmax : Nat) : Nat :=
  rmax * 2 ^ 58 + quiet * 2 ^ 42 + react * 2 ^ 39 + sev * 2 ^ 36 + window * 2 ^ 12 + thresh

/-- Default settings of fault source f (R406). REACT: 0 NONE, 1 FENCE, 2 FENCE_SPARE, 3 RELOAD, 4 SUSPEND_CT,
5 DEGRADE (R409). -/
def stewReset (f : Nat) : Nat :=
  if f ≤ 135 then stewDefault 1 2 1 1000 60000 1
  else if f ≤ 263 then stewDefault 1 4 16 10000 5000 3
  else if f ≤ 287 then stewDefault 1 1 1 1000 60000 2
  else if f = 290 ∨ f = 293 then stewDefault 2 1 1 1000 1000 3
  else if f = 291 ∨ f = 292 then stewDefault 1 5 1 1000 60000 2
  else if f = 295 ∨ f = 296 ∨ f = 298 ∨ f = 307 ∨ f = 309 ∨ (310 ≤ f ∧ f ≤ 314) then stewDefault 2 0 1 1000 60000 2
  else if 303 ≤ f ∧ f ≤ 306 then stewDefault 1 2 1 1000 60000 2
  else if f = 308 then stewDefault 1 1 1 1000 60000 2
  else if f = 360 then stewDefault 1 3 1 1000 60000 2
  else if f = 361 then stewDefault 0 0 1 1000 60000 2
  else stewDefault 1 0 1 1000 60000 2

/-- The reset word of the register at a canonical offset: the group's, or one that depends on the index (XBAR.PMAP p,
CRIER.SUB_CTL.RING s mod 16, BELL.TGT_CFG.VECTOR 8 (t mod 8), STEW.SRC_CFG by R406). -/
def resetWord (off : Nat) : Word :=
  match regAt off with
  | none => 0
  | some (g, i) =>
    if off = Reg.genId then 0x4E5A712800010000
    else if g.base = 0x140000 then BitVec.ofNat 64 i
    else if g.base = 0xa0000 then BitVec.ofNat 64 (g.reset + i % 16 * 256)
    else if g.base = 0x10200 then BitVec.ofNat 64 (8 * (i % 8))
    else if 0x21000 ≤ g.base ∧ g.base < 0x22000 then BitVec.ofNat 64 (stewReset i)
    else BitVec.ofNat 64 g.reset

end Sys2Proof.Machine
end

