-- ==== Sys2Proof/Machine/State.lean ====
section
/-! DEFINITION. The state of the block as plain data, unit by unit, with every field's value after reset as its default
(INVENTORY.md, '## State', lists each with its rule). Fault and Refusal name every way a command can stop. -/

namespace Sys2Proof.Machine

/-- A sparse table: keys strictly rising, no entry equal to the default the table is read with (Table.wf). -/
abbrev Table (α : Type) := List (Nat × α)

/-- A byte memory: a Table of bytes, the form of Host.Cell (Storeroom, boot flash, page buffer). -/
abbrev Memory := List Host.Cell

/-- Why the block stops with a fault. The block raises none: the spec names no event after which it stops. -/
inductive Fault where
  /-- Raised by nobody; kept so that the type has a member. Safe. -/
  | none
deriving DecidableEq, Repr

/-- Why a command has no meaning in a state. -/
inductive Refusal where
  /-- Raised by an arm of exec whose command has no meaning yet. Safe. -/
  | notModelled (mnemonic : String)
  /-- Raised by a write that changes a reserved bit of R76, a live test control whose effect the spec calls
  not specified. Safe. -/
  | testControl (off : Nat)
deriving DecidableEq, Repr

/-- The four states that engines, rings, subscriber rings, the Tinker and the generator share (R50, R112, R236, R333, R428). -/
inductive RunState where
  | stopped | starting | running | stopping
deriving DecidableEq, Repr

/-- A word written outward: host memory writes, messages, bus frames and pins, newest first in State.out. -/
inductive Out where
  /-- A fixed-size entry or record written at a ring position (R339): endpoint, ring, position, words. -/
  | ring (e : Ep) (ring pos : Nat) (words : List Word)
  /-- An MSI-X message for a vector, with the address and data of its table entry (R392). -/
  | message (e : Ep) (vector : Nat) (addr : Word) (data : Nat)
  /-- A frame that started on a port's bus (R107). -/
  | frame (port : Nat) (f : BusFrame)
  /-- An error flag, active or passive, that a port's engine sends (R97, R100, R116). -/
  | errorFlag (port : Nat) (passive : Bool)
  /-- The acknowledgement of a frame received on a port's bus (R103). -/
  | ack (port : Nat)
  /-- PWM coding of an XL data phase on a logic port's TXD_n: the levels, true for high, and times in mtq of a recessive and of
  a dominant bit as transmitter; none as receiver, with TXD_n high throughout (R144). -/
  | pwm (port : Nat) (code : Option (List (Bool × Nat) × List (Bool × Nat)))
  /-- A vector shifted out of the test access port (R433). -/
  | tdo (v : Bytes)
  /-- The data that a claim read returns to its endpoint (R394, R402). -/
  | claim (e : Ep) (v : Word)
  /-- A page programmed on the NAND: its block over all targets, its place there, data and spare area (R365, R376). -/
  | nandPage (block page : Nat) (data spare : Bytes)
deriving DecidableEq, Repr

/-! ## Epoch generator, time base and register fabric -/

/-- What a close record carries (R231). -/
structure CloseInfo where
  epoch   : Word
  tai     : Word
  lease   : Nat
  leaseNs : Nat
  set     : Bool
deriving DecidableEq, Repr

/-- The epoch generator (R30 to R54). -/
structure Gen where
  st           : RunState := .stopped
  startHeld    : Bool := false
  epochNum     : Word := 0
  boundaryTai  : Word := 0
  lastCommit   : Word := 0
  /-- Elapsed instant at which the current epoch began (R31). -/
  epochStart   : Nat := 0
  /-- Elapsed instant of the scheduled boundary, while STARTING, RUNNING or STOPPING (R31). -/
  nextAt       : Nat := 0
  /-- The cut of the current epoch has occurred (R32). -/
  cutDone      : Bool := false
  /-- TAI of the most recent cut (R243). -/
  cutTai       : Word := 0
  freeze       : Bool := false
  /-- Elapsed instant at which the freeze ends, once its boundary has occurred (R42). -/
  thawAt       : Option Nat := none
  /-- HOLD was cleared within the freeze of the coming boundary, which still holds host items (R43). -/
  holdLate     : Bool := false
  commitBusy   : Bool := false
  commitHeld   : Bool := false
  swapPending  : Bool := false
  activeGen    : Bool := false
  /-- Elapsed instant of the next silent boundary (R51). -/
  silentAt     : Nat := 20000000
  snapBusy     : Bool := false
  /-- Elapsed instant of the strobe of the snapshot in progress, and whether it cleared the counters (R71). -/
  snapAt       : Nat := 0
  snapClear    : Bool := false
  /-- The snapshot in progress was asked for by a boundary, and by a write (R71). -/
  snapAuto     : Bool := false
  snapWrite    : Bool := false
  /-- Held snapshots, oldest first, with their CLEAR bits (R71). -/
  snapHeld     : List Bool := []
  snapSeq      : Word := 0
deriving DecidableEq, Repr

/-- A TIME_SET that waits (R348): the command ring, step or absolute, at PPS, its value and when it started. -/
structure TimeReq where
  ep      : Ep
  ring    : Nat
  step    : Bool
  atPps   : Bool
  value   : Word
  since   : Nat
deriving DecidableEq, Repr

/-- The time base and PPS discipline (R31, R84, R210, R348, R482). -/
structure TimeBase where
  /-- Elapsed nanoseconds since reset (R31). -/
  now      : Nat := 0
  /-- TAI minus elapsed time (R210). -/
  offset   : Int := 0
  /-- The offset in force before the most recent step (R210). -/
  prevOffset : Int := 0
  /-- Elapsed instant of the most recent step. -/
  stepAt   : Option Nat := none
  stepLast : Word := 0
  stepTai  : Word := 0
  set      : Bool := false
  ppsCapture : Word := 0
  /-- Elapsed instant of the last captured edge. -/
  ppsLast  : Option Nat := none
  /-- That edge may serve as the reference of an interval (R482). -/
  ppsRef   : Bool := false
  ppsUsed  : Nat := 0
  ppsLost  : Bool := false
  /-- Elapsed instant at which PPS_EN came into force or the last edge fell: the base of PPS_LOST (R84). -/
  ppsBase  : Nat := 0
  /-- TIME_SET commands that wait, oldest first (R348). -/
  requests : List TimeReq := []
deriving DecidableEq, Repr

/-- How a window applies the data to a register (R63). -/
inductive WriteOp where
  | plain | set | clear | toggle
deriving DecidableEq, Repr

/-- A write as a register takes it: canonical offset, effect, data, and whether the boot flash of an FW_CMD erase or
program cycle succeeds. -/
structure Access where
  path : Path
  off  : Nat
  op   : WriteOp
  val  : Word
  flashOk : Bool
deriving DecidableEq, Repr

/-- What an endpoint or management firmware has sent and the register fabric has still to perform: a register write with
the outcome of its flash cycle, a doorbell, or an access to the endpoint's BAR4 (R56, R336, R402). -/
inductive Posted where
  | write (p : Path) (off size : Nat) (val : Word) (flashOk : Bool)
  | doorbell (e : Ep) (ring off : Nat) (val : Word)
  | claim (e : Ep) (l : Nat)
  | eoi (e : Ep) (l : Nat) (val : Word)
  | mask (e : Ep) (l : Nat) (val : Word)
  | msix (e : Ep) (w : MsixPlace) (size : Nat) (val : Word)
deriving DecidableEq, Repr

/-- The register copies, guard locks, counters and parity status (R55 to R84). -/
structure RegFile where
  /-- In-force words; RWI fields live here too (R61). Default: the register's reset word. -/
  inForce   : Table Word := []
  /-- Staged words of registers with a write that waits for a commit (R42). -/
  staged    : Table Word := []
  /-- Words held by the staging freeze (R42). -/
  held      : Table Word := []
  /-- Live counters, keyed by the offset of their RS register (R13, R69). -/
  counters  : Table Word := []
  /-- The hidden holding registers of a snapshot in progress (R70). -/
  holding   : Table Word := []
  /-- The visible RS registers (R70). -/
  visible   : Table Word := []
  unlockedA : Bool := false
  unlockedB : Bool := false
  unlockedM : Bool := false
  /-- Registers whose in-force copy is bad and awaits a rewrite (R73). -/
  badInForce : List Nat := []
  /-- What waits behind a write to such a register, that write first, in the order sent (R56, R73). -/
  waiting   : List Posted := []
  /-- Copies whose parity has failed and that no scan, read or commit has met yet (R72). -/
  upset     : List (RegCopy × Nat) := []
  /-- Registers whose in-force copy management firmware rewrites, as RELOAD found them (R73, R409). -/
  reload : List Nat := []
  parityInForce : Bool := false
  /-- Registers whose staged or held copy was lost and that host software has not written since (R74). -/
  stagedLost : List Nat := []
  parityAddr : Nat := 0
  owner     : Ep := .a
  ownCause  : Nat := 0
  /-- Elapsed instant at which the heartbeat timer restarted (R327). -/
  beatAt    : Nat := 0
deriving DecidableEq, Repr

/-! ## Ports and engines -/

/-- A port engine (R85 to R121). -/
structure Engine where
  st        : RunState := .stopped
  startHeld : Bool := false
  cfgErr    : Bool := false
  tec       : Nat := 0
  rxErr     : Nat := 0
  busOff    : Bool := false
  ewarn     : Bool := false
  /-- BO_POLICY as read at the entry into bus-off (R98). -/
  boPolicy  : Nat := 0
  boWait    : Bool := false
  /-- Elapsed instant at which a DELAYED wait ends (R98). -/
  boUntil   : Nat := 0
  /-- Monitoring for the 128 occurrences (R98). -/
  boMonitor : Bool := false
  recov     : Nat := 0
  /-- Values in use, taken at STARTING (R93); before the first start the registers' reset words (log entry 2). -/
  useNbt    : Word := 1126170490830864
  useDbt    : Word := 4458176380933
  useXbt    : Word := 1146756530180
  useTdc    : Word := 0
  useXl     : Word := 1
  useFd     : Bool := false
  useXlEn   : Bool := false
  lastErr   : Word := 0
  tdcv      : Nat := 0
  ssp       : Nat := 0
  /-- Version of the microcode it runs (R121, R452). -/
  mcode     : Nat := 0
  fenced    : Bool := false
  /-- Held by the Tinker for test (R148). -/
  tested    : Bool := false
  /-- In protocol exception (R89). -/
  pex       : Bool := false
  /-- Words of its PORT block, by offset in the block, that still apply to the frame on the bus after others have committed
  (R26, R102). -/
  heldWords : Table Word := []
  /-- Words that the most recent commit replaced, and its elapsed instant: they apply to a frame that had started (R26). -/
  prevWords : Table Word := []
  prevAt    : Nat := 0
  /-- In MODE 2 after an error: waits for bus idle (R100). -/
  idleWait  : Bool := false
  /-- Suspend transmission is owed after the frame it has sent as error passive (R157). -/
  suspend   : Bool := false
deriving DecidableEq, Repr

/-- The transmit completion handle of a host frame (R278, R350). -/
structure HostTx where
  ep   : Ep
  ring : Nat
  tag  : Nat
  /-- Seal slot of the descriptor, when SEAL = 1 (R349). -/
  slot : Option Nat
deriving DecidableEq, Repr

/-- A packet of a class queue (R278), open or closed. -/
structure Packet where
  closed   : Bool
  abandon  : Bool
  fmt      : Nat
  brs      : Bool
  ident    : Nat
  len      : Nat
  dlc      : Nat
  tag      : Nat
  /-- EXPIRE, when LIFE applies (R264, R278). -/
  expire   : Option Nat
  cset     : Nat
  /-- The ingress port of a Drayman copy (CTX [14:8], R278). -/
  ingress  : Nat
  host     : Option HostTx
  xl       : Word
  cells    : List Nat
  /-- Words and credits taken (R280). -/
  words    : Nat
  attempts : Nat
  /-- Status detail that an abandoned host frame completes with (R352). -/
  failStatus : Nat
  failDetail : Nat
  /-- Dropped by command while on the bus (R288). -/
  dropNext : Bool
deriving DecidableEq, Repr

/-- The copy in a port's cut-through lane (R266 to R270). -/
structure LaneCopy where
  fid     : Nat
  copy    : Nat
  /-- Earliest start in picoseconds of elapsed time (R267). -/
  tMinPs  : Nat
  started : Bool
deriving DecidableEq, Repr

/-- What a port has on its bus as transmitter (R107): a class head, or the lane copy. -/
inductive OnBus where
  | cls (c : Nat)
  | lane
deriving DecidableEq, Repr

/-- Who requested a handover (R149). -/
inductive Requester where
  | host | tinker | firmware
deriving DecidableEq, Repr

/-- Credits of a dropped open packet, until its backfill has arrived (R288): class, tag, credits. -/
structure Zombie where
  cls   : Nat
  tag   : Nat
  words : Nat
  host  : Bool
deriving DecidableEq, Repr

/-- A bus port: crossbar, queues, lane (R147 to R164, R273, R277 to R291). -/
structure Port where
  serving  : Nat
  shadow   : Option Nat := none
  /-- 0 IDLE, 1 SHADOWING, 2 COPYING (R164). -/
  phase    : Nat := 0
  result   : Nat := 0
  hoUntil  : Nat := 0
  hoTries  : Nat := 0
  hoBy     : Requester := .host
  /-- A request of the Tinker or of management firmware that waits for a boundary (R149). -/
  request  : Option (Requester × Nat) := none
  /-- A proving frame has ended and its takeover may run (R157). -/
  proved   : Bool := false
  /-- Some frame has proved the shadowing spare (R156). -/
  everProved : Bool := false
  /-- Integrated: the shadowing spare has seen 11 recessive bits (R154). -/
  spareReady : Bool := false
  rxFrame  : Option Nat := none
  onBus    : Option OnBus := none
  /-- Elapsed instant at which the frame on the bus as transmitter began, and its SOF timestamp (R110). -/
  sofAt    : Nat := 0
  sofTai   : Word := 0
  queues   : List (List Packet) := [[], [], [], []]
  zombies  : List Zombie := []
  lane     : Option LaneCopy := none
  armed    : Bool := true
  /-- Queued frames are held or draining (R274). -/
  held     : Bool := false
  heldSince : Nat := 0
  suspSteward : Bool := false
deriving DecidableEq, Repr

/-- An integrated transceiver and its Fireguard (R122 to R141). -/
structure Transceiver where
  modeEff   : Nat := 0
  /-- Elapsed instant at which the mode change has settled (R124). -/
  settleAt  : Option Nat := none
  tripped   : Bool := false
  latched   : Bool := false
  tripSeq   : Nat := 0
  coolUntil : Nat := 0
  cooled    : Bool := false
  lastRetry : Option Nat := none
  /-- The 99 most recent completed sub-windows, newest first, in nJ (R130). -/
  windows   : List Nat := []
  current   : Nat := 0
  samples   : Nat := 0
  limiting  : Bool := false
  wufErr    : Nat := 0
  /-- The driver waits for bus idle after an undervoltage (R128). -/
  uvHold    : Bool := false
deriving DecidableEq, Repr

/-- The transceiver block (R128, R129, R141, R142). -/
structure Xcvr where
  ip        : Table Transceiver := []
  uv        : List Bool := [true, true, true, true]
  unpowered : List Bool := [true, true, true, true]
  lUnpowered : List Bool := [true, true, true, true, true, true, true, true, true, true, true, true]
  /-- Logic ports whose STB in effect is 0 (R142); reset 1 everywhere. -/
  stbLow    : List Nat := []
  wakePort  : Nat := 0
  wakeCause : Nat := 0
  /-- Wakes held while a power move runs (R141): port code and cause. -/
  wakeHeld  : List (Nat × Nat) := []
deriving DecidableEq, Repr

/-! ## Frames in flight -/

/-- Where a copy of a frame goes (R258). -/
inductive Dest where
  | port (p : Nat)
  | capture (e : Ep) (ring : Nat)
  | mirror (e : Ep) (ring : Nat)
  | unknown (e : Ep) (ring : Nat)
deriving DecidableEq, Repr

/-- The outcomes of R259. -/
inductive CopyOutcome where
  | selfPort | rate | down | verify | format | noCell | noCredit
  | sent | sealFail | expired | flushed | selfAbort | txDrop
  /-- Ended with its invalid frame: no outcome of R259 (R16 step 6). -/
  | discarded
deriving DecidableEq, Repr

/-- How far a copy has come. -/
inductive CopyStage where
  /-- Awaits its placement at R16 step 8. -/
  | waiting
  /-- In the cut-through lane of its port. -/
  | lane
  /-- Awaits or undergoes sealing (R265). -/
  | sealing
  /-- In a class queue or being captured. -/
  | placed
  | done (o : CopyOutcome)
deriving DecidableEq, Repr

/-- One copy of a frame (R258, R259). -/
structure Copy where
  route   : Nat
  dest    : Dest
  stage   : CopyStage
  fmt     : Nat
  ident   : Nat
  brs     : Bool
  dlc     : Nat
  cls     : Nat
  verify  : Bool
  /-- Egress key slot, when SEAL = 1. -/
  eslot   : Option Nat
  cset    : Nat
  life    : Nat
  noToken : Bool
  noCell  : Bool
  /-- Counted for placement from row 3 on, as a fallback (R269). -/
  fallback : Bool
  /-- Space reserved in a capture ring: position, words, phase (R354); none when the reservation failed. -/
  space   : Option (Nat × Nat × Bool)
  keptLen : Nat
  /-- Withdrawn from the lane before its ingress verdict (R271); counts FALLBACK when the frame is valid. -/
  withdrawn : Bool
  /-- The sealed copy's own chain and its length in bytes, once sealing is complete (R279). -/
  own     : Option (List Nat × Nat)
  /-- The XL SEC bit of the sealed copy (R303). -/
  ownSec  : Bool := false
deriving DecidableEq, Repr

/-- A result in a commit buffer (R183, R189, R192). -/
inductive Result where
  /-- Signal, value, and 0 for FRESH or the CAUSE of an INVALID result. -/
  | value (signal : Nat) (v : Word) (cause : Nat)
  /-- A page check of a skipped op. -/
  | page (signal : Nat)
deriving DecidableEq, Repr

/-- A half of a key slot (R307, R312). -/
structure KeyHalf where
  loaded : Bool := false
  key    : BitVec 256 := 0
  ksize  : Bool := false
  alg    : Nat := 0
  sform  : Nat := 0
  ahead  : Nat := 0
  ph     : Bool := false
  win    : Nat := 0
  sender : Nat := 0
  limit  : Nat := 0
  ucount : Nat := 0
  fvTx   : Word := 0
  r      : Word := 0
  bitmap : Word := 0
  /-- Became spent by reaching LIMIT (R308). -/
  spent  : Bool := false
  warned : Bool := false
deriving DecidableEq, Repr

/-- A received frame in flight (R16, R47). -/
structure Frame where
  port      : Nat
  f         : BusFrame
  /-- SOF and VALID timestamps (R110). -/
  sofTai    : Word
  keyAt     : Nat
  validTai  : Word
  /-- Elapsed instant of VALID (R210). -/
  validAt   : Int
  /-- Elapsed instant at which the verdict reached the frame core. -/
  verdict   : Option RxVerdict
  looked    : Bool
  /-- The key word as formed at lookup (R165, R353). -/
  key       : Word
  gen       : Bool
  watch     : Option Nat
  /-- Lookup failed under R170. -/
  eccLost   : Bool
  /-- UNK_ACTION met by an unknown frame at lookup, 0 to 2 (R173). -/
  unk       : Nat
  /-- The route list read at lookup (R255). -/
  routes    : List Nat
  /-- Data bytes as decode and capture see them: P as plaintext under GCM (R296). -/
  plain     : List Byte
  /-- Given to a pipeline and not yet finished there. -/
  decoding  : Bool
  pipe      : Nat
  opPos     : Nat
  sel0      : Option Nat
  sel1      : Option Nat
  results   : List Result
  /-- The frame met an op word with OPC 2 or 3 (R183). -/
  badOp     : Bool
  committing : Bool
  /-- The last commit, or the drop of the commit buffer, has happened (R47). -/
  committed : Bool
  sealed    : Bool
  lane      : Option Nat
  /-- Slot and half latched at the arrival of F: 0 current, 1 next (R300). -/
  half      : Option (Nat × Nat)
  /-- The half's content as latched. -/
  latched   : KeyHalf
  fArrived  : Bool
  verdictCode : Option Nat
  /-- An erase struck the operation (R320). -/
  keyGone   : Bool
  copies    : List Copy
  cells     : List Nat
deriving DecidableEq, Repr

/-! ## Tables, records, watches -/

/-- A bank of the watch, route and descriptor tables (R167 to R178, R203, R256). -/
structure Bank where
  /-- Valid slots by watch index: words 0 to 2. -/
  entries : Table (Word × Word × Word) := []
  /-- Stash: key word and watch index. -/
  stash   : List (Word × Nat) := []
  seed0   : Nat := 0
  seed1   : Nat := 0
  imageId : Word := 0
  bad     : Bool := false
  routes  : Table (Word × Word × Word × Word) := []
  descs   : Table (Word × Word) := []
  /-- Watch slots, and stash entries as 262144 + place, that hold an uncorrectable error (R170). -/
  badSlots : List Nat := []
deriving DecidableEq, Repr

/-- Token bucket and mirror count of a route entry (R257, R263, R272). -/
structure RouteState where
  /-- Level in 1/65536 token. -/
  level  : Nat := 0
  /-- Elapsed instant of the last update. -/
  last   : Nat := 0
  mcount : Nat := 0
deriving DecidableEq, Repr

/-- Sections of a table image, in order (R175). -/
inductive Section where
  | watch | stash | route | desc | oprun
deriving DecidableEq, Repr

/-- The phases of a table load (R174). -/
inductive LoadState where
  | idle | waiting | copying | writing | checking
deriving DecidableEq, Repr

/-- The table loader (R174 to R177). -/
structure Loader where
  st      : LoadState := .idle
  err     : Nat := 0
  errRec  : Nat := 0
  /-- The command that the load serves. -/
  cmd     : Option (Ep × Nat) := none
  length  : Nat := 0
  mode    : Nat := 0
  seed0   : Nat := 0
  seed1   : Nat := 0
  crcWant : Nat := 0
  imageId : Word := 0
  /-- Records still to read per section: watch, stash, route, desc, oprun. -/
  counts  : List Nat := [0, 0, 0, 0, 0]
  /-- Number of the next record within its section. -/
  recNo   : Nat := 0
  /-- Bytes read so far, header included. -/
  pos     : Nat := 0
  /-- Running CRC-32C register over the bytes after the header. -/
  crc     : Nat := 0
  nStash  : Nat := 0
  /-- Which record of this image wrote an item: section number, key, record number (R176). -/
  wrote   : List (Nat × Nat × Nat) := []
  /-- Load commands that wait for the loader: endpoint, ring, length (R177). -/
  queue   : List (Ep × Nat × Nat) := []
deriving DecidableEq, Repr

/-- A signal record (R199). -/
structure Rec where
  value     : Word := 0
  stamp     : Word := 0
  lastWatch : Nat := 0
  pubState  : Nat := 0
  hand      : Bool := false
  kept      : Bool := false
  chgEp     : Bool := false
  outvoted  : Nat := 0
  used      : Nat := 0
  cause     : Nat := 0
  state     : Nat := 0
  pubVal    : Word := 0
deriving DecidableEq, Repr

/-- A watch's state (R208, R215, R219, R221). -/
structure WState where
  st       : Nat := 0
  /-- T_LAST on the elapsed-time scale (R210); none if no refresh is recorded. -/
  tLast    : Option Int := none
  /-- T_LAST in TAI as the frame carried it: the cutoff of walks (R216). -/
  tLastTai : Word := 0
  /-- Deadline D on the elapsed-time scale. -/
  deadline : Int := 0
  /-- Generation that refreshed it last (R216). -/
  gen      : Bool := false
  cutState : Nat := 0
  prevCut  : Nat := 0
  /-- Elapsed instant of the most recent transition to STALE. -/
  staleAt  : Option Int := none
  /-- Number of swaps after which the index was last checked by a refresh (R221). -/
  checkedAt : Nat := 0
  /-- Number of swaps after which the index was last retired (R222). -/
  retiredAt : Nat := 0
deriving DecidableEq, Repr

/-- The kinds of walk (R216). -/
inductive WalkKind where
  | deadline | floor | retire
deriving DecidableEq, Repr

/-- A pending walk (R216, R217). -/
structure Walk where
  kind    : WalkKind
  watch   : Nat
  gen     : Bool
  opBase  : Nat
  opCount : Nat
  pos     : Nat
  begun   : Bool
  cutoff  : Word
deriving DecidableEq, Repr

/-- Watch table, loader and Watchman (R165 to R178, R207 to R233). -/
structure WatchUnit where
  bank0   : Bank := {}
  bank1   : Bank := {}
  loader  : Loader := {}
  states  : Table WState := []
  /-- Sweep cursor: the group of 16 indices to visit next (R211). -/
  sweepPos : Nat := 0
  sweepBegan : Nat := 0
  /-- The current sweep began at or after the most recent cut (R213). -/
  sweepAfterCut : Bool := false
  /-- A sweep that began at or after the most recent cut has completed (R213). -/
  cutSwept : Bool := false
  stalled  : Bool := false
  fenced   : Bool := false
  swapNo   : Nat := 0
  /-- Groups still to visit before every index is checked after the swap (R221). -/
  uncheckedLeft : Nat := 0
  walks    : List Walk := []
  /-- WSTAT and WTIME0 to WTIME2 as captured (R233). -/
  captured : List Word := [0x80, 0, 0, 0]
deriving DecidableEq, Repr

/-- Scrivener and Pantry (R179 to R206). -/
structure ScrivUnit where
  fenced  : List Nat := []
  /-- Elapsed instant at which a pipeline was fenced (R49). -/
  fencedAt : Table Nat := []
  /-- Pipelines held for test by the Tinker (R419). -/
  testing : List Nat := []
  /-- Pipelines whose buckets have moved away for a test and not yet returned (R419, R427). -/
  away    : List Nat := []
  /-- Pipeline in force for a bucket, where it is not bucket mod 8 (R180). -/
  pipeOf  : Table Nat := []
  records : Table Rec := []
  ops     : Table Word := []
  /-- The bucket that HASH_OUT shows; none before the first write of HASH_IN. -/
  hashOut : Option Nat := none
  recPeek : List Word := [0, 0, 0, 0]
  /-- Pantry lines present per set, most recently used first (R201). -/
  pantry  : Table (List Nat) := []
  /-- Pantry ways retired per set (R409). -/
  retired : Table Nat := []
deriving DecidableEq, Repr

/-! ## Publication -/

/-- A subscriber ring (R234 to R249). -/
structure Sub where
  st        : RunState := .stopped
  startHeld : Bool := false
  /-- The first epoch for which the ring may start (R236). -/
  startFrom : Word := 0
  waitSpace : Bool := false
  loss      : Nat := 0
  /-- 0 none, 1 full, 2 add. -/
  resync    : Nat := 0
  cursor    : Nat := 0
  /-- The cursor has passed the last index; the next CLOSE carries DONE (R249). -/
  passed    : Bool := false
  lastClosed : Word := 0
  /-- Endpoint ring that the epoch being published goes to: RING as in force during that epoch (R41, R234). -/
  ring      : Nat := 0
  /-- The CLOSE that is due, with RESYNC and DONE (R246). -/
  closeDue  : Option (CloseInfo × Nat × Bool) := none
deriving DecidableEq, Repr

/-- The Crier (R234 to R254). -/
structure CrierUnit where
  subs     : Table Sub := []
  /-- Bitmap words in force, keyed 131072 s + word (R237). -/
  bitmaps  : Table Word := []
  /-- Staged bitmap words (R238). -/
  staged   : Table Word := []
  fenced   : Bool := false
  /-- Records changed since the most recent cut, ascending (R17). -/
  changed  : List Nat := []
  /-- Records of the epoch whose cut has passed that the Crier has still to read, ascending (R242, R246). -/
  cutSet   : List Nat := []
  /-- Elapsed instant of that cut, and how many records have been read since (R246). -/
  cutAt    : Nat := 0
  cutRead  : Nat := 0
  /-- Those records, as they stood when the Crier read them (R242, R243). -/
  readRecs : List (Nat × Rec) := []
  /-- Entries of the epoch being published on all rings of endpoints A and B, and the INIT entries among them (R246). -/
  sentA    : Nat := 0
  sentB    : Nat := 0
  initA    : Nat := 0
  initB    : Nat := 0
deriving DecidableEq, Repr

/-! ## Locksmith -/

/-- What a lane seals: a copy of a frame, or an open host packet (R302). -/
inductive SealSource where
  | copy (fid copy : Nat)
  | host (port tag : Nat) (data : Bytes)
deriving DecidableEq, Repr

/-- A seal in progress (R302 to R305). -/
structure SealJob where
  src   : SealSource
  slot  : Nat
  half  : KeyHalf
  which : Nat
  fv    : Word
  keyGone : Bool
  /-- The chain reserved for the output of a routed copy (R279). -/
  cells : List Nat
deriving DecidableEq, Repr

/-- A Locksmith lane (R316, R411, R419). -/
structure Lane where
  fenced  : Bool := false
  testing : Bool := false
  verify  : Option Nat := none
  job     : Option SealJob := none
deriving DecidableEq, Repr

/-- The Locksmith (R292 to R321). -/
structure LockUnit where
  /-- Halves keyed 2 slot + half (0 current, 1 next). -/
  halves   : Table KeyHalf := []
  /-- KEK1 to KEK3. -/
  keks     : Table (BitVec 256) := []
  /-- KEK0, by the number of the derivation; none while there is none (R311). -/
  kek0     : Option Nat := none
  /-- KEK0 is withheld until the next reset (R432, R437). -/
  withheld : Bool := false
  erased   : Bool := false
  alarm    : Nat := 0
  healthFail : Bool := false
  lanes    : List Lane := List.replicate 16 {}
  /-- Copies and host frames that wait for a lane, oldest first (R305). -/
  waiting  : List (SealSource × Nat) := []
  holder   : Nat := 0
  /-- Elapsed instant of the last key command, or of the claim (R315). -/
  holderAt : Nat := 0
  /-- A release waits for the executing key command (R315). -/
  releaseDue : Bool := false
  resultSlot : Nat := 0
  resultCode : Nat := 0
  /-- Swaps requested by command, with the command's ring (R309). -/
  swaps    : List (Nat × Ep × Nat) := []
  /-- Slots whose current half became spent by reaching LIMIT and has not swapped since (R309). -/
  autoDue  : List Nat := []
  /-- Writes of a next half that wait for operations that latched it: slot, content, command ring (R310). -/
  pending  : List (Nat × KeyHalf × Ep × Nat) := []
  drbgReady : Bool := false
  reseedAt : Nat := 0
  retryAt  : Nat := 0
  peek     : List Word := [0, 0, 0, 0, 0, 0]
deriving DecidableEq, Repr

/-! ## Host side -/

/-- An endpoint (R322 to R325, R393). -/
structure Endpoint where
  link  : Bool := false
  mse   : Bool := false
  bme   : Bool := false
  d3    : Bool := false
  /-- A function level reset, and a fundamental reset of this endpoint, is under way (R324, R361). -/
  flr   : Bool := false
  fundamental : Bool := false
  width : Nat := 0
  speed : Nat := 0
  /-- Base addresses of the BARs as the root complex has set them (R322, R325). -/
  bar0  : Word := 0
  bar2  : Word := 0
  bar4  : Word := 0
  /-- Elapsed instant from which it has been unusable (R327). -/
  downSince : Nat := 0
  /-- MSI-X table, in 32-bit words; vector control words are 1 (masked) at reset (R393). -/
  msix  : Table (BitVec 32) := []
  /-- Pending bit array (R393). -/
  pba   : Word := 0
  funcMask : Bool := false
deriving DecidableEq, Repr

/-- A completion that waits for its ring (R341, R342). -/
structure Completion where
  tag    : Nat
  detail : Nat
  status : Nat
  src    : Nat
  kind   : Nat
  result : Word
deriving DecidableEq, Repr

/-- A command that has started and not ended (R343). -/
structure Running where
  cmd     : CmdEntry
  opc     : Nat
  /-- It started while the staging freeze was in force (R347). -/
  inFreeze : Bool
  /-- It has requested a swap of its own (R347). -/
  swap    : Bool
  /-- Words 1 to 7 as far as a later event needs them. -/
  arg     : Nat
deriving DecidableEq, Repr

/-- A transmit entry that waits for credits or cells (R280, R350). -/
structure TxWait where
  port : Nat
  pkt  : Packet
  cls  : Nat
deriving DecidableEq, Repr

/-- A ring of an endpoint (R330 to R360). -/
structure Ring where
  st        : RunState := .stopped
  startHeld : Bool := false
  err       : Nat := 0
  /-- Settings in use (R334); before the first start the registers' reset words (log entry 2). -/
  useBase   : Word := 0
  useCtl    : Word := 786432
  devPos    : Nat := 0
  hostPos   : Nat := 0
  /-- PHASE of the pass being written (R339). -/
  phase     : Bool := true
  armed     : Bool := false
  running   : Option Running := none
  /-- Completions held for this completion ring, oldest first (R342). -/
  heldCq    : List Completion := []
  txWait    : Option TxWait := none
  /-- Records lost since the last LOSS record (R356). -/
  lost      : Nat := 0
  /-- Events lost before the next event (R358). -/
  evLost    : Bool := false
  /-- Stretches of a capture ring reserved from the device's position on, oldest first: place, words, and whether the stretch has
  been written (R331, R333, R354). -/
  ahead     : List (Nat × Nat × Bool) := []
deriving DecidableEq, Repr

/-- The Bell Board (R389 to R402). -/
structure BellUnit where
  pend      : List Nat := []
  /-- Stacks per target, top first: source and the priority it was claimed with (R395). -/
  stack     : Table (List (Nat × Nat)) := []
  signalled : List Nat := []
  masked    : List Nat := []
deriving DecidableEq, Repr

/-! ## Drayman memories -/

/-- The Drayman and the Storeroom (R255 to R291). -/
structure DrayUnit where
  /-- Keyed 65536 bank + route (R257). -/
  routeState : Table RouteState := []
  fenced     : Bool := false
  /-- Use counts of Storeroom cells (R279). -/
  cellUse    : Table Nat := []
  hostCells  : Nat := 0
  retiredCells : List Nat := []
  /-- Storeroom bytes: 256 cell + offset. -/
  storeroom  : Memory := []
deriving DecidableEq, Repr

/-! ## Cellar -/

/-- A journal or checkpoint record (R366). -/
structure StoreRec where
  state  : Nat
  type   : Nat
  pclass : Nat
  kind   : Nat
  signal : Nat
  seq    : Nat
  value  : Word
  stamp  : Word
deriving DecidableEq, Repr

/-- The body of a root page (R364): bad blocks, erase and read counts of the blocks listed and the erases that every block
has had by FORMAT, PE_LIMIT, the SLC entry, and the newest sealed checkpoint with its blocks. number orders the root pages. -/
structure RootBody where
  number     : Nat
  bad        : List Nat
  counts     : Table (Nat × Nat)
  baseErases : Nat
  peLimit    : Nat
  slcEn      : Bool
  slcFa      : Nat
  slcP       : List Nat
  sealedId   : Nat
  sealedTai  : Word
  mark       : Nat
  ckptBlocks : List Nat
deriving DecidableEq, Repr

/-- A programmed page (R365). area: 1 ROOT, 2 CHECKPOINT, 3 JOURNAL. erases is the erase count of its block when it was
programmed. A root page has a body, the others records. -/
structure StorePage where
  area   : Nat
  sealPage : Bool
  ckptId : Nat
  markSeq : Nat
  nrec   : Nat
  recs   : List StoreRec
  erases : Nat := 0
  root   : Option RootBody := none
deriving DecidableEq, Repr

/-- A NAND block's role (R364). -/
inductive BlockRole where
  | free | root | checkpoint | journal | bad
deriving DecidableEq, Repr

/-- A NAND block (R364, R377 to R380). -/
structure Block where
  role   : BlockRole := .free
  /-- Erases since the counts of Store.baseErases. -/
  erases : Nat := 0
  reads  : Nat := 0
  /-- Pages programmed since the last erase, in page order. -/
  pages  : List StorePage := []
deriving DecidableEq, Repr

/-- What is on the NAND, which survives every reset (R364 to R367), and what the Cellar knows of it once it has read the
newer root: bad blocks, erase counts, the newest sealed checkpoint and the mark. -/
structure Store where
  /-- Blocks by number: blocks per target × place of the target among those present + block of the target. -/
  blocks    : Table Block := []
  bad       : List Nat := []
  /-- Erases that every good block has had by FORMAT. -/
  baseErases : Nat := 0
  sealedId  : Nat := 0
  sealedTai : Word := 0
  mark      : Nat := 0
  /-- The page programmed last on each target: block and place (R386). -/
  lastPages : Table (Nat × Nat) := []
deriving DecidableEq, Repr

/-- The states of the Cellar (R384). -/
inductive CellState where
  | stopped | starting | running | stopping | flushed
deriving DecidableEq, Repr

/-- A checkpoint being written (R372): its number and S. -/
structure Checkpoint where
  ckptId : Nat
  s      : Nat
deriving DecidableEq, Repr

/-- A page program under way (R371). -/
structure PageProgram where
  target : Nat
  block  : Nat
  page   : StorePage
deriving DecidableEq, Repr

/-- The Cellar (R362 to R388). -/
structure CellarUnit where
  st        : CellState := .stopped
  startHeld : Bool := false
  /-- The media that a held start will find. -/
  heldMedia : Option NandGeometry := none
  /-- A STOP waits for the restore to complete. -/
  stopHeld  : Bool := false
  noRestore : Bool := false
  pfail     : Bool := false
  /-- The media identified since reset. -/
  geom      : Option NandGeometry := none
  store     : Store := {}
  seq       : Nat := 0
  /-- The flush buffer and the held records, oldest first, with the instant each was staged. -/
  flush     : List (StoreRec × Nat) := []
  heldRecs  : List (StoreRec × Nat) := []
  program   : Option PageProgram := none
  /-- Round-robin place of the next target. -/
  nextTarget : Nat := 0
  /-- Bucket level in millionths of a byte, and the elapsed instant of its last fill (R371). -/
  tokens    : Int := 0
  tokensAt  : Nat := 0
  checkpoint : Option Checkpoint := none
  /-- Elapsed instant of the last seal; of the reset before the first one (R372, log entry 88). -/
  ckptBase  : Nat := 0
  degraded  : Bool := false
  drop      : Nat := 0
  severe    : Bool := false
  formatting : Option NandGeometry := none
  stopPages : Nat := 0
  /-- The SEQ counter as START found it: the restore selects below it (R386). -/
  startSeq  : Nat := 0
  /-- The power-fail flush programs the flush set, and has completed (R381). -/
  flushFill : Bool := false
  flushDone : Bool := false
  /-- The scrub's pass: when it began, the pages it has read, and the last of them (R380). -/
  scrubBase : Nat := 0
  scrubDone : Nat := 0
  scrubLast : Option (Nat × Nat) := none
  /-- MODEL's own: blocks on which an erase or a program fails while a command runs, as the command says; empty between
  commands (log entry 89). -/
  failing   : List Nat := []
  /-- HOST.CAP_CTL.MIB as read at the first table image load after reset (R357). -/
  capMib    : Option Nat := none
deriving DecidableEq, Repr

/-! ## Steward and Tinker -/

/-- A fault source (R403 to R412). -/
structure FaultSrc where
  /-- The pair of rails as synchronised, 2 TRUE + COMP (R403). -/
  rails   : Nat := 1
  /-- LEVEL, decoded from the rails: 0 QUIET, 1 FAULT, 2 INVALID (R403, R404). -/
  level   : Nat := 0
  /-- Sub-buckets, newest first (R407). -/
  buckets : List Nat := List.replicate 16 0
  /-- 0 NORMAL, 1 REACTED, 2 LATCHED, 3 MASKED. -/
  st      : Nat := 0
  /-- Reaction in force (R409), and the dependants of its unit as the reaction began (R411). -/
  react   : Nat := 0
  deps    : List Nat := []
  rcnt    : Nat := 0
  quietAt : Nat := 0
  normalAt : Nat := 0
  /-- End of the open consequence window (R411). -/
  window  : Option Nat := none
  sticky  : Bool := false
  broken  : Bool := false
  /-- Elapsed instant of the current sub-bucket's start. -/
  bucketAt : Nat := 0
deriving DecidableEq, Repr

/-- The Steward (R403 to R417). -/
structure StewUnit where
  srcs    : Table FaultSrc := []
  flt     : Bool := true
  alert   : Bool := false
  fltAt   : Nat := 0
  alertAt : Nat := 0
  wdog    : Bool := false
  /-- A management core classification that counts as SEVERE (R409, R413). -/
  coreSevere : List Nat := []
  coreFenced : List Nat := []
  tinkFenced : Bool := false
  ringFenced : List Ep := []
  /-- Management firmware has started the Steward (R416). -/
  started : Bool := false
deriving DecidableEq, Repr

/-- A slice under test or being freed (R419). -/
structure SliceTest where
  slice : Nat
  /-- The slice is held and its sources are masked. -/
  held  : Bool
  /-- Port whose handover frees an engine. -/
  port  : Option Nat
  since : Nat
  /-- Mismatches so far under this mask (R412, R425). -/
  bad   : Nat
deriving DecidableEq, Repr

/-- The last outcome of a slice (R429). -/
structure SliceOutcome where
  result : Nat := 0
  skip   : Nat := 0
  seedset : Nat := 0
  misr   : Word := 0
  golden : Word := 0
  tai    : Word := 0
deriving DecidableEq, Repr

/-- The Tinker (R418 to R429). -/
structure TinkUnit where
  st        : RunState := .stopped
  startHeld : Bool := false
  seedset   : Nat := 0
  goldErr   : Bool := false
  next      : Nat := 0
  /-- Earliest elapsed instant of the next selection (R426). -/
  notBefore : Nat := 0
  tests     : List SliceTest := []
  outcomes  : Table SliceOutcome := []
  peek      : List Word := [0, 0, 0, 0]
  pairAt    : Nat := 0
  pairRetryAt : Nat := 0
deriving DecidableEq, Repr

/-! ## Lifecycle, debug, power, boot -/

/-- Causes of a core-pair switch (R459). -/
inductive SwitchCause where
  | activate | revert | periodic | fence
deriving DecidableEq, Repr

/-- The boot record in force (R451). -/
structure BootRecord where
  cur : Nat := 0xFF
  lkg : Nat := 0xFF
  rej : Nat := 0
  fails : Nat := 0
deriving DecidableEq, Repr

/-- The configuration record in use, as read from boot flash at reset; the defaults where no copy is good (R450). -/
structure BootConfig where
  ssVendor  : Nat := 0x1F6B
  subsystem : Nat := 0
  /-- Pseudo-SLC is entered by SET FEATURES: its address and parameters P1 to P4 (R362). -/
  slcEn     : Bool := false
  slcFa     : Nat := 0
  slcP      : List Nat := [0, 0, 0, 0]
deriving DecidableEq, Repr

/-- A debug challenge (R435): what was requested, the number of its nonce, and the elapsed instant of issue. -/
structure Challenge where
  level : Nat
  key   : Nat
  nonce : Nat
  issued : Nat
deriving DecidableEq, Repr

/-- The SYS block's units (R84, R430 to R463, R482, R487). -/
structure SysUnit where
  /-- Power: 0 RUN, 1 TRIM, 2 DEPOT, 3 OFF. -/
  pwr       : Nat := 0
  moving    : Option Nat := none
  /-- The latest TARGET written during a move, or while fuses are programmed. -/
  targetHeld : Option Nat := none
  /-- VIN is present. -/
  powered   : Bool := true
  /-- PLL lock bits of CLK_STAT, CORE in bit 0 (R84). -/
  locks     : Nat := 0
  /-- The 25 MHz oscillator runs (R84, R140). -/
  osc25     : Bool := true
  /-- Fuses: lifecycle state and owner debug key hash. They survive every reset. -/
  fuseState : Nat := 0
  fuseHash  : Option (BitVec 384) := none
  fuseBroken : Bool := false
  /-- Number of the fuse secret drawn (log entry 6). -/
  secretNo  : Nat := 0
  /-- The fuse secret has been overwritten (R431). -/
  secretGone : Bool := false
  /-- A reset struck a rolling update or an activation, and the boot takes the pair that CUR names (R462, log entry 92). -/
  bootCur   : Bool := false
  /-- Lifecycle state in force (R430). -/
  lifecycle : Nat := 0
  lcBusy    : Option Nat := none
  lcPending : Bool := false
  lcResult  : Nat := 0
  /-- Test access port instruction register (R433). -/
  ir        : Nat := 1
  boundary  : Bytes := []
  level     : Nat := 0
  auth      : Bool := false
  keysel    : Nat := 0
  fails     : Nat := 0
  lockout   : Bool := false
  challenge : Option Challenge := none
  /-- The response under verification: public key and signature. -/
  response  : Option (Bytes × Bytes) := none
  /-- Nonces issued; it numbers them across resets (log entry 6). -/
  nonceNo   : Nat := 0
  /-- Management cores that the internal debug port has halted (R434, R438). -/
  halted    : List Nat := []
  /-- BOOT_STAT (R463). -/
  bootCause : Nat := 0
  bootFails : Nat := 0
  bootSel   : Nat := 0
  phase     : Nat := 0
  trial     : Bool := false
  lkgBoot   : Bool := false
  safe      : Bool := false
  pair      : Nat := 0
  standby   : Bool := false
  /-- Elapsed instant at which management firmware started (R455). -/
  fwStart   : Nat := 0
  record    : BootRecord := {}
  /-- SEQ of the boot record's current entry, 0 when there is none, and the place of the next one: 2048 sector + entry (R451). -/
  recordSeq : Nat := 0
  recordAt  : Nat := 0
  config    : BootConfig := {}
  /-- Boot flash bytes; an unlisted byte reads flashDefault (R449). -/
  flash     : Memory := []
  /-- Slots whose erase failed, each with the free value that stands for what the slot now holds (R458, log entry 4). -/
  flashLost : Table Nat := []
  pageBuf   : Memory := []
  bufIdx    : Nat := 0
  fwPeek    : Word := 0
  slotsValid : Nat := 0
  /-- Management slot and microcode slot that run. -/
  runMgmt   : Option Nat := none
  runMicro  : Option Nat := none
  fwResult  : Nat := 0
  confirmPend : Bool := false
  confirmAt : Nat := 0
  /-- The pending confirmation belongs to a rolling update. -/
  confirmRoll : Bool := false
  oldMgmt   : Option Nat := none
  oldMicro  : Option Nat := none
  roll      : Nat := 0
  rollNew   : Nat := 0
  rollSlot  : Nat := 0
  /-- Failures per port in the rolling update (R461). -/
  rollFails : Table Nat := []
  rollBack  : Bool := false
  busyOp    : Nat := 0
  /-- Slot of an activation (R460). -/
  actSlot   : Nat := 0
  /-- A core-pair switch that waits, and the elapsed instant at which its wait ends (R459). -/
  switchReq : Option (SwitchCause × Nat) := none
  /-- TJ and TJ_MAX in 0.25 °C (R487). -/
  tj        : Int := 0
  tjMax     : Int := -32768
deriving DecidableEq, Repr

/-! ## The block -/

/-- The state of the block. -/
structure State where
  /-- Commands that wait, first in, first out. -/
  pending  : List Instr := []
  gen      : Gen := {}
  time     : TimeBase := {}
  regs     : RegFile := {}
  engines  : Table Engine := []
  ports    : Table Port := []
  xcvr     : Xcvr := {}
  /-- Frames in flight by frame number. -/
  frames   : Table Frame := []
  nextFrame : Nat := 0
  watch    : WatchUnit := {}
  scriv    : ScrivUnit := {}
  crier    : CrierUnit := {}
  lock     : LockUnit := {}
  epA      : Endpoint := {}
  epB      : Endpoint := {}
  /-- Rings keyed 128 e + k. -/
  rings    : Table Ring := []
  bell     : BellUnit := {}
  dray     : DrayUnit := {}
  cellar   : CellarUnit := {}
  stew     : StewUnit := {}
  tink     : TinkUnit := {}
  sys      : SysUnit := {}
  /-- The model's own field: how many free values have been taken (log entry 4). -/
  free     : Nat := 0
  /-- The model's own field: what the block has sent outward, newest first (log entry 8). -/
  out      : List Out := []
deriving DecidableEq, Repr

/-- The block right after reset: every field at its default, the queue empty (log entry 2). -/
def State.reset : State := {}

end Sys2Proof.Machine
end

