-- ==== Sys2Proof/Machine/Ops.lean ====
section
/-! DEFINITION. The named operations that every unit uses: sparse tables and byte memories in canonical form, elapsed
time and TAI, register values in force, counters, and access to the parts of the state. -/

namespace Sys2Proof

/-- A word with one field replaced. -/
def Word.setField (w : Word) (lo len v : Nat) : Word :=
  BitVec.ofNat 64 (w.toNat - Word.field w lo len * 2 ^ lo + v % 2 ^ len * 2 ^ lo)

/-- Endpoint number: 0 for A, 1 for B (R10). -/
def Ep.idx : Ep → Nat
  | .a => 0
  | .b => 1

/-- The other endpoint. -/
def Ep.other : Ep → Ep
  | .a => .b
  | .b => .a

end Sys2Proof

namespace Sys2Proof.Machine

/-! ## Sparse tables -/

/-- The entry of a table at a key. -/
def Table.find? {α : Type} (k : Nat) : Table α → Option α
  | [] => none
  | (i, v) :: t => if i = k then some v else Table.find? k t

/-- A table with an entry put at a key, keys kept rising. -/
def Table.insert {α : Type} (k : Nat) (v : α) : Table α → Table α
  | [] => [(k, v)]
  | (i, w) :: t => if k < i then (k, v) :: (i, w) :: t else if i = k then (k, v) :: t else (i, w) :: Table.insert k v t

/-- A table without the entry at a key. -/
def Table.erase {α : Type} (k : Nat) : Table α → Table α
  | [] => []
  | (i, w) :: t => if i = k then Table.erase k t else (i, w) :: Table.erase k t

/-- What a table reads at a key: its entry, or the default of that key. -/
def Table.get {α : Type} (d : Nat → α) (t : Table α) (k : Nat) : α := (Table.find? k t).getD (d k)

/-- A write that keeps the canonical form: writing the default removes the entry. -/
def Table.set {α : Type} [DecidableEq α] (d : Nat → α) (t : Table α) (k : Nat) (v : α) : Table α :=
  if v = d k then Table.erase k t else Table.insert k v t

/-- Keys strictly rising, all of them at least lo. -/
def Table.sortedFrom {α : Type} (lo : Nat) : Table α → Bool
  | [] => true
  | (i, _) :: t => decide (lo ≤ i) && Table.sortedFrom (i + 1) t

/-- The canonical form: keys strictly rising, no entry equal to its key's default. -/
def Table.wf {α : Type} [DecidableEq α] (d : Nat → α) (t : Table α) : Bool :=
  Table.sortedFrom 0 t && t.all (fun e => decide (e.2 ≠ d e.1))

/-- Byte memories: the canonical form for memory whose unlisted bytes read as b. -/
def Memory.wf (b : Byte) (m : Memory) : Bool := Table.wf (fun _ => b) m
/-- One byte of a memory whose unlisted bytes read as b. -/
def Memory.read (b : Byte) (m : Memory) (a : Nat) : Byte := Table.get (fun _ => b) m a
/-- A write of one byte. -/
def Memory.write (b : Byte) (m : Memory) (a : Nat) (v : Byte) : Memory := Table.set (fun _ => b) m a v
/-- A run of n bytes from an address. -/
def Memory.readRun (b : Byte) (m : Memory) (a : Nat) : Nat → List Byte
  | 0 => []
  | n + 1 => Memory.read b m a :: Memory.readRun b m (a + 1) n
/-- A write of consecutive bytes from an address. -/
def Memory.writeRun (b : Byte) (m : Memory) (a : Nat) : List Byte → Memory
  | [] => m
  | v :: vs => Memory.writeRun b (Memory.write b m a v) (a + 1) vs

/-! ## Lists as sets and small helpers -/

/-- A number put into a rising list without repeats. -/
def setInsert (n : Nat) : List Nat → List Nat
  | [] => [n]
  | m :: t => if n < m then n :: m :: t else if n = m then m :: t else m :: setInsert n t

/-- A number taken out of a list. -/
def setErase (n : Nat) (l : List Nat) : List Nat := l.filter (fun m => m != n)

/-- The list with its i-th element changed. -/
def listMod {α : Type} (f : α → α) : Nat → List α → List α
  | _, [] => []
  | 0, a :: t => f a :: t
  | n + 1, a :: t => a :: listMod f n t

/-- A word built from fields, each given by its lowest bit and its value. -/
def pack (fs : List (Nat × Nat)) : Word := BitVec.ofNat 64 (fs.foldl (fun a f => a + f.2 * 2 ^ f.1) 0)

/-- The little-endian number of some bytes (R8). -/
def leNat : List Byte → Nat
  | [] => 0
  | b :: t => b.toNat + 256 * leNat t

/-- The first n bytes of a number, little-endian. -/
def leBytes (n v : Nat) : List Byte := (List.range n).map (fun i => BitVec.ofNat 8 (v / 256 ^ i % 256))

/-- The big-endian number of some bytes. -/
def beNat (l : List Byte) : Nat := l.foldl (fun a b => a * 256 + b.toNat) 0

/-- The n bytes of a number, big-endian. -/
def beBytes (n v : Nat) : List Byte := (leBytes n v).reverse

/-- Bytes in groups of eight as little-endian words; the last word's missing bytes are 0. -/
def leWords (l : List Byte) : List Word :=
  (List.range ((l.length + 7) / 8)).map (fun i => BitVec.ofNat 64 (leNat ((l.drop (8 * i)).take 8)))

/-- A signed number from the low len bits. -/
def signed (len v : Nat) : Int := if v < 2 ^ (len - 1) then (v : Int) else (v : Int) - (2 ^ len : Nat)

/-! ## Endpoints and keys of parts -/

/-- The endpoint of a number. -/
def epOf (n : Nat) : Ep := if n = 0 then .a else .b

/-- A RunState as register STATE fields encode it. -/
def RunState.code : RunState → Nat
  | .stopped => 0
  | .starting => 1
  | .running => 2
  | .stopping => 3

/-! ## Time (R31, R210) -/

/-- The time base: TAI in ns at an elapsed instant. -/
def State.taiAt (s : State) (t : Int) : Word := BitVec.ofInt 64 (t + s.time.offset)
/-- The time base now. -/
def State.tai (s : State) : Word := s.taiAt s.time.now
/-- Elapsed time moved forward to an instant; never backward. -/
def State.advanceTo (s : State) (t : Nat) : State :=
  { s with time := { s.time with now := max s.time.now t } }

/-! ## Registers in force and counters -/

/-- The in-force word of the register at a canonical offset (R62). -/
def State.reg (s : State) (off : Nat) : Word := Table.get resetWord s.regs.inForce off
/-- A field of an in-force word. -/
def State.fld (s : State) (off lo len : Nat) : Nat := (s.reg off).field lo len
/-- A one-bit field of an in-force word. -/
def State.flag (s : State) (off i : Nat) : Bool := (s.reg off).bit i
/-- An in-force word replaced. -/
def State.setReg (s : State) (off : Nat) (v : Word) : State :=
  { s with regs := { s.regs with inForce := Table.set resetWord s.regs.inForce off v } }
/-- A field of an in-force word replaced. -/
def State.setFld (s : State) (off lo len v : Nat) : State := s.setReg off ((s.reg off).setField lo len v)

/-- The live counter behind the RS register at an offset (R13, R69). -/
def State.counter (s : State) (off : Nat) : Word := Table.get (fun _ => 0) s.regs.counters off
/-- A counter with n events added, saturating (R13). -/
def satAdd (w : Word) (n : Nat) : Word := if w.toNat + n ≤ Word.max.toNat then BitVec.ofNat 64 (w.toNat + n) else Word.max
/-- n events counted. -/
def State.countN (s : State) (off n : Nat) : State :=
  { s with regs := { s.regs with counters := Table.set (fun _ => 0) s.regs.counters off (satAdd (s.counter off) n) } }
/-- One event counted. -/
def State.count (s : State) (off : Nat) : State := s.countN off 1
/-- One event counted if a condition holds. -/
def State.countIf (s : State) (c : Bool) (off : Nat) : State := if c then s.count off else s

/-! ## Parts of the state by number -/

/-- Port engine n. -/
def State.engine (s : State) (n : Nat) : Engine := Table.get (fun _ => {}) s.engines n
/-- Port engine n replaced. -/
def State.setEngine (s : State) (n : Nat) (e : Engine) : State :=
  { s with engines := Table.set (fun _ => {}) s.engines n e }
/-- Port engine n changed. -/
def State.modEngine (s : State) (n : Nat) (f : Engine → Engine) : State := s.setEngine n (f (s.engine n))

/-- Port p as it stands after reset: served by engine p (R147). -/
def portDefault (p : Nat) : Port := { serving := p }
/-- Bus port p. -/
def State.port (s : State) (p : Nat) : Port := Table.get portDefault s.ports p
/-- Bus port p replaced. -/
def State.setPort (s : State) (p : Nat) (v : Port) : State := { s with ports := Table.set portDefault s.ports p v }
/-- Bus port p changed. -/
def State.modPort (s : State) (p : Nat) (f : Port → Port) : State := s.setPort p (f (s.port p))
/-- The engine that serves port p (R147). -/
def State.serving (s : State) (p : Nat) : Nat := (s.port p).serving
/-- The port that engine n serves, if any (R147). -/
def State.portOf (s : State) (n : Nat) : Option Nat := (List.range 128).find? (fun p => s.serving p == n)
/-- The port on which engine n shadows, if any (R151). -/
def State.shadowedPort (s : State) (n : Nat) : Option Nat := (List.range 128).find? (fun p => (s.port p).shadow == some n)

/-- Integrated transceiver of port p. -/
def State.ip (s : State) (p : Nat) : Transceiver := Table.get (fun _ => {}) s.xcvr.ip p
/-- Integrated transceiver of port p changed. -/
def State.modIp (s : State) (p : Nat) (f : Transceiver → Transceiver) : State :=
  { s with xcvr := { s.xcvr with ip := Table.set (fun _ => {}) s.xcvr.ip p (f (s.ip p)) } }

/-- The frame in flight with a number. -/
def State.frame? (s : State) (fid : Nat) : Option Frame := Table.find? fid s.frames
/-- A frame in flight replaced. -/
def State.setFrame (s : State) (fid : Nat) (f : Frame) : State := { s with frames := Table.insert fid f s.frames }
/-- A frame in flight changed, if it is there. -/
def State.modFrame (s : State) (fid : Nat) (g : Frame → Frame) : State :=
  match s.frame? fid with
  | some f => s.setFrame fid (g f)
  | none => s

/-- Endpoint e. -/
def State.ep (s : State) : Ep → Endpoint
  | .a => s.epA
  | .b => s.epB
/-- Endpoint e changed. -/
def State.modEp (s : State) (e : Ep) (f : Endpoint → Endpoint) : State :=
  match e with
  | .a => { s with epA := f s.epA }
  | .b => { s with epB := f s.epB }
/-- An endpoint is usable (R323). -/
def Endpoint.usable (p : Endpoint) : Bool := p.link && !p.d3 && !p.flr && !p.fundamental && p.mse && p.bme
/-- Endpoint e is usable now. -/
def State.usable (s : State) (e : Ep) : Bool := (s.ep e).usable

/-- Ring k of endpoint e. -/
def State.ring (s : State) (e : Ep) (k : Nat) : Ring := Table.get (fun _ => {}) s.rings (128 * e.idx + k)
/-- Ring k of endpoint e changed. -/
def State.modRing (s : State) (e : Ep) (k : Nat) (f : Ring → Ring) : State :=
  { s with rings := Table.set (fun _ => {}) s.rings (128 * e.idx + k) (f (s.ring e k)) }

/-- Something sent outward (log entry 8). -/
def State.emit (s : State) (o : Out) : State := { s with out := o :: s.out }

/-- A free value taken: the state with its counter advanced, and the value (log entry 4). -/
def State.takeFree (s : State) : State × Word := ({ s with free := s.free + 1 }, Config.freeWord s.free)

/-- The owner of the configuration, as a path (R58). -/
def State.isOwner (s : State) (p : Path) : Bool :=
  match p with
  | .ep e => decide (e = s.regs.owner)
  | .mgmt => true

/-- The answer of a command that goes on. -/
abbrev Answer := Host.Outcome State Fault Refusal

end Sys2Proof.Machine
end

