-- ==== Sys2Proof/Machine/Bell.lean ====
section
/-! DEFINITION. The Bell Board: pending bits, delivery, messages, claim and end of interrupt (R389 to R402), and the
endpoint's MSI-X table (R393). Register writes and accesses to BAR4 reach the operations here through the fabric. -/

namespace Sys2Proof.Machine

/-- The endpoint that serves target t (R10). -/
def targetEp (t : Nat) : Ep := if t < 8 then .a else .b

/-- Target l of an endpoint (R402). -/
def targetOf (e : Ep) (l : Nat) : Nat := 8 * e.idx + l

/-- The stack of target t, top first (R395). -/
def State.bellStack (s : State) (t : Nat) : List (Nat × Nat) := Table.get (fun _ => []) s.bell.stack t

/-- The running priority of target t: that of its stack's top, 0 when empty. -/
def State.runPri (s : State) (t : Nat) : Nat :=
  match s.bellStack t with
  | [] => 0
  | (_, p) :: _ => p

/-- Priority of source n in force. -/
def State.bellPrio (s : State) (n : Nat) : Nat := s.fld (Reg.bellSrcCfg n) 16 4

/-- Source n is deliverable to target t (R390). -/
def State.deliverable (s : State) (t n : Nat) : Bool :=
  s.flag (Reg.bellSrcCfg n) 0 && s.fld (Reg.bellSrcCfg n) 8 4 == t && decide (s.runPri t < s.bellPrio n) &&
  !s.bell.masked.contains t && !s.flag Reg.bellCtl 0

/-- The pending sources deliverable to target t, in rising order of number. -/
def State.deliverables (s : State) (t : Nat) : List Nat := s.bell.pend.filter (s.deliverable t)

/-- The source a claim returns: highest priority, then lowest number (R394). -/
def State.bestSource (s : State) (t : Nat) : Option Nat :=
  (s.deliverables t).foldl (fun b n =>
    match b with
    | none => some n
    | some m => if s.bellPrio m < s.bellPrio n then some n else some m) none

/-- A 32-bit word of an endpoint's MSI-X table; vector control words are masked at reset (R393, log entry 9). -/
def msixDefault (i : Nat) : BitVec 32 := if i % 4 = 3 then 1 else 0
/-- Word i of the MSI-X table. -/
def Endpoint.msixWord (p : Endpoint) (i : Nat) : BitVec 32 := Table.get msixDefault p.msix i

/-- Vector v of an endpoint is masked, itself or with the function (R393). -/
def Endpoint.vectorMasked (p : Endpoint) (v : Nat) : Bool := p.funcMask || (p.msixWord (4 * v + 3)).getLsbD 0

/-- The message of vector v leaves the endpoint with its table entry's address and data (R392). -/
def State.sendVector (s : State) (e : Ep) (v : Nat) : State :=
  let p := s.ep e
  s.emit (.message e v ((p.msixWord (4 * v + 1)).toNat * 2 ^ 32 + (p.msixWord (4 * v)).toNat |> BitVec.ofNat 64)
    (p.msixWord (4 * v + 2)).toNat)

/-- A message request for vector v: sent, or noted in the pending bit array while masked (R393). -/
def State.requestVector (s : State) (e : Ep) (v : Nat) : State :=
  if (s.ep e).vectorMasked v then s.modEp e (fun p => { p with pba := p.pba ||| (1#64 <<< v) }) else s.sendVector e v

/-- The Bell Board sends a message for target t if one is due (R391). -/
def State.bellMessage (s : State) (t : Nat) : State :=
  if !s.bell.signalled.contains t && s.usable (targetEp t) && !(s.deliverables t).isEmpty then
    let s := (s.count (Reg.bellMsgs t)).requestVector (targetEp t) (s.fld (Reg.bellTgtCfg t) 0 6)
    { s with bell := { s.bell with signalled := setInsert t s.bell.signalled } }
  else s

/-- Every target's due message (R391, R392). -/
def State.bellService (s : State) : State := (List.range 16).foldl State.bellMessage s

/-- Sources that some unit raises; the others are not used (R400). -/
def sourceUsed (n : Nat) : Bool := (1 ≤ n ∧ n ≤ 17) ∨ (32 ≤ n ∧ n ≤ 351)

/-- A source is raised (R389): its pending bit is set, or the raise coalesces. -/
def State.raise (s : State) (n : Nat) : State :=
  if !sourceUsed n then s
  else if s.bell.pend.contains n then s.count Reg.bellCoalesced
  else State.bellService { s with bell := { s.bell with pend := setInsert n s.bell.pend } }

/-- A source is raised if a condition holds. -/
def State.raiseIf (s : State) (c : Bool) (n : Nat) : State := if c then s.raise n else s

/-- The pending bit of a source is cleared (R389); 0 is ignored. -/
def State.bellPendClr (s : State) (n : Nat) : State :=
  { s with bell := { s.bell with pend := setErase n s.bell.pend } }

/-- The loss of an endpoint empties its targets' stacks and clears SIGNALLED (R399). -/
def State.bellEndpointLost (s : State) (e : Ep) : State :=
  { s with bell := { s.bell with
      stack := s.bell.stack.filter (fun x => targetEp x.1 != e)
      signalled := s.bell.signalled.filter (fun t => targetEp t != e) } }

/-- A claim of target t: the new state and what the read returns (R394, R402). -/
def State.bellClaim (s : State) (t : Nat) : State × Word :=
  let stk := s.bellStack t
  match s.bestSource t with
  | some n =>
    let s' := (s.count (Reg.bellClaims t)).countIf (!stk.isEmpty) (Reg.bellNested t)
    ({ s' with bell := { s.bell with
        pend := setErase n s.bell.pend
        stack := Table.set (fun _ => []) s.bell.stack t ((n, s.bellPrio n) :: stk)
        signalled := setErase t s.bell.signalled } },
      pack [(0, n), (16, s.bellPrio n), (24, stk.length + 1)])
  | none =>
    let s' := s.count (Reg.bellSpurious t)
    ({ s' with bell := { s.bell with signalled := setErase t s.bell.signalled } }, pack [(24, stk.length)])

/-- The stack without the topmost entry of source n; none where the source is not on it (R396). -/
def stackRemove (n : Nat) : List (Nat × Nat) → Option (List (Nat × Nat))
  | [] => none
  | (m, p) :: t => if m = n then some t else (stackRemove n t).map (fun r => (m, p) :: r)

/-- An end of interrupt for source n at target t (R396). -/
def State.bellEoi (s : State) (t n : Nat) : State :=
  match stackRemove n (s.bellStack t) with
  | some r => State.bellService { s with bell := { s.bell with stack := Table.set (fun _ => []) s.bell.stack t r } }
  | none => s.count (Reg.bellStray t)

/-- MASK of target t written (R398). -/
def State.bellSetMask (s : State) (t : Nat) (m : Bool) : State :=
  State.bellService { s with bell := { s.bell with masked := if m then setInsert t s.bell.masked else setErase t s.bell.masked } }

/-- The pending message of vector v goes out where neither the vector nor the function is masked (R393); an endpoint that
is not usable issues none, and its pending bit waits (R399). -/
def State.msixFlush (s : State) (e : Ep) (v : Nat) : State :=
  if s.usable e && (s.ep e).pba.bit v && !(s.ep e).vectorMasked v then
    (s.modEp e (fun p => { p with pba := p.pba &&& ~~~(1#64 <<< v) })).sendVector e v
  else s

/-- Every pending message of an endpoint that may go out does so (R393, R399). -/
def State.msixFlushAll (s : State) (e : Ep) : State := (List.range 64).foldl (fun s v => s.msixFlush e v) s

/-- A write of one 32-bit word of the MSI-X table; a vector whose mask clears sends its pending message (R393). -/
def State.msixWord (s : State) (e : Ep) (i : Nat) (w : BitVec 32) : State :=
  (s.modEp e (fun p => { p with msix := Table.set msixDefault p.msix i w })).msixFlush e (i / 4)

/-- A write of the MSI-X structures (R393, R402): an aligned access inside the table of 64 entries is performed word by word,
any other access to BAR4 but the claim windows is ignored and counted; a function mask that clears sends what is pending. No
write to BAR4 re-arms a guard lock (R68). -/
def State.msixWrite (s : State) (e : Ep) (w : MsixPlace) (size : Nat) (val : Word) : State :=
  match w with
  | .table off =>
    if off + size ≤ 1024 ∧ off % size = 0 ∧ (size = 4 ∨ size = 8) then
      let s := s.msixWord e (off / 4) (val.setWidth 32)
      if size = 8 then s.msixWord e (off / 4 + 1) ((val >>> 32).setWidth 32) else s
    else s.count Reg.genBadAccess
  | .functionMask => (s.modEp e (fun p => { p with funcMask := val.bit 0 })).msixFlushAll e

/-! ## Commands -/

/-- SOURCE_RAISE (R389). -/
def execSourceRaise (src : Nat) (s : State) : Answer := .next (s.raise src)

end Sys2Proof.Machine
end

