-- ==== Sys2Proof/Machine/Crypto.lean ====
section
/-! DEFINITION. The cryptography of seals, wrapped keys, boot and debug: AES (FIPS 197), CMAC (SP 800-38B), GHASH and GCM (SP 800-38D),
AES-KW unwrapping (SP 800-38F), SHA-384 (FIPS 180-4) and ECDSA P-384 verification (FIPS 186-5), as R5, R295, R312, R435 and
R453 name them (log entry 6). -/

namespace Sys2Proof.Machine

/-! ## AES -/

/-- Multiplication by x in the AES field. -/
def xtime (b : Byte) : Byte := (b <<< 1) ^^^ (if b.getLsbD 7 then 0x1B#8 else 0#8)

/-- Multiplication in the AES field: a times the n low bits of b, from bit i on. -/
def gmulFrom (a b : Byte) (i : Nat) : Nat → Byte
  | 0 => 0#8
  | n + 1 => (if b.getLsbD i then a else 0#8) ^^^ gmulFrom (xtime a) b (i + 1) n

/-- Multiplication in the AES field. -/
def gmul (a b : Byte) : Byte := gmulFrom a b 0 8

/-- The inverse in the AES field: a to the 254th; 0 for 0. -/
def ginv (a : Byte) : Byte :=
  let a2 := gmul a a
  let a3 := gmul a2 a
  let a6 := gmul a3 a3
  let a12 := gmul a6 a6
  let a15 := gmul a12 a3
  let a30 := gmul a15 a15
  let a60 := gmul a30 a30
  let a120 := gmul a60 a60
  let a126 := gmul a120 a6
  let a127 := gmul a126 a
  gmul a127 a127

/-- The S-box. -/
def sbox (a : Byte) : Byte :=
  let i := ginv a
  i ^^^ i.rotateLeft 1 ^^^ i.rotateLeft 2 ^^^ i.rotateLeft 3 ^^^ i.rotateLeft 4 ^^^ 0x63#8

/-- The inverse S-box. -/
def invSbox (a : Byte) : Byte := ginv (a.rotateLeft 1 ^^^ a.rotateLeft 3 ^^^ a.rotateLeft 6 ^^^ 0x05#8)

/-- Bytes combined by exclusive or. -/
def xorBytes (a b : List Byte) : List Byte := List.zipWith (· ^^^ ·) a b

/-- Byte i of a list; 0 beyond its end. -/
def byteAt (l : List Byte) (i : Nat) : Byte := (l[i]?).getD 0#8

/-- The round constant of step i. -/
def rcon : Nat → Byte
  | 0 => 0x8D#8
  | n + 1 => xtime (rcon n)

/-- Words of the key schedule in reverse order: the key's words, and n more. -/
def keyWords (key : List Byte) (nk : Nat) : Nat → List (List Byte)
  | 0 => ((List.range nk).map (fun i => (key.drop (4 * i)).take 4)).reverse
  | n + 1 =>
    let ws := keyWords key nk n
    let t := (ws[0]?).getD []
    let i := nk + n
    let t := if i % nk = 0 then
        xorBytes (((t.drop 1) ++ t.take 1).map sbox) [rcon (i / nk), 0#8, 0#8, 0#8]
      else if 6 < nk ∧ i % nk = 4 then t.map sbox else t
    xorBytes ((ws[nk - 1]?).getD []) t :: ws

/-- Round keys of a key of 16 or 32 bytes. -/
def roundKeys (key : List Byte) : List (List Byte) :=
  let nk := key.length / 4
  let ws := (keyWords key nk (4 * (nk + 7) - nk)).reverse
  (List.range (nk + 7)).map (fun r => ((ws.drop (4 * r)).take 4).flatten)

/-- ShiftRows, by the shift of row r. -/
def shiftRows (back : Bool) (s : List Byte) : List Byte :=
  (List.range 16).map (fun i => byteAt s (i % 4 + 4 * ((i / 4 + (if back then 4 - i % 4 else i % 4)) % 4)))

/-- MixColumns with the four coefficients of its first row. -/
def mixColumns (m : List Byte) (s : List Byte) : List Byte :=
  (List.range 16).map (fun i =>
    (List.range 4).foldl (fun (a : Byte) k => a ^^^ gmul (byteAt m ((k + 4 - i % 4) % 4)) (byteAt s (i / 4 * 4 + k))) 0#8)

/-- One block enciphered under round keys. -/
def aesEncrypt (ks : List (List Byte)) (b : List Byte) : List Byte :=
  match ks with
  | [] => b
  | k0 :: t =>
    let mid := t.dropLast.foldl (fun s k => xorBytes (mixColumns [2#8, 3#8, 1#8, 1#8] (shiftRows false (s.map sbox))) k) (xorBytes b k0)
    xorBytes (shiftRows false (mid.map sbox)) ((t.getLast?).getD [])

/-- One block deciphered under round keys. -/
def aesDecrypt (ks : List (List Byte)) (b : List Byte) : List Byte :=
  match ks.reverse with
  | [] => b
  | kn :: t =>
    let mid := t.dropLast.foldl (fun s k => mixColumns [0x0E#8, 0x0B#8, 0x0D#8, 0x09#8] (xorBytes ((shiftRows true s).map invSbox) k))
      (xorBytes b kn)
    xorBytes ((shiftRows true mid).map invSbox) ((t.getLast?).getD [])

/-! ## CMAC -/

/-- Doubling in the field of CMAC. -/
def cmacDouble (x : BitVec 128) : BitVec 128 := (x <<< 1) ^^^ (if x.getLsbD 127 then 0x87#128 else 0#128)

/-- A block as a number. -/
def blockNum (b : List Byte) : BitVec 128 := BitVec.ofNat 128 (beNat b)
/-- A number as a block. -/
def numBlock (x : BitVec 128) : List Byte := beBytes 16 x.toNat

/-- Blocks of 16 bytes; the last may be short. -/
def blocksOf (m : List Byte) : List (List Byte) := (List.range ((m.length + 15) / 16)).map (fun i => (m.drop (16 * i)).take 16)

/-- CMAC of a message. -/
def cmac (key m : List Byte) : List Byte :=
  let ks := roundKeys key
  let k1 := cmacDouble (blockNum (aesEncrypt ks (List.replicate 16 0#8)))
  let k2 := cmacDouble k1
  let bs := if m = [] then [[]] else blocksOf m
  let last := (bs.getLast?).getD []
  let final := if last.length = 16 then blockNum last ^^^ k1
    else blockNum (last ++ [0x80#8] ++ List.replicate (15 - last.length) 0#8) ^^^ k2
  aesEncrypt ks (xorBytes (numBlock final) (bs.dropLast.foldl (fun x b => aesEncrypt ks (xorBytes x b)) (List.replicate 16 0#8)))

/-! ## GCM -/

/-- Multiplication in the field of GHASH: n bits of x from bit i down. -/
def ghashMulFrom (x v : BitVec 128) (i : Nat) : Nat → BitVec 128
  | 0 => 0#128
  | n + 1 =>
    (if x.getLsbD i then v else 0#128) ^^^
      ghashMulFrom x ((v >>> 1) ^^^ (if v.getLsbD 0 then 0xE1#128 <<< 120 else 0#128)) (i - 1) n

/-- GHASH of whole and short blocks, short ones padded with zeros. -/
def ghash (h : BitVec 128) (bs : List (List Byte)) : BitVec 128 :=
  bs.foldl (fun y b => ghashMulFrom (y ^^^ blockNum (b ++ List.replicate (16 - b.length) 0#8)) h 127 128) 0#128

/-- Counter mode from a 12-byte IV, the first counter being 2. -/
def gctr (ks : List (List Byte)) (iv m : List Byte) : List Byte :=
  ((List.range ((m.length + 15) / 16)).flatMap (fun i =>
    xorBytes ((m.drop (16 * i)).take 16) (aesEncrypt ks (iv ++ beBytes 4 (i + 2)))))

/-- The GCM tag over additional data and ciphertext. -/
def gcmTag (key iv aad c : List Byte) : List Byte :=
  let ks := roundKeys key
  let h := blockNum (aesEncrypt ks (List.replicate 16 0#8))
  let y := ghash h (blocksOf aad ++ blocksOf c ++ [beBytes 8 (8 * aad.length) ++ beBytes 8 (8 * c.length)])
  xorBytes (numBlock y) (aesEncrypt ks (iv ++ beBytes 4 1))

/-! ## AES-KW -/

/-- One step of unwrapping: step t of n half blocks. -/
def unwrapStep (ks : List (List Byte)) (n : Nat) (x : List Byte × List (List Byte)) (t : Nat) : List Byte × List (List Byte) :=
  let i := (t - 1) % n
  let b := aesDecrypt ks (xorBytes x.1 (beBytes 8 t) ++ (x.2[i]?).getD [])
  (b.take 8, listMod (fun _ => b.drop 8) i x.2)

/-- AES-KW unwrapping of a blob of at least three half blocks; none where the integrity check fails. -/
def unwrapKey (key blob : List Byte) : Option (List Byte) :=
  let n := blob.length / 8 - 1
  let ks := roundKeys key
  let halves := (List.range n).map (fun i => (blob.drop (8 * (i + 1))).take 8)
  let x := ((List.range (6 * n)).reverse.map (· + 1)).foldl (unwrapStep ks n) (blob.take 8, halves)
  if x.1 = List.replicate 8 0xA6#8 then some x.2.flatten else none

/-! ## SHA-384 -/

/-- Constants 0 to 9 of SHA-512 and SHA-384. -/
def shaK0 : List Word :=
  [0x428A2F98D728AE22, 0x7137449123EF65CD, 0xB5C0FBCFEC4D3B2F, 0xE9B5DBA58189DBBC, 0x3956C25BF348B538,
   0x59F111F1B605D019, 0x923F82A4AF194F9B, 0xAB1C5ED5DA6D8118, 0xD807AA98A3030242, 0x12835B0145706FBE]

/-- Constants 10 to 19 of SHA-512 and SHA-384. -/
def shaK1 : List Word :=
  [0x243185BE4EE4B28C, 0x550C7DC3D5FFB4E2, 0x72BE5D74F27B896F, 0x80DEB1FE3B1696B1, 0x9BDC06A725C71235,
   0xC19BF174CF692694, 0xE49B69C19EF14AD2, 0xEFBE4786384F25E3, 0x0FC19DC68B8CD5B5, 0x240CA1CC77AC9C65]

/-- Constants 20 to 29 of SHA-512 and SHA-384. -/
def shaK2 : List Word :=
  [0x2DE92C6F592B0275, 0x4A7484AA6EA6E483, 0x5CB0A9DCBD41FBD4, 0x76F988DA831153B5, 0x983E5152EE66DFAB,
   0xA831C66D2DB43210, 0xB00327C898FB213F, 0xBF597FC7BEEF0EE4, 0xC6E00BF33DA88FC2, 0xD5A79147930AA725]

/-- Constants 30 to 39 of SHA-512 and SHA-384. -/
def shaK3 : List Word :=
  [0x06CA6351E003826F, 0x142929670A0E6E70, 0x27B70A8546D22FFC, 0x2E1B21385C26C926, 0x4D2C6DFC5AC42AED,
   0x53380D139D95B3DF, 0x650A73548BAF63DE, 0x766A0ABB3C77B2A8, 0x81C2C92E47EDAEE6, 0x92722C851482353B]

/-- Constants 40 to 49 of SHA-512 and SHA-384. -/
def shaK4 : List Word :=
  [0xA2BFE8A14CF10364, 0xA81A664BBC423001, 0xC24B8B70D0F89791, 0xC76C51A30654BE30, 0xD192E819D6EF5218,
   0xD69906245565A910, 0xF40E35855771202A, 0x106AA07032BBD1B8, 0x19A4C116B8D2D0C8, 0x1E376C085141AB53]

/-- Constants 50 to 59 of SHA-512 and SHA-384. -/
def shaK5 : List Word :=
  [0x2748774CDF8EEB99, 0x34B0BCB5E19B48A8, 0x391C0CB3C5C95A63, 0x4ED8AA4AE3418ACB, 0x5B9CCA4F7763E373,
   0x682E6FF3D6B2B8A3, 0x748F82EE5DEFB2FC, 0x78A5636F43172F60, 0x84C87814A1F0AB72, 0x8CC702081A6439EC]

/-- Constants 60 to 69 of SHA-512 and SHA-384. -/
def shaK6 : List Word :=
  [0x90BEFFFA23631E28, 0xA4506CEBDE82BDE9, 0xBEF9A3F7B2C67915, 0xC67178F2E372532B, 0xCA273ECEEA26619C,
   0xD186B8C721C0C207, 0xEADA7DD6CDE0EB1E, 0xF57D4F7FEE6ED178, 0x06F067AA72176FBA, 0x0A637DC5A2C898A6]

/-- Constants 70 to 79 of SHA-512 and SHA-384. -/
def shaK7 : List Word :=
  [0x113F9804BEF90DAE, 0x1B710B35131C471B, 0x28DB77F523047D84, 0x32CAAB7B40C72493, 0x3C9EBE0A15C9BEBC,
   0x431D67C49C100D4C, 0x4CC5D4BECB3E42B6, 0x597F299CFC657E2A, 0x5FCB6FAB3AD6FAEC, 0x6C44198C4A475817]

/-- The eighty constants, one a round. -/
def shaK : List Word := shaK0 ++ shaK1 ++ shaK2 ++ shaK3 ++ shaK4 ++ shaK5 ++ shaK6 ++ shaK7

/-- The eight working variables. -/
structure ShaState where
  a : Word
  b : Word
  c : Word
  d : Word
  e : Word
  f : Word
  g : Word
  h : Word
deriving DecidableEq, Repr

/-- The hash value that SHA-384 begins with. -/
def shaInit : ShaState :=
  { a := 0xCBBB9D5DC1059ED8, b := 0x629A292A367CD507, c := 0x9159015A3070DD17, d := 0x152FECD8F70E5939,
    e := 0x67332667FFC00B31, f := 0x8EB44A8768581511, g := 0xDB0C2E0D64F98FA7, h := 0x47B5481DBEFA4FA4 }

/-- Words of the message schedule in reverse order: the block's sixteen, and n more. -/
def shaSchedule (block : List Word) : Nat → List Word
  | 0 => block.reverse
  | n + 1 =>
    let ws := shaSchedule block n
    let w : Nat → Word := fun i => (ws[i]?).getD 0
    let s0 := (w 14).rotateRight 1 ^^^ (w 14).rotateRight 8 ^^^ (w 14 >>> 7)
    let s1 := (w 1).rotateRight 19 ^^^ (w 1).rotateRight 61 ^^^ (w 1 >>> 6)
    (w 15 + s0 + w 6 + s1) :: ws

/-- One round, with its constant and its schedule word. -/
def shaRound (x : ShaState) (k w : Word) : ShaState :=
  let t1 := x.h + (x.e.rotateRight 14 ^^^ x.e.rotateRight 18 ^^^ x.e.rotateRight 41) + ((x.e &&& x.f) ^^^ (~~~x.e &&& x.g)) + k + w
  let t2 := (x.a.rotateRight 28 ^^^ x.a.rotateRight 34 ^^^ x.a.rotateRight 39) + ((x.a &&& x.b) ^^^ (x.a &&& x.c) ^^^ (x.b &&& x.c))
  { a := t1 + t2, b := x.a, c := x.b, d := x.c, e := x.d + t1, f := x.e, g := x.f, h := x.g }

/-- The hash value after one more block of sixteen words. -/
def shaBlock (x : ShaState) (block : List Word) : ShaState :=
  let y := (shaK.zip (shaSchedule block 64).reverse).foldl (fun y kw => shaRound y kw.1 kw.2) x
  { a := x.a + y.a, b := x.b + y.b, c := x.c + y.c, d := x.d + y.d, e := x.e + y.e, f := x.f + y.f, g := x.g + y.g, h := x.h + y.h }

/-- A message padded to whole blocks of 128 bytes. -/
def shaPad (m : List Byte) : List Byte :=
  m ++ [0x80#8] ++ List.replicate ((239 - m.length % 128) % 128) 0#8 ++ beBytes 16 (8 * m.length)

/-- The sixteen words of block i. -/
def shaWords (m : List Byte) (i : Nat) : List Word :=
  let d := (m.drop (128 * i)).take 128
  (List.range 16).map (fun j => BitVec.ofNat 64 (beNat ((d.drop (8 * j)).take 8)))

/-- SHA-384 of a message. -/
@[irreducible] def sha384 (m : List Byte) : BitVec 384 :=
  let q := shaPad m
  let x := (List.range (q.length / 128)).foldl (fun x i => shaBlock x (shaWords q i)) shaInit
  x.a ++ x.b ++ x.c ++ x.d ++ x.e ++ x.f

/-! ## ECDSA on P-384 -/

/-- The prime of the field. -/
def p384 : Nat := 2 ^ 384 - 2 ^ 128 - 2 ^ 96 + 2 ^ 32 - 1
/-- The order of the base point. -/
def p384Order : Nat := 0xFFFFFFFFFFFFFFFFFFFFFFFFFFFFFFFFFFFFFFFFFFFFFFFFC7634D81F4372DDF581A0DB248B0A77AECEC196ACCC52973
/-- The constant term of the curve. -/
def p384B : Nat := 0xB3312FA7E23EE7E4988E056BE3F82D19181D9C6EFE8141120314088F5013875AC656398D8A2ED19D2A85C8EDD3EC2AEF
/-- The base point. -/
def p384Base : Nat × Nat :=
  (0xAA87CA22BE8B05378EB1C71EF320AD746E1D3B628BA79B9859F741E082542A385502F25DBF55296C3A545E3872760AB7,
   0x3617DE4A96262C6F5D9E98BF9292DC29F8F41DBD289A147CE9DA3113B5F0B8C00A60B1CE1D7E819D7A431D7C90EA0E5F)

/-- A power modulo n: the exponent's k low bits. -/
def powMod (n : Nat) (b e : Nat) : Nat → Nat
  | 0 => 1
  | k + 1 =>
    let h := powMod n (b * b % n) (e / 2) k
    if e % 2 = 1 then b * h % n else h

/-- The inverse modulo a prime below 2^384. -/
def invMod (n a : Nat) : Nat := powMod n (a % n) (n - 2) 384

/-- The sum of two points of the curve; none is the point at infinity. -/
def pointAdd (a b : Option (Nat × Nat)) : Option (Nat × Nat) :=
  match a, b with
  | none, q => q
  | q, none => q
  | some (x1, y1), some (x2, y2) =>
    if x1 = x2 ∧ (y1 + y2) % p384 = 0 then none
    else
      let l := if x1 = x2 then (3 * x1 * x1 + (p384 - 3)) * invMod p384 (2 * y1) % p384
        else (y2 + (p384 - y1)) * invMod p384 (x2 + (p384 - x1)) % p384
      let x := (l * l + (2 * p384 - x1 - x2)) % p384
      some (x, (l * (x1 + (p384 - x)) + (p384 - y1)) % p384)

/-- A multiple of a point: the factor's k low bits. -/
def pointMul (q : Option (Nat × Nat)) (e : Nat) : Nat → Option (Nat × Nat)
  | 0 => none
  | k + 1 =>
    let h := pointMul (pointAdd q q) (e / 2) k
    if e % 2 = 1 then pointAdd q h else h

/-- The point is on the curve, its coordinates below the prime. -/
def onCurve (x y : Nat) : Bool :=
  decide (x < p384) && decide (y < p384) && (y * y % p384 == (x * x * x + (p384 - 3) * x + p384B) % p384)

/-- A signature r then s verifies under an uncompressed public key and a message hash (FIPS 186-5). -/
@[irreducible] def ecdsaOk (key : List Byte) (hash : BitVec 384) (sig : List Byte) : Bool :=
  let x := beNat ((key.drop 1).take 48)
  let y := beNat ((key.drop 49).take 48)
  let r := beNat (sig.take 48)
  let s := beNat ((sig.drop 48).take 48)
  let w := invMod p384Order s
  let u1 := hash.toNat * w % p384Order
  let u2 := r * w % p384Order
  byteAt key 0 == 4#8 && onCurve x y && decide (1 ≤ r ∧ r < p384Order) && decide (1 ≤ s ∧ s < p384Order) &&
  match pointAdd (pointMul (some p384Base) u1 384) (pointMul (some (x, y)) u2 384) with
  | none => false
  | some (x', _) => x' % p384Order == r

end Sys2Proof.Machine
end

