-- ==== Sys2Proof/Machine/Operands.lean ====
section
/-! DEFINITION. Operand forms: frame headers and lengths (R86), the lookup key (R165), CRC-32C (R167), and the fields of
watch entries (R172), route entries (R256), signal descriptors (R203) and decode op words (R182). -/

namespace Sys2Proof

/-! ## Frames (R86) -/

/-- Data length that an FD DLC codes (R86). -/
def fdLen (dlc : Nat) : Nat :=
  match dlc with
  | 9 => 12 | 10 => 16 | 11 => 20 | 12 => 24 | 13 => 32 | 14 => 48 | 15 => 64
  | n => n

/-- The FD lengths, with their DLC (R86). -/
def fdLengths : List (Nat × Nat) := (List.range 16).map (fun d => (fdLen d, d))

/-- Data length that a DLC codes in a format (R86). -/
def dataLen (fmt dlc : Nat) : Nat :=
  match fmt with
  | 2 | 3 => fdLen dlc
  | 4 => dlc % 2048 + 1
  | 5 | 6 => 0
  | _ => min dlc 8

/-- DLC of an FD length; none for a length FD does not have. -/
def fdDlc? (len : Nat) : Option Nat := (fdLengths.find? (fun p => p.1 == len)).map (·.2)

/-- The DLC that a length has in a format: 11 bits, length − 1, in XL; the given one where the length does not fix it (R86). -/
def dlcOf (fmt len dlc : Nat) : Nat :=
  match fmt with
  | 2 | 3 => (fdDlc? len).getD dlc
  | 4 => len - 1
  | _ => dlc

/-- Data length of a frame on the bus, as its DLC codes it (R86). -/
def BusFrame.len (f : BusFrame) : Nat := dataLen f.fmt f.dlc

/-- The smallest FD length that holds n bytes (R303). -/
def fdLenAtLeast (n : Nat) : Option (Nat × Nat) := fdLengths.find? (fun p => n ≤ p.1)

/-- Format codes of FD frames. -/
def isFd (fmt : Nat) : Bool := fmt == 2 || fmt == 3
/-- Format codes with a 29-bit identifier. -/
def isExtended (fmt : Nat) : Bool := fmt == 1 || fmt == 3 || fmt == 6
/-- Format codes of remote frames. -/
def isRemote (fmt : Nat) : Bool := fmt == 5 || fmt == 6
/-- Format codes of classic data frames. -/
def isClassicData (fmt : Nat) : Bool := fmt == 0 || fmt == 1

/-! ## Lookup key and hash -/

/-- The format code after folding (R166). -/
def foldFmt (fold : Bool) (fmt : Nat) : Nat := if fold && fmt == 2 then 0 else if fold && fmt == 3 then 1 else fmt

/-- The 64-bit key word of a received header (R165). -/
def BusFrame.keyWord (f : BusFrame) (port : Nat) (fold : Bool) : Word :=
  let xl := f.fmt == 4
  Machine.pack [(56, port), (53, foldFmt fold f.fmt), (24, if isExtended f.fmt then f.ident % 2 ^ 29 else f.ident % 2 ^ 11),
    (16, if xl then f.sdt else 0), (8, if xl then f.vcid else 0)]

/-- One step of the reflected CRC-32C. -/
def crc32cBit (c : BitVec 32) : BitVec 32 := if c.getLsbD 0 then (c >>> 1) ^^^ 0x82F63B78#32 else c >>> 1

/-- One byte into the CRC-32C register. -/
def crc32cByte (c : BitVec 32) (b : Byte) : BitVec 32 :=
  let c := c ^^^ b.setWidth 32
  crc32cBit (crc32cBit (crc32cBit (crc32cBit (crc32cBit (crc32cBit (crc32cBit (crc32cBit c)))))))

/-- Bytes into the CRC-32C register. -/
def crc32cUpdate (c : BitVec 32) (l : List Byte) : BitVec 32 := l.foldl crc32cByte c

/-- CRC-32C of bytes: initial value and final XOR all ones (R167). -/
def crc32c (l : List Byte) : BitVec 32 := crc32cUpdate 0xFFFFFFFF#32 l ^^^ 0xFFFFFFFF#32

/-- Home bucket of a key for a seed: bits [15:0] of the CRC-32C over key and seed (R167). -/
def homeBucket (key : Word) (seed : Nat) : Nat :=
  (crc32c (Machine.leBytes 8 key.toNat ++ Machine.leBytes 4 seed)).toNat % 65536

namespace Machine

/-! ## Watch entries (R172) -/

/-- The three words of a watch entry. -/
abbrev WatchEntry := Word × Word × Word

/-- Key with VALID (word 0). -/
def WatchEntry.valid (w : WatchEntry) : Bool := w.1.bit 63
def WatchEntry.port (w : WatchEntry) : Nat := w.1.field 56 7
def WatchEntry.fmt (w : WatchEntry) : Nat := w.1.field 53 3
def WatchEntry.ident (w : WatchEntry) : Nat := w.1.field 24 29
def WatchEntry.opBase (w : WatchEntry) : Nat := w.2.1.field 40 24
def WatchEntry.opCount (w : WatchEntry) : Nat := w.2.1.field 28 12
def WatchEntry.fanGroup (w : WatchEntry) : Bool := w.2.1.bit 27
def WatchEntry.routeCount (w : WatchEntry) : Nat := w.2.1.field 16 6
def WatchEntry.routeBase (w : WatchEntry) : Nat := w.2.1.field 0 16
def WatchEntry.period (w : WatchEntry) : Nat := w.2.2.field 44 20
def WatchEntry.grace (w : WatchEntry) : Nat := w.2.2.field 32 12
def WatchEntry.tunit (w : WatchEntry) : Nat := w.2.2.field 30 2
def WatchEntry.sealed (w : WatchEntry) : Bool := w.2.2.bit 29
def WatchEntry.keySlot (w : WatchEntry) : Nat := w.2.2.field 16 10

/-- Nanoseconds of a TUNIT: 1 µs, 100 µs, 10 ms (R172). -/
def tunitNs (u : Nat) : Nat :=
  match u with
  | 0 => 1000
  | 1 => 100000
  | _ => 10000000

/-! ## Route entries (R256) -/

/-- The four words of a route entry. -/
abbrev RouteEntry := Word × Word × Word × Word

/-- Port p is a destination. -/
def RouteEntry.toPort (r : RouteEntry) (p : Nat) : Bool := if p < 64 then r.1.bit p else r.2.1.bit (p - 64)
def RouteEntry.newId (r : RouteEntry) : Nat := r.2.2.1.field 35 29
def RouteEntry.rewrite (r : RouteEntry) : Bool := r.2.2.1.bit 34
def RouteEntry.promote (r : RouteEntry) : Bool := r.2.2.1.bit 33
def RouteEntry.brs (r : RouteEntry) : Bool := r.2.2.1.bit 32
def RouteEntry.cls (r : RouteEntry) : Nat := r.2.2.1.field 30 2
def RouteEntry.ct (r : RouteEntry) : Bool := r.2.2.1.bit 29
def RouteEntry.verify (r : RouteEntry) : Bool := r.2.2.1.bit 28
def RouteEntry.sealOut (r : RouteEntry) : Bool := r.2.2.1.bit 27
def RouteEntry.eslot (r : RouteEntry) : Nat := r.2.2.1.field 17 10
def RouteEntry.cap (r : RouteEntry) : Bool := r.2.2.1.bit 16
def RouteEntry.cep (r : RouteEntry) : Nat := r.2.2.1.field 15 1
def RouteEntry.cring (r : RouteEntry) : Nat := r.2.2.1.field 8 7
def RouteEntry.mlen (r : RouteEntry) : Nat := r.2.2.1.field 0 8
def RouteEntry.rate (r : RouteEntry) : Nat := r.2.2.2.field 48 16
def RouteEntry.burst (r : RouteEntry) : Nat := r.2.2.2.field 40 8
def RouteEntry.life (r : RouteEntry) : Nat := r.2.2.2.field 30 10
def RouteEntry.cset (r : RouteEntry) : Nat := r.2.2.2.field 22 8
def RouteEntry.mirrorN (r : RouteEntry) : Nat := r.2.2.2.field 14 8
def RouteEntry.mep (r : RouteEntry) : Nat := r.2.2.2.field 13 1
def RouteEntry.mring (r : RouteEntry) : Nat := r.2.2.2.field 6 7

/-! ## Banks -/

/-- The bank of a generation bit (R45). -/
def State.bank (s : State) (g : Bool) : Bank := if g then s.watch.bank1 else s.watch.bank0
/-- The bank of a generation bit changed. -/
def State.modBank (s : State) (g : Bool) (f : Bank → Bank) : State :=
  { s with watch := if g then { s.watch with bank1 := f s.watch.bank1 } else { s.watch with bank0 := f s.watch.bank0 } }

/-- An empty watch slot. -/
def emptyEntry : WatchEntry := (0, 0, 0)
/-- The entry of a watch index in a bank. -/
def Bank.entry (b : Bank) (w : Nat) : WatchEntry := Table.get (fun _ => emptyEntry) b.entries w
/-- A route entry of a bank; a cleared entry is all 0 (R256). -/
def Bank.route (b : Bank) (r : Nat) : RouteEntry := Table.get (fun _ => (0, 0, 0, 0)) b.routes r
/-- A signal descriptor of a bank (R203). -/
def Bank.desc (b : Bank) (i : Nat) : Word × Word := Table.get (fun _ => (0, 0)) b.descs i
/-- A decode op word (R182). -/
def State.opWord (s : State) (i : Nat) : Word := Table.get (fun _ => 0) s.scriv.ops i

/-- The watch entry a frame was looked up with (R19). -/
def State.frameEntry (s : State) (f : Frame) : WatchEntry :=
  match f.watch with
  | some w => (s.bank f.gen).entry w
  | none => emptyEntry

end Machine

end Sys2Proof
end

