-- ==== Sys2Proof/Machine/Flash.lean ====
section
/-! DEFINITION. The boot flash: its bytes, the configuration record and the boot record (R449 to R451). -/

namespace Sys2Proof.Machine

/-! ## Boot flash (R449, R450) -/

/-- Base of an image slot. -/
def slotBase (n : Nat) : Nat := 0x1000000 + n * 0x400000

/-- The slot that holds a flash address, if any. -/
def slotAt (a : Nat) : Option Nat := if slotBase 0 ≤ a ∧ a < slotBase 8 then some ((a - slotBase 0) / 0x400000) else none

/-- What an unlisted byte of boot flash reads as: erased, or free after a failed erase of its slot (log entry 4). -/
def flashDefault (lost : Table Nat) (a : Nat) : Byte :=
  match slotAt a with
  | some n =>
    match Table.find? n lost with
    | some w => Config.freeByte w a
    | none => 0xFF#8
  | none => 0xFF#8

/-- One byte of boot flash. -/
def State.flashRead (s : State) (a : Nat) : Byte := Table.get (flashDefault s.sys.flashLost) s.sys.flash a
/-- n bytes of boot flash. -/
def State.flashRun (s : State) (a n : Nat) : List Byte := (List.range n).map (fun i => s.flashRead (a + i))
/-- A little-endian number in boot flash. -/
def State.flashNum (s : State) (a n : Nat) : Nat := leNat (s.flashRun a n)
/-- Bytes written to boot flash from an address. -/
def State.flashPut (s : State) (a : Nat) : List Byte → State
  | [] => s
  | b :: t => State.flashPut { s with sys := { s.sys with
      flash := Table.set (flashDefault s.sys.flashLost) s.sys.flash a b } } (a + 1) t
/-- A region of boot flash erased. -/
def State.flashErase (s : State) (a n : Nat) : State :=
  { s with sys := { s.sys with flash := s.sys.flash.filter (fun (x : Nat × Byte) => decide (x.1 < a) || decide (a + n ≤ x.1)) } }

/-- SEQ of a configuration copy, one more so that a copy whose CRC is not good counts as 0 (R450). -/
def State.configSeq (s : State) (copy : Nat) : Nat :=
  let a := 0x10000 * copy
  if s.flashNum (a + 0xFC) 4 = (crc32c (s.flashRun a 0xFC)).toNat then s.flashNum (a + 4) 4 + 1 else 0

/-- The configuration copy that a program cycle replaces: the one with the lower SEQ; copy 0 where they are equal. -/
def State.olderConfig (s : State) : Nat := if s.configSeq 1 < s.configSeq 0 then 1 else 0

/-- The configuration record that the boot ROM reads: the good copy with the higher SEQ, or the defaults (R450). -/
def State.readConfig (s : State) : BootConfig :=
  let a := 0x10000 * (1 - s.olderConfig)
  if s.configSeq (1 - s.olderConfig) = 0 then {}
  else
    { ssVendor := s.flashNum (a + 8) 2, subsystem := s.flashNum (a + 0xA) 2, slcEn := s.flashNum (a + 0xC) 1 == 1
      slcFa := s.flashNum (a + 0xD) 1, slcP := (List.range 4).map (fun i => s.flashNum (a + 0x10 + i) 1) }

/-! ## Boot record (R451) -/

/-- The 32 bytes of a boot record entry. -/
def BootRecord.bytes (r : BootRecord) (seq : Nat) : List Byte :=
  let body := leBytes 4 0x4342524E ++ leBytes 4 seq ++ leBytes 1 r.cur ++ leBytes 1 r.lkg ++ leBytes 2 r.rej ++ leBytes 1 r.fails ++
    List.replicate 15 0#8
  body ++ leBytes 4 (crc32c body).toNat

/-- The boot record takes new contents: an entry is appended to its sector; a full sector goes over to the other one, which is
erased first. -/
def State.setRecord (s : State) (r : BootRecord) : State :=
  if r = s.sys.record then s
  else
    let n := s.sys.recordAt
    let s := if n % 2048 = 0 then s.flashErase (0x20000 + 0x10000 * (n / 2048)) 0x10000 else s
    let s := s.flashPut (0x20000 + 32 * n) (r.bytes (s.sys.recordSeq + 1))
    { s with sys := { s.sys with record := r, recordSeq := s.sys.recordSeq + 1, recordAt := (n + 1) % 4096 } }

end Sys2Proof.Machine
end

