-- ==== Sys2Proof/Machine/Host.lean ====
section
/-! DEFINITION. Endpoints, configuration ownership, rings, doorbells, completions and events (R322 to R361). -/

namespace Sys2Proof.Machine

/-! ## Rings (R330 to R339) -/

/-- TYPE in use (R330): 1 command, 2 completion, 3 publication, 4 transmit, 5 capture, 6 event. -/
def Ring.type (r : Ring) : Nat := r.useCtl.field 8 3
/-- Bytes per position of a ring type (R330). -/
def entryBytes (ty : Nat) : Nat :=
  match ty with
  | 1 => 64
  | 2 | 6 => 16
  | 3 | 4 => 32
  | _ => 8
/-- Positions of the ring. -/
def Ring.size (r : Ring) : Nat := 2 ^ r.useCtl.field 16 5 / entryBytes r.type
/-- Device-produced types: completion, publication, capture, event. -/
def Ring.deviceProduced (r : Ring) : Bool := r.type == 2 || r.type == 3 || r.type == 5 || r.type == 6
/-- Positions in use. -/
def Ring.used (r : Ring) : Nat :=
  if r.deviceProduced then (r.devPos + r.size - r.hostPos) % r.size else (r.hostPos + r.size - r.devPos) % r.size
/-- Positions reserved beyond the device's position (R354). -/
def Ring.reserved (r : Ring) : Nat := (r.ahead.map (fun x => x.2.1)).sum
/-- Free positions: at most N − 1 are in use (R330), those reserved included. -/
def Ring.free (r : Ring) : Nat := r.size - 1 - r.used - r.reserved
/-- RUNNING with a given type. -/
def Ring.runs (r : Ring) (ty : Nat) : Bool := decide (r.st = .running) && r.type == ty

/-- Bell Board source of notify group g of an endpoint (R400). -/
def notifySource (e : Ep) (g : Nat) : Nat := 32 + 16 * e.idx + g

/-- An armed ring raises its notify group and is disarmed (R359). -/
def State.ringNotify (s : State) (e : Ep) (k : Nat) : State :=
  let r := s.ring e k
  if r.armed && r.useCtl.bit 39 then
    (s.modRing e k (fun r => { r with armed := false })).raise (notifySource e (r.useCtl.field 40 4))
  else s

/-- A word with PHASE in bit 7 (R339). -/
def withPhase (ph : Bool) (w : Word) : Word := w ||| BitVec.ofNat 64 (b2n ph * 128)

/-- The device's position moved on by n; PHASE inverts on the wrap (R339). -/
def Ring.advance (n : Nat) (r : Ring) : Ring :=
  if r.devPos + n < r.size then { r with devPos := r.devPos + n }
  else { r with devPos := r.devPos + n - r.size, phase := !r.phase }

/-- Where the next record of a capture ring is reserved: position and PHASE (R354). -/
def Ring.head (r : Ring) : Nat × Bool := ((Ring.advance r.reserved r).devPos, (Ring.advance r.reserved r).phase)

/-- The device's position passes what has been written: it stands at the oldest stretch that has not (R331). -/
def settleAhead : List (Nat × Nat × Bool) → Ring → Ring
  | (p, w, true) :: t, r => settleAhead t (Ring.advance w { r with ahead := (p, w, true) :: t })
  | l, r => { r with ahead := l }

/-- A stretch of w words reserved at the head, written at once or not yet. -/
def Ring.reserve (r : Ring) (w : Nat) (done : Bool) : Ring := settleAhead (r.ahead ++ [(r.head.1, w, done)]) r

/-- The stretch at a position has been written. -/
def Ring.written (r : Ring) (pos : Nat) : Ring :=
  settleAhead (r.ahead.map (fun x => if x.1 = pos then (x.1, x.2.1, true) else x)) r

/-- A fixed-size entry written at the device's position (R339), counted in RING_ENTRIES, with its notification. -/
def State.ringWrite (s : State) (e : Ep) (k : Nat) (w0 : Word) (rest : List Word) : State :=
  let r := s.ring e k
  let s := s.emit (.ring e k r.devPos (withPhase r.phase w0 :: rest))
  let s := (s.modRing e k (Ring.advance 1)).count (Reg.hostRingEntries e.idx k)
  s.ringNotify e k

/-- Word 0 of an event entry (R358). -/
def eventWord (code arg : Nat) (lost : Bool) : Word := pack [(32, arg), (16, code), (6, b2n lost), (0, 1)]

/-- An event of an endpoint: posted to ring EVRING, or lost (R358). -/
def State.postEvent (s : State) (e : Ep) (code arg : Nat) : State :=
  if s.flag (Reg.hostEpCtl e.idx) 1 then
    let k := s.fld (Reg.hostEpCtl e.idx) 8 8
    let r := s.ring e k
    if r.runs 6 && s.usable e && decide (0 < r.free) then
      (s.modRing e k (fun r => { r with evLost := false })).ringWrite e k (eventWord code (arg % 2 ^ 32) r.evLost) [s.tai]
    else (s.count (Reg.hostRingLost e.idx k)).modRing e k (fun r => { r with evLost := true })
  else s

/-- The start of a STOPPED ring: refused while the endpoint is unusable, or its ring engines fenced as under R337, or
where a check fails (R333 to R335, R409). -/
def State.ringStart (s : State) (e : Ep) (k : Nat) : State :=
  let ctl := s.reg (Reg.hostRingCtl e.idx k)
  let ty := ctl.field 8 3
  let cqTy := s.fld (Reg.hostRingCtl e.idx (ctl.field 32 7)) 8 3
  if !s.usable e || s.stew.ringFenced.contains e then
    (s.modRing e k (fun r => { r with st := .stopped, startHeld := false, err := 3 })).postEvent e 2 (k + 3 * 256)
  else if ty = 0 ∨ ty = 7 ∨ ((ty = 1 ∨ ty = 4) ∧ cqTy ≠ 2) then
    s.modRing e k (fun r => { r with st := .stopped, startHeld := false, err := 1 })
  else
    s.modRing e k (fun r => { r with
      st := .starting, startHeld := false, err := 0, useCtl := ctl, useBase := s.reg (Reg.hostRingBase e.idx k) })

/-- A commit of RING_CTL (R333, R335): a write of the same value counts. -/
def State.ringCommit (s : State) (e : Ep) (k : Nat) : State :=
  let en := s.flag (Reg.hostRingCtl e.idx k) 0
  match (s.ring e k).st with
  | .stopped => if en then s.ringStart e k else s
  | .stopping => s.modRing e k (fun r => { r with startHeld := en })
  | .starting | .running => if en then s else s.modRing e k (fun r => { r with st := .stopping })

/-- A RUNNING ring stops with an error (R335, R337). -/
def State.ringFail (s : State) (e : Ep) (k err : Nat) : State :=
  s.modRing e k (fun r => if r.st = .running then { r with st := .stopping, err := err } else r)

/-- Every operation begun on a ring has ended (R333). -/
def Ring.idle (r : Ring) : Bool := r.running.isNone && r.txWait.isNone && r.ahead.isEmpty

/-! ## Completions (R341 to R343) -/

/-- The words of a completion entry (R341). -/
def Completion.word0 (c : Completion) : Word :=
  pack [(32, c.tag), (24, c.detail), (16, c.status), (8, c.src), (0, c.kind)]

/-- A completion falls due on completion ring cq: written, or held where the ring does not run or is full (R334, R342). -/
def State.postCompletion (s : State) (e : Ep) (cq : Nat) (c : Completion) : State :=
  let r := s.ring e cq
  if r.runs 2 && r.heldCq.isEmpty && decide (0 < r.free) then s.ringWrite e cq c.word0 [c.result]
  else s.modRing e cq (fun r => { r with heldCq := r.heldCq ++ [c] })

/-- The completion ring of a command or transmit ring, as in use. -/
def Ring.cq (r : Ring) : Nat := r.useCtl.field 32 7

/-- The rings that feed a completion ring are not read while it holds completions, or runs with no free entry (R334, R342). -/
def State.cqBlocked (s : State) (e : Ep) (k : Nat) : Bool :=
  let q := s.ring e (s.ring e k).cq
  !q.heldCq.isEmpty || (q.runs 2 && q.free == 0)

/-- A key command of an endpoint is executing (R315). -/
def State.keyBusy (s : State) (e : Ep) : Bool :=
  (List.range 128).any (fun k =>
    match (s.ring e k).running with
    | some r => decide (5 ≤ r.opc ∧ r.opc ≤ 8)
    | none => false)

/-- The holder code of an endpoint or of management firmware (R321). -/
def holderCode : Path → Nat
  | .ep .a => 1
  | .ep .b => 2
  | .mgmt => 3

/-- The key management lock released: at once, or when the executing key command has completed (R315). -/
def State.kmRelease (s : State) : State :=
  let busy := (s.lock.holder == 1 && s.keyBusy .a) || (s.lock.holder == 2 && s.keyBusy .b)
  if busy then { s with lock := { s.lock with releaseDue := true } }
  else { s with lock := { s.lock with holder := 0, releaseDue := false } }

/-- The command of a ring ends with its completion (R343, R345); a due release of the key lock follows (R315). -/
def State.endCommand (s : State) (e : Ep) (k status detail : Nat) (result : Word) : State :=
  match (s.ring e k).running with
  | none => s
  | some r =>
    let s := s.modRing e k (fun r => { r with running := none })
    let s := s.postCompletion e (s.ring e k).cq
      { tag := r.cmd.w0.field 32 32, detail := detail, status := status, src := k, kind := 1, result := result }
    if s.lock.releaseDue then s.kmRelease else s

/-- A transmit entry or host frame ends with its completion (R351, R352). -/
def State.txCompletion (s : State) (h : HostTx) (status detail : Nat) (result : Word) : State :=
  s.postCompletion h.ep (s.ring h.ep h.ring).cq
    { tag := h.tag, detail := detail, status := status, src := h.ring, kind := 2, result := result }

/-! ## Ownership (R326 to R328) -/

/-- A move of configuration ownership (R328). Causes: 1 owner's write, 2 link, 3 heartbeat. -/
def State.ownerMove (s : State) (next : Ep) (cause : Nat) : State :=
  let old := s.regs.owner
  let s := s.setFld Reg.genOwner 0 1 next.idx
  let s := { s with regs := { s.regs with
    owner := next, ownCause := cause, unlockedA := false, unlockedB := false, beatAt := s.time.now } }
  let s := if s.lock.holder = holderCode (.ep old) then s.kmRelease else s
  let s := s.count Reg.hostOwnerMoves
  let s := (s.postEvent .a 1 (next.idx + 2 * cause)).postEvent .b 1 (next.idx + 2 * cause)
  s.raise 3

/-! ## Usable and unusable (R323 to R325, R337, R399) -/

/-- Mirror records begun for an endpoint. -/
def Frame.mirrorsTo (f : Frame) (e : Ep) : Nat :=
  (f.copies.filter (fun (c : Copy) => c.space.isSome && (match c.dest with | .mirror g _ => g == e | _ => false))).length

/-- Capture records begun for an endpoint that becomes unusable are lost, and their space is gone (R354, Coincidences); a mirror
record among them counts in MIRROR_LOST (R272). -/
def State.captureVoid (s : State) (e : Ep) : State :=
  let mine : Dest → Bool := fun d =>
    match d with
    | .capture f _ | .mirror f _ | .unknown f _ => f == e
    | .port _ => false
  let s := s.countN Reg.drayMirrorLost (s.frames.map (fun x => x.2.mirrorsTo e)).sum
  let s := { s with frames := s.frames.map (fun x => (x.1, { x.2 with
    copies := x.2.copies.map (fun c => if mine c.dest then { c with space := none } else c) })) }
  (List.range 128).foldl (fun s k =>
    let n := ((s.ring e k).ahead.filter (fun x => !x.2.2)).length
    if n = 0 then s
    else (s.countN (Reg.hostRingLost e.idx k) n).modRing e k (fun r => { r with ahead := [], lost := r.lost + n })) s

/-- The consequences of an endpoint's becoming unusable: its rings stop with ERR 3 LINK, the Bell Board's stacks of its
targets empty, begun capture records are lost and the other endpoint is told (R325, R337, R399). -/
def State.endpointLost (s : State) (e : Ep) : State :=
  let s := s.modEp e (fun p => { p with downSince := s.time.now })
  let s := (List.range 128).foldl (fun s k => s.ringFail e k 3) s
  ((s.captureVoid e).bellEndpointLost e).postEvent e.other 3 0

/-- A change of an endpoint's conditions, with what follows when it becomes usable or unusable (R323). -/
def State.endpointChange (s : State) (e : Ep) (f : Endpoint → Endpoint) : State :=
  let was := s.usable e
  let s := s.modEp e f
  if was && !s.usable e then s.endpointLost e
  else if !was && s.usable e then ((s.postEvent e.other 3 1).msixFlushAll e).bellService
  else s

/-! ## Commands -/

/-- Configuration requests are served: from READY on, or in safe mode; before, they complete with Request Retry Status (R456). -/
def State.configServed (s : State) : Bool := decide (3 ≤ s.sys.phase)

/-- ENDPOINT_USABLE_CHANGE (R323, R325, R456): the link as it now stands, and the power state, the command register and the BARs
as configuration requests leave them. -/
def execEndpointUsableChange (e : Ep) (link mse bme d3 : Bool) (width speed : Nat) (s : State) (bars : Bars := {}) : Answer :=
  let served := s.configServed
  .next (s.endpointChange e (fun p => { p with
    link := link, mse := served && mse, bme := served && bme, d3 := served && d3
    bar0 := if served then bars.bar0 else p.bar0, bar2 := if served then bars.bar2 else p.bar2
    bar4 := if served then bars.bar4 else p.bar4, width := if link then width else 0, speed := if link then speed else 0 }))

/-- ENDPOINT_RESET (R324): a function level reset or a fundamental reset begins or ends. Configuration space is reset, the MSI-X
table with it; BAR0 and the other units keep all. -/
def execEndpointReset (e : Ep) (active : Bool) (s : State) (fundamental : Bool := false) : Answer :=
  .next (if active then s.endpointChange e (fun p => { p with
      flr := p.flr || !fundamental, fundamental := p.fundamental || fundamental, mse := false, bme := false, d3 := false
      bar0 := 0, bar2 := 0, bar4 := 0, msix := [], pba := 0, funcMask := false })
    else s.endpointChange e (fun p => { p with flr := p.flr && fundamental, fundamental := p.fundamental && !fundamental }))

/-- D3HOT_ENTRY (R325). -/
def execD3hotEntry (e : Ep) (s : State) : Answer := .next (s.endpointChange e (fun p => { p with d3 := true }))

/-- OWNER_JUDGE (R327): the 1 ms judgement of link and heartbeat. -/
def execOwnerJudge (s : State) : Answer :=
  let own := s.regs.owner
  let linkMs := s.fld Reg.hostOwnCtl 32 16
  let hbMs := s.fld Reg.hostOwnCtl 0 16
  .next (
    if !s.usable own.other then s
    else if !s.usable own && decide (1000000 * linkMs ≤ s.time.now - (s.ep own).downSince) then s.ownerMove own.other 2
    else if hbMs ≠ 0 ∧ 1000000 * hbMs < s.time.now - s.regs.beatAt then s.ownerMove own.other 3
    else s)

/-- RING_RUNNING (R333, R356, R359): one cycle after STARTING; a ring whose endpoint has become unusable, or whose ring engines
are fenced, stops (R337, R409). Records lost before await their LOSS record. -/
def execRingRunning (e : Ep) (ring : Nat) (s : State) : Answer :=
  .next (if (s.ring e ring).st = .starting then
      let s := s.modRing e ring (fun r => { r with
        st := .running, devPos := 0, hostPos := 0, phase := true, ahead := []
        armed := r.deviceProduced && r.useCtl.bit 39 })
      if s.usable e && !s.stew.ringFenced.contains e then s else s.ringFail e ring 3
    else s)

/-- RING_STOP_COMPLETE (R333, R335): with every begun operation ended the ring is STOPPED; an error posts RING_STOP;
a held start begins. -/
def execRingStopComplete (e : Ep) (ring : Nat) (s : State) : Answer :=
  let r := s.ring e ring
  .next (if r.st = .stopping ∧ r.idle then
      let s := s.modRing e ring (fun r => { r with st := .stopped, armed := false })
      let s := if r.err ≠ 0 then s.postEvent e 2 (ring + 256 * r.err) else s
      if r.startHeld then s.ringStart e ring else s
    else s)

/-- RING_READ_FAILURE (R335): counted; a host-produced RUNNING ring stops with ERR 2 MEMORY. -/
def execRingReadFailure (e : Ep) (ring : Nat) (s : State) : Answer :=
  let r := s.ring e ring
  .next (if r.runs 1 || r.runs 4 then (s.count (Reg.hostRingMemErr e.idx ring)).ringFail e ring 2 else s)

/-- A doorbell position is accepted (R336): a RUNNING ring, bits [63:27] 0, below N, and for a consumer position
between the current one and the device's producer position. -/
def Ring.doorbellOk (r : Ring) (val : Word) : Bool :=
  let pos := val.toNat
  decide (r.st = .running ∧ pos < 2 ^ 27 ∧ pos < r.size) &&
  (!r.deviceProduced || decide ((pos + r.size - r.hostPos) % r.size ≤ r.used))

/-- A doorbell write (R82, R336, R359): one at any other offset of BAR2 is ignored and counted. -/
def State.doorbell (s : State) (e : Ep) (ring off : Nat) (val : Word) : State :=
  let r := s.ring e ring
  if off ≠ 0 ∨ 128 ≤ ring then s.count Reg.genBadAccess
  else if !r.doorbellOk val then (s.count (Reg.hostRingBadDb e.idx ring)).raise 10
  else if r.deviceProduced && r.useCtl.bit 39 then
    let s := s.modRing e ring (fun r => { r with hostPos := val.toNat, armed := true })
    if r.devPos = val.toNat then s else s.ringNotify e ring
  else s.modRing e ring (fun r => { r with hostPos := val.toNat })

/-- COMPLETION_WRITE (R342): the oldest held completion goes out when its ring runs and has a free entry. -/
def execCompletionWrite (e : Ep) (ring : Nat) (s : State) : Answer :=
  let r := s.ring e ring
  .next (match r.heldCq with
    | [] => s
    | c :: t =>
      if r.runs 2 && decide (0 < r.free) then
        (s.modRing e ring (fun r => { r with heldCq := t })).ringWrite e ring c.word0 [c.result]
      else s)

end Sys2Proof.Machine
end

