-- ==== Sys2Proof/Machine/Drayman.lean ====
section
/-! DEFINITION. The Drayman's stores and bookkeeping: Storeroom cells (R260, R279), class queues and credits (R277 to
R290), copy outcomes (R259, R275), capture records (R353 to R356), and the life of a frame in flight (R47). -/

namespace Sys2Proof.Machine

/-! ## Storeroom cells (R279) -/

/-- Storeroom bytes read 0 until written (log entry 2). -/
def storeDefault : Byte := 0

/-- Use count of a cell. -/
def State.cellCount (s : State) (c : Nat) : Nat := Table.get (fun _ => 0) s.dray.cellUse c

/-- The lowest-numbered need free cells from k on (log entry 10). -/
def pickCells (busy : Nat → Bool) : Nat → Nat → Nat → List Nat
  | _, 0, _ => []
  | _, _, 0 => []
  | k, need + 1, fuel + 1 =>
    if busy k then pickCells busy (k + 1) (need + 1) fuel else k :: pickCells busy (k + 1) need fuel

/-- Free cells: neither in use nor retired (R409). -/
def State.freeCells (s : State) : Nat :=
  16384 - s.dray.cellUse.length - (s.dray.retiredCells.filter (fun c => s.cellCount c == 0)).length

/-- A chain of n cells with a use count, or none where the Storeroom cannot hold it. -/
def State.allocCells (s : State) (n uses : Nat) : Option (State × List Nat) :=
  let cells := pickCells (fun c => s.cellCount c != 0 || s.dray.retiredCells.contains c) 0 n 16384
  if cells.length = n ∧ 0 < uses then
    some ({ s with dray := { s.dray with
      cellUse := cells.foldl (fun t c => Table.set (fun _ => 0) t c uses) s.dray.cellUse } }, cells)
  else if n = 0 ∨ uses = 0 then some (s, []) else none

/-- One use of each cell ends; a cell whose count returns to 0 is free and keeps its bytes (R279). -/
def State.releaseCells (s : State) (cells : List Nat) : State :=
  { s with dray := { s.dray with
      cellUse := cells.foldl (fun t c => Table.set (fun _ => 0) t c (Table.get (fun _ => 0) t c - 1)) s.dray.cellUse } }

/-- Cells for L data bytes (R279). -/
def cellsFor (len : Nat) : Nat := (len + 255) / 256

/-- Data written along a chain: byte k at offset k mod 256 of cell k div 256 (R279). -/
def writeChain (m : Memory) : List Nat → List Byte → Memory
  | [], _ => m
  | c :: cs, d => writeChain (Memory.writeRun storeDefault m (256 * c) (d.take 256)) cs (d.drop 256)

/-- len bytes read along a chain. -/
def readChain (m : Memory) : List Nat → Nat → List Byte
  | [], _ => []
  | c :: cs, len => Memory.readRun storeDefault m (256 * c) (min len 256) ++ readChain m cs (len - 256)

/-- Data stored in a chain. -/
def State.storeData (s : State) (cells : List Nat) (d : List Byte) : State :=
  { s with dray := { s.dray with storeroom := writeChain s.dray.storeroom cells d } }

/-! ## Outcomes (R259, R275) -/

/-- The counter of an outcome in a counter set; none for a discard with an invalid frame. -/
def outcomeReg (c : Nat) (o : CopyOutcome) : Option Nat :=
  match o with
  | .selfPort => some (Reg.drayCsSelf c)
  | .rate => some (Reg.drayCsRate c)
  | .down => some (Reg.drayCsDown c)
  | .verify => some (Reg.drayCsVerify c)
  | .format => some (Reg.drayCsFormat c)
  | .noCell => some (Reg.drayCsNoCell c)
  | .noCredit => some (Reg.drayCsNoCredit c)
  | .sent => some (Reg.drayCsSent c)
  | .sealFail => some (Reg.drayCsSealFail c)
  | .expired => some (Reg.drayCsExpired c)
  | .flushed => some (Reg.drayCsFlushed c)
  | .selfAbort => some (Reg.drayCsSelfAbort c)
  | .txDrop => some (Reg.drayCsTxDrop c)
  | .discarded => none

/-- The per-port counter of an outcome, where one exists. -/
def outcomePortReg (p : Nat) (o : CopyOutcome) : Option Nat :=
  match o with
  | .down => some (Reg.drayPcntDown p)
  | .noCredit => some (Reg.drayPcntNoCredit p)
  | .format => some (Reg.drayPcntFormat p)
  | .expired => some (Reg.drayPcntExpired p)
  | .flushed => some (Reg.drayPcntFlushed p)
  | _ => none

/-- One event in an optional counter. -/
def State.countOpt (s : State) : Option Nat → State
  | some r => s.count r
  | none => s

/-- A count in a counter set; set 0 counts nothing (R275). -/
def State.countSet (s : State) (cset : Nat) (r : Nat → Nat) : State := if cset = 0 then s else s.count (r cset)

/-- An outcome counted in its counter set and per port (R275). -/
def State.countOutcome (s : State) (cset : Nat) (port : Option Nat) (o : CopyOutcome) : State :=
  let s := if cset = 0 then s else s.countOpt (outcomeReg cset o)
  match port with
  | some p => s.countOpt (outcomePortReg p o)
  | none => s

/-! ## Class queues and credits (R277 to R289) -/

/-- Words a packet takes (R278). -/
def packetWords (fmt ncell : Nat) : Nat := 2 + ncell + (if fmt = 4 then 1 else 0)

/-- The packets of class c. -/
def Port.queue (p : Port) (c : Nat) : List Packet := (p.queues[c]?).getD []

/-- Credits taken in class c: those of its packets and of dropped open packets not yet discarded (R280, R288). -/
def Port.credits (p : Port) (c : Nat) : Nat :=
  ((p.queue c).map (·.words)).sum + ((p.zombies.filter (fun z => z.cls == c)).map (·.words)).sum

/-- Credits of class c that host frames hold (R280). -/
def Port.hostCredits (p : Port) (c : Nat) : Nat :=
  (((p.queue c).filter (fun k => k.host.isSome)).map (·.words)).sum +
  ((p.zombies.filter (fun z => z.cls == c && z.host)).map (·.words)).sum

/-- Occupancy of a port (R289). -/
def Port.occupancy (p : Port) : Nat := p.credits 0 + p.credits 1 + p.credits 2 + p.credits 3

/-- No packet is queued. -/
def Port.queuesEmpty (p : Port) : Bool := p.queues.all (fun q => q.isEmpty)

/-- The queue-level source after a change of occupancy from before (R289). -/
def State.levelCheck (s : State) (p before : Nat) : State :=
  let hi := s.fld (Reg.drayTxqCtl p) 32 8
  let lo := s.fld (Reg.drayTxqCtl p) 40 8
  let lo := if hi ≤ lo ∧ hi ≠ 0 then hi - 1 else lo
  let now := (s.port p).occupancy
  if (s.port p).armed && decide (hi ≠ 0 ∧ before < hi ∧ hi ≤ now) then
    ((s.modPort p (fun q => { q with armed := false })).count (Reg.drayTxqLevel p)).raise (192 + p)
  else if now < lo then s.modPort p (fun q => { q with armed := true })
  else s

/-- An operation on a port's queues, judged by its net change of occupancy (R289). -/
def State.withLevel (s : State) (p : Nat) (f : State → State) : State := (f s).levelCheck p (s.port p).occupancy

/-- Queued frames have drained: the port is no longer held (R274). -/
def Port.settleHeld (p : Port) : Port := if p.queuesEmpty then { p with held := false } else p

/-- A packet written at the tail of class c. -/
def State.pushPacket (s : State) (p c : Nat) (k : Packet) : State :=
  s.modPort p (fun q => { q with queues := listMod (fun l => l ++ [k]) c q.queues })

/-- The head packet of class c changed. -/
def State.modHead (s : State) (p c : Nat) (f : Packet → Packet) : State :=
  s.modPort p (fun q => { q with queues := listMod (fun l => listMod f 0 l) c q.queues })

/-- A packet that has left its queue: its cells are freed, its outcome counted or its completion written (R275, R281,
R287, R352). An open packet keeps its credits until its backfill has been discarded (R288). -/
def State.packetGone (s : State) (p c : Nat) (k : Packet) (o : CopyOutcome) (status detail : Nat) (result : Word) : State :=
  let s := s.releaseCells k.cells
  match k.host with
  | none => s.countOutcome k.cset (some p) o
  | some h =>
    let s := { s with dray := { s.dray with hostCells := s.dray.hostCells - k.cells.length } }
    let s := if k.closed then s
      else s.modPort p (fun q => { q with zombies := { cls := c, tag := k.tag, words := k.words, host := true } :: q.zombies })
    s.txCompletion h status detail result

/-- The head of class c leaves its queue (R287). -/
def State.retireHead (s : State) (p c : Nat) (o : CopyOutcome) (status detail : Nat) (result : Word) : State :=
  match (s.port p).queue c with
  | [] => s
  | k :: t =>
    let s := s.modPort p (fun q => Port.settleHeld { q with queues := listMod (fun _ => t) c q.queues })
    s.packetGone p c k o status detail result

/-- A head that a command wanted dropped ends with its attempt (R288). -/
def State.dropNextCheck (s : State) (p c : Nat) : State :=
  match (s.port p).queue c with
  | k :: _ => if k.dropNext then (s.retireHead p c .txDrop 8 0 0).count (Reg.drayTxqDropcmd p) else s
  | [] => s

/-- The attempt on the bus of port p has been cut off: a class head that a command wanted dropped leaves (R288). -/
def State.cutAttempt (s : State) (p : Nat) : State :=
  match (s.port p).onBus with
  | some (.cls c) => (s.modPort p (fun q => { q with onBus := none })).withLevel p (fun s => s.dropNextCheck p c)
  | some .lane | none => s

/-- All packets of class c retired with FLUSHED, head first (R290). -/
def State.flushClass (s : State) (p c : Nat) : State :=
  ((s.port p).queue c).foldl (fun s _ => s.retireHead p c .flushed 7 0 0) s

/-- A flush: classes 0 to 3 in order; one that empties the queues re-arms the level source, and it raises nothing (R289, R290). -/
def State.flushPort (s : State) (p : Nat) : State :=
  let any := !(s.port p).queuesEmpty
  let s := (List.range 4).foldl (fun s c => s.flushClass p c) s
  s.modPort p (fun q => { q with held := false, armed := q.armed || any })

/-! ## Frames in flight (R47) -/

/-- The frame is valid at its port. -/
def Frame.valid (f : Frame) : Bool := decide (f.verdict = some .valid)
/-- The frame has a verdict and it is not valid, or its lookup failed (R18, R170). -/
def Frame.dead (f : Frame) : Bool := f.eccLost || (f.verdict.isSome && !f.valid)
/-- A sealed frame that still awaits its Locksmith verdict; one found invalid at its port gets none (R18, R47). -/
def Frame.awaitsVerdict (f : Frame) : Bool := f.sealed && f.verdictCode.isNone && !f.dead
/-- Good verdict: an unsealed frame needs none for its signals, a sealed one needs GOOD (R301). -/
def Frame.good (f : Frame) : Bool := f.verdictCode == some 0

/-- A copy still to be placed. -/
def Copy.unplaced (c : Copy) : Bool := decide (c.stage = .waiting) || decide (c.stage = .sealing)
/-- The port a copy goes to. -/
def Copy.port? (c : Copy) : Option Nat :=
  match c.dest with
  | .port p => some p
  | .capture _ _ | .mirror _ _ | .unknown _ _ => none
/-- The ring a copy goes to. -/
def Copy.ring? (c : Copy) : Option (Ep × Nat) :=
  match c.dest with
  | .capture e k | .mirror e k | .unknown e k => some (e, k)
  | .port _ => none
/-- Nothing of the copy is left to do in the frame's own record. -/
def Copy.finished (c : Copy) : Bool :=
  match c.stage with
  | .done _ => true
  | .placed => c.port?.isSome
  | .waiting | .lane | .sealing => false

/-- The frame is in flight: from its lookup until its last commit or drop, the placement of its last copy, and its
Locksmith verdict (R47). -/
def Frame.inFlight (f : Frame) : Bool :=
  f.looked && (!f.committed || f.copies.any Copy.unplaced || f.awaitsVerdict)

/-- Some frame in flight carries a generation bit (R46). -/
def State.genInFlight (s : State) (g : Bool) : Bool := s.frames.any (fun x => x.2.inFlight && x.2.gen == g)

/-- The frame's record can be given up. -/
def Frame.complete (f : Frame) : Bool :=
  f.looked && f.verdict.isSome && f.committed && f.copies.all Copy.finished && !f.awaitsVerdict

/-- A complete frame's record is given up. -/
def State.settleFrame (s : State) (fid : Nat) : State :=
  match s.frame? fid with
  | some f => if f.complete then { s with frames := Table.erase fid s.frames } else s
  | none => s

/-- A copy of a frame changed. -/
def State.modCopy (s : State) (fid i : Nat) (g : Copy → Copy) : State :=
  s.modFrame fid (fun f => { f with copies := listMod g i f.copies })

/-- The i-th copy of a frame. -/
def State.copy? (s : State) (fid i : Nat) : Option Copy :=
  match s.frame? fid with
  | some f => f.copies[i]?
  | none => none

/-- The chain that a port copy reads: the frame's, or its own once it is sealed (R260, R279). -/
def Copy.chain (c : Copy) (f : Frame) : List Nat :=
  match c.own with
  | some o => o.1
  | none => f.cells

/-- A copy ends before or without a packet: its outcome counts, and a port copy's use of the frame's cells ends. -/
def State.endCopy (s : State) (fid i : Nat) (o : CopyOutcome) : State :=
  match s.frame? fid, s.copy? fid i with
  | some f, some c =>
    let s := s.countOutcome c.cset c.port? o
    let s := if c.port?.isSome && !c.noCell then s.releaseCells (c.chain f) else s
    s.modCopy fid i (fun c => { c with stage := .done o })
  | _, _ => s

/-! ## Capture records (R353 to R356) -/

/-- Words a record of w words costs from a position on, with the PAD that the end of the ring may need (R356). -/
def Ring.recordCost (r : Ring) (pos w : Nat) : Nat := if pos + w ≤ r.size then w else r.size - pos + w

/-- Length word of a record (R353). KIND: 1 CAPTURE, 2 MIRROR, 3 UNKNOWN, 4 PAD, 5 LOSS. -/
def lengthWord (words kind : Nat) (ph : Bool) : Word := pack [(32, words), (7, b2n ph), (0, kind)]

/-- A PAD or LOSS record written: its words, the length word last; it counts and notifies (R339, R356, R359). -/
def State.shortRecord (s : State) (e : Ep) (k w kind : Nat) (rest : List Word) : State :=
  let h := (s.ring e k).head
  let s := if rest.isEmpty then s else s.emit (.ring e k (h.1 + 1) rest)
  let s := s.emit (.ring e k h.1 [lengthWord w kind h.2])
  ((s.modRing e k (fun r => r.reserve w true)).count (Reg.hostRingEntries e.idx k)).ringNotify e k

/-- A PAD record to the end of the ring, where the next w words do not fit (R356). -/
def State.capturePad (s : State) (e : Ep) (k w : Nat) : State :=
  let r := s.ring e k
  if r.head.1 + w ≤ r.size then s else s.shortRecord e k (r.size - r.head.1) 4 []

/-- A LOSS record before the next record, where records were lost (R356). -/
def State.captureLoss (s : State) (e : Ep) (k : Nat) : State :=
  if (s.ring e k).lost = 0 then s
  else
    let s := s.capturePad e k 2
    (s.shortRecord e k 2 5 [BitVec.ofNat 64 (s.ring e k).lost]).modRing e k (fun r => { r with lost := 0 })

/-- A ring can take capture records. -/
def State.captureUsable (s : State) (e : Ep) (k : Nat) : Bool := (s.ring e k).runs 5 && s.usable e

/-- Words of the capture buffer that records begun and not yet written occupy (R354). -/
def State.captureHeld (s : State) : Nat :=
  (s.rings.map (fun x => ((x.2.ahead.filter (fun y => !y.2.2)).map (fun y => y.2.1)).sum)).sum

/-- The capture buffer has room for w more words: MIB as the Larder was placed with, or as it stands before that (R354, R357). -/
def State.captureRoom (s : State) (w : Nat) : Bool :=
  decide (8 * (s.captureHeld + w) ≤ 1048576 * s.cellar.capMib.getD (s.fld Reg.hostCapCtl 0 11))

/-- Space for a record of w words reserved in a capture ring and in the capture buffer: position, words and PHASE; none without
space (R354). -/
def State.captureReserve (s : State) (e : Ep) (k w : Nat) : State × Option (Nat × Nat × Bool) :=
  let r := s.ring e k
  let loss := if r.lost = 0 then 0 else r.recordCost r.head.1 2
  let cost := loss + r.recordCost ((r.head.1 + loss) % r.size) w
  if s.captureUsable e k && decide (w < r.size) && decide (cost ≤ r.free) && s.captureRoom w then
    let s := (s.captureLoss e k).capturePad e k w
    let h := (s.ring e k).head
    (s.modRing e k (fun r => r.reserve w false), some (h.1, w, h.2))
  else (s, none)

/-- A record lost for want of space (R356). -/
def State.captureLost (s : State) (e : Ep) (k : Nat) : State :=
  (s.count (Reg.hostRingLost e.idx k)).modRing e k (fun r => { r with lost := r.lost + 1 })

/-- Words of a record with KEPTLEN data bytes (R353). -/
def recordWords (kept : Nat) : Nat := 7 + (kept + 7) / 8

/-- Data words of a record; bytes beyond KEPTLEN in the last word are unspecified: a free value (R353, log entry 4). -/
def recordData (d : List Byte) (fill : Word) : List Word :=
  (List.range ((d.length + 7) / 8)).map (fun i =>
    let part := (d.drop (8 * i)).take 8
    BitVec.ofNat 64 (leNat part + fill.toNat / 2 ^ (8 * part.length) * 2 ^ (8 * part.length)))

/-- Header B of a record (R353). -/
def headerB (f : BusFrame) (kept : Nat) : Word :=
  pack [(32, if f.fmt = 4 then f.af else 0), (20, f.len), (8, kept), (4, if f.fmt = 4 then 0 else f.dlc),
    (3, b2n f.brs), (2, b2n f.esi), (1, b2n (f.fmt == 4 && f.sec))]

/-- Words 1 to 4 of a record, known at lookup: header A, with the key as formed there, header B, SOF timestamp, source (R165, R353). -/
def recordHead (f : Frame) (c : Copy) : List Word :=
  let hit := f.watch.isSome
  let route := if hit || f.unk == 2 then (match c.dest with | .unknown _ _ => 0 | _ => c.route) else 0
  [f.key, headerB f.f c.keptLen, f.sofTai, pack [(48, route), (19, b2n f.gen), (18, b2n hit), (0, f.watch.getD 0)]]

/-- The two trailing words of a record: VALID timestamp and status (R353). -/
def recordTail (f : Frame) (c : Copy) : List Word :=
  let gcm := f.half.isSome && f.latched.alg == 2 && f.f.fmt == 4
  [f.validTai, pack [(10, b2n (decide (c.keptLen < f.f.len))), (9, b2n gcm), (8, b2n f.sealed),
    (0, if f.sealed then f.verdictCode.getD 0 else 0)]]

/-- Data words written at their place in a record. -/
def State.writeData (s : State) (e : Ep) (k pos : Nat) (d : List Word) : State :=
  if d.isEmpty then s else s.emit (.ring e k (pos + 5) d)

/-- A record's space is reserved: its first words are written (R354). -/
def State.openRecord (s : State) (f : Frame) (c : Copy) : State :=
  match c.ring?, c.space with
  | some (e, k), some sp => s.emit (.ring e k (sp.1 + 1) (recordHead f c))
  | _, _ => s

/-- The reserved space of an invalid frame becomes a PAD record of the same WORDS, which keeps what had been written of it: of
the data words a free number (R354, R360, log entry 4). -/
def State.captureVoidRecord (s : State) (f : Frame) (c : Copy) (e : Ep) (k : Nat) (sp : Nat × Nat × Bool) : State :=
  let x := s.takeFree
  let y := x.1.takeFree
  let d := recordData (f.plain.take c.keptLen) y.2
  let s := (y.1.writeData e k sp.1 (d.take (x.2.toNat % (d.length + 1)))).emit (.ring e k sp.1 [lengthWord sp.2.1 4 sp.2.2])
  let s := s.modRing e k (fun r => r.written sp.1)
  ((s.count (Reg.hostRingEntries e.idx k)).count Reg.hostCapVoided).ringNotify e k

/-- KIND of the record that a copy becomes (R353). -/
def recordKind : Dest → Nat
  | .mirror _ _ => 2
  | .unknown _ _ => 3
  | .capture _ _ | .port _ => 1

/-! ## Verdicts (R16 steps 6 and 8, R268, R272, R354) -/

/-- Every copy of an invalid frame is discarded where it stands; a cut-through copy on its bus waits for its self-abort. -/
def State.discardCopies (s : State) (fid : Nat) : State :=
  match s.frame? fid with
  | none => s
  | some f =>
    (List.range f.copies.length).foldl (fun s i =>
      match s.copy? fid i with
      | none => s
      | some c =>
        match c.stage, c.dest with
        | .waiting, .port _ => s.endCopy fid i .discarded
        | .sealing, .port _ => s.endCopy fid i .discarded
        | .lane, .port p =>
          match (s.port p).lane with
          | some l => if l.started then s else
              (s.modPort p (fun q => { q with lane := none })).endCopy fid i .discarded
          | none => s.endCopy fid i .discarded
        | .done _, _ => s
        | _, _ =>
          match c.ring?, c.space with
          | some (e, k), some sp =>
            (s.captureVoidRecord f c e k sp).modCopy fid i (fun c => { c with stage := .done .discarded, space := none })
          | _, _ => s.modCopy fid i (fun c => { c with stage := .done .discarded })) s

/-- The cut-through copies of a valid frame that have not started are withdrawn from their lanes (R268). -/
def State.withdrawCopies (s : State) (fid : Nat) : State :=
  match s.frame? fid with
  | none => s
  | some f =>
    (List.range f.copies.length).foldl (fun s i =>
      match s.copy? fid i with
      | none => s
      | some c =>
        match c.stage, c.dest with
        | .lane, .port p =>
          match (s.port p).lane with
          | some l => if l.started then s else
              (((s.modPort p (fun q => { q with lane := none })).modCopy fid i (fun c => { c with stage := .waiting })).count
                (Reg.drayPcntFallback p)).countSet c.cset Reg.drayCsFallback
          | none => s
        | .waiting, .port p =>
          if c.withdrawn then
            ((s.modCopy fid i (fun c => { c with withdrawn := false })).count (Reg.drayPcntFallback p)).countSet c.cset
              Reg.drayCsFallback
          else s
        | _, _ => s) s

/-- Level and mirror count of a route entry of a bank (R257). -/
def routeKey (g : Bool) (r : Nat) : Nat := 65536 * b2n g + r
/-- The state of a route entry. -/
def State.routeState (s : State) (g : Bool) (r : Nat) : RouteState :=
  Table.get (fun _ => {}) s.dray.routeState (routeKey g r)
/-- The state of a route entry changed. -/
def State.modRoute (s : State) (g : Bool) (r : Nat) (f : RouteState → RouteState) : State :=
  { s with dray := { s.dray with
      routeState := Table.set (fun _ => {}) s.dray.routeState (routeKey g r) (f (s.routeState g r)) } }

/-- One valid frame at a mirroring route entry (R272): every Nth one opens a mirror record. Which frame is the Nth is known at its
verdict, so the record's space is reserved then (log entry 86). -/
def State.mirrorOne (s : State) (fid : Nat) (f : Frame) (r : Nat) : State :=
  let re := (s.bank f.gen).route r
  if re.mirrorN = 0 then s
  else
    let n := (s.routeState f.gen r).mcount + 1
    if n < re.mirrorN then s.modRoute f.gen r (fun x => { x with mcount := n })
    else
      let s := s.modRoute f.gen r (fun x => { x with mcount := 0 })
      let kept := min f.f.len (8 * re.mlen)
      let res := s.captureReserve (epOf re.mep) re.mring (recordWords kept)
      match res.2 with
      | none =>
        let s := res.1
        (if s.captureUsable (epOf re.mep) re.mring then s.captureLost (epOf re.mep) re.mring else s).count Reg.drayMirrorLost
      | some sp =>
        let c : Copy := {
          route := r, dest := .mirror (epOf re.mep) re.mring, stage := .placed, fmt := f.f.fmt, ident := f.f.ident
          brs := f.f.brs, dlc := f.f.dlc, cls := 0, verify := false, eslot := none, cset := re.cset, life := 0
          noToken := false, noCell := false, fallback := false, space := some sp, keptLen := kept, withdrawn := false
          own := none }
        (res.1.openRecord f c).modFrame fid (fun f => { f with copies := f.copies ++ [c] })

/-- The frame's unknown-frame outcome counted, once it is looked up and valid (R173). -/
def State.countUnknown (s : State) (f : Frame) : State :=
  if f.watch.isSome || f.eccLost then s
  else match f.unk with
    | 1 => s.count (Reg.watchUnkCap f.port)
    | 2 => s.count (Reg.watchUnkRouted f.port)
    | _ => s.count (Reg.watchUnkDrop f.port)

/-- The lane that verifies a frame is free again (R300). -/
def State.freeLane (s : State) (fid : Nat) : State :=
  { s with lock := { s.lock with lanes := s.lock.lanes.map (fun (l : Lane) =>
      if l.verify = some fid then { l with verify := none } else l) } }

/-- What follows once a frame is both looked up and judged at its port: an invalid one is discarded everywhere; a valid
one leaves the lanes it has not started in, is mirrored and, when unknown, counted; an unknown one has no commit. -/
def State.afterVerdict (s : State) (fid : Nat) : State :=
  match s.frame? fid with
  | none => s
  | some f =>
    if !f.looked || f.verdict.isNone then s
    else if f.dead then
      let s := (s.freeLane fid).discardCopies fid
      let s := if f.watch.isSome && !f.eccLost && !f.committed then s.count Reg.scrivDiscardInvalid else s
      (s.modFrame fid (fun f => { f with committed := true, decoding := false, results := [] })).settleFrame fid
    else
      let s := f.routes.foldl (fun s r => s.mirrorOne fid f r) (s.withdrawCopies fid)
      let s := s.countUnknown f
      let s := if f.watch.isNone then s.modFrame fid (fun f => { f with committed := true }) else s
      s.settleFrame fid

end Sys2Proof.Machine
end

