-- ==== Sys2Proof/Machine/Watches.lean ====
section
/-! DEFINITION. Watch states and the walk queue (R208, R215 to R217): what the Watchman, the Steward and a swap share. -/

namespace Sys2Proof.Machine

/-- State of a watch; NEVER at reset (R215). -/
def State.watchOf (s : State) (w : Nat) : WState := Table.get (fun _ => {}) s.watch.states w
/-- State of a watch changed. -/
def State.modWatch (s : State) (w : Nat) (f : WState → WState) : State :=
  { s with watch := { s.watch with states := Table.set (fun _ => {}) s.watch.states w (f (s.watchOf w)) } }

/-- A walk that has not read its first op word, of the same kind and watch (R217). -/
def Walk.mergesWith (k q : Walk) : Bool :=
  decide (k.kind = q.kind) && k.watch == q.watch && !q.begun && decide (k.kind ≠ .retire)

/-- A walk taken into a queue: merged with the queued walk of its kind and watch, or put at the end (R217). -/
def enqueueWalk (k : Walk) : List Walk → List Walk
  | [] => [k]
  | q :: t => if k.mergesWith q then { k with begun := q.begun, pos := q.pos } :: t else q :: enqueueWalk k t

/-- A walk over an entry's program starts (R216). -/
def State.startWalk (s : State) (kind : WalkKind) (w : Nat) (gen : Bool) (e : WatchEntry) (cutoff : Word) : State :=
  let k : Walk := {
    kind := kind, watch := w, gen := gen, opBase := e.opBase, opCount := e.opCount, pos := 0, begun := false, cutoff := cutoff }
  { s with watch := { s.watch with walks := enqueueWalk k s.watch.walks } }

/-- A walk of the watch is pending (R215). -/
def State.walkPending (s : State) (w : Nat) : Bool := s.watch.walks.any (fun k => k.watch == w)

/-- A watch becomes NEVER with no refresh recorded; one that was FRESH or STALE is walked (R214, R221). -/
def State.retireWatch (s : State) (w : Nat) (gen : Bool) : State :=
  let x := s.watchOf w
  let s := s.modWatch w (fun x => { x with st := 0, tLast := none, tLastTai := 0, deadline := 0 })
  if x.st = 0 then s
  else (s.modWatch w (fun x => { x with retiredAt := s.watch.swapNo })).startWalk .retire w gen ((s.bank gen).entry w) 0

/-- The generation of the inactive bank (R45). -/
def State.inactiveGen (s : State) : Bool := !s.gen.activeGen

/-- Index w has not been checked since the last swap: neither visited by the sweep nor refreshed (R221). -/
def State.unchecked (s : State) (w : Nat) : Bool :=
  decide (0 < s.watch.swapNo) && (s.watchOf w).checkedAt != s.watch.swapNo &&
  decide ((w / 16 + 16384 - s.watch.sweepPos) % 16384 < s.watch.uncheckedLeft)

/-- Both banks hold a valid entry with one key at index w (R221). -/
def State.sameKey (s : State) (w : Nat) : Bool :=
  let a := (s.bank s.gen.activeGen).entry w
  let b := (s.bank s.inactiveGen).entry w
  a.valid && b.valid && a.1 == b.1

/-- The check of an unchecked index: where the key has changed, a FRESH or STALE watch retires (R221). -/
def State.checkIndex (s : State) (w : Nat) : State :=
  if !s.unchecked w || s.sameKey w then s
  else (s.retireWatch w s.inactiveGen).countIf ((s.watchOf w).st != 0) Reg.watchRetired

/-- Every watch becomes NEVER, with a retire walk for each that was FRESH or STALE: over the entry that it belongs to, which R221
finds first where an index is still unchecked (R410, R442). -/
def State.retireAll (s : State) : State :=
  (s.watch.states.map (·.1)).foldl (fun s w => (s.checkIndex w).retireWatch w s.gen.activeGen) s

/-- A FRESH watch turns STALE at an elapsed instant; without FAN_GROUP a deadline walk starts (R212, R216). -/
def State.turnStale (s : State) (w : Nat) (at' : Int) : State :=
  let x := s.watchOf w
  let e := (s.bank x.gen).entry w
  let s := (s.modWatch w (fun x => { x with st := 2, staleAt := some at' })).count Reg.watchStaleEvents
  if e.fanGroup then s else s.startWalk .deadline w x.gen e x.tLastTai

end Sys2Proof.Machine
end

