-- ==== Sys2Proof/Machine/Cores.lean ====
section
/-! DEFINITION. The core-pair switch and what it ends (R459, R460), the withdrawal of a pending swap (R46, R177), and
the pair records of the boot record (R451). -/

namespace Sys2Proof.Machine

/-- Every ring of both endpoints. -/
def allRings : List (Ep × Nat) := (List.range 128).map (fun k => (Ep.a, k)) ++ (List.range 128).map (fun k => (Ep.b, k))

/-- FW_STAT.RESULT takes a value; a change raises source 17 (R460). -/
def State.setFwResult (s : State) (r : Nat) : State :=
  State.raiseIf { s with sys := { s.sys with fwResult := r } } (s.sys.fwResult != r) 17

/-- COMMIT commands that asked for the pending swap complete with a status (R347). -/
def State.endSwapCommands (s : State) (status : Nat) (result : Word) : State :=
  allRings.foldl (fun s r =>
    match (s.ring r.1 r.2).running with
    | some c => if c.opc = 2 ∧ c.swap then s.endCommand r.1 r.2 status 0 (if c.arg = 1 then 0 else result) else s
    | none => s) s

/-- A pending swap is withdrawn, and no manual commit awaits it any more; the commands that requested it complete WITHDRAWN
(R46, R50, R345). -/
def State.withdrawSwap (s : State) : State :=
  if s.gen.swapPending then State.endSwapCommands { s with gen := { s.gen with swapPending := false, commitBusy := false } } 9 0 else s

/-- The inactive bank is marked bad; a pending swap is withdrawn and counted (R177). -/
def State.markBad (s : State) : State :=
  let s := s.modBank s.inactiveGen (fun b => { b with bad := true })
  if s.gen.swapPending then (s.withdrawSwap).count Reg.watchSwapRefused else s

/-- Commands that were executing on the pair that gave up its role complete FAILED with DETAIL 0xFE, and what they had
under way is dropped (R459); an interrupted table load leaves the inactive bank bad (R177). -/
def State.failCommands (s : State) : State :=
  let s := if s.watch.loader.st = .idle then s else
    State.markBad { s with watch := { s.watch with loader := { s.watch.loader with st := .idle, cmd := none, queue := [] } } }
  let s := allRings.foldl (fun s r =>
    if (s.ring r.1 r.2).running.isSome then s.endCommand r.1 r.2 5 0xFE 0 else s) s
  { s with time := { s.time with requests := [] }, lock := { s.lock with swaps := [], pending := [] } }

/-- No command is executing and no table load runs (R459). -/
def State.commandsQuiet (s : State) : Bool :=
  decide (s.watch.loader.st = .idle) && allRings.all (fun r => (s.ring r.1 r.2).running.isNone)

/-- Pair of a management slot and a microcode slot as CUR and LKG encode it (R451). -/
def pairCode (m u : Option Nat) : Nat :=
  match m, u with
  | some m, some u => m + 16 * u
  | _, _ => 0xFF

/-- REJ bit of a pair (R451). -/
def rejBit (m u : Nat) : Nat := 4 * m + (u - 4)

/-- A pair is rejected. -/
def BootRecord.rejected (r : BootRecord) (m u : Nat) : Bool := natField r.rej (rejBit m u) 1 == 1
/-- A pair's REJ bit set. -/
def BootRecord.reject (r : BootRecord) (m u : Nat) : BootRecord := if r.rejected m u then r else { r with rej := r.rej + 2 ^ rejBit m u }

/-- Cores of a pair. -/
def pairCores (p : Nat) : List Nat := [2 * p, 2 * p + 1]

/-- The active role moves to the other pair (R459); standby says whether the old pair then stands by. -/
def State.switchPair (s : State) (standby : Bool) : State :=
  let s := { s with sys := { s.sys with pair := 1 - s.sys.pair, standby := standby, switchReq := none } }
  (s.count Reg.sysFwHandovers).raise 17

/-- The role switches back to the old pair while CONFIRM_PEND is 1: the new pair's REJ bit is set and the result is
REVERTED (R460). -/
def State.revertPair (s : State) (standby : Bool) : State :=
  let s := s.switchPair standby
  let rej := match s.sys.runMgmt, s.sys.runMicro with
    | some m, some u => s.sys.record.reject m u
    | _, _ => s.sys.record
  let s := State.setRecord { s with sys := { s.sys with confirmPend := false, runMgmt := s.sys.oldMgmt } } rej
  (s.count Reg.sysFwReverts).setFwResult 6

/-- A fence of an active core (R409, R459, R460): the role moves at once, without the wait. -/
def State.fencePair (s : State) : State :=
  let s := s.failCommands
  if s.sys.confirmPend && !s.sys.confirmRoll then s.revertPair false else s.switchPair false

/-- A complete standby pair is ready: none while a standby core or pair slice is under test (R420). -/
def State.standbyReady (s : State) : Bool := s.sys.standby && !s.tink.tests.any (fun t => t.held && decide (168 ≤ t.slice))

end Sys2Proof.Machine
end

