-- ==== Sys2Proof/Machine/Ports.lean ====
section
/-! DEFINITION. Port engines: modes, up and down, error confinement, start and stop (R85 to R121), and what the Drayman
does when a port goes down or comes up (R273, R274). -/

namespace Sys2Proof.Machine

/-! ## Modes and pins (R100 to R102, R125, R129, R142) -/

/-- I/O bank of a logic port (R10, R129). -/
def lbankOf (p : Nat) : Nat := (p - 32) / 8

/-- The driver of an integrated port is held off by an undervoltage (R128). -/
def State.uvOff (s : State) (p : Nat) : Bool := (s.xcvr.uv[p / 8]?).getD true || (s.ip p).uvHold

/-- The port's pins let the engine take part: mode in effect NORMAL or SIC and settled, no trip, no undervoltage (R125);
for a logic port, bank powered and STB in effect 0 (R129, R142). -/
def State.pinsOk (s : State) (p : Nat) : Bool :=
  if p < 32 then
    ((s.ip p).modeEff == 3 || (s.ip p).modeEff == 4) && (s.ip p).settleAt.isNone && !(s.ip p).tripped && !s.uvOff p
  else !(s.xcvr.lUnpowered[lbankOf p]?).getD true && s.xcvr.stbLow.contains p

/-- The engine receives the bus (R123, R128, R129); at debug level 1 it receives recessive (R434). -/
def State.seesBus (s : State) (p : Nat) : Bool :=
  if s.sys.level = 1 then false else if p < 32 then (s.ip p).modeEff ≥ 2 && !(s.xcvr.unpowered[p / 8]?).getD true
  else !(s.xcvr.lUnpowered[lbankOf p]?).getD true

/-- The word of a register of engine n's PORT block as it applies to the frame on the bus: a word that has committed since its
SOF applies from the next frame (R26, R102). -/
def State.portWord (s : State) (n off : Nat) : Word :=
  (Table.find? (off % 0x400) (s.engine n).heldWords).getD (s.reg off)

/-- MODE of engine n for the frame on the bus: safe mode is listen-only (R101, R102). -/
def State.modeOf (s : State) (n : Nat) : Nat :=
  if s.sys.safe then 1 else (s.portWord n (Reg.portCtl n)).field 1 2

/-- MODE as port p acts on it: without its pins, MODE 0 and MODE 2 act as MODE 1 (R125). -/
def State.actingMode (s : State) (p : Nat) : Nat :=
  let m := s.modeOf (s.serving p)
  if (m == 0 || m == 2) && !s.pinsOk p then 1 else m

/-- The error counters of the port's engine change: MODE 0 and MODE 3 (R100). -/
def State.countsErrors (s : State) (p : Nat) : Bool := s.actingMode p == 0 || s.actingMode p == 3

/-- The I/O bank of a logic port is unpowered (R129). -/
def State.ioUnpowered (s : State) (p : Nat) : Bool := decide (32 ≤ p) && (s.xcvr.lUnpowered[lbankOf p]?).getD true

/-- The port is up for transmission (R102, R125, R129): RUNNING, not bus-off, not fenced, its I/O bank powered, and MODE 0 with
its pins or MODE 3; never at debug level 1 (R434), nor after load shed (R381). -/
def State.portUp (s : State) (p : Nat) : Bool :=
  let e := s.engine (s.serving p)
  s.sys.level != 1 && !s.cellar.pfail && decide (e.st = .running) && !e.busOff && !e.fenced && !s.ioUnpowered p && s.countsErrors p

/-- Error passive (R96). -/
def Engine.passive (e : Engine) : Bool := !e.busOff && (decide (127 < e.tec) || decide (127 < e.rxErr))
/-- Error state code: 0 active, 1 passive, 2 bus-off (R121). -/
def Engine.errState (e : Engine) : Nat := if e.busOff then 2 else if e.passive then 1 else 0

/-- Cut-through to the port is suspended (R271). -/
def State.suspended (s : State) (p : Nat) : Bool := s.flag (Reg.drayPortCtl p) 0 || (s.port p).suspSteward

/-- CT_ELIGIBLE (R115): up in MODE 0, error active, cut-through not suspended. -/
def State.ctEligible (s : State) (p : Nat) : Bool :=
  s.portUp p && s.actingMode p == 0 && (s.engine (s.serving p)).errState == 0 && !s.suspended p

/-! ## Ports going down and coming up (R273, R274) -/

/-- The frames queued for port p are held from now on (R273, R274). -/
def State.holdPort (s : State) (p : Nat) : State :=
  s.modPort p (fun q => { q with held := !q.queuesEmpty, heldSince := s.time.now })

/-- The port has gone down for transmission (R273). In STOPPING the frame on the bus runs to its end and the flush comes
with STOPPED (R113). Otherwise a frame on the bus keeps its place at the head of its queue, and the queued frames are
flushed at once when the engine is STOPPED or HOLD is 0, and held else. -/
def State.portDown (s : State) (p : Nat) : State :=
  if (s.engine (s.serving p)).st = .stopping then s.holdPort p
  else
    let s := s.cutAttempt p
    if (s.engine (s.serving p)).st = .stopped ∨ s.fld (Reg.drayPortCtl p) 16 8 = 0 then s.flushPort p else s.holdPort p

/-- A change that may take a port up or down (R273). -/
def State.portStep (s : State) (p : Nat) (f : State → State) : State :=
  let s' := f s
  if s.portUp p && !s'.portUp p then s'.portDown p else s'

/-- A change that may take several ports up or down. -/
def State.portsStep (s : State) (ps : List Nat) (f : State → State) : State :=
  let s' := f s
  ps.foldl (fun t p => if s.portUp p && !s'.portUp p then t.portDown p else t) s'

/-! ## Start and stop (R91 to R93, R112 to R114) -/

/-- Bit time in mtq of a prescaler and segments. -/
def bitMtq (brp tseg1 tseg2 : Nat) : Nat := brp * (1 + tseg1 + tseg2)

/-- One phase's constraints (R91). -/
def phaseOk (brp tseg1 tseg2 sjw lo hi : Nat) : Bool :=
  decide (8 ≤ 1 + tseg1 + tseg2) && decide (lo ≤ bitMtq brp tseg1 tseg2) && decide (bitMtq brp tseg1 tseg2 ≤ hi) &&
  decide (sjw ≤ tseg2) && decide (sjw ≤ tseg1)

/-- Nominal bit time of an NBT word in mtq. -/
def nbtMtq (w : Word) : Nat := bitMtq (w.field 48 9) (w.field 32 9) (w.field 16 8)
/-- Data bit time of a DBT or XBT word in mtq. -/
def dbtMtq (w : Word) : Nat := bitMtq (w.field 40 6) (w.field 32 7) (w.field 16 6)

/-- The settings in force of engine n meet R87 and R91 for port p. -/
def State.settingsOk (s : State) (n p : Nat) : Bool :=
  let nb := s.reg (Reg.portNbt n)
  let db := s.reg (Reg.portDbt n)
  let xb := s.reg (Reg.portXbt n)
  let fd := s.flag (Reg.portCtl n) 4
  let xl := s.flag (Reg.portCtl n) 5
  let fast := s.flag (Reg.portXlCtl n) 1
  let errsig := s.flag (Reg.portXlCtl n) 0
  (!xl || fd) && phaseOk (nb.field 48 9) (nb.field 32 9) (nb.field 16 8) (nb.field 0 8) 160 16000 &&
  (!fd || phaseOk (db.field 40 6) (db.field 32 7) (db.field 16 6) (db.field 0 6) 20 (nbtMtq nb)) &&
  (!xl || (phaseOk (xb.field 40 6) (xb.field 32 7) (xb.field 16 6) (xb.field 0 6) (if fast then 8 else 20) (nbtMtq nb) &&
    (!fast || (decide (32 ≤ p) && !errsig))))

/-- The settings in force taken as the values in use (R93). -/
def State.takeSettings (s : State) (n : Nat) (e : Engine) : Engine :=
  { e with
    useNbt := s.reg (Reg.portNbt n), useDbt := s.reg (Reg.portDbt n), useXbt := s.reg (Reg.portXbt n)
    useTdc := s.reg (Reg.portTdc n), useXl := s.reg (Reg.portXlCtl n)
    useFd := s.flag (Reg.portCtl n) 4, useXlEn := s.flag (Reg.portCtl n) 5 }

/-- Entry to STARTING: values in use taken, TEC and REC 0, error active (R93, R95); a change of error state raises the
port's status source (R96). -/
def State.engineStarting (s : State) (n : Nat) : State :=
  let e := s.takeSettings n (s.engine n)
  let s := s.setEngine n { e with
    st := .starting, startHeld := false, cfgErr := false, tec := 0, rxErr := 0, busOff := false, ewarn := false
    boWait := false, boMonitor := false, recov := 0, pex := false, heldWords := [], prevWords := [], idleWait := false
    suspend := false }
  match s.portOf n with
  | some p => s.raiseIf (e.errState != 0) (64 + p)
  | none => s

/-- The check of R92 on a STOPPED engine with EN = 1: STARTING, or CFG_ERR with the port status source. An engine that
serves no port does nothing (R85), nor does a fenced one. -/
def State.engineTryStart (s : State) (n : Nat) : State :=
  match s.portOf n with
  | none => s
  | some p =>
    let e := s.engine n
    if e.st ≠ .stopped ∨ e.fenced ∨ ¬ s.flag (Reg.portCtl n) 0 then s
    else if s.settingsOk n p then s.engineStarting n
    else (s.modEngine n (fun e => { e with cfgErr := true, startHeld := false })).raise (64 + p)

/-- EN = 0 in force (R112 to R114). It clears the report of a refused start, which R92 leaves open (log entry 81). -/
def Engine.stop (e : Engine) : Engine :=
  match e.st with
  | .starting => { e with st := .stopped }
  | .running => { e with st := .stopping }
  | .stopping => { e with startHeld := false }
  | .stopped => { e with cfgErr := false }

/-- The shadowing spare of a port is let go (R148): no connection, STOPPED (R85). -/
def State.releaseShadow (s : State) (p : Nat) : State :=
  let s := match (s.port p).shadow with
    | some n => s.modEngine n (fun e => { e with st := .stopped })
    | none => s
  s.modPort p (fun q => { q with shadow := none, phase := 0, proved := false, everProved := false, spareReady := false })

/-- A handover that a rolling update requested for a port has failed (R461). -/
def State.rollFailed (s : State) (p : Nat) : State :=
  let n := Table.get (fun _ => 0) s.sys.rollFails p + 1
  { s with sys := { s.sys with rollFails := Table.set (fun _ => 0) s.sys.rollFails p n } }

/-- A handover ends without success: the spare is released, counted and reported (R161). -/
def State.handoverFail (s : State) (p result : Nat) : State :=
  let s := if (s.port p).hoBy = .firmware ∧ s.sys.roll = 1 then s.rollFailed p else s
  (((s.releaseShadow p).modPort p (fun q => { q with result := result, hoBy := .host })).count Reg.xbarHoFail).raise 5

/-- Offsets in a PORT block that hold RW fields (R121). -/
def portRwOffsets : List Nat := [0x80, 0x88, 0x90, 0x98, 0xa0, 0xa8, 0xb0, 0xb8, 0xc0]
/-- Offsets in a PORT block that hold counters (R121). -/
def portCounterOffsets : List Nat :=
  [0x40, 0x48, 0x50, 0x58, 0x60, 0x68, 0x70, 0x78, 0xc8, 0xd0, 0xd8, 0xe0, 0xe8, 0xf0, 0xf8]

/-- A register copy moved from one offset to another, absent where the source has none. -/
def moveCopy (t : Table Word) (a b : Nat) : Table Word :=
  match Table.find? a t with
  | some w => Table.insert b w t
  | none => Table.erase b t

/-- Every RW field of engine a's PORT block copied into engine b's: staged, held and in-force values each into its own
copy (R152). -/
def State.copyBlock (s : State) (a b : Nat) : State :=
  portRwOffsets.foldl (fun s o =>
    let x := 0x100000 + 0x400 * a + o
    let y := 0x100000 + 0x400 * b + o
    let s := s.setReg y (s.reg x)
    { s with regs := { s.regs with staged := moveCopy s.regs.staged x y, held := moveCopy s.regs.held x y } }) s

/-- Every live counter of an engine's PORT block set to 0 (R153). -/
def State.zeroBlock (s : State) (n : Nat) : State :=
  { s with regs := { s.regs with
      counters := portCounterOffsets.foldl (fun t o => Table.erase (0x100000 + 0x400 * n + o) t) s.regs.counters } }

/-- The switch (R157, R158, R161): the new engine takes TEC, REC, error state, suspend transmission owed, values in use and
TDC measurement, the old one is free and STOPPED. Queues, open packets and attempt counts belong to the port and stay. -/
def State.switchEngine (s : State) (p n result : Nat) : State :=
  let o := s.serving p
  let e := s.engine o
  let x := s.engine n
  let s := s.setEngine n { e with mcode := x.mcode, fenced := x.fenced, tested := x.tested, lastErr := x.lastErr }
  let s := s.modEngine o (fun e => { e with
    st := .stopped, startHeld := false, cfgErr := false, boWait := false, boMonitor := false, pex := false
    heldWords := [], prevWords := [], idleWait := false, suspend := false })
  let s := s.modPort p (fun q => { q with
    serving := n, shadow := none, phase := 0, result := result, proved := false, everProved := false, spareReady := false
    hoBy := .host })
  (s.count Reg.xbarHoDone).raise 5

/-- An offline handover (R149, R158). -/
def State.offlineHandover (s : State) (p n : Nat) : State := ((s.copyBlock (s.serving p) n).zeroBlock n).switchEngine p n 2

/-- An engine that stops is STOPPED: queued frames are flushed, a shadowing spare takes the port offline, and a held start
begins (R112 to R114, R273). -/
def State.engineStopped (s : State) (n : Nat) : State :=
  let held := (s.engine n).startHeld
  let s := s.modEngine n (fun e => { e with st := .stopped, startHeld := false, boWait := false, boMonitor := false })
  match s.portOf n with
  | none => s
  | some p =>
    let s := s.flushPort p
    let s := match (s.port p).shadow with
      | some m => s.switchEngine p m 2
      | none => s
    if held then s.engineTryStart (s.serving p) else s

/-- A commit of PORT.CTL or of another setting of an engine that serves a port: EN acts, and a refused start is judged
again (R92, R112, R114). -/
def State.engineCommit (s : State) (n : Nat) : State :=
  match s.portOf n with
  | none => s
  | some p =>
    s.portStep p (fun s =>
      if s.flag (Reg.portCtl n) 0 then
        match (s.engine n).st with
        | .stopped => s.engineTryStart n
        | .stopping => s.modEngine n (fun e => { e with startHeld := true })
        | .starting | .running => s
      else
        let was := (s.engine n).st
        let s := s.modEngine n Engine.stop
        if was = .starting ∨ ((s.engine n).st = .stopping ∧ (s.engine n).busOff) then s.engineStopped n else s)

/-! ## Error confinement (R95, R96, R98) -/

/-- The port status source of the port that engine n serves (R92, R96, R400). -/
def State.raisePort (s : State) (n : Nat) : State :=
  match s.portOf n with
  | some p => s.raise (64 + p)
  | none => s

/-- EWARN of an engine's counts (R96). -/
def State.ewarnOf (s : State) (n : Nat) (e : Engine) : Bool :=
  let l := (s.portWord n (Reg.portEwl n)).field 0 8
  decide (l ≤ e.tec) || decide (l ≤ e.rxErr)

/-- An engine in bus-off: the policy is read at the entry (R98). -/
def Engine.enterBusOff (e : Engine) (policy now delayMs : Nat) : Engine :=
  { e with
    busOff := true, boPolicy := policy, recov := 0, boMonitor := policy == 0, boWait := policy == 1 || policy == 2
    boUntil := if policy = 1 then now + 1000000 * delayMs else 0 }

/-- New error counts of engine n (R95, R96): REC stops at 255, bus-off when TEC exceeds 255; a change of error state or
a rise of EWARN raises the port status source. -/
def State.setErrors (s : State) (n tec rxErr : Nat) : State :=
  let e := s.engine n
  let e1 := { e with tec := tec, rxErr := min rxErr 255 }
  let e2 := if 255 < tec ∧ ¬ e.busOff then
      e1.enterBusOff (s.fld (Reg.portCtl n) 8 2) s.time.now (s.fld (Reg.portBoCtl n) 0 16)
    else e1
  let e3 := { e2 with ewarn := s.ewarnOf n e2 }
  let s := (s.setEngine n e3).countIf (e3.busOff && !e.busOff) (Reg.portBusOff n)
  let s := if e3.errState ≠ e.errState ∨ (e3.ewarn ∧ ¬ e.ewarn) then s.raisePort n else s
  if e3.busOff ∧ e3.st = .stopping then s.engineStopped n else s

/-- The counter and LAST_ERR code of an error type (R109, R121). -/
def busErrCode : BusErr → Nat
  | .stuff => 1
  | .form => 2
  | .ack => 3
  | .bitRecessive => 4
  | .bitDominant => 5
  | .crc => 6
  | .stuffArb => 1
  | .ackAlone => 3
  | .bitInFlag => 5
  | .dominantAfterFlag | .dominantRun => 0

/-- The counter of an error type in engine n's block (R109). -/
def busErrReg (n : Nat) : BusErr → Option Nat
  | .stuff | .stuffArb => some (Reg.portErrStuff n)
  | .form => some (Reg.portErrForm n)
  | .ack | .ackAlone => some (Reg.portErrAck n)
  | .bitRecessive | .bitDominant | .bitInFlag => some (Reg.portErrBit n)
  | .crc => some (Reg.portErrCrc n)
  | .dominantAfterFlag | .dominantRun => none

/-- It follows an error that has been signalled, and ends no frame of its own. -/
def isSequel : BusErr → Bool
  | .bitInFlag | .dominantAfterFlag | .dominantRun => true
  | .stuff | .form | .ack | .bitRecessive | .bitDominant | .crc | .stuffArb | .ackAlone => false

/-- What an error adds to TEC and REC (R95), with ISO 11898-1:2024's exceptions: a transmitter's TEC does not rise for a stuff
error in arbitration, nor, error passive, for a missing acknowledgement whose passive flag met no dominant bit. silent says that
no error flag is sent in the XL data phase. -/
def Engine.errorStep (e : Engine) (x : BusErr) (transmitter silent : Bool) : Nat × Nat :=
  match x, transmitter with
  | .dominantAfterFlag, true => (0, 0)
  | .stuffArb, true => (0, 0)
  | .ackAlone, true => (if e.passive || silent then 0 else 8, 0)
  | .bitInFlag, true | .dominantRun, true => (8, 0)
  | .bitInFlag, false | .dominantAfterFlag, false | .dominantRun, false => (0, 8)
  | _, true => (if silent then 0 else 8, 0)
  | _, false => (0, 1)

/-- PHASE code of R121. -/
def phaseCode : BitPhase → Nat
  | .nominal => 0
  | .fdData => 1
  | .xlData => 2

/-- LAST_ERR of engine n takes an error (R109, R121). -/
def State.lastErr (s : State) (n code : Nat) (transmitter : Bool) (ph : BitPhase) : State :=
  s.modEngine n (fun e => { e with
    lastErr := pack [(32, s.tai.field 0 32), (5, b2n transmitter), (3, phaseCode ph), (0, code)] })

/-- An error type counted and recorded; the sequel of an error flag is no error of its own (R109). -/
def State.noteError (s : State) (n : Nat) (e : BusErr) (transmitter : Bool) (ph : BitPhase) : State :=
  match busErrReg n e with
  | some r => (s.count r).lastErr n (busErrCode e) transmitter ph
  | none => s

/-- The frame on the bus has ended: what has committed since its SOF applies from now on, EWL to the counts as they stand
(R26, R96, R102). -/
def State.endBusFrame (s : State) (n : Nat) : State :=
  let late := (Table.find? (Reg.portEwl n % 0x400) (s.engine n).heldWords).isSome
  let s := s.modEngine n (fun e => { e with heldWords := [] })
  if late then s.setErrors n (s.engine n).tec (s.engine n).rxErr else s

/-- The frame on port p's bus has ended: committed settings apply, and a driver held off returns (R26, R102, R128). -/
def State.busFrameOver (s : State) (p : Nat) : State :=
  s.portStep p (fun s =>
    let s := s.endBusFrame (s.serving p)
    if p < 32 ∧ (s.ip p).uvHold then s.modIp p (fun t => { t with uvHold := false }) else s)

/-- A successful reception (R95): REC falls by one, or to 119 from above 127. -/
def rxErrAfterReception (r : Nat) : Nat := if 127 < r then 119 else r - 1

/-! ## Free engines and cold replacement (R148, R162) -/

/-- Engine n is free (R148). -/
def State.engineFree (s : State) (n : Nat) : Bool :=
  decide (n < 136) && (s.portOf n).isNone && (s.shadowedPort n).isNone && !(s.engine n).fenced && !(s.engine n).tested

/-- The free engines in rising order. -/
def State.freeEngines (s : State) : List Nat := (List.range 136).filter s.engineFree

/-- Every copy of PMAP.ENGINE of a port set to an engine (R162). -/
def State.setPmap (s : State) (p n : Nat) : State :=
  let o := Reg.xbarPmap p
  let s := s.setFld o 0 8 n
  let upd : Table Word → Table Word := fun t =>
    match Table.find? o t with
    | some w => Table.insert o (w.setField 0 8 n) t
    | none => t
  { s with regs := { s.regs with staged := upd s.regs.staged, held := upd s.regs.held } }

/-- Cold replacement of a port's fenced engine by another (R162). -/
def State.coldReplace (s : State) (p n : Nat) : State :=
  let s := (s.copyBlock (s.serving p) n).setPmap p n
  let s := s.modEngine n (fun e => { e with st := .stopped, tec := 0, rxErr := 0, busOff := false, ewarn := false })
  let s := s.modPort p (fun q => { q with
    serving := n, shadow := none, phase := 0, result := 3, proved := false, everProved := false, spareReady := false
    hoBy := .host })
  (((s.count Reg.xbarSpareUsed).count Reg.xbarHoDone).raise 5).engineTryStart n

/-- A cut-through copy leaves its bus without having been sent: back to the Drayman as a store-and-forward copy, or
discarded where its frame is already invalid (R120, R269). -/
def State.laneReturn (s : State) (p : Nat) : State :=
  match (s.port p).lane with
  | none => s
  | some l =>
    let s := s.modPort p (fun q => { q with lane := none, onBus := if q.onBus = some .lane then none else q.onBus })
    match s.frame? l.fid with
    | none => s
    | some f =>
      if f.dead then (s.endCopy l.fid l.copy .discarded).settleFrame l.fid
      else s.modCopy l.fid l.copy (fun c => { c with stage := .waiting, fallback := true })

/-- The frame a port is receiving is discarded where it stands, as when its engine is fenced (R21, R119). -/
def State.dropReception (s : State) (p : Nat) : State :=
  match (s.port p).rxFrame with
  | none => s
  | some fid =>
    let s := s.modPort p (fun q => { q with rxFrame := none })
    (s.modFrame fid (fun f => { f with verdict := some .invalid })).afterVerdict fid

/-- A port engine is fenced (R409): disconnected at once; with spare = true a cold replacement follows if an engine is
free. A shadowing spare that is fenced ends its handover with FENCED. -/
def State.fenceEngine (s : State) (n : Nat) (spare : Bool) : State :=
  match s.shadowedPort n with
  | some p => (s.handoverFail p 10).modEngine n (fun e => { e with fenced := true })
  | none =>
    match s.portOf n with
    | none => s.modEngine n (fun e => { e with fenced := true })
    | some p =>
      let s := (s.dropReception p).laneReturn p
      let was := s.portUp p || decide ((s.engine n).st = .stopping)
      let s := s.modEngine n (fun e => { e with fenced := true, st := .stopped, startHeld := false })
      let s := if spare then
          match (s.port p).shadow with
          | some m => s.coldReplace p m
          | none =>
            match s.freeEngines with
            | m :: _ => s.coldReplace p m
            | [] => s
        else s
      if was then s.portDown p else if (s.engine (s.serving p)).st = .stopped then s.flushPort p else s

/-! ## Commands -/

/-- BO_DELAY_EXPIRE (R98): the DELAYED wait has ended, and monitoring begins. -/
def execBoDelayExpire (port : Nat) (s : State) : Answer :=
  let n := s.serving port
  let e := s.engine n
  .next (if e.boWait && e.boPolicy == 1 then
      (s.advanceTo e.boUntil).modEngine n (fun e => { e with boWait := false, boMonitor := true })
    else s)

/-- BUS_OFF_RECOVERY (R98): occurrences of 11 recessive bits monitored; the 128th ends bus-off, error active with TEC
and REC at 0. -/
def execBusOffRecovery (port occurrences : Nat) (s : State) : Answer :=
  let n := s.serving port
  let e := s.engine n
  .next (if e.busOff && e.boMonitor then
      if e.recov + occurrences < 128 then s.modEngine n (fun e => { e with recov := e.recov + occurrences })
      else (s.modEngine n (fun e => { e with
        tec := 0, rxErr := 0, busOff := false, boMonitor := false, recov := 0, ewarn := false })).raisePort n
    else s)

/-- RECOVER of R99: ends a DELAYED wait or starts MANUAL recovery; ignored otherwise. -/
def State.recover (s : State) (n : Nat) : State :=
  s.modEngine n (fun e => if e.busOff && e.boWait && (e.boPolicy == 1 || e.boPolicy == 2) then
    { e with boWait := false, boMonitor := true } else e)

/-- PORT_INTEGRATED (R100, R112, R154): 11 recessive bits take STARTING to RUNNING, and end the wait of restricted mode after an
error; a shadowing spare is ready to receive. -/
def execPortIntegrated (eng : Nat) (s : State) : Answer :=
  .next (match s.shadowedPort eng with
    | some p => s.modPort p (fun q => { q with spareReady := true })
    | none =>
      if (s.engine eng).st = .starting ∧ (s.portOf eng).isSome then
        s.modEngine eng (fun e => { e with st := .running })
      else s.modEngine eng (fun e => { e with idleWait := false }))

/-- PORT_STOP_COMPLETE (R113): nothing is pending on the bus. -/
def execPortStopComplete (eng : Nat) (s : State) : Answer :=
  .next (match s.portOf eng with
    | none => s
    | some p =>
      if (s.engine eng).st = .stopping ∧ (s.port p).rxFrame = none ∧ (s.port p).onBus = none then s.engineStopped eng
      else s)

/-- PORT_HOLD_EXPIRE (R273): HOLD milliseconds after the port went down; a port that is up again wins. -/
def execPortHoldExpire (port : Nat) (s : State) : Answer :=
  .next (if (s.port port).held && !s.portUp port && decide ((s.engine (s.serving port)).st ≠ .stopping) then
      (s.advanceTo ((s.port port).heldSince + 1000000 * s.fld (Reg.drayPortCtl port) 16 8)).flushPort port
    else s)

/-- PROTOCOL_EXCEPTION_EXIT (R89): after 11 recessive bits the engine takes part again. -/
def execProtocolExceptionExit (eng : Nat) (s : State) : Answer :=
  .next (s.modEngine eng (fun e => { e with pex := false }))

end Sys2Proof.Machine
end

