-- ==== Sys2Proof/Machine/Steward.lean ====
section
/-! DEFINITION. The Steward: events, counting classification, reactions, recovery, consequence windows, self-test masks
and the fault pins (R403 to R417). -/

namespace Sys2Proof.Machine

/-! ## Sources and their settings (R406, R417) -/

/-- Fault source f. -/
def State.src (s : State) (f : Nat) : FaultSrc := Table.get (fun _ => {}) s.stew.srcs f
/-- Fault source f changed. -/
def State.modSrc (s : State) (f : Nat) (g : FaultSrc → FaultSrc) : State :=
  { s with stew := { s.stew with srcs := Table.set (fun _ => {}) s.stew.srcs f (g (s.src f)) } }

/-- Sources that report (R406); the others never do. -/
def faultUsed (f : Nat) : Bool := decide (f ≤ 318) || f == 360 || f == 361

/-- A reaction that a source allows (R406). 0 NONE, 1 FENCE, 2 FENCE_SPARE, 3 RELOAD, 4 SUSPEND_CT, 5 DEGRADE. -/
def reactAllowed (f r : Nat) : Bool :=
  r == 0 || (decide (f < 136) && (r == 1 || r == 2)) || (decide (136 ≤ f ∧ f < 264) && r == 4) ||
  (decide (264 ≤ f ∧ f < 288) && r == 1) || ([290, 293, 294, 301, 302, 308].contains f && r == 1) ||
  ((f == 291 || f == 292) && r == 5) || (decide (303 ≤ f ∧ f ≤ 306) && r == 2) || (f == 360 && r == 3)

/-- REACT of a source as it acts: what it does not allow, and 6 and 7, act as NONE (R409). -/
def State.reactOf (s : State) (f : Nat) : Nat :=
  let r := s.fld (Reg.stewSrcCfg f) 39 3
  if reactAllowed f r then r else 0

/-- SEV of a source; 3 acts as SEVERE (R408). -/
def State.sevOf (s : State) (f : Nat) : Nat := min (s.fld (Reg.stewSrcCfg f) 36 2) 2
def State.rmaxOf (s : State) (f : Nat) : Nat := s.fld (Reg.stewSrcCfg f) 58 4
def State.threshOf (s : State) (f : Nat) : Nat := s.fld (Reg.stewSrcCfg f) 0 8
/-- QUIET of a source in ns (R410). -/
def State.quietNs (s : State) (f : Nat) : Nat := 1000000 * s.fld (Reg.stewSrcCfg f) 42 16
/-- A sub-bucket of a source in ns: WINDOW × 1,000 ÷ 16 µs, rounded down to a whole µs (R407). -/
def State.bucketNs (s : State) (f : Nat) : Nat := 1000 * (1000 * s.fld (Reg.stewSrcCfg f) 12 22 / 16)

/-! ## Pins (R413 to R416) -/

/-- The condition of ALERT_N (R413). -/
def State.alertDue (s : State) : Bool :=
  s.stew.srcs.any (fun x => decide (1 ≤ s.sevOf x.1) && (x.2.sticky || x.2.broken))

/-- A source holds FLT_N: SEVERE, or a core classification that counts as such (R409, R413). -/
def State.fltSource (s : State) (f : Nat) (x : FaultSrc) : Bool :=
  (decide (2 ≤ s.sevOf f) || s.stew.coreSevere.contains f) && (x.sticky || x.st == 1 || x.st == 2)

/-- The condition of FLT_N (R413, R414, R416). -/
def State.fltDue (s : State) : Bool :=
  s.stew.wdog || !s.stew.started || s.stew.srcs.any (fun x => s.fltSource x.1 x.2)

/-- One pin: it goes low with its condition and is released when that has ended and its least low time has passed. -/
def pinNext (low due : Bool) (since now least : Nat) : Bool × Nat :=
  if due then (true, if low then since else now)
  else if low && decide (now < since + least) then (true, since) else (false, since)

/-- The fault pins follow their conditions (R413); in DEPOT they hold their levels, in OFF FLT_N is low and ALERT_N
released (R416). -/
def State.stewPins (s : State) : State :=
  let s := { s with stew := { s.stew with coreSevere := s.stew.coreSevere.filter (fun f => s.fltSource f (s.src f)) } }
  if s.sys.pwr = 2 then s
  else if s.sys.pwr = 3 then { s with stew := { s.stew with flt := true, alert := false } }
  else
    let a := pinNext s.stew.alert (s.stew.started && s.alertDue) s.stew.alertAt s.time.now 10000
    let f := pinNext s.stew.flt s.fltDue s.stew.fltAt s.time.now 1000000
    { s with stew := { s.stew with alert := a.1, alertAt := a.2, flt := f.1, fltAt := f.2 } }

/-! ## Consequence windows (R411) -/

/-- Dependants of an engine that serves, or served, a port (R411). -/
def portDeps : Option Nat → List Nat
  | some p => if p < 32 then [136 + p, 315 + p / 8] else [136 + p]
  | none => []

/-- Dependants of the unit that a source belongs to (R411). -/
def State.dependants (s : State) (f : Nat) : List Nat :=
  if f < 136 then portDeps (s.portOf f)
  else if 264 ≤ f ∧ f < 272 then [291]
  else if 272 ≤ f ∧ f < 288 then [264, 265, 266, 267, 268, 269, 270, 271, 294]
  else if f = 290 then [293]
  else if f = 293 then [301, 302]
  else if f = 294 then (List.range 128).map (fun p => 136 + p) ++ [292]
  else if f = 301 ∨ f = 302 then [293]
  else if 303 ≤ f ∧ f ≤ 306 then [307, 308]
  else []

/-- Consequence windows open on sources, each for CW_US; an open one ends at the later end (R411). -/
def State.openWindows (s : State) (fs : List Nat) : State :=
  let e := s.time.now + 1000 * s.fld Reg.stewCtl 0 14
  fs.foldl (fun s f =>
    (s.modSrc f (fun x => { x with window := some (max (x.window.getD 0) e) })).count Reg.stewWindows) s

/-! ## Reactions (R409) -/

/-- Frames inside a pipeline drop their commit buffers (R183); frames not yet in it wait for the move (R49). -/
def State.fencePipeline (s : State) (q : Nat) : State :=
  let hit : Frame → Bool := fun f => (f.decoding || f.committing) && f.pipe == q && !f.committed
  let n := (s.frames.filter (fun x => hit x.2)).length
  let fids := (s.frames.filter (fun x => hit x.2)).map (·.1)
  let drop : Frame → Frame := fun f =>
    if hit f then { f with results := [], decoding := false, committing := false, committed := true } else f
  let s := { s with
    scriv := { s.scriv with
      fenced := setInsert q s.scriv.fenced, fencedAt := Table.set (fun _ => 0) s.scriv.fencedAt q s.time.now }
    frames := s.frames.map (fun (x : Nat × Frame) => (x.1, drop x.2)) }
  fids.foldl State.settleFrame (s.countN Reg.scrivDiscardFenced n)

/-- A lane taken out: its verification ends with LANE, its seal waits for another lane (R301, R305). -/
def State.fenceLane (s : State) (l : Nat) : State :=
  let x := (s.lock.lanes[l]?).getD {}
  let s := { s with lock := { s.lock with
    lanes := listMod (fun x => { x with fenced := true, verify := none, job := none }) l s.lock.lanes } }
  let s := match x.verify with
    | some fid =>
      let ok := match s.frame? fid with | some f => f.valid | none => false
      let s := s.modFrame fid (fun f => { f with verdictCode := some 6, lane := none })
      (s.countIf ok Reg.lockLaneLost).settleFrame fid
    | none => s
  match x.job with
  | some j =>
    let s := s.releaseCells j.cells
    State.count { s with lock := { s.lock with waiting := (j.src, j.slot) :: s.lock.waiting } } Reg.lockSealRestart
  | none => s

/-- A core of the active pair while no complete pair stands by: nothing is fenced (R409), and so no window opens (R411). -/
def State.coreKept (s : State) (f : Nat) : Bool :=
  decide (303 ≤ f) && decide (f ≤ 306) && (pairCores s.sys.pair).contains (f - 303) && !s.standbyReady

/-- A management core fenced (R409): an active core hands the role over at once if a complete pair stands by; without
one nothing is fenced and the classification counts as SEVERE. -/
def State.fenceCore (s : State) (f : Nat) : State :=
  let m := f - 303
  let fence : State → State := fun s => { s with stew := { s.stew with coreFenced := setInsert m s.stew.coreFenced } }
  if (pairCores s.sys.pair).contains m then
    if s.standbyReady then (fence s).fencePair
    else { s with stew := { s.stew with coreSevere := setInsert f s.stew.coreSevere } }
  else fence { s with sys := { s.sys with standby := false } }

/-- Fault sources of a slice (R418). -/
def sliceSources (n : Nat) : List Nat :=
  if n < 136 then [n]
  else if n < 152 then [264 + (n - 136) / 2]
  else if n < 168 then [272 + (n - 152)]
  else if n < 172 then [303 + (n - 168)]
  else if n = 172 then [303, 304] else [305, 306]

/-- The mask of R412 begins: NORMAL time stops, and counts are kept. -/
def State.maskBegin (s : State) (fs : List Nat) : State :=
  fs.foldl (fun s f => s.modSrc f (fun x => { x with st := 3, normalAt := s.time.now - x.normalAt })) s

/-- The mask ends and opens the windows of the unit; an engine's dependants are those of the port that it served before the
Tinker moved its work (R411, R412). -/
def State.maskEnd (s : State) (fs : List Nat) (served : Option Nat) : State :=
  fs.foldl (fun s f => (s.modSrc f (fun x => { x with st := 0, normalAt := s.time.now - x.normalAt })).openWindows
    (if f < 136 then portDeps served else s.dependants f)) s

/-- The last outcome of a slice recorded (R425, R429). -/
def State.sliceOutcome (s : State) (n : Nat) (f : SliceOutcome → SliceOutcome) : State :=
  let o := f (Table.get (fun _ => {}) s.tink.outcomes n)
  { s with tink := { s.tink with outcomes := Table.set (fun _ => {}) s.tink.outcomes n o } }

/-- A unit that the Tinker held is released to its own service (R425): an engine, a lane; a pipeline's buckets return at
the next boundary, a core stands by again. -/
def State.releaseSlice (s : State) (n : Nat) : State :=
  if n < 136 then s.modEngine n (fun e => { e with
    tested := false, mcode := if s.sys.roll = 1 then s.sys.rollNew else e.mcode })
  else if n < 152 then { s with scriv := { s.scriv with testing := setErase ((n - 136) / 2) s.scriv.testing } }
  else if n < 168 then { s with lock := { s.lock with lanes := listMod (fun x => { x with testing := false }) (n - 152) s.lock.lanes } }
  else s

/-- Tinker control fenced (R409, R428): tests under way end ABORTED, their slices are reset and returned, and the Tinker
is STOPPED; a handover that it has asked for and that has not begun is no longer asked for. -/
def State.fenceTinker (s : State) : State :=
  let tests := s.tink.tests
  let s := { s with
    stew := { s.stew with tinkFenced := true }
    tink := { s.tink with st := .stopped, startHeld := false, tests := [] } }
  tests.foldl (fun s t =>
    let s := s.releaseSlice t.slice
    let s := match t.port with
      | some p => s.modPort p (fun q => { q with
          request := match q.request with | some (.tinker, _) => none | r => r })
      | none => s
    if t.held then
      let s := s.maskEnd (sliceSources t.slice) t.port
      let s := s.sliceOutcome t.slice (fun o => { o with result := 4, seedset := s.tink.seedset, tai := s.tai })
      (s.count Reg.tinkAborts).raise 16
    else s) s

/-- A unit is fenced (R409). -/
def State.fenceUnit (s : State) (f : Nat) (spare : Bool) : State :=
  if f < 136 then s.fenceEngine f spare
  else if 264 ≤ f ∧ f < 272 then s.fencePipeline (f - 264)
  else if 272 ≤ f ∧ f < 288 then s.fenceLane (f - 272)
  else if f = 290 then { s with watch := { s.watch with fenced := true } }
  else if f = 293 then { s with crier := { s.crier with fenced := true } }
  else if f = 294 then { s with dray := { s.dray with fenced := true } }
  else if f = 301 ∨ f = 302 then
    let e := epOf (f - 301)
    (List.range 128).foldl (fun s k => s.ringFail e k 3)
      { s with stew := { s.stew with ringFenced := if s.stew.ringFenced.contains e then s.stew.ringFenced else e :: s.stew.ringFenced } }
  else if 303 ≤ f ∧ f ≤ 306 then s.fenceCore f
  else if f = 308 then s.fenceTinker
  else s

/-- Cut-through to port p suspended by the Steward (R271): a lane copy that has not started is withdrawn as under R268. -/
def State.suspendCt (s : State) (p : Nat) : State :=
  let s := s.modPort p (fun q => { q with suspSteward := true })
  match (s.port p).lane with
  | some l => if l.started then s else
      (s.modPort p (fun q => { q with lane := none })).modCopy l.fid l.copy (fun c => { c with stage := .waiting, withdrawn := true })
  | none => s

/-- DEGRADE retires the element that the syndrome names (R409): for F291 0 names a Larder error, n + 1 Pantry set n; for
F292 it names a Storeroom cell. Beyond the limits nothing is retired. -/
def State.degrade (s : State) (f syn : Nat) : State :=
  if f = 291 then
    let n := Table.get (fun _ => 0) s.scriv.retired (syn - 1)
    if syn = 0 ∨ 4 ≤ n then s
    else State.count { s with scriv := { s.scriv with retired := Table.set (fun _ => 0) s.scriv.retired (syn - 1) (n + 1) } }
      Reg.stewRetired
  else if s.dray.retiredCells.contains syn || decide (1024 ≤ s.dray.retiredCells.length) then s
  else State.count { s with dray := { s.dray with retiredCells := setInsert syn s.dray.retiredCells } } Reg.stewRetired

/-- The reaction r of a source acts (R409). RELOAD has management firmware rewrite the in-force copies that are bad (R73); a
CONFIG_RELOAD rewrites each. -/
def State.react (s : State) (f r syn : Nat) : State :=
  match r with
  | 1 => s.fenceUnit f false
  | 2 => s.fenceUnit f true
  | 3 => { s with regs := { s.regs with reload := s.regs.badInForce } }
  | 4 => s.suspendCt (f - 136)
  | 5 => s.degrade f syn
  | _ => s

/-! ## Events and classification (R405, R407, R408) -/

/-- A source is classified (R408), in the order given there. -/
def State.classify (s : State) (f syn : Nat) : State :=
  let r := s.reactOf f
  let fences := r == 1 || r == 2
  let enters := fences || r == 4
  let deps := s.dependants f
  let opens := fences && !s.coreKept f
  let s := s.modSrc f (fun x => { x with
    buckets := List.replicate 16 0, sticky := true, normalAt := s.time.now
    st := if enters then (if s.rmaxOf f ≤ x.rcnt then 2 else 1) else x.st
    react := if enters then r else x.react
    deps := if enters then deps else x.deps
    quietAt := if enters then s.time.now else x.quietAt })
  let s := s.react f r syn
  let s := if opens then s.openWindows deps else s
  ((s.count (Reg.stewClassified f)).raise 15).stewPins

/-- An event of a source (R405, R407, R410 to R412). -/
def State.stewEvent (s : State) (f syn : Nat) : State :=
  let x := s.src f
  if !faultUsed f || x.st == 3 then s
  else if x.window.isSome then (s.modSrc f (fun x => { x with quietAt := s.time.now })).count (Reg.stewShadow f)
  else
    let s := s.count (Reg.stewEvents f)
    if x.st ≠ 0 then s.modSrc f (fun x => { x with quietAt := s.time.now })
    else
      let s := s.modSrc f (fun x => { x with buckets := listMod (fun n => min (n + 1) 255) 0 x.buckets })
      if s.threshOf f ≤ (s.src f).buckets.sum then s.classify f syn else s

/-- A unit reports a fault that lasts no longer than its cause: an event where the level was QUIET (R405, log entry 12). -/
def State.unitFault (s : State) (f syn : Nat) : State := if (s.src f).level = 0 then s.stewEvent f syn else s

/-- The syndrome of an event whose failing element the command does not name: a free value (log entry 4). -/
def State.freeSyndrome (s : State) (f : Nat) : State × Nat :=
  let (s, w) := s.takeFree
  (s, if f = 291 then w.toNat % 16385 else w.toNat % 16384)

/-- The syndrome of a source that retires an element when no unit names one; 0 for every other source. -/
def State.anySyndrome (s : State) (f : Nat) : State × Nat := if f = 291 ∨ f = 292 then s.freeSyndrome f else (s, 0)

/-! ## Recovery (R410) -/

/-- A fenced unit is reset locally and rejoins (R410). -/
def State.unitRejoin (s : State) (f : Nat) : State :=
  if f < 136 then
    let s := s.modEngine f (fun e => { ({} : Engine) with
      mcode := if s.sys.roll = 1 then s.sys.rollNew else e.mcode, tested := e.tested })
    s.engineTryStart f
  else if 264 ≤ f ∧ f < 272 then { s with scriv := { s.scriv with fenced := setErase (f - 264) s.scriv.fenced } }
  else if 272 ≤ f ∧ f < 288 then
    { s with lock := { s.lock with lanes := listMod (fun x => { x with fenced := false }) (f - 272) s.lock.lanes } }
  else if f = 290 then
    let s := s.retireAll
    { s with watch := { s.watch with
      fenced := false, stalled := false, sweepPos := 0, sweepBegan := s.time.now, sweepAfterCut := true
      uncheckedLeft := if 0 < s.watch.uncheckedLeft then 16384 else 0 } }
  else if f = 293 then
    let restart : Sub → Sub := fun x => if x.st = .running then { x with waitSpace := true, loss := 2, closeDue := none } else x
    { s with crier := { s.crier with fenced := false, subs := s.crier.subs.map (fun x => (x.1, restart x.2)) } }
  else if f = 294 then { s with dray := { s.dray with fenced := false } }
  else if f = 301 ∨ f = 302 then { s with stew := { s.stew with ringFenced := s.stew.ringFenced.filter (fun e => e != epOf (f - 301)) } }
  else if 303 ≤ f ∧ f ≤ 306 then
    if !s.stew.coreFenced.contains (f - 303) then s else
    let s := { s with stew := { s.stew with coreFenced := setErase (f - 303) s.stew.coreFenced } }
    { s with sys := { s.sys with
      standby := s.sys.standby || (s.sys.phase == 3 && s.sys.busyOp != 1 &&
        !s.stew.coreFenced.any (fun m => (pairCores (1 - s.sys.pair)).contains m)) } }
  else if f = 308 then
    { s with
      stew := { s.stew with tinkFenced := false }
      tink := { s.tink with st := if s.flag Reg.tinkCtl 0 then .starting else .stopped } }
  else s

/-- The recovery of a source (R410): what its reaction did is undone; a commanded one leaves RCNT unchanged. -/
def State.recoverSrc (s : State) (f : Nat) (commanded : Bool) : State :=
  let r := (s.src f).react
  let deps := (s.src f).deps
  let s := if r = 4 then s.modPort (f - 136) (fun q => { q with suspSteward := false })
    else (s.unitRejoin f).openWindows (f :: deps)
  let s := s.modSrc f (fun x => { x with
    st := 0, react := 0, deps := [], normalAt := s.time.now, rcnt := if commanded then x.rcnt else min (x.rcnt + 1) 15 })
  ((s.count (Reg.stewRecoveries f)).raise 15).stewPins

/-! ## Rails (R403, R404) -/

/-- The level that a pair of rails, 2 TRUE + COMP, decodes to: 0 QUIET, 1 FAULT; none for an invalid code (R403). -/
def railLevel (rails : Nat) : Option Nat := if rails = 1 then some 0 else if rails = 2 then some 1 else none

/-- The rails of a source as synchronised, with the level they decode to; an invalid code that has lasted reads INVALID (R404). -/
def State.setRails (s : State) (f rails : Nat) : State :=
  s.modSrc f (fun x => { x with rails := rails, level := (railLevel rails).getD 2 })

/-! ## Commands -/

/-- FAULT_EVENT (R403, R405): the decoded level of a source changes from QUIET to FAULT, TRUE 1 and COMP 0. -/
def execFaultEvent (f : Nat) (s : State) : Answer :=
  .next (if faultUsed f ∧ (s.src f).level = 0 then
      let s := s.setRails f 2
      (s.anySyndrome f).1.stewEvent f (s.anySyndrome f).2
    else s)

/-- BROKEN_WIRE (R403, R404): both rails of a source have had one value, high or low, for 8 cycles; a NORMAL source is
classified at once. Under a mask the detection is off (R412). -/
def execBrokenWire (f : Nat) (s : State) (high : Bool := false) : Answer :=
  let x := s.src f
  .next (if !faultUsed f || x.st == 3 || x.level == 2 then s
    else
      let s := ((s.setRails f (if high then 3 else 0)).modSrc f (fun x => { x with broken := true })).count Reg.stewBrokenEvents
      if x.st = 0 then (s.anySyndrome f).1.classify f (s.anySyndrome f).2 else s.stewPins)

/-- LEVEL_RESTORED (R403, R404): a valid code stands again, and LEVEL returns to QUIET or FAULT; a source whose level was FAULT
returns to QUIET. A quiet period runs from here. -/
def execLevelRestored (f : Nat) (fault : Bool) (s : State) : Answer :=
  let x := s.src f
  .next (if x.level = 2 ∨ (x.level = 1 ∧ ¬ fault) then
      (s.setRails f (if fault then 2 else 1)).modSrc f (fun x => { x with quietAt := s.time.now })
    else s)

/-- SUB_BUCKET_ADVANCE (R407): the oldest sub-bucket of a source is discarded. -/
def execSubBucketAdvance (f : Nat) (s : State) : Answer :=
  let at' := (s.src f).bucketAt + s.bucketNs f
  .next (if faultUsed f then
      (s.advanceTo at').modSrc f (fun x => { x with buckets := 0 :: x.buckets.take 15, bucketAt := at' })
    else s)

/-- RECOVERY (R410): a REACTED source has been QUIET, with no event, for QUIET ms. -/
def execRecovery (f : Nat) (s : State) : Answer :=
  let x := s.src f
  .next (if x.st = 1 ∧ x.level = 0 then (s.advanceTo (x.quietAt + s.quietNs f)).recoverSrc f false else s)

/-- RCNT_DECAY (R410): 24 h in NORMAL without a classification. -/
def execRcntDecay (f : Nat) (s : State) : Answer :=
  let at' := (s.src f).normalAt + 86400000000000
  .next (if (s.src f).st = 0 ∧ 0 < (s.src f).rcnt then
      (s.advanceTo at').modSrc f (fun x => { x with rcnt := x.rcnt - 1, normalAt := at' })
    else s)

/-- WINDOW_CLOSE (R411): a source still at FAULT counts one event at the closing cycle. -/
def execWindowClose (f : Nat) (s : State) : Answer :=
  .next (match (s.src f).window with
    | some e =>
      let s := (s.advanceTo e).modSrc f (fun x => { x with window := none })
      if (s.src f).level = 1 then (s.anySyndrome f).1.stewEvent f (s.anySyndrome f).2 else s
    | none => s)

/-- WATCHDOG_TRIP (R414): FLT_N is driven low until the next reset. -/
def execWatchdogTrip (s : State) : Answer := .next (State.stewPins { s with stew := { s.stew with wdog := true } })

/-- MINIMUM_LOW_TIME (R413, R415): a pin whose condition has ended is released when its least low time has passed. -/
def execMinimumLowTime (s : State) : Answer :=
  let alertWaits := s.stew.alert && !(s.stew.started && s.alertDue)
  let fltWaits := s.stew.flt && !s.fltDue
  let a := s.stew.alertAt + 10000
  let f := s.stew.fltAt + 1000000
  .next (State.stewPins (
    if alertWaits && fltWaits then s.advanceTo (min a f)
    else if alertWaits then s.advanceTo a
    else if fltWaits then s.advanceTo f
    else s))

/-- STEW.CMD (R410, R416, R417) for the value written: ACK first, then RCLR and RECOVER (log entry 13). -/
def State.stewCmd (s : State) (val : Word) : State :=
  let f := val.field 0 9
  let s := if val.bit 16 then
      if val.bit 19 then
        { s with stew := { s.stew with srcs := (s.stew.srcs.map (·.1)).foldl (fun t k =>
            let x := Table.get (fun _ => {}) t k
            Table.set (fun _ => {}) t k { x with sticky := false, broken := false }) s.stew.srcs } }
      else s.modSrc f (fun x => { x with sticky := false, broken := false })
    else s
  let s := if val.bit 18 then s.modSrc f (fun x => { x with rcnt := 0 }) else s
  let s := if val.bit 17 ∧ (s.src f).st = 2 then s.recoverSrc f true else s
  s.stewPins

end Sys2Proof.Machine
end

