-- ==== Sys2Proof/Machine/Tinker.lean ====
section
/-! DEFINITION. In-service self-test: selection, freeing, results, rotation, and the pair handover timer (R418 to R429). -/

namespace Sys2Proof.Machine

/-- Slice type for the golden table (R424). -/
def sliceType (n : Nat) : Nat :=
  if n < 136 then 0 else if n < 152 then 1 + n % 2 else if n < 168 then 3 else if n < 172 then 4 else 5
/-- The slice is a pipeline stage. -/
def isPipeSlice (n : Nat) : Bool := 136 ≤ n ∧ n < 152
/-- The slice is a management slice. -/
def isMgmtSlice (n : Nat) : Bool := 168 ≤ n
/-- Core pair of a management slice. -/
def slicePair (n : Nat) : Nat := if n < 172 then (n - 168) / 2 else n - 172

/-- The slice's bit in TINK.EXCL (R420). -/
def State.excluded (s : State) (n : Nat) : Bool :=
  s.flag (if n < 64 then Reg.tinkExcl0 else if n < 128 then Reg.tinkExcl1 else Reg.tinkExcl2) (n % 64)

/-- A source of the slice is REACTED or LATCHED. -/
def State.sliceFaulted (s : State) (n : Nat) : Bool := (sliceSources n).any (fun f => (s.src f).st == 1 || (s.src f).st == 2)

/-- GAP_MS in ns (R426). -/
def State.gapNs (s : State) : Nat := 1000000 * s.fld Reg.tinkCtl 32 16

/-- The rotation is complete after S173 (R424, R426). -/
def State.rotate (s : State) : State :=
  if s.tink.next = 174 ∧ s.tink.tests = [] then
    State.count { s with tink := { s.tink with next := 0, seedset := (s.tink.seedset + 1) % 4 } } Reg.tinkRotations
  else s

/-- A stop is complete when nothing is under test or away; a held start follows (R428). -/
def State.tinkStopCheck (s : State) : State :=
  if s.tink.st = .stopping ∧ s.tink.tests = [] ∧ s.scriv.away = [] then
    { s with tink := { s.tink with st := if s.tink.startHeld then .starting else .stopped, startHeld := false } }
  else s

/-- A slice is skipped (R420). -/
def State.skipSlice (s : State) (n reason : Nat) : State :=
  let s := s.sliceOutcome n (fun o => { o with skip := reason, tai := s.tai })
  let s := { s with tink := { s.tink with
    tests := s.tink.tests.filter (fun t => t.slice != n), notBefore := s.time.now + s.gapNs } }
  ((s.count Reg.tinkSkips).rotate).tinkStopCheck

/-- A test put under way. -/
def State.addTest (s : State) (n : Nat) (held : Bool) (port : Option Nat) : State :=
  { s with tink := { s.tink with tests := s.tink.tests ++ [{ slice := n, held := held, port := port, since := s.time.now, bad := 0 }] } }

/-- The slice is held and masked from now on, unless a source of it has reacted (R419, R420). -/
def State.holdSlice (s : State) (n : Nat) : State :=
  if s.sliceFaulted n then (s.releaseSlice n).skipSlice n 5
  else
    let s := if n < 136 then s.modEngine n (fun e => { e with tested := true }) else s
    let s := { s with tink := { s.tink with tests := s.tink.tests.map (fun (t : SliceTest) =>
      if t.slice = n then { t with held := true, since := s.time.now } else t) } }
    s.maskBegin (sliceSources n)

/-- Slices whose work has moved away are held; one whose handover has ended otherwise is skipped (R419, R420). -/
def State.tinkSettle (s : State) : State :=
  s.tink.tests.foldl (fun s t =>
    if t.held then s
    else if 152 ≤ t.slice ∧ t.slice < 168 then
      let l := (s.lock.lanes[t.slice - 152]?).getD {}
      if l.verify.isNone && l.job.isNone then s.holdSlice t.slice else s
    else
      match t.port with
      | some p =>
        if (s.port p).request.isSome || (s.port p).shadow.isSome then s
        else if s.engineFree t.slice then s.holdSlice t.slice
        else s.skipSlice t.slice 4
      | none => s) s

/-- The slice at its turn is freed (R419). -/
def State.freeSlice (s : State) (n : Nat) : State :=
  if n < 136 then
    if s.engineFree n then (s.addTest n true none).holdSlice n
    else match s.portOf n, s.freeEngines with
      | some p, m :: _ => (s.modPort p (fun q => { q with request := some (.tinker, m) })).addTest n false (some p)
      | _, _ => s.skipSlice n 4
  else if isPipeSlice n then s.addTest n false none
  else if n < 168 then
    let s := { s with lock := { s.lock with lanes := listMod (fun x => { x with testing := true }) (n - 152) s.lock.lanes } }
    (s.addTest n false none).tinkSettle
  else (s.addTest n true none).holdSlice n

/-- Why the slice at its turn is skipped; none when it is tested (R420). -/
def State.skipReason (s : State) (n : Nat) : Option Nat :=
  let q := (n - 136) / 2
  if s.excluded n then some 1
  else if n < 136 ∧ s.freeEngines.length < s.fld Reg.tinkCtl 16 4 + 1 then some 2
  else if s.sliceFaulted n then some 5
  else if isPipeSlice n ∧ (s.scriv.fenced.any (fun x => x != q) ∨ s.scriv.away ≠ [] ∨ s.tink.tests.any (fun t => isPipeSlice t.slice)) then some 6
  else if isMgmtSlice n ∧ slicePair n = s.sys.pair then some 7
  else none

/-- A boundary and the Tinker (R49, R419): pipelines chosen for test are away and held, others return. -/
def State.tinkBoundary (s : State) : State :=
  let go := (s.tink.tests.filter (fun t => isPipeSlice t.slice && !t.held)).map (·.slice)
  let s := go.foldl (fun s n =>
    let q := (n - 136) / 2
    State.holdSlice { s with scriv := { s.scriv with testing := setInsert q s.scriv.testing, away := setInsert q s.scriv.away } } n) s
  State.tinkStopCheck { s with scriv := { s.scriv with away := s.scriv.away.filter (fun q => s.scriv.testing.contains q) } }

/-- A commit of TINK.CTL (R428). In safe mode the Tinker is not available (R457). -/
def State.tinkCommit (s : State) : State :=
  let set : RunState → Bool → State := fun st h => { s with tink := { s.tink with st := st, startHeld := h } }
  if s.flag Reg.tinkCtl 0 then
    match s.tink.st with
    | .stopped => if s.stew.tinkFenced || s.sys.safe then s else set .starting false
    | .stopping => set .stopping true
    | .starting | .running => s
  else
    match s.tink.st with
    | .running => State.tinkStopCheck (set .stopping false)
    | .starting => set .stopped false
    | .stopping => set .stopping false
    | .stopped => s

/-- TINK.SLICE_SEL written (R429): the slice's last outcome is captured; an index above 173 captures nothing. -/
def State.sliceSel (s : State) (val : Word) : State :=
  let n := val.field 0 8
  if n < 174 then
    let o := Table.get (fun _ => {}) s.tink.outcomes n
    { s with tink := { s.tink with peek := [pack [(8, o.skip), (6, o.seedset), (0, o.result)], o.misr, o.golden, o.tai] } }
  else s

/-! ## Commands -/

/-- SLICE_SELECT (R419, R420, R426, R427): the next slice in turn is skipped or freed. The first stage of a pipeline
takes its second stage's turn with it. -/
def execSliceSelect (s : State) : Answer :=
  let n := s.tink.next
  .next (if s.tink.st ≠ .running ∨ s.cellar.pfail ∨ 174 ≤ n ∨ s.sys.pwr ≠ 0 ∨ s.sys.moving.isSome ∨
        s.fld Reg.tinkCtl 8 2 ≤ s.tink.tests.length ∨
        (isMgmtSlice n ∧ s.tink.tests.any (fun t => isMgmtSlice t.slice)) then s
    else
      let s := s.advanceTo ((s.tink.tests.map (fun t => t.since + 100000)).foldl max s.tink.notBefore)
      match s.skipReason n with
      | some r => State.skipSlice { s with tink := { s.tink with next := n + 1 } } n r
      | none =>
        let two := isPipeSlice n && n % 2 == 0
        State.freeSlice { s with tink := { s.tink with next := if two then n + 2 else n + 1 } } n)

/-- A test has its last result: the mask ends, mismatches give their events, and the work returns (R412, R425). -/
def State.endTest (s0 : State) (n bad : Nat) : State :=
  let s := { s0 with tink := { s0.tink with
    tests := s0.tink.tests.filter (fun t => t.slice != n), notBefore := s0.time.now + s0.gapNs } }
  let s := s.maskEnd (sliceSources n) ((s0.tink.tests.find? (fun t => t.slice == n)).bind (·.port))
  let s := (List.range bad).foldl (fun s _ => (sliceSources n).foldl (fun s f => s.stewEvent f 0) s) s
  (((s.releaseSlice n).rotate).tinkStopCheck).stewPins

/-- TEST_RESULT (R422 to R425): the MISR of a held slice is compared with the golden signature, and the CRC-32C of its state as
saved with that of its state as reloaded; a failed restore resets the slice as at recovery and counts as a mismatch. The second
stage of a pipeline follows the first under one mask. -/
def execTestResult (slice : Nat) (misr : Word) (saved : Bytes) (s : State) (reloaded : Bytes := saved) : Answer :=
  .next (match s.tink.tests.find? (fun t => t.slice == slice && t.held) with
    | none => s
    | some t =>
      let golden := Config.goldenSignature (sliceType slice) s.tink.seedset
      let r := if crc32c saved ≠ crc32c reloaded then 3 else if misr = golden then 1 else 2
      let s := s.sliceOutcome slice (fun _ => {
        result := r, skip := 0, seedset := s.tink.seedset, misr := misr, golden := golden, tai := s.tai })
      let s := (s.count (if r = 1 then Reg.tinkPasses else if r = 2 then Reg.tinkMismatches else Reg.tinkRestoreFails)).raiseIf (r != 1) 16
      let s := if r = 3 then s.openWindows ((sliceSources slice) ++
        (sliceSources slice).flatMap (fun f => if f < 136 then portDeps t.port else s.dependants f)) else s
      let bad := t.bad + (if r = 1 then 0 else 1)
      if isPipeSlice slice && slice % 2 == 0 then
        let s := { s with tink := { s.tink with tests := s.tink.tests.map (fun (x : SliceTest) =>
          if x.slice = slice then { x with slice := slice + 1, since := s.time.now, bad := bad } else x) } }
        if s.excluded (slice + 1) then
          (s.endTest (slice + 1) bad).skipSlice (slice + 1) 1
        else s
      else s.endTest slice bad)

/-- GOLDEN_CHECK (R424, R428): the table is checked at STARTING and each time management firmware is replaced. -/
def execGoldenCheck (good : Bool) (s : State) : Answer :=
  let idle := s.tink.st == .stopped || s.tink.st == .stopping
  .next (if good then
      let s := { s with tink := { s.tink with goldErr := false } }
      if s.tink.st = .starting then { s with tink := { s.tink with st := .running, next := 0, notBefore := s.time.now } } else s
    else
      let s := { s with tink := { s.tink with
        goldErr := true, st := if s.tink.st = RunState.starting then RunState.stopped else if idle then s.tink.st else .stopping } }
      (s.raise 16).tinkStopCheck)

/-- PAIR_HANDOVER_TIMER (R421, R459): PAIR_H hours after the last switch a switch is requested, when both cores and the
shared slice of the standby pair passed their most recent tests and nothing else stands in the way. -/
def execPairHandoverTimer (s : State) : Answer :=
  let h := s.fld Reg.tinkCtl2 0 16
  let sb := 1 - s.sys.pair
  let passed : Nat → Bool := fun n => (Table.get (fun _ => {}) s.tink.outcomes n).result == 1
  .next (if h ≠ 0 ∧ s.standbyReady ∧ ¬ s.sys.confirmPend ∧ s.sys.switchReq = none ∧ ¬ s.sys.safe ∧
        [168 + 2 * sb, 169 + 2 * sb, 172 + sb].all passed then
      let s := s.advanceTo (max (s.tink.pairAt + 3600000000000 * h) s.tink.pairRetryAt)
      { s with sys := { s.sys with switchReq := some (.periodic, s.time.now + 10000000000) } }
    else s)

end Sys2Proof.Machine
end

