-- ==== Sys2Proof/Machine/Handover.lean ====
section
/-! DEFINITION. Live and offline handovers of a port to another engine (R147 to R164), and the rolling microcode update
that requests them (R461, R462). -/

namespace Sys2Proof.Machine

/-! ## Rolling update (R461, R462) -/

/-- A port still to move: its engine runs another version and its handover has not failed three times (R461). -/
def State.rollPort (s : State) (p : Nat) : Bool :=
  (s.engine (s.serving p)).mcode != s.sys.rollNew && decide (Table.get (fun _ => 0) s.sys.rollFails p < 3)

/-- A port whose handover a rolling update has requested or begun. -/
def State.rollBusy (s : State) (p : Nat) : Bool :=
  (match (s.port p).request with | some r => decide (r.1 = .firmware) | none => false) ||
  ((s.port p).shadow.isSome && decide ((s.port p).hoBy = .firmware))

/-- The end of a rolling update (R462). At OK the boot record takes the new pair as CUR and CONFIRM_PEND reads 1; an
update back is recorded as REVERTED. -/
def State.rollEnd (s : State) : State :=
  let partly := (List.range 128).any (fun p => (s.engine (s.serving p)).mcode != s.sys.rollNew)
  let s := { s with sys := { s.sys with roll := 2, busyOp := 0, rollFails := [] } }
  if s.sys.rollBack then
    let slot := some s.sys.rollSlot
    ((State.setRecord { s with sys := { s.sys with rollBack := false, runMicro := slot } }
      { s.sys.record with cur := pairCode s.sys.runMgmt slot }).setFwResult 6).count Reg.sysFwReverts
  else if partly then s.setFwResult 7
  else
    let slot := some s.sys.rollSlot
    (State.setRecord { s with sys := { s.sys with
      oldMicro := s.sys.runMicro, runMicro := slot, confirmPend := true, confirmRoll := true
      confirmAt := s.time.now + 1000000000 * s.fld Reg.sysFwCtl 0 17 } }
      { s.sys.record with cur := pairCode s.sys.runMgmt slot }).setFwResult 1

/-- One request of a rolling update, if ROLL_PAR and KEEP leave room for it (R461). -/
def State.rollRequest (s : State) (p : Nat) : State :=
  let busy := ((List.range 128).filter s.rollBusy).length
  let taken := (List.range 128).filterMap (fun q => (s.port q).request.map (·.2))
  let free := s.freeEngines.filter (fun n => !taken.contains n && (s.engine n).mcode == s.sys.rollNew)
  if s.rollPort p && !s.rollBusy p && (s.port p).request.isNone && decide (busy < s.fld Reg.sysFwCtl 32 4) &&
      decide (s.fld Reg.tinkCtl 16 4 < free.length) then
    match free with
    | n :: _ => s.modPort p (fun q => { q with request := some (.firmware, n) })
    | [] => s
  else s

/-- While a rolling update runs: free engines load the new version, requests are made in ascending port order, and the
update ends when no port remains to move (R461, R462). -/
def State.rollSettle (s : State) : State :=
  if s.sys.roll ≠ 1 then s
  else
    let s := s.freeEngines.foldl (fun s n => s.modEngine n (fun e => { e with mcode := s.sys.rollNew })) s
    if (List.range 128).any (fun p => s.rollPort p || s.rollBusy p) then (List.range 128).foldl State.rollRequest s
    else s.rollEnd

/-- What follows when engines or ports have changed hands: slices that have been freed are held, and a rolling update
goes on. -/
def State.handoverSettle (s : State) : State := s.tinkSettle.rollSettle

/-! ## Judgement at a commit (R149 to R154) -/

/-- Shadowing begins (R152 to R154): the block is copied, its counters are 0, and the values in use are the serving
engine's. -/
def State.startShadow (s : State) (p n : Nat) (by' : Requester) : State :=
  let o := s.serving p
  let e := s.engine o
  let s := ((s.copyBlock o n).zeroBlock n).modEngine n (fun x => { x with
    st := .starting, useNbt := e.useNbt, useDbt := e.useDbt, useXbt := e.useXbt, useTdc := e.useTdc, useXl := e.useXl
    useFd := e.useFd, useXlEn := e.useXlEn })
  s.modPort p (fun q => { q with
    shadow := some n, phase := 1, proved := false, everProved := false, spareReady := false, hoTries := 0, hoBy := by'
    hoUntil := s.time.now + 1000000 * s.fld Reg.xbarHoCtl 0 16 })

/-- A refused request leaves the port as it is (R151). -/
def State.refuseHandover (s : State) (p result : Nat) (by' : Requester) : State :=
  let s := if by' = .firmware ∧ s.sys.roll = 1 then s.rollFailed p else s
  s.modPort p (fun q => { q with result := result })

/-- A request for engine n is judged at its commit (R149, R150). -/
def State.requestJudged (s : State) (p n : Nat) (by' : Requester) : State :=
  let s := if (s.port p).shadow.isSome then s.handoverFail p 9 else s
  let e := s.engine (s.serving p)
  if n = s.serving p then s
  else if 136 ≤ n then s.refuseHandover p 7 by'
  else if ¬ s.engineFree n then s.refuseHandover p 6 by'
  else if (s.engine n).mcode ≠ e.mcode ∧ s.sys.roll ≠ 1 then s.refuseHandover p 8 by'
  else if e.st = .stopped then s.offlineHandover p n
  else s.startShadow p n by'

/-- A crossbar mapping commits: its request is judged, and the port's engine, where its start was refused, is checked again
(R92, R149). -/
def State.judgeHandover (s : State) (p n : Nat) (by' : Requester) : State :=
  let s := s.requestJudged p n by'
  s.engineTryStart (s.serving p)

/-- The handover requests of a boundary, lower-numbered ports first: the host's, then those of the Tinker and of
management firmware; a host request for the same port wins (R149, R150, R420). -/
def State.handoverCommit (s : State) (hostPorts : List Nat) : State :=
  let s := (List.range 128).foldl (fun s p =>
    let req := (s.port p).request
    let s := if req.isSome then s.modPort p (fun q => { q with request := none }) else s
    if hostPorts.contains p then
      let s := match req with
        | some (.tinker, _) =>
          (s.tink.tests.filter (fun (t : SliceTest) => t.port == some p && !t.held)).foldl
            (fun (s : State) (t : SliceTest) => s.skipSlice t.slice 3) s
        | _ => s
      s.judgeHandover p (s.fld (Reg.xbarPmap p) 0 8) .host
    else
      match req with
      | some (r, n) => s.judgeHandover p n r
      | none => s) s
  s.handoverSettle

/-! ## Proof and takeover (R155 to R161) -/

/-- A frame ends on a port that a spare shadows (R155): it proves the spare, disagrees with it, or does neither. A takeover can
follow only the frame that has just proved the spare (R157). -/
def State.shadowJudge (s : State) (p : Nat) (servingValid : Bool) (v : ShadowView) : State :=
  match (s.port p).shadow with
  | none => s
  | some n =>
    if !(s.port p).spareReady || (s.port p).phase != 1 then s
    else if !v.agree then
      let s := (s.modPort p (fun q => { q with hoTries := q.hoTries + 1, proved := false })).count Reg.xbarHoDisagree
      if s.fld Reg.xbarHoCtl 16 8 ≤ (s.port p).hoTries then ((s.handoverFail p 5).unitFault n 0).handoverSettle else s
    else
      let ok := servingValid && v.spareValid && v.errorFree
      s.modPort p (fun q => { q with proved := ok, everProved := q.everProved || ok })

/-! ## Commands -/

/-- TAKEOVER_COPY (R157): in the intermission that follows a proving frame, unless the serving engine is bus-off. The
copied values are taken at the switch, since nothing changes them within the intermission. -/
def execTakeoverCopy (port : Nat) (s : State) : Answer :=
  let q := s.port port
  .next (if q.shadow.isSome ∧ q.phase = 1 ∧ q.proved then
      if (s.engine q.serving).busOff then s.modPort port (fun q => { q with proved := false })
      else s.modPort port (fun q => { q with phase := 2, proved := false })
    else s)

/-- TAKEOVER_SWITCH (R158): after both intermission bits the new engine serves the port; a dominant one discards the copy. -/
def execTakeoverSwitch (port : Nat) (overload : Bool) (s : State) : Answer :=
  let q := s.port port
  .next (match q.shadow with
    | some n =>
      if q.phase = 2 then
        if overload then (s.modPort port (fun q => { q with phase := 1 })).count Reg.xbarHoOverload
        else (s.switchEngine port n 1).handoverSettle
      else s
    | none => s)

/-- HO_TIMEOUT (R156): no frame has proved the spare within WAIT milliseconds of the commit. A spare that a frame has proved
awaits its takeover, or the next proving frame after an overload (R158). -/
def execHoTimeout (port : Nat) (s : State) : Answer :=
  let q := s.port port
  .next (if q.shadow.isSome ∧ q.phase = 1 ∧ ¬ q.everProved then ((s.advanceTo q.hoUntil).handoverFail port 4).handoverSettle else s)

end Sys2Proof.Machine
end

