-- ==== Sys2Proof/Machine/Boot.lean ====
section
/-! DEFINITION. Resets of the device, the images in boot flash, the choice of the pair, and what management firmware
does with images in service: activation, confirmation, rolling update, core-pair switches (R447 to R463). -/

namespace Sys2Proof.Machine

/-! ## Images (R452, R453) -/

/-- A field of the header in a slot. -/
def State.header (s : State) (slot off n : Nat) : Nat := s.flashNum (slotBase slot + off) n
/-- VERSION of the image in a slot. -/
def State.slotVersion (s : State) (slot : Nat) : Nat := s.header slot 8 4
/-- NCOMPAT of the image in a slot. -/
def State.slotCompat (s : State) (slot : Nat) : Nat := s.header slot 6 2
/-- A run of reserved header bytes is 0. -/
def State.headerZero (s : State) (slot off n : Nat) : Bool := (s.flashRun (slotBase slot + off) n).all (fun (b : Byte) => b == 0#8)

/-- The image in a slot is valid (R453). -/
def State.imageValid (s : State) (slot : Nat) : Bool :=
  let a := slotBase slot
  s.header slot 0 4 == 0x4D495A4E && s.header slot 4 1 == (if slot < 4 then 1 else 2) && s.header slot 5 1 == 1 &&
  s.header slot 0x10 4 == 0x4E5A7128 && decide (1 ≤ s.slotCompat slot ∧ s.slotCompat slot ≤ 32) &&
  decide (1 ≤ s.header slot 0xC 4 ∧ s.header slot 0xC 4 ≤ 4193792) && (decide (slot < 4) || s.slotVersion slot != 0) &&
  s.headerZero slot 0x14 12 && s.headerZero slot 0xD0 48 && s.headerZero slot 0x160 160 &&
  ecdsaOk (Config.balrumFirmwareKey ()) (sha384 (s.flashRun a 0x100)) (s.flashRun (a + 0x100) 96) &&
  (sha384 (s.flashRun (a + 0x200) (s.header slot 0xC 4))).toNat == beNat (s.flashRun (a + 0x20) 48)

/-- The image in a slot lists a version of the other kind (R453). -/
def State.lists (s : State) (slot v : Nat) : Bool :=
  (List.range (s.slotCompat slot)).any (fun i => s.header slot (0x50 + 4 * i) 4 == v)

/-- The images of two slots list each other. -/
def State.listMutually (s : State) (m u : Nat) : Bool := s.lists m (s.slotVersion u) && s.lists u (s.slotVersion m)

/-- Both images of a pair are valid. -/
def State.pairValid (s : State) (m u : Nat) : Bool := s.imageValid m && s.imageValid u

/-- The slots that hold a valid image, as FW_SLOTS.VALID (R463). -/
def State.checkSlots (s : State) : State :=
  { s with sys := { s.sys with
    slotsValid := ((List.range 8).filter s.imageValid).foldl (fun a n => a + 2 ^ n) 0 } }

/-- The check of one slot recorded in FW_SLOTS.VALID. -/
def State.checkSlot (s : State) (n : Nat) : State :=
  let v := s.sys.slotsValid
  let rest := v - natField v n 1 * 2 ^ n
  { s with sys := { s.sys with slotsValid := rest + (if s.imageValid n then 2 ^ n else 0) } }

/-! ## Choosing the pair (R454, R455) -/

/-- A pair's order: m first, then u (R454). -/
def State.pairLess (s : State) (x y : Nat × Nat) : Bool :=
  decide (s.slotVersion x.1 < s.slotVersion y.1) ||
  (s.slotVersion x.1 == s.slotVersion y.1 && decide (s.slotVersion x.2 < s.slotVersion y.2))

/-- The pairs of valid images that list each other and that REJ does not name, by slots. -/
def State.listedPairs (s : State) : List (Nat × Nat) :=
  ((List.range 4).flatMap (fun m => (List.range 4).map (fun u => (m, u + 4)))).filter (fun x =>
    s.pairValid x.1 x.2 && s.listMutually x.1 x.2 && !s.sys.record.rejected x.1 x.2)

/-- The highest listed pair; of equal ones the first by slot numbers. -/
def State.bestPair (s : State) : Option (Nat × Nat) :=
  s.listedPairs.foldl (fun b x =>
    match b with
    | none => some x
    | some y => if s.pairLess y x then some x else some y) none

/-- The pair that a byte of the boot record names (R451). -/
def recordPair (c : Nat) : Option (Nat × Nat) := if c = 0xFF then none else some (natField c 0 3, natField c 4 3)

/-- The LKG pair, where both its images are valid. -/
def State.lkgPair (s : State) : Option (Nat × Nat) := (recordPair s.sys.record.lkg).filter (fun x => s.pairValid x.1 x.2)

/-- The pair that CUR names, where both its images are valid and a reset struck an update or an activation (R462, log entry 92). -/
def State.curPair (s : State) : Option (Nat × Nat) :=
  if s.sys.bootCur then (recordPair s.sys.record.cur).filter (fun x => s.pairValid x.1 x.2) else none

/-- The pair the boot ROM takes, and whether it is the LKG pair for want of a listed one; none is safe mode. -/
def State.choosePair (s : State) : Option ((Nat × Nat) × Bool) :=
  if 2 ≤ s.sys.record.fails then none
  else
    match s.sys.bootSel with
    | 0 =>
      match s.curPair, s.bestPair with
      | some x, _ => some (x, false)
      | none, some x => some (x, false)
      | none, none => s.lkgPair.map (fun x => (x, true))
    | 1 => s.lkgPair.map (fun x => (x, false))
    | _ => none

/-! ## Boot (R456, R457) -/

/-- Every engine runs microcode of a version. -/
def State.loadMicrocode (s : State) (v : Nat) : State :=
  (List.range 136).foldl (fun s n => s.modEngine n (fun e => { e with mcode := v })) s

/-- The fuses read: from PROVISIONED on, SYS.LC_DATA reads the fused hash, byte 0 first (R446). -/
def State.readFuses (s : State) : State :=
  match s.sys.fuseHash with
  | some h =>
    if s.sys.lifecycle = 0 then s
    else ((List.range 6).zip (leWords (beBytes 48 h.toNat))).foldl (fun s x => s.setReg (Reg.sysLcData x.1) x.2) s
  | none => s

/-- Steps 2 to 7 of a boot: PLLs lock, the configuration record is read, the pair is chosen, its images run and the Steward starts; or safe mode. -/
def State.boot (s : State) : State :=
  let s := State.checkSlots (State.readFuses { s with sys := { s.sys with locks := 31, config := s.readConfig } })
  match s.choosePair with
  | some (x, lkg) =>
    let code := pairCode (some x.1) (some x.2)
    let s := (s.loadMicrocode (s.slotVersion x.2)).setRecord { s.sys.record with cur := code }
    State.stewPins { s with
      sys := { s.sys with
        phase := 2, bootCur := false, lkgBoot := lkg, trial := decide (code ≠ s.sys.record.lkg), runMgmt := some x.1, runMicro := some x.2
        fwStart := s.time.now }
      stew := { s.stew with started := true } }
  | none => { s with sys := { s.sys with phase := 4, safe := true } }

/-- A boot that ends before READY counts in FAILS unless its pair is on trial (R455). -/
def SysUnit.bootFailed (u : SysUnit) : Bool := (u.phase == 1 || u.phase == 2) && !u.trial

/-- What the fuses hold when power or a reset strikes a programming: a failed one (R432). -/
def SysUnit.fuseLost (u : SysUnit) : Bool := u.fuseBroken || u.lcBusy.isSome

/-- A rolling update runs, or an activation that has not been confirmed (R460 to R462). -/
def SysUnit.updating (u : SysUnit) : Bool := u.roll == 1 || u.busyOp == 1 || (u.confirmPend && !u.confirmRoll)

/-- What survives every reset: fuses, the numbering of secrets and nonces, boot flash with the boot record (R448). -/
def SysUnit.surviving (u : SysUnit) : SysUnit :=
  { ({} : SysUnit) with
    fuseState := u.fuseState, fuseHash := u.fuseHash, fuseBroken := u.fuseLost, secretNo := u.secretNo, nonceNo := u.nonceNo
    secretGone := u.secretGone, bootCur := u.updating || (u.bootCur && !u.powered)
    flash := u.flash, flashLost := u.flashLost, record := u.record, recordSeq := u.recordSeq, recordAt := u.recordAt
    lifecycle := if u.fuseLost then 3 else u.fuseState }

/-- The block as a reset leaves it before the boot: the NAND, the queue and the model's own fields aside, every unit is
at its reset value (R448). The boot ROM notes a boot that did not reach READY (R455). -/
def State.cleared (s : State) : State :=
  let r := { State.reset with
    pending := s.pending, free := s.free, out := s.out
    cellar := { State.reset.cellar with store := s.cellar.store }
    sys := s.sys.surviving }
  if s.sys.bootFailed then r.setRecord { r.sys.record with fails := min (r.sys.record.fails + 1) 255 } else r

/-- A device reset other than power-on (R447, R448): XCVR.WAKE_CAUSE and BOOT_STAT.FAILS survive. -/
def State.deviceReset (s : State) (cause bootSel : Nat) : State :=
  let fails := if s.sys.bootFailed then min (s.sys.bootFails + 1) 15 else s.sys.bootFails
  let r := s.cleared
  State.boot { r with
    xcvr := { r.xcvr with wakePort := s.xcvr.wakePort, wakeCause := s.xcvr.wakeCause }
    sys := { r.sys with bootCause := cause, bootSel := bootSel % 4, bootFails := fails } }

/-- VIN is lost (R307, R432): nothing volatile is left, and nothing runs until power-on. -/
def State.loseVin (s : State) : State :=
  let r := s.cleared
  { r with sys := { r.sys with powered := false, osc25 := false } }

/-! ## Activation, confirmation and reversal (R459, R460) -/

/-- Every microcode version that an engine runs (R460). -/
def State.runningMicrocode (s : State) : List Nat := (List.range 136).map (fun n => (s.engine n).mcode)

/-- ACTIVATE (R460): refused with the first reason that holds; else the standby pair loads the image and a switch is
requested. -/
def State.fwActivate (s : State) (slot : Nat) : State :=
  let s := s.checkSlot slot
  if s.sys.safe then s.setFwResult 5
  else if 4 ≤ slot ∨ ¬ s.imageValid slot then s.setFwResult 2
  else if ¬ s.runningMicrocode.all (fun v => s.lists slot v) then s.setFwResult 3
  else if s.sys.roll = 1 ∨ s.sys.busyOp = 1 ∨ s.sys.confirmPend then s.setFwResult 4
  else if s.sys.pwr ≠ 0 ∨ ¬ s.standbyReady then s.setFwResult 5
  else { s with sys := { s.sys with
    standby := false, actSlot := slot, busyOp := 1, switchReq := some (.activate, s.time.now + 10000000000) } }

/-- CONFIRM (R455, R460, R462). -/
def State.fwConfirm (s : State) : State :=
  let code := pairCode s.sys.runMgmt s.sys.runMicro
  if s.sys.confirmPend then
    let cur := if s.sys.confirmRoll then s.sys.record.cur else code
    State.setFwResult (State.setRecord { s with sys := { s.sys with
      confirmPend := false, confirmRoll := false, trial := false, oldMgmt := none
      switchReq := if s.sys.switchReq.any (fun (q : SwitchCause × Nat) => q.1 == .revert) then none else s.sys.switchReq } }
      { s.sys.record with cur := cur, lkg := cur }) 1
  else if s.sys.trial then
    State.setFwResult (State.setRecord { s with sys := { s.sys with trial := false } } { s.sys.record with lkg := code }) 1
  else s.setFwResult 5

/-- REVERT, or a lapse of CONFIRM_S (R459, R460, R462): a switch back is requested, or the microcode rolls back. -/
def State.fwRevert (s : State) : State :=
  if ¬ s.sys.confirmPend then s.setFwResult 5
  else if s.sys.confirmRoll then
    let slot := s.sys.oldMicro.getD 4
    State.rollSettle { s with sys := { s.sys with
      confirmPend := false, confirmRoll := false, roll := 1, rollBack := true, rollSlot := slot
      rollNew := s.slotVersion slot, rollFails := [], busyOp := 3 } }
  else if s.sys.switchReq.isSome then s
  else { s with sys := { s.sys with switchReq := some (.revert, s.time.now + 10000000000) } }

/-! ## Rolling update (R461) -/

/-- ROLL (R461). -/
def State.fwRoll (s : State) (slot : Nat) : State :=
  let s := s.checkSlot slot
  let v := s.slotVersion slot
  match s.sys.runMgmt with
  | none => s.setFwResult 5
  | some m =>
    if s.sys.safe then s.setFwResult 5
    else if slot < 4 ∨ ¬ s.imageValid slot ∨ ¬ s.lists slot (s.slotVersion m) ∨ ¬ s.lists m v ∨
        ¬ s.runningMicrocode.all (fun u => s.lists m u) then s.setFwResult 3
    else if s.sys.busyOp = 1 ∨ s.sys.confirmPend ∨ s.sys.roll = 1 then s.setFwResult 4
    else State.rollSettle { s with sys := { s.sys with
      roll := 1, rollNew := v, rollSlot := slot, rollFails := [], rollBack := false, busyOp := 4 } }

/-! ## Writing images (R458) -/

/-- A slot is in use: of the CUR or LKG pair, or its image runs on a core or an engine (R458). -/
def State.slotInUse (s : State) (slot : Nat) : Bool :=
  let named : Nat → Bool := fun c =>
    match recordPair c with
    | some x => x.1 == slot || x.2 == slot
    | none => false
  let micro := [s.sys.runMicro, s.sys.oldMicro, if s.sys.roll = 0 then none else some s.sys.rollSlot]
  named s.sys.record.cur || named s.sys.record.lkg || s.sys.runMgmt == some slot || s.sys.oldMgmt == some slot ||
  (s.sys.busyOp == 1 && s.sys.actSlot == slot) ||
  (micro.contains (some slot) && s.runningMicrocode.contains (s.slotVersion slot))

/-- REJ bits of every pair that contains a slot cleared (R451). -/
def BootRecord.forget (r : BootRecord) (slot : Nat) : BootRecord :=
  { r with rej := ((List.range 16).filter (fun i =>
    natField r.rej i 1 == 1 && (if slot < 4 then i / 4 != slot else i % 4 + 4 != slot))).foldl (fun a i => a + 2 ^ i) 0 }

/-- ERASE (R458). After a failed erase the slot's contents are free (log entry 4). -/
def State.fwErase (s : State) (slot : Nat) (flashOk : Bool) : State :=
  if s.slotInUse slot then s.setFwResult 9
  else
    let s := s.flashErase (slotBase slot) 0x400000
    let s := s.setRecord (s.sys.record.forget slot)
    if flashOk then
      State.setFwResult { s with sys := { s.sys with flashLost := Table.erase slot s.sys.flashLost } } 1
    else
      State.setFwResult { s with
        free := s.free + 1, sys := { s.sys with flashLost := Table.insert slot s.free s.sys.flashLost } } 8

/-- The 256 bytes of the page buffer. -/
def State.pageBytes (s : State) : List Byte := Memory.readRun 0#8 s.sys.pageBuf 0 256

/-- A page programmed; a failure leaves free bytes there. -/
def State.programPage (s : State) (a : Nat) (flashOk : Bool) : State :=
  if flashOk then (s.flashPut a s.pageBytes).setFwResult 1
  else
    let w := s.free
    State.setFwResult (State.flashPut { s with free := s.free + 1 } a ((List.range 256).map (fun i => Config.freeByte w (a + i)))) 8

/-- PROGRAM (R458): into the page that FL_ADDR selects, or into a configuration copy, which is erased first. -/
def State.fwProgram (s : State) (slot : Nat) (flashOk : Bool) : State :=
  if s.flag Reg.sysFlAddr 22 then
    let a := 0x10000 * s.olderConfig
    (s.flashErase a 0x10000).programPage a flashOk
  else if s.slotInUse slot then s.setFwResult 9
  else s.programPage (slotBase slot + 256 * s.fld Reg.sysFlAddr 8 14) flashOk

/-- A write of SYS.FW_CMD (R463): OP in bits [2:0], SLOT in [10:8]; 0 and 7 are ignored. -/
def State.fwCmd (s : State) (val : Word) (flashOk : Bool) : State :=
  let slot := val.field 8 3
  match val.field 0 3 with
  | 1 => s.fwActivate slot
  | 2 => s.fwConfirm
  | 3 => s.fwRevert
  | 4 => s.fwRoll slot
  | 5 => s.fwErase slot flashOk
  | 6 => s.fwProgram slot flashOk
  | _ => s

/-- A write of SYS.FL_DATA (R458). -/
def State.flWrite (s : State) (val : Word) : State :=
  { s with sys := { s.sys with
    pageBuf := Memory.writeRun 0#8 s.sys.pageBuf (8 * s.sys.bufIdx) (leBytes 8 val.toNat), bufIdx := (s.sys.bufIdx + 1) % 32 } }

/-- A write of SYS.FL_ADDR sets the index to 0 (R458). -/
def State.flSelect (s : State) : State := { s with sys := { s.sys with bufIdx := 0 } }

/-- A write of SYS.FW_SEL: the slot's header captured into FW_PEEK (R463). -/
def State.captureHeader (s : State) (val : Word) : State :=
  let n := val.field 0 3
  let s := s.checkSlot n
  { s with sys := { s.sys with
    fwPeek := pack [(32, s.slotVersion n), (8, s.slotCompat n % 256), (0, b2n (s.imageValid n))] } }

/-! ## Commands -/

/-- POWER_ON (R447): VIN rises through 2.7 V. The always-on domain and BOOT_STAT return to reset values too. -/
def execPowerOn (bootSel : Nat) (s : State) : Answer :=
  let r := s.cleared
  .next (State.boot { r with sys := { r.sys with bootCause := 0, bootSel := bootSel % 4 } })

/-- RESET_N (R447): low for at least 1 µs. Whether a shorter pulse is taken is free (log entry 4). -/
def execResetN (bootSel lowNs : Nat) (s : State) : Answer :=
  let t := { s with free := s.free + 1 }
  .next (if !s.sys.powered then s
    else if lowNs < 1000 then (if Config.shortResetTaken s.free then t.deviceReset 1 bootSel else t)
    else s.deviceReset 1 bootSel)

/-- LOSS_OF_POWER (R307, R432). -/
def execLossOfPower (s : State) : Answer := .next s.loseVin

/-- FIRMWARE_READY (R455, R456): the second pair stands by, FAILS returns to 0. -/
def execFirmwareReady (s : State) : Answer :=
  .next (if s.sys.phase = 2 then
      State.setRecord { s with
        sys := { s.sys with phase := 3, standby := true, bootFails := 0 }
        tink := { s.tink with pairAt := s.time.now } } { s.sys.record with fails := 0 }
    else s)

/-- BOOT_READY_TIMEOUT (R455): 2 s after its start; a pair on trial is rejected, and the boot ROM tries again. -/
def execBootReadyTimeout (s : State) : Answer :=
  .next (if s.sys.phase = 2 then
      let s := s.advanceTo (s.sys.fwStart + 2000000000)
      let s := match s.sys.trial, s.sys.runMgmt, s.sys.runMicro with
        | true, some m, some u => s.setRecord (s.sys.record.reject m u)
        | _, _, _ => s
      s.deviceReset 5 s.sys.bootSel
    else s)

/-- PAIR_SWITCH (R459, R460): the switch that waits is made once no command executes and no table load runs. -/
def execPairSwitch (s : State) : Answer :=
  .next (if !s.commandsQuiet then s
    else
      match s.sys.switchReq with
      | some (.activate, _) =>
        let s := { s with sys := { s.sys with
          oldMgmt := s.sys.runMgmt, runMgmt := some s.sys.actSlot, busyOp := 0, confirmPend := true, confirmRoll := false
          confirmAt := s.time.now + 1000000000 * s.fld Reg.sysFwCtl 0 17 } }
        State.setFwResult (State.switchPair { s with tink := { s.tink with pairAt := s.time.now } } true) 1
      | some (.revert, _) => State.revertPair { s with tink := { s.tink with pairAt := s.time.now } } true
      | some (_, _) => State.switchPair { s with tink := { s.tink with pairAt := s.time.now } } true
      | none => s)

/-- SWITCH_TIMEOUT (R459): 10 s without the switch. -/
def execSwitchTimeout (s : State) : Answer :=
  .next (match s.sys.switchReq with
    | some (cause, t) =>
      let s := s.advanceTo t
      match cause with
      | .activate =>
        State.setFwResult { s with sys := { s.sys with switchReq := none, standby := true, busyOp := 0 } } 10
      | .revert => State.revertPair (State.failCommands { s with tink := { s.tink with pairAt := s.time.now } }) true
      | .periodic | .fence =>
        { s with
          sys := { s.sys with switchReq := none }
          tink := { s.tink with pairRetryAt := s.time.now + 3600000000000 } }
    | none => s)

/-- CONFIRM_TIMEOUT (R460, R462): CONFIRM_S seconds have passed without CONFIRM. -/
def execConfirmTimeout (s : State) : Answer :=
  .next (if s.sys.confirmPend then (s.advanceTo s.sys.confirmAt).fwRevert else s)

end Sys2Proof.Machine
end

