-- ==== Sys2Proof/Machine/Buses.lean ====
section
/-! DEFINITION. Frames on the buses: reception and verdicts (R86 to R106, R110), the choice before SOF and its endings
(R107 to R109, R115 to R120, R270, R284 to R288). -/

namespace Sys2Proof.Machine

/-! ## Reception -/

/-- TS_OFFSET.DELAY of the engine that serves port p, signed, for the frame on the bus (R26, R110). -/
def State.tsOffset (s : State) (p : Nat) : Int := signed 16 ((s.portWord (s.serving p) (Reg.portTsOffset (s.serving p))).field 0 16)

/-- TAI as it stood at an elapsed instant: one before the most recent step of TAI has the offset before it (R110, R210). -/
def State.taiWas (s : State) (t : Int) : Int :=
  match s.time.stepAt with
  | some u => if t < u then t + s.time.prevOffset else t + s.time.offset
  | none => t + s.time.offset

/-- A recorded timestamp: TAI at an elapsed instant, less TS_OFFSET (R110). -/
def State.stampAt (s : State) (p : Nat) (t : Int) : Word := BitVec.ofInt 64 (s.taiWas t - s.tsOffset p)

/-- The engine of port p takes part in its bus: RUNNING, or STOPPING with the frame it has begun, not in bus-off or fenced,
nor in protocol exception (R89) or waiting for bus idle in MODE 2 (R100). -/
def Engine.takesPart (e : Engine) : Bool :=
  (e.st == .running || e.st == .stopping) && !e.busOff && !e.fenced && !e.pex && !e.idleWait

/-- The engine of port p follows the bus: it takes part, and its receiver sees the bus; in MODE 3 it hears its own output only
(R490). -/
def State.receives (s : State) (p : Nat) : Bool :=
  (s.engine (s.serving p)).takesPart && s.seesBus p && s.modeOf (s.serving p) != 3

/-- A format is enabled in the values in use (R87, R93). -/
def Engine.enables (e : Engine) (fmt : Nat) : Bool := if isFd fmt then e.useFd else if fmt = 4 then e.useXlEn else true

/-- A received frame as it enters flight (R16 steps 1 and 2, R110). -/
def State.newFrame (s : State) (p : Nat) (f : BusFrame) (sofTai : Word) : Frame :=
  { port := p, f := f, sofTai := sofTai, keyAt := s.time.now, validTai := 0, validAt := 0
    verdict := none, looked := false, key := 0, gen := s.gen.activeGen, watch := none, eccLost := false, unk := 0, routes := []
    plain := f.data, decoding := false, pipe := 0, opPos := 0, sel0 := none, sel1 := none, results := [], badOp := false
    committing := false, committed := false, sealed := false, lane := none, half := none, latched := {}, fArrived := false
    verdictCode := none, keyGone := false, copies := [], cells := [] }

/-- The port's verdict on a frame in flight, with its VALID timestamp (R104, R110, R210). -/
def State.giveVerdict (s : State) (p fid : Nat) (v : RxVerdict) : State :=
  let at' : Int := s.time.now - s.tsOffset p
  let s := s.modFrame fid (fun f => { f with verdict := some v, validTai := s.taiAt at', validAt := at' })
  let laneLost := match s.frame? fid with | some f => f.valid && f.verdictCode == some 6 | none => false
  (s.countIf laneLost Reg.lockLaneLost).afterVerdict fid

/-- A frame has started on port p's bus at an elapsed instant: what committed after that applies from the next frame (R26). A
suspend transmission owed, and a takeover that its intermission could have seen, are past. -/
def State.frameBegins (s : State) (p : Nat) (sof : Int) : State :=
  let s := if (s.port p).sofAt < sof then s.endBusFrame (s.serving p) else s
  let s := s.modEngine (s.serving p) (fun e => { e with
    suspend := false
    heldWords := if sof < e.prevAt then e.heldWords.foldl (fun (t : Table Word) (x : Nat × Word) => Table.insert x.1 x.2 t) e.prevWords
      else e.heldWords })
  s.modPort p (fun q => { q with proved := false })

/-- No error flag is sent: in the XL data phase without error signalling (R115). -/
def State.silentPhase (s : State) (p : Nat) (ph : BitPhase) : Bool :=
  decide (ph = .xlData) && !(s.engine (s.serving p)).useXl.bit 0

/-- Port p's engine sends an error flag, active or passive, for an error: in MODE 0 (R97, R100, R115). -/
def State.errorFlag? (s : State) (p : Nat) (x : BusErr) (ph : BitPhase) : Option Out :=
  if s.actingMode p = 0 && !s.silentPhase p ph && (!isSequel x || x == .bitInFlag) then
    some (.errorFlag p (s.engine (s.serving p)).passive)
  else none

/-- What is sent, if anything. -/
def State.emitSome (s : State) : Option Out → State
  | some o => s.emit o
  | none => s

/-- An error changes the counters of port p's engine, and restricted mode begins its wait (R95, R100). -/
def State.signalError (s : State) (p : Nat) (x : BusErr) (transmitter : Bool) (ph : BitPhase) : State :=
  let n := s.serving p
  let g := s.engine n
  let d := g.errorStep x transmitter (s.silentPhase p ph)
  let m := s.actingMode p
  if m = 0 ∨ m = 3 then s.setErrors n (g.tec + d.1) (g.rxErr + d.2)
  else if m = 2 ∧ isSequel x = false then s.modEngine n (fun e => { e with idleWait := true })
  else s

/-- An XL frame whose data phase the engine of logic port p codes as PWM symbols (R144). -/
def State.fastXl (s : State) (p fmt : Nat) : Bool :=
  fmt == 4 && decide (32 ≤ p) && s.actingMode p != 3 && (s.engine (s.serving p)).useXl.bit 1

/-- RX_HEADER (R86 to R89, R104): a format that is not enabled is a protocol exception or a form error; any other header
enters flight. -/
def execRxHeader (port : Nat) (f : BusFrame) (sofAgo : Nat) (s : State) : Answer :=
  let n := s.serving port
  let sof : Int := (s.time.now : Int) - sofAgo
  .next (if !s.receives port || (s.port port).rxFrame.isSome || (s.port port).onBus.isSome then s
    else
      let s := s.frameBegins port sof
      if !(s.engine n).enables f.fmt then
        if (s.portWord n (Reg.portCtl n)).bit 6 then
          ((s.modEngine n (fun e => { e with pex := true })).count (Reg.portPex n)).busFrameOver port
        else
          (s.portStep port (fun s =>
            ((s.noteError n .form false .nominal).signalError port .form false .nominal).busFrameOver port)).emitSome
            (s.errorFlag? port .form .nominal)
      else
        let fid := s.nextFrame
        let s := if s.fastXl port f.fmt then s.emit (.pwm port none) else s
        let s := { s.setFrame fid (s.newFrame port f (s.stampAt port sof)) with nextFrame := fid + 1 }
        s.modPort port (fun q => { q with rxFrame := some fid }))

/-- The frame was correct on the bus: a successful reception, though the frame core may have lost it (R95, R105). -/
def rxCorrect : RxVerdict → Bool
  | .valid | .lost => true
  | .invalid | .lostErroneous => false

/-- The receive queue could not accept a word of the frame (R105). -/
def rxOverran : RxVerdict → Bool
  | .lost | .lostErroneous => true
  | .valid | .invalid => false

/-- RX_FRAME_END (R95, R103 to R106, R155). A frame correct up to its ACK slot, as toAck says, is acknowledged in MODE 0 and
MODE 2; one correct to its end is a successful reception. A frame that never reached lookup has ended for the shadowing spare
alone. -/
def execRxFrameEnd (port : Nat) (v : RxVerdict) (sv : ShadowView) (s : State) (toAck : Bool := false) : Answer :=
  let n := s.serving port
  .next (match (s.port port).rxFrame with
    | none => (s.busFrameOver port).shadowJudge port false sv
    | some fid =>
      let ack := (rxCorrect v || toAck) && (s.actingMode port == 0 || s.actingMode port == 2)
      let s := s.modPort port (fun q => { q with rxFrame := none })
      let s := if s.countsErrors port && rxCorrect v then
          s.portStep port (fun s => s.setErrors n (s.engine n).tec (rxErrAfterReception (s.engine n).rxErr))
        else s
      let s := (s.countIf (decide (v = .valid)) (Reg.portRxFrames n)).countIf (rxOverran v) (Reg.portRxOverrun n)
      let s := ((s.giveVerdict port fid v).busFrameOver port).tinkSettle
      (s.shadowJudge port (rxCorrect v) sv).emitSome (if ack then some (.ack port) else none))

/-! ## The choice before SOF (R284, R285) -/

/-- The arbitration field of a frame as a number: the lower one wins (R86, R284). Identifier, RTR or SRR, IDE, and the
bits after them up to FDF and XLF. -/
def arbKey (fmt ident : Nat) : Nat :=
  let r := b2n (isRemote fmt)
  let fdf := b2n (isFd fmt || fmt == 4)
  if isExtended fmt then
    ident / 2 ^ 18 % 2 ^ 11 * 2 ^ 22 + 2 ^ 21 + 2 ^ 20 + ident % 2 ^ 18 * 4 + r * 2 + fdf
  else ident % 2 ^ 11 * 2 ^ 22 + r * 2 ^ 21 + fdf * 2 ^ 19 + b2n (fmt == 4) * 2 ^ 18

/-- A packet's EXPIRE has been passed, modulo 2^40 (R264, R278). -/
def State.expired (s : State) (k : Packet) : Bool :=
  match k.expire with
  | some x => decide (0 < (s.tai.toNat + 2 ^ 40 - x) % 2 ^ 40 ∧ (s.tai.toNat + 2 ^ 40 - x) % 2 ^ 40 < 2 ^ 39)
  | none => false

/-- The head of class c that may not be sent is retired: abandoned (R283), expired (R264), or of a format that is not
enabled (R88). -/
def State.dropHead? (s : State) (p c : Nat) : Option State :=
  match (s.port p).queue c with
  | [] => none
  | k :: _ =>
    if !k.closed then none
    else if k.abandon then some ((s.retireHead p c .sealFail k.failStatus k.failDetail 0).count (Reg.drayTxqAbandon p))
    else if s.expired k then some (s.retireHead p c .expired 6 0 0)
    else if !(s.engine (s.serving p)).enables k.fmt then some ((s.retireHead p c .txDrop 4 0 0).count (Reg.portTxDrop (s.serving p)))
    else none

/-- Heads of class c are retired until one may be offered or stands open. -/
def State.cleanClass (s : State) (p c : Nat) : State :=
  ((s.port p).queue c).foldl (fun s _ => (s.dropHead? p c).getD s) s

/-- The lane copy of port p, if it waits there, with its frame and copy. -/
def State.laneCopy? (s : State) (p : Nat) : Option (LaneCopy × Frame × Copy) :=
  match (s.port p).lane with
  | none => none
  | some l =>
    match s.frame? l.fid, s.copy? l.fid l.copy with
    | some f, some c => some (l, f, c)
    | _, _ => none

/-- The lane copy may start now: t_min has passed, the port accepts cut-through starts (R115), no handover window is open
(R159). -/
def State.laneReady (s : State) (p : Nat) : Bool :=
  match s.laneCopy? p with
  | some (l, _, c) => !l.started && decide (l.tMinPs ≤ 1000 * s.time.now) && s.ctEligible p && (s.port p).phase != 2 &&
      (c.fmt != 4 || (s.engine (s.serving p)).useXl.bit 0)
  | none => false

/-- The candidates of a choice with their arbitration keys, class heads first (R284). -/
def State.candidates (s : State) (p : Nat) : List (Nat × OnBus) :=
  (List.range 4).filterMap (fun c =>
    match (s.port p).queue c with
    | k :: _ => if k.closed && !k.abandon then some (arbKey k.fmt k.ident, OnBus.cls c) else none
    | [] => none) ++
  (match s.laneCopy? p with
    | some (_, _, c) => if s.laneReady p then [(arbKey c.fmt c.ident, OnBus.lane)] else []
    | none => [])

/-- The candidate that would win arbitration; of equal ones the first in order (R284). -/
def bestCandidate : List (Nat × OnBus) → Option (Nat × OnBus)
  | [] => none
  | c :: t =>
    match bestCandidate t with
    | some b => if b.1 < c.1 then some b else some c
    | none => some c

/-- A packet as a frame on the bus (R97, R278). -/
def State.packetFrame (s : State) (p : Nat) (k : Packet) : BusFrame :=
  let xl := k.fmt == 4
  { fmt := k.fmt, ident := k.ident, dlc := dlcOf k.fmt k.len k.dlc, brs := k.brs
    esi := isFd k.fmt && (s.engine (s.serving p)).passive
    sec := xl && k.xl.bit 47, sdt := if xl then k.xl.field 56 8 else 0, vcid := if xl then k.xl.field 48 8 else 0
    af := if xl then k.xl.field 0 32 else 0, data := readChain s.dray.storeroom k.cells k.len }

/-- A cut-through copy as a frame on the bus (R261, R262). -/
def State.copyFrame (s : State) (p : Nat) (f : Frame) (c : Copy) : BusFrame :=
  let b : BusFrame := f.f
  { b with
    fmt := c.fmt, ident := c.ident, brs := c.brs, dlc := c.dlc
    esi := isFd c.fmt && (s.engine (s.serving p)).passive }

/-- The frame that port p has on its bus. -/
def State.busFrame? (s : State) (p : Nat) : Option BusFrame :=
  match (s.port p).onBus with
  | some (.cls c) =>
    match (s.port p).queue c with
    | k :: _ => some (s.packetFrame p k)
    | [] => none
  | some .lane =>
    match s.laneCopy? p with
    | some (_, f, c) => some (s.copyFrame p f c)
    | none => none
  | none => none

/-- PWM coding of one XL data-phase bit: the levels of TXD_n, true for high, and their times in mtq (R144). -/
def pwmBit (bitMtq pwms pwml pwmo : Nat) (dominant : Bool) : List (Bool × Nat) :=
  let low := if dominant then pwml else pwms
  let n := (bitMtq - pwmo) / (pwms + pwml)
  (true, min pwmo bitMtq) :: ((List.range n).flatMap (fun _ => [(false, low), (true, pwms + pwml - low)]) ++
    [(true, bitMtq - pwmo - n * (pwms + pwml))])

/-- The PWM coding that port p uses as transmitter: of a recessive bit and of a dominant one (R144). -/
def State.pwmCode (s : State) (p : Nat) : List (Bool × Nat) × List (Bool × Nat) :=
  let c := s.reg (Reg.xcvrLpCtl p)
  let t := dbtMtq (s.engine (s.serving p)).useXbt
  (pwmBit t (c.field 8 6) (c.field 16 6) (c.field 24 6) false, pwmBit t (c.field 8 6) (c.field 16 6) (c.field 24 6) true)

/-- A frame starts on the bus (R107, R110, R144, R270). In MODE 3 the bus pin stays recessive (R100). -/
def State.startSof (s : State) (p : Nat) (o : OnBus) : State :=
  let s := s.frameBegins p s.time.now
  let s := s.modPort p (fun q => { q with onBus := some o, sofAt := s.time.now, sofTai := s.stampAt p s.time.now })
  let s := match o with
    | .lane =>
      let cset := match s.laneCopy? p with | some (_, _, c) => c.cset | none => 0
      let s := s.modPort p (fun q => { q with lane := q.lane.map (fun (l : LaneCopy) => { l with started := true }) })
      (s.count (Reg.drayPcntCtStarts p)).countSet cset Reg.drayCsCtStarts
    | .cls _ => s
  match s.busFrame? p with
  | some f =>
    if s.actingMode p = 3 then s
    else if s.fastXl p f.fmt then (s.emit (.frame p f)).emit (.pwm p (some (s.pwmCode p)))
    else s.emit (.frame p f)
  | none => s

/-- A lane copy that its port can no longer start is withdrawn (R268, R271). -/
def State.laneCheck (s : State) (p : Nat) : State :=
  match (s.port p).lane with
  | some l =>
    if l.started || s.ctEligible p then s
    else (s.modPort p (fun q => { q with lane := none })).modCopy l.fid l.copy (fun c => { c with stage := .waiting, withdrawn := true })
  | none => s

/-- TX_CHOICE (R107, R284, R285): heads that may not be sent leave, open heads stall their class, and the best candidate
starts. -/
def execTxChoice (port : Nat) (s : State) : Answer :=
  .next (if !s.portUp port || (s.port port).onBus.isSome || (s.port port).rxFrame.isSome ||
      !(s.engine (s.serving port)).takesPart then s
    else
      let s := s.withLevel port (fun s => (List.range 4).foldl (fun s c => s.cleanClass port c) s)
      let open' := (s.port port).queues.any (fun q => match q with | k :: _ => !k.closed | [] => false)
      let s := (s.countIf open' (Reg.drayTxqOpenStall port)).laneCheck port
      match bestCandidate (s.candidates port) with
      | some b => s.startSof port b.2
      | none => s)

/-! ## Endings (R95, R106, R108, R109, R116 to R120) -/

/-- Delay measurement of a transmitted frame (R94): TDCV, SSP and whether the SSP was held. An FD frame without BRS is measured
too, and has no data phase in which an SSP is placed. -/
def Engine.measure (e : Engine) (f : BusFrame) (loopMtq : Nat) : Option (Nat × Nat × Bool) :=
  let v := min loopMtq 127
  if isFd f.fmt && e.useTdc.bit 24 then
    if f.brs then some (v, min (v + e.useTdc.field 16 7) 127, decide (127 < v + e.useTdc.field 16 7)) else some (v, e.ssp, false)
  else if f.fmt == 4 && e.useTdc.bit 56 then some (v, min (v + e.useTdc.field 48 7) 127, decide (127 < v + e.useTdc.field 48 7))
  else none

/-- The loop delay of the frame on port p's bus as transmitter, where the frame has reached the edge at which it is measured
(R94). -/
def State.measureLoop (s : State) (p : Nat) (loop : Option Nat) : State :=
  let n := s.serving p
  match s.busFrame? p, loop with
  | some f, some l =>
    match (s.engine n).measure f l with
    | some (v, ssp, clamped) =>
      (s.modEngine n (fun e => { e with tdcv := v, ssp := ssp })).countIf clamped (Reg.portTdcClamped n)
    | none => s
  | _, _ => s

/-- The frame sent as transmitter has ended: an engine that is error passive owes a suspend transmission (R157). -/
def State.sentFrame (s : State) (p : Nat) : State :=
  s.modEngine (s.serving p) (fun e => { e with suspend := e.passive })

/-- The lane copy of port p ends with an outcome, and its lane is free (R118, R259). -/
def State.endLane (s : State) (p : Nat) (o : CopyOutcome) : State :=
  match (s.port p).lane with
  | none => s
  | some l => ((s.modPort p (fun q => { q with lane := none })).endCopy l.fid l.copy o).settleFrame l.fid

/-- A frame of the port's own that goes to lookup (R106). -/
def State.ownFrame (s : State) (p : Nat) (f : BusFrame) : State :=
  if (s.portWord (s.serving p) (Reg.portCtl (s.serving p))).bit 7 then
    let fid := s.nextFrame
    let s := (s.setFrame fid (s.newFrame p f (s.port p).sofTai)).count (Reg.portRxFrames (s.serving p))
    { s with nextFrame := fid + 1 }.giveVerdict p fid .valid
  else s

/-- TX_SUCCESS (R94, R95, R106, R109, R155, R281, R287). -/
def execTxSuccess (port loopMtq : Nat) (sv : ShadowView) (s : State) : Answer :=
  let n := s.serving port
  .next (match (s.port port).onBus, s.busFrame? port with
    | some o, some f =>
      let s := (s.count (Reg.portTxFrames n)).measureLoop port (some loopMtq)
      let s := s.setErrors n ((s.engine n).tec - 1) (s.engine n).rxErr
      let s := s.ownFrame port f
      let s := match o with
        | .cls c => s.withLevel port (fun s => s.retireHead port c .sent 0 0 (s.stampAt port s.time.now))
        | .lane => s.endLane port .sent
      let s := ((s.modPort port (fun q => { q with onBus := none })).sentFrame port).busFrameOver port
      s.shadowJudge port true sv
    | _, _ => s)

/-- ARB_LOST (R107, R109, R120, R269): the frame waits for the next choice; a cut-through copy returns. An engine in
MODE 3 never loses arbitration (R490). -/
def execArbLost (port : Nat) (s : State) : Answer :=
  let n := s.serving port
  .next (if s.modeOf n = 3 then s
    else match (s.port port).onBus with
    | some (.cls c) =>
      (((s.count (Reg.portArbLost n)).modPort port (fun q => { q with onBus := none })).withLevel port
        (fun s => s.dropNextCheck port c))
    | some .lane => (s.count (Reg.portArbLost n)).laneReturn port
    | none => s)

/-- The effects of a self-abort (R94, R116, R118, R155): TEC rises by 8, an active error flag goes out, the copy ends with
SELF_ABORT and the Steward counts an event. -/
def State.selfAbort (s : State) (p : Nat) (reg : Nat → Nat) (ph : BitPhase) (loop : Option Nat) (sv : ShadowView) : State :=
  let n := s.serving p
  let s := ((s.measureLoop p loop).count (reg n)).lastErr n 7 true ph
  let s := (s.endLane p .selfAbort).modPort p (fun q => { q with onBus := none })
  let s := s.portStep p (fun s => (s.setErrors n ((s.engine n).tec + 8) (s.engine n).rxErr).sentFrame p)
  (((s.busFrameOver p).unitFault (136 + p) 0).shadowJudge p false sv).emit (.errorFlag p false)

/-- SELF_ABORT (R116 to R118): the ingress verdict of the cut-through frame on the bus is invalid. -/
def execSelfAbort (port : Nat) (ph : BitPhase) (s : State) (loop : Option Nat := none)
    (sv : ShadowView := ShadowView.bothSawError) : Answer :=
  .next (match (s.port port).onBus, s.laneCopy? port with
    | some .lane, some (_, f, _) => if f.dead then s.selfAbort port Reg.portSelfAbort ph loop sv else s
    | _, _ => s)

/-- CT_UNDERRUN (R119): the lane has no data for the next bit. -/
def execCtUnderrun (port : Nat) (ph : BitPhase) (s : State) (loop : Option Nat := none)
    (sv : ShadowView := ShadowView.bothSawError) : Answer :=
  .next (match (s.port port).onBus, s.laneCopy? port with
    | some .lane, some _ => s.selfAbort port Reg.portCtUnderrun ph loop sv
    | _, _ => s)

/-- The attempt on port p's bus has ended in an error (R108, R120, R288): a class packet has one more attempt, and is dropped at
RETX_LIMIT or after a drop command; a cut-through copy returns to the Drayman. -/
def State.attemptFails (s : State) (p : Nat) : State :=
  let n := s.serving p
  match (s.port p).onBus with
  | some (.cls c) =>
    let s := (s.modPort p (fun q => { q with onBus := none })).modHead p c (fun k => { k with attempts := k.attempts + 1 })
    let lim := (s.portWord n (Reg.portCtl n)).field 12 4
    match (s.port p).queue c with
    | [] => s
    | k :: _ =>
      if k.dropNext then (s.retireHead p c .txDrop 8 0 0).count (Reg.drayTxqDropcmd p)
      else if lim ≠ 0 ∧ lim ≤ k.attempts then (s.retireHead p c .txDrop 5 0 0).count (Reg.portTxDrop n)
      else s
  | some .lane => s.laneReturn p
  | none => s

/-- BUS_ERROR (R94, R95, R97, R100, R108, R109, R120, R155): counted and recorded, signalled, TEC or REC changed, and the
transmitter's attempt ended. What follows an error ends no attempt. -/
def execBusError (port : Nat) (e : BusErr) (transmitter : Bool) (ph : BitPhase) (s : State) (loop : Option Nat := none)
    (sv : ShadowView := ShadowView.bothSawError) : Answer :=
  let n := s.serving port
  .next (if (s.engine n).takesPart ∧ (s.seesBus port ∨ s.modeOf n = 3) then
      let ends := transmitter && !isSequel e
      let flag := s.errorFlag? port e ph
      let s := if ends then s.measureLoop port loop else s
      let s := s.withLevel port (fun s =>
        s.portStep port (fun s =>
          let s := s.noteError n e transmitter ph
          let s := (if ends then s.attemptFails port else s).signalError port e transmitter ph
          let s := if ends then s.sentFrame port else s
          if ends ∨ ((s.port port).rxFrame.isNone ∧ (s.port port).onBus.isNone) then s.busFrameOver port else s))
      (if ends then s.shadowJudge port false sv else s).emitSome flag
    else s)

end Sys2Proof.Machine
end

