-- ==== Sys2Proof/Machine/Commands.lean ====
section
/-! DEFINITION. How a command ring's entry starts: the read of the entry, ownership, safe mode and parameter checks (R329,
R342 to R346, R457, R459), and the commands that end at once. -/

namespace Sys2Proof.Machine

/-- FLAGS of a command (R344). -/
def cmdFlags (c : CmdEntry) : Nat := c.w0.field 8 8

/-- OPC of a command (R344); 0x00 to 0x0B are known (R346). -/
def cmdOpc (c : CmdEntry) : Nat := c.w0.field 0 8

/-- The reserved bits of word 0 are 0, and FLAGS has no bit beyond the n lowest (R344). -/
def cmdHeadOk (c : CmdEntry) (n : Nat) : Bool := c.w0.field 16 16 == 0 && decide (cmdFlags c < 2 ^ n)

/-- Words that a command does not use are 0 (R344). -/
def wordsZero (l : List Word) : Bool := l.all (fun w => w == 0)

/-- The ring reads its next entry: it runs as a command ring, an entry waits, no command of it is executing, its
completion ring holds nothing back, and no core-pair switch is pending (R342, R343, R459). -/
def State.mayStart (s : State) (e : Ep) (k : Nat) : Bool :=
  let r := s.ring e k
  r.runs 1 && r.hostPos != r.devPos && r.running.isNone && !s.cqBlocked e k && s.sys.switchReq.isNone

/-- An entry read: the device's position moves on and the command is executing. -/
def State.takeCommand (s : State) (c : CmdEntry) (opc : Nat) : State :=
  (s.modRing c.ep c.ring (fun r => { r with
    devPos := (r.devPos + 1) % r.size
    running := some { cmd := c, opc := opc, inFreeze := s.gen.freeze, swap := false, arg := 0 } })).count
    (Reg.hostRingEntries c.ep.idx c.ring)

/-- The command of an entry ends (R345). -/
def State.endCmd (s : State) (c : CmdEntry) (status detail : Nat) (result : Word) : State :=
  s.endCommand c.ep c.ring status detail result

/-- An entry that spells a command other than NOP starts: refused to the endpoint that is not the owner, and in safe mode (R329,
R457). An entry with another OPC is no such command (R344). -/
def State.startCommand (s : State) (c : CmdEntry) (opc : Nat) (run : State → State) : State :=
  if !s.mayStart c.ep c.ring || cmdOpc c != opc then s
  else
    let s := s.takeCommand c opc
    if s.regs.owner ≠ c.ep then (s.count Reg.hostNotOwnerCmds).endCmd c 1 0 0
    else if s.sys.safe then s.endCmd c 7 0 0
    else run s

/-- A read of host memory that a command asked for has failed (R361). -/
def State.memError (s : State) (e : Ep) (ring : Nat) : State := s.count (Reg.hostRingMemErr e.idx ring)

/-! ## Commands -/

/-- NOP (R346): executed whoever owns the configuration, in safe mode too. -/
def execNop (c : CmdEntry) (s : State) : Answer :=
  .next (if !s.mayStart c.ep c.ring || cmdOpc c != 0 then s
    else
      let s := s.takeCommand c 0
      s.endCmd c (if cmdHeadOk c 0 && wordsZero [c.w1, c.w2, c.w3, c.w4, c.w5, c.w6, c.w7] then 0 else 3) 0 0)

/-- OPCODE_UNKNOWN (R345): an entry whose OPC is none of R346. -/
def execOpcodeUnknown (c : CmdEntry) (s : State) : Answer :=
  .next (if cmdOpc c < 12 then s else s.startCommand c (cmdOpc c) (fun s => s.endCmd c 2 0 0))

end Sys2Proof.Machine
end

