-- ==== Sys2Proof/Machine/Flags.lean ====
section
/-! DEFINITION. Floating-point values and the validity flags of a decoded result: binary16, binary32 and binary64 (R190 to
R192), rounding to nearest even, comparison, deadband (R193, R198) and the invalid codes (R192 step 2). -/

namespace Sys2Proof.Machine

/-- A floating-point datum: not a number, an infinity, or (−1)^neg × m × 2^e. -/
inductive Fl where
  | nan
  | inf (neg : Bool)
  | fin (neg : Bool) (m : Nat) (e : Int)
deriving DecidableEq, Repr

/-- A binary floating-point word with an exponent field of eb bits and a fraction of fb bits. -/
def flDecode (eb fb n : Nat) : Fl :=
  let f := natField n 0 fb
  let x := natField n fb eb
  let neg := natField n (fb + eb) 1 == 1
  let bias : Int := 2 ^ (eb - 1) - 1
  if x = 2 ^ eb - 1 then (if f = 0 then .inf neg else .nan)
  else if x = 0 then .fin neg f (1 - bias - fb)
  else .fin neg (2 ^ fb + f) (x - bias - fb)

/-- The datum of a binary64 word. -/
def fl64 (w : Word) : Fl := flDecode 11 52 w.toNat
/-- The datum of a binary32 pattern. -/
def fl32 (n : Nat) : Fl := flDecode 8 23 n
/-- The datum of a binary16 pattern. -/
def fl16 (n : Nat) : Fl := flDecode 5 10 n

/-- m div 2^k rounded to nearest, ties to even. -/
def roundShift (m k : Nat) : Nat :=
  let q := m / 2 ^ k
  let r := 2 * (m % 2 ^ k)
  if r < 2 ^ k ∨ (r = 2 ^ k ∧ q % 2 = 0) then q else q + 1

/-- The binary64 pattern of (−1)^neg × m × 2^e rounded to nearest even. -/
def round64 (neg : Bool) (m : Nat) (e : Int) : Word :=
  let sign := b2n neg * 2 ^ 63
  if m = 0 then BitVec.ofNat 64 sign
  else
    let q : Int := max (e + Nat.log2 m - 52) (-1074)
    let a := if q ≤ e then m * 2 ^ (e - q).toNat else roundShift m (q - e).toNat
    let a' := if a < 2 ^ 53 then a else a / 2
    let q' := if a < 2 ^ 53 then q else q + 1
    if a' < 2 ^ 52 then BitVec.ofNat 64 (sign + a')
    else if 2047 ≤ q' + 1075 then BitVec.ofNat 64 (sign + 2047 * 2 ^ 52)
    else BitVec.ofNat 64 (sign + (q' + 1075).toNat * 2 ^ 52 + (a' - 2 ^ 52))

/-- The binary64 word of a datum; none for a NaN. -/
def Fl.word : Fl → Option Word
  | .nan => none
  | .inf neg => some (BitVec.ofNat 64 (b2n neg * 2 ^ 63 + 2047 * 2 ^ 52))
  | .fin neg m e => some (round64 neg m e)

/-- The datum rounded to binary64. -/
def Fl.rounded : Fl → Fl
  | .fin neg m e => fl64 (round64 neg m e)
  | x => x

/-- The exact product. -/
def Fl.mulExact : Fl → Fl → Fl
  | .nan, _ | _, .nan => .nan
  | .inf a, .inf b => .inf (a != b)
  | .inf a, .fin b m _ => if m = 0 then .nan else .inf (a != b)
  | .fin a m _, .inf b => if m = 0 then .nan else .inf (a != b)
  | .fin a m e, .fin b n f => .fin (a != b) (m * n) (e + f)

/-- Mantissas of two finite data at their common exponent, signed. -/
def alignInts (a : Bool) (m : Nat) (e : Int) (b : Bool) (n : Nat) (f : Int) : Int × Int × Int :=
  let g := min e f
  let x : Int := m * 2 ^ (e - g).toNat
  let y : Int := n * 2 ^ (f - g).toNat
  (if a then -x else x, if b then -y else y, g)

/-- The exact sum; opposite values give +0, and −0 + −0 is −0. -/
def Fl.addExact : Fl → Fl → Fl
  | .nan, _ | _, .nan => .nan
  | .inf a, .inf b => if a = b then .inf a else .nan
  | .inf a, .fin _ _ _ => .inf a
  | .fin _ _ _, .inf b => .inf b
  | .fin a m e, .fin b n f =>
    let t := alignInts a m e b n f
    let z := t.1 + t.2.1
    if z = 0 then .fin (a && b) 0 t.2.2 else .fin (decide (z < 0)) z.natAbs t.2.2

/-- A binary64 multiply (R191). -/
def Fl.mul (a b : Fl) : Fl := (a.mulExact b).rounded
/-- A binary64 add (R191). -/
def Fl.add (a b : Fl) : Fl := (a.addExact b).rounded

/-- The order of two data; false where one is a NaN. -/
def Fl.lt : Fl → Fl → Bool
  | .nan, _ | _, .nan => false
  | .inf a, .inf b => a && !b
  | .inf a, .fin _ _ _ => a
  | .fin _ _ _, .inf b => !b
  | .fin a m e, .fin b n f =>
    let t := alignInts a m e b n f
    decide (t.1 < t.2.1)

/-- An integer as a binary64 datum (R191). -/
def flOfInt (n : Int) : Fl := (Fl.fin (decide (n < 0)) n.natAbs 0).rounded

/-- |v − VALUE| ≤ DEADBAND over the exact difference (R193, R198); where the difference or the deadband is no number the
spec states no result, and a free value answers (log entry 3). -/
def withinDeadband (v old : Word) (deadband : Nat) : Bool :=
  match fl64 v, fl64 old, fl16 deadband with
  | .fin a m e, .fin b n f, .fin dn dm de =>
    let t := alignInts a m e b n f
    let u := alignInts false (t.1 - t.2.1).natAbs t.2.2 dn dm de
    decide (u.1 ≤ u.2.1)
  | .fin _ _ _, .fin _ _ _, .inf neg => !neg
  | .inf a, .inf b, .inf neg => if a = b then Config.deadbandUnordered v old else !neg
  | .inf a, .inf b, .fin _ _ _ => if a = b then Config.deadbandUnordered v old else false
  | .inf _, .fin _ _ _, .inf neg => !neg
  | .fin _ _ _, .inf _, .inf neg => !neg
  | .inf _, .fin _ _ _, .fin _ _ _ => false
  | .fin _ _ _, .inf _, .fin _ _ _ => false
  | _, _, _ => Config.deadbandUnordered v old

/-- v lies below VMIN or above VMAX (R192 step 5). -/
def outOfRange (v : Fl) (vmin vmax : Nat) : Bool := v.lt (fl16 vmin) || (fl16 vmax).lt v

/-- The invalid codes of R192 step 2. -/
def invalidCode (code len raw : Nat) : Bool :=
  let ones := 2 ^ len - 1
  match code with
  | 1 => raw == ones
  | 2 => raw == ones || raw == ones - 1
  | 3 => raw == 2 ^ (len - 1)
  | _ => false

/-- BCD digits of a raw value, most significant first, for len bits. -/
def bcdDigits (len raw : Nat) : List Nat := ((List.range (len / 4)).map (fun i => raw / 16 ^ i % 16)).reverse
/-- The number of BCD digits (R190). -/
def bcdValue (len raw : Nat) : Nat := (bcdDigits len raw).foldl (fun a d => a * 10 + d) 0

/-- The numeric conversions of raw (R190); the class of ENUM and TYPE 7 is not numeric. -/
def convertRaw (ty len raw : Nat) : Fl :=
  match ty with
  | 0 => flOfInt raw
  | 1 => flOfInt (signed len raw)
  | 2 => fl32 raw
  | 3 => flDecode 11 52 raw
  | 4 => flOfInt (bcdValue len raw)
  | 6 => if raw < 2 ^ (len - 1) then flOfInt raw else flOfInt (-((raw - 2 ^ (len - 1) : Nat) : Int))
  | _ => .nan

/-- The order used for a median (R197); where one value is a NaN the spec states no order (log entry 3). -/
def medianLe (a b : Word) : Bool :=
  match fl64 a, fl64 b with
  | .nan, _ | _, .nan => Config.nanOrder a b
  | x, y => !(y.lt x)

/-- A value put into an ascending list. -/
def orderedInsert (v : Word) : List Word → List Word
  | [] => [v]
  | w :: t => if medianLe v w then v :: w :: t else w :: orderedInsert v t

/-- (a + b) × 0.5 in binary64 (R197); a NaN result has a free pattern (log entry 3). -/
def meanWord (a b : Word) : Word :=
  match (((fl64 a).add (fl64 b)).mul (.fin false 1 (-1))).word with
  | some w => w
  | none => Config.nanResult a b

/-- The median of some values (R197). -/
def medianWord (vs : List Word) : Word :=
  let s := vs.foldl (fun t v => orderedInsert v t) []
  let k := s.length
  if k % 2 = 1 then (s[k / 2]?).getD 0 else meanWord ((s[k / 2 - 1]?).getD 0) ((s[k / 2]?).getD 0)

end Sys2Proof.Machine
end

