-- ==== Sys2Proof/Machine/Records.lean ====
section
/-! DEFINITION. Signal records in the Pantry: access, change, commit, votes, page checks, walks, forces, data loss (R189,
R193 to R202, R216, R223 to R225), and the staging of persistent changes (R369 to R371, R374). -/

namespace Sys2Proof.Machine

/-! ## Quality codes (R14) and descriptors (R203) -/

def qNever : Nat := 0
def qFresh : Nat := 1
def qStale : Nat := 2
def qRestored : Nat := 3
def qInvalid : Nat := 4
def qSubstituted : Nat := 5
def qForced : Nat := 6

/-- D1 of a descriptor. -/
abbrev Desc := Word × Word
def Desc.factor (d : Desc) : Nat := d.1.field 32 32
def Desc.offset (d : Desc) : Nat := d.1.field 0 32
def Desc.type (d : Desc) : Nat := d.2.field 61 3
def Desc.policy (d : Desc) : Nat := d.2.field 59 2
def Desc.nsrc (d : Desc) : Nat := d.2.field 57 2
def Desc.pclass (d : Desc) : Nat := d.2.field 55 2
def Desc.invcode (d : Desc) : Nat := d.2.field 53 2
def Desc.minfresh (d : Desc) : Nat := d.2.field 51 2
def Desc.pages (d : Desc) : Nat := d.2.field 48 3
def Desc.deadband (d : Desc) : Nat := d.2.field 32 16
def Desc.vmin (d : Desc) : Nat := d.2.field 16 16
def Desc.vmax (d : Desc) : Nat := d.2.field 0 16
/-- ENUM is the discrete type (R190). -/
def Desc.isEnum (d : Desc) : Bool := d.type == 5

/-! ## Access (R199, R201) -/

/-- Record i. -/
def State.recOf (s : State) (i : Nat) : Rec := Table.get (fun _ => {}) s.scriv.records i
/-- Record i replaced. -/
def State.setRec (s : State) (i : Nat) (r : Rec) : State :=
  { s with scriv := { s.scriv with records := Table.set (fun _ => {}) s.scriv.records i r } }

/-- Ways of a Pantry set in service (R201, R409). -/
def State.pantryWays (s : State) (set : Nat) : Nat := 16 - Table.get (fun _ => 0) s.scriv.retired set

/-- The Pantry line of a record is touched: a hit, or a miss that fills it, least recently used out first (R201). -/
def State.touchLine (s : State) (line : Nat) : State :=
  let set := line % 16384
  let t := Table.get (fun _ => []) s.scriv.pantry set
  let hit := t.contains line
  let t' := (line :: t.filter (fun l => l != line)).take (s.pantryWays set)
  State.count { s with scriv := { s.scriv with pantry := Table.set (fun _ => []) s.scriv.pantry set t' } }
    (if hit then Reg.scrivPantryHits else Reg.scrivPantryMisses)

/-- Line of record i (R201). -/
def lineOf (i : Nat) : Nat := i / 2

/-- The STATE word of a record (R199). -/
def Rec.stateWord (r : Rec) : Word :=
  pack [(32, r.lastWatch), (20, r.pubState), (18, b2n r.hand), (17, b2n r.kept), (16, b2n r.chgEp), (12, r.outvoted),
    (8, r.used), (4, r.cause), (0, r.state)]

/-- Byte at which record i lies in the Larder: the base of the records region, placed when the first table image is loaded,
and 32 i (R29, R199). The spec names no register of the MEM block, which shows the base (log entry 77). -/
def State.recordAddr (s : State) (i : Nat) : Option Nat := s.cellar.capMib.map (fun m => Config.recordsBase m + 32 * i)

/-- The 32 bytes of a record, little-endian (R199). -/
def Rec.bytes (r : Rec) : List Byte := [r.value, r.stamp, r.stateWord, r.pubVal].flatMap (fun w => leBytes 8 w.toNat)

/-! ## Staging for the Cellar (R369 to R371, R374) -/

/-- DDR4 fitted beyond the 4 GiB minimum, in MiB: at most 32 GiB in all (R2, log entry 15). -/
def extraDdr : Nat := min (Config.extraDdrMib ()) 28672

/-- Records that the staging area in DDR4 holds: 3,424 MiB at the 4 GiB minimum, less the capture buffer (R29, R357). -/
def State.stagingRecords (s : State) : Nat :=
  32768 * (3424 + extraDdr - s.cellar.capMib.getD (s.fld Reg.hostCapCtl 0 11))

/-- Records that fill the 256 KiB flush buffer (R370). -/
def flushRecords : Nat := 8192

/-- A record takes the next SEQ (R368). -/
def State.nextSeq (s : State) : State := { s with cellar := { s.cellar with seq := s.cellar.seq + 1 } }

/-- Stage 2 of degradation begins once held records fill half the staging area (R374). -/
def State.dropStage (s : State) : State :=
  if s.cellar.degraded ∧ s.cellar.drop = 1 ∧ s.stagingRecords ≤ 2 * s.cellar.heldRecs.length then
    { s with cellar := { s.cellar with drop := 2 } }
  else s

/-- A journal record staged, with the next SEQ (R368, R370). -/
def State.staged (s : State) (flush heldRecs : List (StoreRec × Nat)) : State :=
  let s := (s.nextSeq).count Reg.cellStaged
  { s with cellar := { s.cellar with flush := flush, heldRecs := heldRecs } }

/-- A changed persistent record is dropped at the stage of R374 that its class has reached, or staged: over the record of
the same signal that still waits, in the flush buffer, or in the staging area as a held record (R370, R371). -/
def State.journalStage (s : State) (i pclass ty : Nat) (r : Rec) : State :=
  let c := s.cellar
  if !(c.st == .starting || c.st == .running) || c.pfail || !(r.state == qFresh || r.state == qSubstituted) then s
  else
    if pclass = 1 ∧ 1 ≤ c.drop then s.count Reg.cellDropC1
    else if pclass = 2 ∧ 2 ≤ c.drop then s.count Reg.cellDropC2
    else if pclass = 3 ∧ 3 ≤ c.drop then s.count Reg.cellDropC3
    else
      let x : StoreRec := { state := r.state, type := ty, pclass := pclass, kind := 1, signal := i, seq := c.seq, value := r.value, stamp := r.stamp }
      if c.flush.any (fun y => y.1.signal == i) then
        let l := c.flush.map (fun (y : StoreRec × Nat) => if y.1.signal = i then (x, y.2) else y)
        (s.staged l c.heldRecs).count Reg.cellCoalesced
      else if !c.degraded && decide (c.flush.length < flushRecords) then s.staged (c.flush ++ [(x, s.time.now)]) c.heldRecs
      else if c.heldRecs.length < s.stagingRecords then (s.staged c.flush (c.heldRecs ++ [(x, s.time.now)])).dropStage
      else if pclass = 3 then
        let s := { s with cellar := { s.cellar with drop := 3, severe := true } }
        (s.count Reg.cellDropC3).unitFault 298 0
      else s.count (if pclass = 1 then Reg.cellDropC1 else Reg.cellDropC2)

/-- A change of record i is passed to the journal writer if its descriptor in the active bank is persistent (R193, R369). -/
def State.journalChange (s : State) (i : Nat) : State :=
  let d : Desc := (s.bank s.gen.activeGen).desc i
  if d.pclass = 0 then s else s.journalStage i d.pclass d.type (s.recOf i)

/-! ## The write budget (R371) -/

/-- What 60 s of budget hold, in millionths of a byte. -/
def State.bucketDepth (s : State) : Int := (60000000000 * s.fld Reg.cellCtl 0 16 : Nat)

/-- The bucket filled up to now at BUDGET kB/s, from START on. -/
def State.fillBucket (s : State) : State :=
  if s.cellar.st = .stopped then s
  else
    let gained : Nat := (s.time.now - s.cellar.tokensAt) * s.fld Reg.cellCtl 0 16
    { s with cellar := { s.cellar with tokens := min s.bucketDepth (s.cellar.tokens + gained), tokensAt := s.time.now } }

/-! ## The Crier's reads (R242, R243, R246) -/

/-- Subscriber ring i. -/
def State.sub (s : State) (i : Nat) : Sub := Table.get (fun _ => {}) s.crier.subs i
/-- Words of a bitmap. -/
def mapWords : Nat := 131072
/-- A bitmap word in force. -/
def State.mapWord (s : State) (i w : Nat) : Word := Table.get (fun _ => 0) s.crier.bitmaps (mapWords * i + w)
/-- Signal n is subscribed on ring i (R237). -/
def State.subscribed (s : State) (i n : Nat) : Bool := (s.mapWord i (n / 64)).bit (n % 64)

/-- A ring that is not STOPPED subscribes signal n, so that the Crier reads its record (R242). -/
def State.crierWants (s : State) (n : Nat) : Bool := (List.range 32).any (fun k => (s.sub k).st != .stopped && s.subscribed k n)

/-- A record read by the Crier in one Pantry access, which releases its cut-time copy (R243). -/
def State.crierRead (s : State) (i : Nat) : State :=
  ((s.touchLine (lineOf i)).setRec i { s.recOf i with kept := false }).count Reg.crierReads

/-- The Crier passes over the next k records of the epoch whose cut has passed: it reads those that it wants, and no longer
needs the cut-time copy of the others. -/
def State.crierTake (s : State) (k : Nat) : State :=
  let l := s.crier.cutSet.take k
  let reads := l.map (fun i => (i, s.recOf i))
  let s := l.foldl (fun s i => if s.crierWants i then s.crierRead i else s.setRec i { s.recOf i with kept := false }) s
  { s with crier := { s.crier with
      cutSet := s.crier.cutSet.drop k, cutRead := s.crier.cutRead + l.length, readRecs := s.crier.readRecs ++ reads } }

/-- What the Crier has read by now, at 64 M records a second from the cut on (R246, log entry 19). -/
def State.crierCatchUp (s : State) : State :=
  let due := (1000 * (s.time.now - s.crier.cutAt) + 15624) / 15625
  if s.crier.cutSet.isEmpty || due ≤ s.crier.cutRead then s else s.crierTake (due - s.crier.cutRead)

/-! ## Changes (R17, R194) -/

/-- The cut of the current epoch has occurred at this very instant: what commits now still belongs to its epoch (R17). -/
def State.atCut (s : State) : Bool := s.gen.cutDone && s.gen.st != .stopped && s.crier.cutAt == s.time.now

/-- Number of the epoch that a change now belongs to (R17, R50). -/
def State.changeEpoch (s : State) : Word :=
  if s.gen.st == .stopped || (s.gen.cutDone && !s.atCut) then s.gen.epochNum + 1 else s.gen.epochNum

/-- Record i joins the set of the epoch that a change now belongs to: after the cut, at its very instant, the set that the
Crier is about to read (R17). -/
def State.joinSet (s : State) (i : Nat) : State :=
  if s.atCut then { s with crier := { s.crier with cutSet := setInsert i s.crier.cutSet } }
  else { s with crier := { s.crier with changed := setInsert i s.crier.changed } }

/-- A record change: a copy of the cut-time value is kept where the Crier has still to read it (R194), and the record
joins the epoch's set (R17). -/
def State.changeRec (s : State) (i : Nat) (r : Rec) : State :=
  let old := s.recOf i
  let keep := s.crier.cutSet.contains i && !old.kept && !s.atCut
  let r := { r with
    pubVal := if keep then old.value else old.pubVal, pubState := if keep then old.state else old.pubState
    kept := old.kept || keep, chgEp := s.changeEpoch.bit 0 }
  (s.setRec i r).joinSet i

/-- A record written, as a change or not; a change of a persistent signal goes to the Cellar. -/
def State.writeRec (s : State) (i : Nat) (change : Bool) (r : Rec) : State :=
  if change then (s.changeRec i r).journalChange i else s.setRec i r

/-! ## Votes (R195 to R198) -/

/-- The result of a vote: value, time, quality, cause, sources used and outvoted, and whether VALUE and STAMP are kept. -/
structure Vote where
  value    : Word
  time     : Word
  quality  : Nat
  cause    : Nat
  used     : Nat
  outvoted : Nat
  kept     : Bool
deriving DecidableEq, Repr

/-- A usable source (R197). -/
def Rec.usable (r : Rec) : Bool := r.state == qFresh || r.state == qForced

/-- Bits of the sources in a list of (source number, record). -/
def srcBits (l : List (Nat × Rec)) : Nat := (l.map (fun x => 2 ^ x.1)).sum

/-- The oldest STAMP among some sources. -/
def oldest (l : List (Nat × Rec)) : Word :=
  match l with
  | [] => 0
  | x :: t => t.foldl (fun m y => if y.2.stamp.toNat < m.toNat then y.2.stamp else m) x.2.stamp

/-- FORCED where a source used is FORCED (R197). -/
def forcedBy (l : List (Nat × Rec)) (q : Nat) : Nat := if l.any (fun x => x.2.state == qForced) then qForced else q

/-- Sources of an agreed value: two or more usable sources with equal VALUE (R197). -/
def agreeing (l : List (Nat × Rec)) : List (Nat × Rec) :=
  match l.find? (fun x => 2 ≤ (l.filter (fun y => y.2.value == x.2.value)).length) with
  | some x => l.filter (fun y => y.2.value == x.2.value)
  | none => []

/-- The vote over sources numbered from 0 (R197). -/
def voteResult (policy minfresh : Nat) (srcs : List (Nat × Rec)) : Vote :=
  let ok := srcs.filter (fun x => x.2.usable)
  match ok with
  | [] =>
    match srcs.find? (fun x => x.2.state != qNever) with
    | some x => { value := x.2.value, time := x.2.stamp, quality := x.2.state, cause := x.2.cause, used := 2 ^ x.1, outvoted := 0, kept := false }
    | none => { value := 0, time := 0, quality := qNever, cause := 0, used := 0, outvoted := 0, kept := false }
  | x :: t =>
    if policy = 0 then
      { value := x.2.value, time := x.2.stamp, quality := forcedBy [x] (if x.1 = 0 then qFresh else qSubstituted), cause := 0
        used := 2 ^ x.1, outvoted := 0, kept := false }
    else if policy = 1 then
      if t = [] then
        { value := x.2.value, time := x.2.stamp, quality := forcedBy [x] qSubstituted, cause := 0, used := 2 ^ x.1, outvoted := 0, kept := false }
      else
        let a := agreeing ok
        match a with
        | [] => { value := 0, time := 0, quality := qInvalid, cause := 6, used := srcBits ok, outvoted := 0, kept := true }
        | y :: _ => { value := y.2.value, time := oldest a, quality := forcedBy a qFresh, cause := 0, used := srcBits a
                      outvoted := srcBits ok - srcBits a, kept := false }
    else
      { value := medianWord (ok.map (fun x => x.2.value)), time := oldest ok
        quality := forcedBy ok (if minfresh + 1 ≤ ok.length then qFresh else qSubstituted), cause := 0
        used := srcBits ok, outvoted := 0, kept := false }

/-- Number of bits set among the four source bits. -/
def bits4 (n : Nat) : Nat := n % 2 + n / 2 % 2 + n / 4 % 2 + n / 8 % 2

/-- |v − VALUE| ≤ DEADBAND, raw equality for ENUM (R193, R198). -/
def Desc.within (d : Desc) (v old : Word) : Bool := if d.isEnum then v == old else withinDeadband v old d.deadband

/-- The vote result applied to V (R198). -/
def State.applyVote (s : State) (v w : Nat) (d : Desc) (x : Vote) : State :=
  let r := s.recOf v
  let moved := r.used != x.used || r.outvoted != x.outvoted
  let base := { r with used := x.used, outvoted := x.outvoted, lastWatch := w }
  let s := (s.countN Reg.scrivOutvoted (bits4 x.outvoted)).countIf x.kept Reg.scrivNoMajority
  let live := x.quality == qFresh || x.quality == qSubstituted || x.quality == qForced
  if r.state = qForced ∧ r.hand then (s.writeRec v moved base).count Reg.scrivForcedKept
  else if x.kept then
    s.writeRec v (moved || r.state != qInvalid || r.cause != 6) { base with state := qInvalid, cause := 6, hand := false }
  else if live ∧ x.used ≠ 0 then
    if r.state = x.quality ∧ d.within x.value r.value then
      (s.writeRec v moved { base with stamp := x.time }).count Reg.scrivDeadbandHeld
    else s.writeRec v true { base with value := x.value, stamp := x.time, state := x.quality, cause := 0, hand := false }
  else
    let ch := moved || r.value != x.value || r.stamp != x.time || r.state != x.quality || r.cause != x.cause
    s.writeRec v ch { base with value := x.value, stamp := x.time, state := x.quality, cause := x.cause, hand := false }

/-- The vote of record V evaluated with the descriptors of a bank (R196, R197). The group's four lines are read. -/
def State.evalVote (s : State) (g : Bool) (v w : Nat) : State :=
  let d : Desc := (s.bank g).desc v
  let n := d.nsrc + 1
  let srcs := (List.range n).map (fun k => (k, s.recOf (v + 1 + k)))
  let s := (List.range ((n + 2) / 2)).foldl (fun s k => s.touchLine (lineOf v + k)) s
  let x := voteResult d.policy d.minfresh srcs
  s.applyVote v w d x

/-- A change to a record re-evaluates the vote that it is a source of (R196). -/
def State.revote (s : State) (g : Bool) (i w : Nat) : State :=
  let v := i - i % 8
  let d : Desc := (s.bank g).desc v
  if i ≠ v ∧ d.nsrc ≠ 0 ∧ i - v ≤ d.nsrc + 1 then s.evalVote g v w else s

/-! ## Commits, page checks, walks (R189, R193, R216) -/

/-- The counter of an INVALID result's cause (R192). -/
def causeReg (cause : Nat) : Option Nat :=
  match cause with
  | 1 => some Reg.scrivInvCode
  | 2 => some Reg.scrivOutRange
  | 3 => some Reg.scrivNotNumber
  | 4 => some Reg.scrivBadBcd
  | 5 => some Reg.scrivShortData
  | _ => none

/-- A result committed to a plain record (R192, R193): cause 0 is a FRESH result. -/
def State.commitResult (s : State) (g : Bool) (i w : Nat) (v : Word) (cause : Nat) (t : Word) : State :=
  let s := (s.crierCatchUp.touchLine (lineOf i)).countOpt (causeReg cause)
  let r := s.recOf i
  let d : Desc := (s.bank g).desc i
  if r.state = qForced then s.countIf r.hand Reg.scrivForcedKept
  else
    let s := if cause ≠ 0 then
        s.writeRec i (r.state != qInvalid || r.cause != cause) { r with state := qInvalid, cause := cause, lastWatch := w }
      else if r.state = qFresh ∧ d.within v r.value then
        (s.setRec i { r with stamp := t, lastWatch := w }).count Reg.scrivDeadbandHeld
      else s.writeRec i true { r with value := v, stamp := t, state := qFresh, cause := 0, lastWatch := w }
    s.revote g i w

/-- The page check of a skipped op (R189). -/
def State.pageCheck (s : State) (g : Bool) (i w : Nat) (e : WatchEntry) (t : Word) : State :=
  let s := s.crierCatchUp.touchLine (lineOf i)
  let r := s.recOf i
  let d : Desc := (s.bank g).desc i
  let limit := d.pages * (e.period + e.grace) * tunitNs e.tunit
  if (r.state = qFresh ∨ r.state = qSubstituted ∨ r.state = qRestored) ∧ r.stamp.toNat + limit < t.toNat then
    ((s.writeRec i true { r with state := qStale, cause := 8 }).count Reg.scrivPageStale).revote g i w
  else s

/-- A walk applied to a record (R216). -/
def State.walkRecord (s : State) (k : Walk) (i : Nat) : State :=
  let s := s.crierCatchUp.touchLine (lineOf i)
  let r := s.recOf i
  let own := r.lastWatch == k.watch
  let hit := match k.kind with
    | .deadline => (r.state == qFresh || r.state == qInvalid) && own && decide (r.stamp.toNat ≤ k.cutoff.toNat)
    | .floor => r.state == qFresh && own && decide (r.stamp.toNat < k.cutoff.toNat)
    | .retire => (r.state == qFresh || r.state == qInvalid) && own
  if hit then ((s.writeRec i true { r with state := qStale, cause := 0 }).count Reg.watchWalkRecords).revote k.gen i k.watch
  else s

/-! ## Forces, resets, loss (R200, R202, R204, R224, R225) -/

/-- A record forced to a value (R224). -/
def State.forceRec (s : State) (i : Nat) (v : Word) : State :=
  let s := s.crierCatchUp.touchLine (lineOf i)
  let r := s.recOf i
  let s := s.writeRec i true { r with value := v, stamp := s.tai, state := qForced, cause := 0, hand := true }
  (s.revote s.gen.activeGen i r.lastWatch).count Reg.watchForces

/-- A FORCED record released (R225), by command or by its vote: STALE for a plain record, a vote at once for V. -/
def State.releaseRec (s : State) (i : Nat) : State :=
  let s := s.crierCatchUp
  let r := s.recOf i
  if r.state ≠ qForced then s
  else
    let s := s.touchLine (lineOf i)
    let g := s.gen.activeGen
    let d : Desc := (s.bank g).desc i
    let s := if d.nsrc ≠ 0 then (s.setRec i { r with hand := false }).evalVote g i r.lastWatch
      else (s.writeRec i true { r with state := qStale, cause := 0, hand := false }).revote g i r.lastWatch
    s.count Reg.watchReleases

/-- A record reset by a descriptor with INIT = 1 (R204). -/
def State.initRec (s : State) (i : Nat) : State :=
  let s := s.crierCatchUp.touchLine (lineOf i)
  let r := s.recOf i
  (s.writeRec i true { r with
    value := 0, stamp := 0, state := qNever, cause := 0, lastWatch := 0, hand := false, used := 0, outvoted := 0 }).revote
    s.gen.activeGen i 0

/-- A record made INVALID with cause LOST, its words as read (R202). The loss takes a cut-time copy with it: an epoch whose
set the Crier has still to read publishes the record as INVALID (R21). -/
def State.loseRec (s : State) (i : Nat) (v t : Word) : State :=
  let s := s.crierCatchUp
  let r := s.recOf i
  let s := s.writeRec i true { r with value := v, stamp := t, state := qInvalid, cause := 7, hand := false }
  (s.setRec i { s.recOf i with kept := false }).revote s.gen.activeGen i r.lastWatch

/-- A stored value restored into a record that is NEVER (R223, R387). -/
def State.restoreRec (s : State) (i : Nat) (v t : Word) : State :=
  let s := s.crierCatchUp.touchLine (lineOf i)
  let r := s.recOf i
  if r.state ≠ qNever then s
  else (s.writeRec i true { r with value := v, stamp := t, state := qRestored, cause := 0, lastWatch := 0 }).revote s.gen.activeGen i 0

end Sys2Proof.Machine
end

