-- ==== Sys2Proof/Machine/Nand.lean ====
section
/-! DEFINITION. The Cellar's NAND: its geometry, what a page holds, blocks and their roles, the root copies, and the care of
the media (R362 to R367, R376 to R380). -/

namespace Sys2Proof

/-! ## Geometry (R362 to R364, R382) -/

/-- Data page in bytes. -/
def NandGeometry.pageBytes (g : NandGeometry) : Nat := 4096 * 2 ^ g.pageCode
/-- Records of a page (R365). -/
def NandGeometry.perPage (g : NandGeometry) : Nat := (g.pageBytes - 64) / 32
/-- Targets present. -/
def NandGeometry.nTargets (g : NandGeometry) : Nat := ((List.range 8).filter g.targets.testBit).length
/-- Blocks over all targets. -/
def NandGeometry.total (g : NandGeometry) : Nat := g.nTargets * g.blocks
/-- Bound of the power-fail flush in µs (R382). -/
def NandGeometry.flushUs (g : NandGeometry) : Nat :=
  ((262144 + g.pageBytes * g.nTargets - 1) / (g.pageBytes * g.nTargets) + 2) * g.tprogUs + 300
/-- The checkpoint reserve in blocks: a checkpoint of every signal (R364). -/
def NandGeometry.reserve (g : NandGeometry) : Nat :=
  ((8388608 + g.perPage - 1) / g.perPage + g.pages - 1) / g.pages
/-- Blocks that are roots: block 0 of chip enable 0 on each channel. -/
def NandGeometry.roots (g : NandGeometry) : List Nat :=
  (if g.targets.testBit 0 then [0] else []) ++
  (if g.targets.testBit 4 then [((List.range 4).filter g.targets.testBit).length * g.blocks] else [])
/-- A limit of R362 is broken: one to four targets on each channel, one to four LUNs, spare bytes for the code, program time,
at most 2 TiB raw, and at least 2 GiB and 1,024 blocks in SLC mode. -/
def NandGeometry.broken (g : NandGeometry) : Bool :=
  !g.uniform || decide (g.targets / 16 = 0 ∨ g.luns = 0 ∨ 4 < g.luns ∨ 2 < g.pageCode ∨
    g.spare < 2 + 225 * (g.pageBytes / 2048) ∨ 1000 < g.tprogUs ∨ 2097152 < g.rawMib ∨ g.blocks = 0 ∨ g.pages = 0 ∨
    g.total < 1024 ∨ g.total * g.pages * g.pageBytes < 2 ^ 31)
/-- Bad blocks leave too few good ones (R362, R385). -/
def NandGeometry.short (g : NandGeometry) (bad : List Nat) : Bool :=
  decide (g.total - bad.length < 1024 ∨ g.total - bad.length < g.roots.length + 2 * g.reserve + 2 * g.nTargets)

end Sys2Proof

namespace Sys2Proof.Machine

/-- Why a START or a FORMAT fails at identification (R362, R385): 1 NO_MEDIA, 3 GEOMETRY, 6 SLC, which the configuration
record enters or not (R450); 0 where it does not. -/
def State.identify (s : State) (g : NandGeometry) : Nat :=
  if !g.targets.testBit 0 then 1 else if g.broken then 3 else if s.sys.config.slcEn && !g.slcOk then 6 else 0

/-! ## Pages and records (R365, R366, R376) -/

/-- The four words of a record (R366). -/
def StoreRec.words (r : StoreRec) : List Word :=
  [pack [(32, r.state), (29, r.type), (27, r.pclass), (24, r.kind), (0, r.signal)], BitVec.ofNat 64 r.seq, r.value, r.stamp]

/-- The 32 bytes of a record. -/
def StoreRec.bytes (r : StoreRec) : List Byte := r.words.flatMap (fun w => leBytes 8 w.toNat)

/-- The page header without its CRC (R365). -/
def StorePage.header (p : StorePage) : List Byte :=
  leBytes 4 0x4C454343 ++ leBytes 1 p.area ++ leBytes 1 (b2n p.sealPage) ++ leBytes 2 p.recs.length ++ leBytes 4 p.erases ++
  leBytes 4 0 ++ leBytes 8 p.ckptId ++ leBytes 8 ((p.recs.head?.map (·.seq)).getD 0) ++
  leBytes 8 ((p.recs.getLast?.map (·.seq)).getD 0) ++ leBytes 8 p.markSeq ++ leBytes 8 p.nrec ++ leBytes 4 0

/-- The data bytes of a page (R365): header, CRC, and records with all ones after them, or a root's body. -/
def StorePage.bytes (p : StorePage) (g : NandGeometry) : List Byte :=
  let recs := p.recs.flatMap StoreRec.bytes
  let rest := g.pageBytes - 64 - recs.length
  let body := match p.root with
    | some b => (List.range rest).map (Config.rootByte b.number)
    | none => List.replicate rest 0xFF
  p.header ++ leBytes 4 (crc32c (p.header ++ recs)).toNat ++ recs ++ body

/-- The spare area of a page: two bytes 0xFF, and the parity of each codeword of 2 KiB (R376). -/
def spareBytes (g : NandGeometry) (data : List Byte) : List Byte :=
  [0xFF, 0xFF] ++ (List.range (g.pageBytes / 2048)).flatMap (fun k =>
    (List.range 225).map (Config.bchByte ((data.drop (2048 * k)).take 2048)))

/-- A page of records. -/
def storePage (area ckptId : Nat) (sealPage : Bool) (markSeq nrec : Nat) (recs : List StoreRec) : StorePage :=
  { area := area, sealPage := sealPage, ckptId := ckptId, markSeq := markSeq, nrec := nrec, recs := recs }

/-! ## The store -/

/-- Good blocks. -/
def Store.good (st : Store) (g : NandGeometry) : Nat := g.total - st.bad.length
/-- The most blocks the journal may hold (R364): JMAX. -/
def Store.jmax (st : Store) (g : NandGeometry) : Nat := st.good g - g.roots.length - 2 * g.reserve - 2 * g.nTargets

/-- Block b of the store. -/
def Store.block (st : Store) (b : Nat) : Block := Table.get (fun _ => {}) st.blocks b
/-- Block b of the store changed. -/
def Store.modBlock (st : Store) (b : Nat) (f : Block → Block) : Store :=
  { st with blocks := Table.set (fun _ => {}) st.blocks b (f (st.block b)) }
/-- Numbers of the blocks of a role. -/
def Store.withRole (st : Store) (r : BlockRole) : List Nat :=
  (st.blocks.filter (fun (x : Nat × Block) => x.2.role == r)).map (·.1)
/-- Numbers of the blocks that hold pages in use: roots, checkpoints and the journal. -/
def Store.inUse (st : Store) : List Nat :=
  (st.blocks.filter (fun (x : Nat × Block) =>
    x.2.role == .root || x.2.role == .checkpoint || x.2.role == .journal)).map (·.1)
/-- A block that may be allocated. -/
def Store.isFree (st : Store) (g : NandGeometry) (b : Nat) : Bool :=
  decide ((st.block b).role = .free) && !st.bad.contains b && !g.roots.contains b
/-- Root copies that have not turned BAD. -/
def Store.goodRoots (st : Store) (g : NandGeometry) : List Nat := g.roots.filter (fun b => !st.bad.contains b)
/-- FREE: free blocks. -/
def Store.freeBlocks (st : Store) (g : NandGeometry) : Nat :=
  st.good g - (st.goodRoots g).length - (st.withRole .journal).length - (st.withRole .checkpoint).length
/-- Erase count of block b. -/
def Store.eraseCount (st : Store) (b : Nat) : Nat := st.baseErases + (st.block b).erases
/-- Erased free blocks of a target. -/
def Store.readyCount (st : Store) (g : NandGeometry) (t : Nat) : Nat :=
  let held := (st.blocks.filter (fun (x : Nat × Block) => !(x.2.role == .free && x.2.pages.isEmpty))).map (·.1)
  g.blocks - (((held ++ st.bad ++ g.roots).filter (fun b => b / g.blocks == t)).foldl (fun l b => setInsert b l) []).length

/-- The Cellar's store changed. -/
def State.modStore (s : State) (f : Store → Store) : State :=
  { s with cellar := { s.cellar with store := f s.cellar.store } }

/-- The Cellar's severe fault source (R374, R377). -/
def State.cellarSevere (s : State) : State :=
  State.unitFault { s with cellar := { s.cellar with severe := true } } 298 0

/-- A command of the Cellar during which erases and programs fail on some blocks. -/
def State.withFailing (s : State) (failing : List Nat) (run : State → State) : State :=
  let t := run { s with cellar := { s.cellar with failing := failing } }
  { t with cellar := { t.cellar with failing := [] } }

/-- A page is programmed in a block and lies there after its pages (R365). -/
def State.putPage (s : State) (g : NandGeometry) (b : Nat) (p : StorePage) : State :=
  let p := { p with erases := s.cellar.store.eraseCount b }
  let at' := (s.cellar.store.block b).pages.length
  let data := p.bytes g
  State.emit (s.modStore (fun st => { (st.modBlock b (fun k => { k with pages := k.pages ++ [p] })) with
    lastPages := Table.insert (b / g.blocks) (b, at') st.lastPages })) (.nandPage b at' data (spareBytes g data))

/-! ## Blocks (R364, R377, R378) -/

/-- The one of a list of blocks with the lowest erase count, the first among equals. -/
def Store.lowest (st : Store) (l : List Nat) : Option Nat :=
  l.foldl (fun a b =>
    match a with
    | none => some b
    | some x => if (st.block b).erases < (st.block x).erases then some b else a) none

/-- The one of a list of blocks with the highest erase count, the first among equals. -/
def Store.highest (st : Store) (l : List Nat) : Option Nat :=
  l.foldl (fun a b =>
    match a with
    | none => some b
    | some x => if (st.block x).erases < (st.block b).erases then some b else a) none

/-- The free block of a target with the lowest erase count. -/
def Store.pickBlock (st : Store) (g : NandGeometry) (t : Nat) : Option Nat :=
  st.lowest (((List.range g.blocks).map (fun k => t * g.blocks + k)).filter (st.isFree g))

/-- The first of a list of targets that has a free block, with that block. -/
def Store.pickTarget (st : Store) (g : NandGeometry) : List Nat → Option Nat
  | [] => none
  | t :: ts =>
    match st.pickBlock g t with
    | some b => some b
    | none => Store.pickTarget st g ts

/-- Targets in turn from a place on. -/
def turns (n from' : Nat) : List Nat := (List.range n).map (fun i => (from' + i) % n)

/-- A block turns BAD, grown or worn; good blocks that no longer cover the roles raise the severe source (R377). -/
def State.badBlock (s : State) (g : NandGeometry) (b : Nat) (worn : Bool) : State :=
  let s := s.modStore (fun st => { (st.modBlock b (fun k => { k with role := .bad, pages := [] })) with bad := setInsert b st.bad })
  let s := s.count (if worn then Reg.cellWorn else Reg.cellGrownBad)
  let st := s.cellar.store
  if (st.goodRoots g).length < g.roots.length ∨ st.good g < g.roots.length + 2 * g.reserve + 2 * g.nTargets then s.cellarSevere
  else s

/-- A block is erased. One whose erase fails turns BAD, and one whose erase count reaches PE_LIMIT is worn (R377, R379). -/
def State.eraseBlock (s : State) (g : NandGeometry) (b : Nat) : State :=
  if s.cellar.failing.contains b then s.badBlock g b false
  else
    let s := (s.modStore (fun st => st.modBlock b (fun k => { k with erases := k.erases + 1, reads := 0, pages := [] }))).count Reg.cellErases
    if s.fld Reg.cellMedia 47 17 ≤ s.cellar.store.eraseCount b then s.badBlock g b true else s

/-- A free block takes a role, erased first where it still holds pages; none where it turns BAD, or where its program is to
fail. -/
def State.claimBlock (s : State) (g : NandGeometry) (role : BlockRole) (b : Nat) : State × Bool :=
  let s := if (s.cellar.store.block b).pages = [] then s else s.eraseBlock g b
  if s.cellar.store.bad.contains b then (s, false)
  else if s.cellar.failing.contains b then (s.badBlock g b false, false)
  else (s.modStore (fun st => st.modBlock b (fun k => { k with role := role })), true)

/-- A free block of the targets in turn is taken for a role, the next one where it fails (R378). -/
def State.takeBlock (s : State) (g : NandGeometry) (role : BlockRole) (from' : Nat) : Nat → State × Option Nat
  | 0 => (s, none)
  | n + 1 =>
    match s.cellar.store.pickTarget g (turns g.nTargets from') with
    | none => (s, none)
    | some b =>
      let x := s.claimBlock g role b
      if x.2 then (x.1, some b) else State.takeBlock x.1 g role from' n

/-- Two erased blocks of each target are kept ready (R364). -/
def State.readyTarget (s : State) (g : NandGeometry) (t : Nat) : Nat → State
  | 0 => s
  | n + 1 =>
    let st := s.cellar.store
    if 2 ≤ st.readyCount g t then s
    else match st.lowest ((st.blocks.filter (fun (x : Nat × Block) =>
        x.1 / g.blocks == t && st.isFree g x.1 && !x.2.pages.isEmpty)).map (·.1)) with
      | none => s
      | some b => State.readyTarget (s.eraseBlock g b) g t n

/-- Two erased blocks of every target are kept ready. -/
def State.readyBlocks (s : State) (g : NandGeometry) : State :=
  (List.range g.nTargets).foldl (fun s t => s.readyTarget g t (s.cellar.store.blocks.length + 1)) s

/-! ## Root copies (R364, R386) -/

/-- The newest root page of a copy. -/
def Store.rootOf (st : Store) (b : Nat) : Option RootBody := ((st.block b).pages.getLast?).bind (·.root)

/-- Number of the newest root page of a copy, 0 for none. -/
def Store.rootNumber (st : Store) (b : Nat) : Nat := ((st.rootOf b).map (·.number)).getD 0

/-- The older of some copies, the first among equals. -/
def Store.olderRoot (st : Store) (copies : List Nat) : Option Nat :=
  copies.foldl (fun a b =>
    match a with
    | none => some b
    | some x => if st.rootNumber b < st.rootNumber x then some b else a) none

/-- The newer valid root among some copies. -/
def Store.newestRoot (st : Store) (copies : List Nat) : Option RootBody :=
  copies.foldl (fun a b =>
    match a, st.rootOf b with
    | some x, some y => if x.number < y.number then some y else some x
    | none, y => y
    | x, none => x) none

/-- The root as it stands: the format record, the bad blocks, the counts, PE_LIMIT, the SLC entry and the newest sealed
checkpoint. -/
def State.rootBody (s : State) (g : NandGeometry) : RootBody :=
  let st := s.cellar.store
  { number := (g.roots.map st.rootNumber).foldl max 0 + 1, bad := st.bad
    counts := st.blocks.map (fun (x : Nat × Block) => (x.1, (x.2.erases, x.2.reads)))
    baseErases := st.baseErases, peLimit := s.fld Reg.cellMedia 47 17
    slcEn := s.sys.config.slcEn, slcFa := s.sys.config.slcFa, slcP := s.sys.config.slcP
    sealedId := st.sealedId, sealedTai := st.sealedTai, mark := st.mark
    ckptBlocks := (st.withRole .checkpoint).filter (fun b => (st.block b).pages.any (fun p => p.ckptId == st.sealedId)) }

/-- A root page is programmed in copy b. -/
def State.putRoot (s : State) (g : NandGeometry) (b : Nat) : State :=
  (s.modStore (fun st => st.modBlock b (fun k => { k with role := .root }))).putPage g b
    { storePage 1 s.cellar.store.sealedId false s.cellar.store.mark 0 [] with root := some (s.rootBody g) }

/-- The copies are updated in turn: the older one takes the next page, erased first where it is full and the other copy holds
the current root. A copy that fails turns BAD, and the other is updated (R364, R377). -/
def State.updateRoot (s : State) (g : NandGeometry) : Nat → State
  | 0 => s
  | n + 1 =>
    let st := s.cellar.store
    match st.olderRoot (st.goodRoots g) with
    | none => s
    | some b =>
      if s.cellar.failing.contains b then State.updateRoot (s.badBlock g b false) g n
      else if (st.block b).pages.length < g.pages then s.putRoot g b
      else if (st.goodRoots g).any (fun o => decide (st.rootNumber b < st.rootNumber o)) then
        let s := s.eraseBlock g b
        if s.cellar.store.bad.contains b then State.updateRoot s g n else s.putRoot g b
      else s

/-- The root is updated when its bad blocks or its newest sealed checkpoint are no longer those of the store (log entry 90). -/
def State.refreshRoot (s : State) (g : NandGeometry) : State :=
  let st := s.cellar.store
  match st.newestRoot (st.goodRoots g) with
  | some r => if r.bad = st.bad ∧ r.sealedId = st.sealedId then s else s.updateRoot g 3
  | none => s.updateRoot g 3

/-- A copy is rewritten: the current root goes to the other copy, and then to this one, erased (R379, R380, log entry 90). -/
def State.rewriteRoot (s : State) (g : NandGeometry) (b : Nat) : State :=
  let st := s.cellar.store
  if (st.goodRoots g).any (fun o => decide (o ≠ b)) then
    let s := if (g.roots.map st.rootNumber).foldl max 0 = st.rootNumber b then s.updateRoot g 3 else s
    let s := s.eraseBlock g b
    if s.cellar.store.bad.contains b then s else s.putRoot g b
  else s

/-! ## Reads and moves (R376 to R380) -/

/-- A codeword of a page is lost, and with the CRC every codeword. -/
def PageRead.loses (r : Sys2Proof.PageRead) (k : Nat) : Bool := r.crcBad || (((r.words[k]?).map (·.lost)).getD false)

/-- A page is uncorrectable in some codeword, or its CRC fails. -/
def PageRead.fails (r : Sys2Proof.PageRead) : Bool := r.crcBad || r.words.any (·.lost)

/-- The records of a page that a read keeps: record k lies in the codeword of its bytes (R365, R376). -/
def StorePage.kept (p : StorePage) (r : Sys2Proof.PageRead) : StorePage :=
  { p with recs := ((List.range p.recs.length).zip p.recs).filterMap (fun (x : Nat × StoreRec) =>
      if PageRead.loses r ((64 + 32 * x.1) / 2048) then none else some x.2) }

/-- A page of a block is read: the block's reads, corrections, retries, and lost codewords with the media fault source. -/
def State.readPage (s : State) (b : Nat) (r : Sys2Proof.PageRead) : State :=
  let s := s.modStore (fun st => st.modBlock b (fun k => { k with reads := k.reads + 1 }))
  let s := s.countN Reg.cellEccCorr (r.words.filter (fun w => !w.lost && decide (0 < w.bits))).length
  let s := s.countN Reg.cellRetries (r.words.map (·.retries)).sum
  let lost := (r.words.filter (·.lost)).length
  if PageRead.fails r then (s.countN Reg.cellEccFail (max lost 1)).unitFault 297 0 else s

/-- A program under way in a block goes on in the block that took its pages. -/
def State.redirect (s : State) (b n : Nat) : State :=
  { s with cellar := { s.cellar with program := s.cellar.program.map (fun q => if q.block = b then { q with block := n } else q) } }

/-- Pages of block b are read and programmed in block n, byte for byte but for ERASES and CRC (R365). -/
def State.copyPages (s : State) (g : NandGeometry) (b n : Nat) (pages : List StorePage) : State :=
  (pages.foldl (fun s p => s.putPage g n p)
    (s.modStore (fun st => st.modBlock b (fun k => { k with reads := k.reads + pages.length })))).redirect b n

/-- A block turns BAD and its valid pages go to another block of the same role; where none is free they are lost (R377). -/
def State.retireBlock (s : State) (g : NandGeometry) (b : Nat) (pages : List StorePage) : State :=
  let role := (s.cellar.store.block b).role
  let s := s.badBlock g b false
  if pages = [] ∨ role = .root then s
  else match s.takeBlock g role (b / g.blocks) g.total with
    | (s, some n) => s.copyPages g b n pages
    | (s, none) => s.cellarSevere

/-- Block b's pages have moved to block n, and it awaits erase. -/
def State.moveTo (s : State) (g : NandGeometry) (b n : Nat) : State :=
  (s.copyPages g b n (s.cellar.store.block b).pages).modStore (fun st => st.modBlock b (fun k => { k with role := .free }))

/-- A block's valid pages are relocated (R379, R380): a root is rewritten, and a block stays where no other is free. -/
def State.moveBlock (s : State) (g : NandGeometry) (b : Nat) : State :=
  let role := (s.cellar.store.block b).role
  if role = .root then s.rewriteRoot g b
  else match s.takeBlock g role (b / g.blocks) g.total with
    | (s, some n) => s.moveTo g b n
    | (s, none) => s

/-- A block that has reached DISTURB_K × 1,000 reads moves (R379). -/
def State.disturbCheck (s : State) (g : NandGeometry) (b : Nat) : State :=
  if 1000 * s.fld Reg.cellMedia 0 8 ≤ (s.cellar.store.block b).reads then (s.moveBlock g b).count Reg.cellDisturbMoves else s

/-- Every block in use is held against the disturb limit, two erased blocks per target are ready, and the root is current. -/
def State.settleNand (s : State) (g : NandGeometry) : State :=
  ((s.cellar.store.inUse.foldl (fun s b => s.disturbCheck g b) s).readyBlocks g).refreshRoot g

/-- Static wear levelling (R378): when erase counts of good blocks differ by more than WL_SPREAD, the in-use block with the
lowest count moves into the free block with the highest. -/
def State.levelWear (s : State) (g : NandGeometry) : State :=
  let st := s.cellar.store
  let good := st.blocks.filter (fun (x : Nat × Block) => !st.bad.contains x.1)
  let most := (good.map (fun (x : Nat × Block) => x.2.erases)).foldl max 0
  let least := if good.length < st.good g then 0 else (good.map (fun (x : Nat × Block) => x.2.erases)).foldl min most
  let used := (st.withRole .journal ++ st.withRole .checkpoint).filter (fun b => s.cellar.program.all (fun q => q.block != b))
  let free := (good.filter (fun (x : Nat × Block) => st.isFree g x.1)).map (·.1)
  if most - least ≤ s.fld Reg.cellMedia 32 14 then s
  else match st.lowest used, st.highest free with
    | some b, some n =>
      let x := s.claimBlock g (st.block b).role n
      if x.2 then ((x.1.moveTo g b n).count Reg.cellWlMoves).settleNand g else x.1
    | _, _ => s

end Sys2Proof.Machine
end

