-- ==== Sys2Proof/Machine/Cellar.lean ====
section
/-! DEFINITION. The Cellar: the journal writer and its budget, checkpoints, the power-fail flush, start, stop and restore
(R367 to R374, R380 to R388). -/

namespace Sys2Proof.Machine

/-! ## Budget (R371) -/

/-- A page's bytes leave the bucket; an entry into overdraft raises the Cellar source. -/
def State.spend (s : State) (bytes : Nat) : State :=
  let was := s.cellar.tokens
  let s := { s with cellar := { s.cellar with tokens := was - 1000000 * bytes } }
  s.raiseIf (decide (0 ≤ was ∧ was < 1000000 * bytes)) 8

/-! ## Places and the flush buffer -/

/-- The open block of a role on a target: programmed in part, and for a checkpoint with pages of that checkpoint only. -/
def Store.openBlock (st : Store) (g : NandGeometry) (role : BlockRole) (ckptId t : Nat) : Option Nat :=
  (st.withRole role).find? (fun b => b / g.blocks == t && decide ((st.block b).pages.length < g.pages) &&
    (role == .journal || (st.block b).pages.all (fun p => p.ckptId == ckptId)))

/-- Where the next page of a role goes: the next target's open block, or a block taken for it. -/
def State.nextPlace (s : State) (g : NandGeometry) (role : BlockRole) (ckptId : Nat) : State × Option Nat :=
  let t := s.cellar.nextTarget % g.nTargets
  let s1 := { s with cellar := { s.cellar with nextTarget := (t + 1) % g.nTargets } }
  match s.cellar.store.openBlock g role ckptId t with
  | some b => (s1, some b)
  | none => s1.takeBlock g role t g.total

/-- A page programmed at the next place; one whose program fails is programmed again in a ready block, and its block's pages
are relocated (R377). None where no block is left. -/
def State.programStore (s : State) (g : NandGeometry) (role : BlockRole) (ckptId : Nat) (p : StorePage) : Nat → State × Bool
  | 0 => (s, false)
  | n + 1 =>
    match s.nextPlace g role ckptId with
    | (s, none) => (s, false)
    | (s, some b) =>
      if s.cellar.failing.contains b then
        State.programStore (s.retireBlock g b (s.cellar.store.block b).pages) g role ckptId p n
      else (s.putPage g b p, true)

/-- A held record moves into the flush buffer, over the record of its signal if that one is older (R370, R371). -/
def flushPut (x : StoreRec × Nat) (l : List (StoreRec × Nat)) : List (StoreRec × Nat) :=
  if l.any (fun (y : StoreRec × Nat) => y.1.signal == x.1.signal) then
    l.map (fun (y : StoreRec × Nat) => if y.1.signal = x.1.signal ∧ y.1.seq < x.1.seq then (x.1, y.2) else y)
  else l ++ [x]

/-- Held records move into the flush buffer as it drains; none while the journal writer is stopped (R371, R374). -/
def State.drainHeld (s : State) : State :=
  if s.cellar.degraded then s
  else
    let room := flushRecords - s.cellar.flush.length
    let go := s.cellar.heldRecs.take room
    let merged := (go.filter (fun (x : StoreRec × Nat) => s.cellar.flush.any (fun (y : StoreRec × Nat) => y.1.signal == x.1.signal))).length
    State.countN { s with cellar := { s.cellar with
      flush := go.foldl (fun l x => flushPut x l) s.cellar.flush, heldRecs := s.cellar.heldRecs.drop room } } Reg.cellCoalesced merged

/-- Records of a page that no block took go back to the flush buffer, but for those that a later record of their signal
replaces there, and to the staging area where it is full (R370, R371). -/
def State.putBack (s : State) (recs : List StoreRec) : State :=
  let older := recs.filter (fun r => !s.cellar.flush.any (fun (y : StoreRec × Nat) => y.1.signal == r.signal))
  let back := older.map (fun r => (r, s.time.now))
  let room := flushRecords - s.cellar.flush.length
  State.countN { s with cellar := { s.cellar with
    flush := back.take room ++ s.cellar.flush, heldRecs := back.drop room ++ s.cellar.heldRecs } }
    Reg.cellCoalesced (recs.length - older.length)

/-! ## Checkpoints (R372 to R374) -/

/-- LRU of a Pantry set after some lines, and how many of them it held. -/
def sweepSet (ways : Nat) (lines cur : List Nat) : List Nat × Nat :=
  lines.foldl (fun a l => ((l :: a.1.filter (fun x => x != l)).take ways, a.2 + b2n (a.1.contains l))) (cur, 0)

/-- Every line of the Larder is read through the Pantry, in ascending order (R201, R372). -/
def State.touchAll (s : State) : State :=
  let sets := (List.range 16384).map (fun k =>
    sweepSet (s.pantryWays k) ((List.range 256).map (fun i => k + 16384 * i)) (Table.get (fun _ => []) s.scriv.pantry k))
  let hits := (sets.map (·.2)).sum
  let pantry : Table (List Nat) := ((List.range 16384).zip (sets.map (·.1))).filter (fun (x : Nat × List Nat) => !x.2.isEmpty)
  let s := { s with scriv := { s.scriv with pantry := pantry } }
  (s.countN Reg.scrivPantryHits hits).countN Reg.scrivPantryMisses (4194304 - hits)

/-- The CHECKPOINT records, read in ascending order of signal index: each takes a SEQ (R368, R372). -/
def State.checkpointRecs (s : State) : List Nat → Nat → List StoreRec
  | [], _ => []
  | i :: is, q =>
    let d : Desc := (s.bank s.gen.activeGen).desc i
    let r := s.recOf i
    if d.pclass = 0 ∨ r.stamp = 0 ∨ r.state = qForced then s.checkpointRecs is q
    else { state := r.state, type := d.type, pclass := d.pclass, kind := 2, signal := i, seq := q, value := r.value
           stamp := r.stamp } :: s.checkpointRecs is (q + 1)

/-- A checkpoint starts, if none is running: S is fixed (R372). Its records are read when it is programmed (log entry 91). -/
def State.startCheckpoint (s : State) (forced : Bool) : State :=
  if s.cellar.checkpoint.isSome then s
  else
    let s := s.countIf forced Reg.cellCkptForced
    { s with cellar := { s.cellar with checkpoint := some { ckptId := s.cellar.store.sealedId + 1, s := s.cellar.seq } } }

/-- The journal writer stops one block short of the mark: degradation starts (R374). -/
def State.degradeCellar (s : State) : State :=
  if s.cellar.degraded then s
  else (State.startCheckpoint { s with cellar := { s.cellar with degraded := true, drop := max s.cellar.drop 1 } } true).dropStage

/-- Records of the journal since the mark exceed JLIMIT (R372). -/
def State.journalLong (s : State) (g : NandGeometry) : Bool :=
  let n := ((s.cellar.store.withRole .journal).map (fun b =>
    ((s.cellar.store.block b).pages.map (fun p => (p.recs.filter (fun r => s.cellar.store.mark ≤ r.seq)).length)).sum)).sum
  decide (s.fld Reg.cellCtl2 16 8 * 2 ^ 30 < n * 32) && decide (0 < g.blocks)

/-- Pages of records, the last of them the SEAL page. -/
def chunks (n : Nat) : Nat → List StoreRec → List (List StoreRec)
  | 0, _ => []
  | fuel + 1, l => if l.length ≤ n then [l] else l.take n :: chunks n fuel (l.drop n)

/-- Time passes until the bucket holds some bytes (R371). -/
def State.awaitTokens (s : State) (bytes : Nat) : State :=
  let s := s.fillBucket
  let lack : Nat := (1000000 * (bytes : Int) - s.cellar.tokens).toNat
  let rate := s.fld Reg.cellCtl 0 16
  (s.advanceTo (s.time.now + (lack + rate - 1) / rate)).fillBucket

/-- One checkpoint page programmed, when the bucket holds its bytes (R371, R372), and whether it lies on flash. -/
def State.checkpointPage (s : State) (g : NandGeometry) (ckptId : Nat) (p : StorePage) : State × Bool :=
  let x := (s.awaitTokens g.pageBytes).programStore g .checkpoint ckptId p g.total
  let stop := b2n (x.2 && x.1.cellar.st == .stopping)
  (State.spend { x.1 with cellar := { x.1.cellar with stopPages := x.1.cellar.stopPages + stop } } (if x.2 then g.pageBytes else 0), x.2)

/-- Pages of a checkpoint programmed one after another, until one finds no block. -/
def State.checkpointPages (s : State) (g : NandGeometry) (ckptId : Nat) : List StorePage → State × Bool
  | [] => (s, true)
  | p :: ps =>
    let x := s.checkpointPage g ckptId p
    if x.2 then x.1.checkpointPages g ckptId ps else x

/-- Checkpoint blocks without a page of some checkpoint are FREE. -/
def Store.freeCheckpoints (st : Store) (ckptId : Nat) : Store :=
  { st with blocks := st.blocks.map (fun (x : Nat × Block) =>
      if x.2.role == .checkpoint && x.2.pages.all (fun p => p.ckptId != ckptId) then (x.1, { x.2 with role := .free }) else x) }

/-- Blocks that a seal frees: those of the previous checkpoint, and journal blocks in which every record lies below the
mark, but for the block that a page under way goes to (R373). -/
def Store.freeOld (st : Store) (mark ckptId : Nat) (busy : Option Nat) : Store :=
  let st := st.freeCheckpoints ckptId
  { st with blocks := st.blocks.map (fun (x : Nat × Block) =>
      if x.2.role == .journal && busy != some x.1 && x.2.pages.all (fun p => p.recs.all (fun r => decide (r.seq < mark))) then
        (x.1, { x.2 with role := .free })
      else x) }

/-- The pages of a checkpoint, the last of them its SEAL page (R365, R367). -/
def sealPages (g : NandGeometry) (k : Checkpoint) (mark : Nat) (recs : List StoreRec) : List StorePage :=
  let parts := chunks g.perPage (recs.length + 1) recs
  (List.range parts.length).map (fun i =>
    let last := decide (i + 1 = parts.length)
    storePage 2 k.ckptId last (if last then k.s else mark) (if last then recs.length else 0) ((parts[i]?).getD []))

/-- The pages of some blocks, with their places. -/
def Store.places (st : Store) (blocks : List Nat) : List (Nat × Nat × StorePage) :=
  blocks.flatMap (fun b => ((List.range (st.block b).pages.length).zip (st.block b).pages).map (fun x => (b, x.1, x.2)))

/-- What the read of a page gave: clean where nothing is said of it. -/
def readOutcome (reads : List PageOutcome) (b i : Nat) : Sys2Proof.PageRead :=
  ((reads.find? (fun o => o.block == b && o.page == i)).map (·.read)).getD { words := [], crcBad := false }

/-- Pages read one after another. -/
def State.readPages (s : State) (reads : List PageOutcome) (l : List (Nat × Nat × StorePage)) : State :=
  l.foldl (fun s x => s.readPage x.1 (readOutcome reads x.1 x.2.1)) s

/-- Commands of the Cellar that await an event complete. Their arg is the subcommand. -/
def State.endCellar (s : State) (sub status detail : Nat) (result : Word) : State :=
  allRings.foldl (fun s r =>
    match (s.ring r.1 r.2).running with
    | some c => if c.opc = 10 ∧ c.arg = sub then s.endCommand r.1 r.2 status detail result else s
    | none => s) s

/-- The checkpoint is sealed (R367, R373, R374). -/
def State.sealCheckpoint (s : State) (k : Checkpoint) : State :=
  let busy := s.cellar.program.map (·.block)
  let s := s.modStore (fun st => { (st.freeOld k.s k.ckptId busy) with sealedId := k.ckptId, sealedTai := s.tai, mark := k.s })
  let s := { s with cellar := { s.cellar with
    checkpoint := none, ckptBase := s.time.now, degraded := false, drop := 0, severe := false } }
  ((s.count Reg.cellCkpts).endCellar 2 0 0 (BitVec.ofNat 64 k.ckptId)).drainHeld

/-! ## Start, stop, restore (R384 to R387) -/

/-- Why a mount fails (R385): as at identification, 2 UNFORMATTED, 4 FLUSH, 5 MEDIA; otherwise the newer valid root (R386). -/
def State.mount (s : State) (g : NandGeometry) : Nat ⊕ RootBody :=
  match s.identify g, s.cellar.store.newestRoot (g.roots.filter (fun b => !g.badRoots.contains b)) with
  | 0, none => .inl 2
  | 0, some r => if 4000 < g.flushUs then .inl 4 else if g.short r.bad then .inl 5 else .inr r
  | f, _ => .inl f

/-- One above the highest SEQ on flash (R368). -/
def Store.nextSeq (st : Store) : Nat :=
  (st.blocks.flatMap (fun (x : Nat × Block) => x.2.pages.flatMap (fun p => p.recs.map (fun r => r.seq + 1)))).foldl max 0

/-- A checkpoint is sealed on flash: a SEAL page names as many records as its pages hold (R367). -/
def Store.sealPage? (st : Store) : Option StorePage :=
  let pages := (st.withRole .checkpoint).flatMap (fun b => (st.block b).pages)
  (pages.filter (fun p => p.sealPage &&
      p.nrec == ((pages.filter (fun q => q.ckptId == p.ckptId)).map (fun q => q.recs.length)).sum)).foldl (fun a p =>
    match a with
    | some x => if x.ckptId < p.ckptId then some p else a
    | none => some p) none

/-- The store as the newer root and the page headers give it (R386): the bad blocks; the erase count of each block, the higher
of the root's and that of its newest page; its reads; the newest sealed checkpoint, with the TAI that the root keeps of it. -/
def Store.rebuilt (st : Store) (r : RootBody) : Store :=
  let p := st.sealPage?
  let id := (p.map (·.ckptId)).getD 0
  let known : Nat → Block → Block := fun b k =>
    let c := (Table.find? b r.counts).getD (0, 0)
    let head := ((k.pages.getLast?).map (fun p => p.erases - r.baseErases)).getD 0
    let role : BlockRole := if r.bad.contains b then .bad else if k.role = .bad then .free else k.role
    { k with role := role, erases := max c.1 head, reads := c.2, pages := if role = .bad then [] else k.pages }
  Store.freeOld { st with
    blocks := st.blocks.foldl (fun t x => Table.set (fun _ => ({} : Block)) t x.1 (known x.1 x.2)) []
    bad := r.bad, baseErases := r.baseErases
    sealedId := id, sealedTai := if r.sealedId = id then r.sealedTai else 0, mark := (p.map (·.markSeq)).getD 0 }
    ((p.map (·.markSeq)).getD 0) id none

/-- The Cellar enters STARTING with the media it finds, or stays STOPPED with the reason. The bucket starts full (R371), and
a new pass of the scrub begins (R380). -/
def State.startCellar (s : State) (g : NandGeometry) : State :=
  match s.mount g with
  | .inl f => State.endCellar { s with cellar := { s.cellar with st := .stopped, startHeld := false, heldMedia := none } } 0 5 f 0
  | .inr r =>
    let s := (s.modStore (fun st => st.rebuilt r)).modStore (fun st =>
      g.roots.foldl (fun st b => st.modBlock b (fun k => { k with reads := k.reads + 1 })) st)
    let q := s.cellar.store.nextSeq
    { s with cellar := { s.cellar with
      st := .starting, startHeld := false, heldMedia := none, stopHeld := false, geom := some g
      seq := q, startSeq := q, nextTarget := 0, tokens := s.bucketDepth, tokensAt := s.time.now
      scrubBase := s.time.now, scrubDone := 0, scrubLast := none } }

/-- The newest record of each signal among some records (R386). -/
def newestRecs (l : List StoreRec) : Table StoreRec :=
  l.foldl (fun t r =>
    match Table.find? r.signal t with
    | some x => if x.seq < r.seq then Table.insert r.signal r t else t
    | none => Table.insert r.signal r t) []

/-- The pages that a restore reads: those of the checkpoint and journal blocks. -/
def Store.restorePages (st : Store) : List (Nat × Nat × StorePage) :=
  st.places (st.withRole .checkpoint ++ st.withRole .journal)

/-- The records that a restore selects from, among some pages: the newest sealed checkpoint, and the journal from its S on, as
START found them (R386). -/
def State.storeRecs (s : State) (pages : List (Nat × Nat × StorePage)) : List StoreRec :=
  let st := s.cellar.store
  pages.flatMap (fun x => x.2.2.recs.filter (fun r =>
    if x.2.2.area = 2 then x.2.2.ckptId == st.sealedId && st.sealedId != 0
    else decide (st.mark ≤ r.seq ∧ r.seq < s.cellar.startSeq)))

/-- The page was the last programmed on its target: a program that a power loss cut off (R386). -/
def Store.lastOn (st : Store) (g : NandGeometry) (b i : Nat) : Bool := Table.find? (b / g.blocks) st.lastPages == some (b, i)

/-- The reads of a restore: every page counts a read; one whose CRC or ECC fails counts under R376, unless a power loss cut its
program off (R386). -/
def State.restoreReads (s : State) (g : NandGeometry) (reads : List PageOutcome) (pages : List (Nat × Nat × StorePage)) : State :=
  pages.foldl (fun s x =>
    let r := readOutcome reads x.1 x.2.1
    if PageRead.fails r && s.cellar.store.lastOn g x.1 x.2.1 then
      s.modStore (fun st => st.modBlock x.1 (fun k => { k with reads := k.reads + 1 }))
    else s.readPage x.1 r) s

/-- One selected record applied, or skipped (R387). -/
def State.restoreOne (s : State) (r : StoreRec) : State × Bool :=
  let d : Desc := (s.bank s.gen.activeGen).desc r.signal
  if (s.recOf r.signal).state = qNever ∧ d.pclass ≠ 0 ∧ d.type = r.type then
    let s := (s.restoreRec r.signal r.value r.stamp).count Reg.cellRestored
    (s.countIf (decide (s.tai.toNat < r.stamp.toNat)) Reg.cellFutureStamp, true)
  else (s.count Reg.cellRestoreSkipped, false)

/-- A list of selected records, and how many were applied. -/
def State.restoreAll (s : State) : List StoreRec → State × Nat
  | [] => (s, 0)
  | r :: rs =>
    let x := s.restoreOne r
    let y := State.restoreAll x.1 rs
    (y.1, y.2 + b2n x.2)

/-- STOPPING begins (R384). -/
def State.stopCellar (s : State) : State := { s with cellar := { s.cellar with st := .stopping, stopHeld := false, stopPages := 0 } }

/-! ## Commands -/

/-- A CELLAR subcommand starts: its parameters, then its own part (R385). An entry with another subcommand is not this command;
one with no subcommand of the table gives PARAM. -/
def State.startCellarCmd (s : State) (c : CmdEntry) (sub : Nat) (w2 : Bool) (run : State → State) : State :=
  if c.w1 != BitVec.ofNat 64 sub && decide (c.w1.toNat < 4) then s
  else s.startCommand c 10 (fun s =>
    if !cmdHeadOk c 0 || c.w1 != BitVec.ofNat 64 sub || !w2 || !wordsZero [c.w3, c.w4, c.w5, c.w6, c.w7] then s.endCmd c 3 0 0
    else run (s.modRing c.ep c.ring (fun r => { r with running := r.running.map (fun (x : Running) => { x with arg := sub }) })))

/-- CELLAR START (R384, R385): media is what identification finds. While a FORMAT runs it completes STATE. -/
def execCellarStart (c : CmdEntry) (media : NandGeometry) (s : State) : Answer :=
  .next (s.startCellarCmd c 0 (decide (c.w2.toNat < 2)) (fun s =>
    let s1 := { s with cellar := { s.cellar with noRestore := c.w2.bit 0 } }
    match s.cellar.st with
    | .stopped => if s.cellar.formatting.isSome then s.endCmd c 7 0 0 else s1.startCellar media
    | .stopping => { s1 with cellar := { s1.cellar with startHeld := true, heldMedia := some media } }
    | .starting | .running | .flushed => s.endCmd c 7 0 0))

/-- CELLAR_RESTORE_DONE (R384, R386, R387): the newest stored record of each signal, among the pages that read correctly, is
applied, and START completes. -/
def execCellarRestoreDone (s : State) (reads : List PageOutcome := []) (failing : List Nat := []) : Answer :=
  .next (match s.cellar.geom with
    | none => s
    | some g =>
      if s.cellar.st ≠ .starting ∨ s.cellar.pfail then s
      else s.withFailing failing (fun s =>
        let pages := if s.cellar.noRestore then [] else s.cellar.store.restorePages
        let good := pages.filter (fun x => !PageRead.fails (readOutcome reads x.1 x.2.1))
        let x := (s.restoreReads g reads pages).restoreAll ((newestRecs (s.storeRecs good)).map (·.2))
        let s := { x.1 with cellar := { x.1.cellar with st := .running } }
        let s := s.endCellar 0 0 0 (BitVec.ofNat 64 x.2)
        let s := if s.cellar.stopHeld then s.stopCellar else if s.journalLong g then s.startCheckpoint false else s
        s.settleNand g))

/-- CELLAR STOP (R384, R385): at once if STOPPED; in STOPPING it cancels a held start, which completes STATE. -/
def execCellarStop (c : CmdEntry) (s : State) : Answer :=
  .next (s.startCellarCmd c 1 (c.w2 == 0) (fun s =>
    match s.cellar.st with
    | .stopped => s.endCmd c 0 0 0
    | .starting => { s with cellar := { s.cellar with stopHeld := true } }
    | .running => s.stopCellar
    | .stopping =>
      if s.cellar.startHeld then
        State.endCellar { s with cellar := { s.cellar with startHeld := false, heldMedia := none } } 0 7 0 0
      else s
    | .flushed => s))

/-- CELLAR_STOPPED (R384): the checkpoint is sealed and held and pending records are programmed; a held start follows. -/
def execCellarStopped (s : State) : Answer :=
  let c := s.cellar
  .next (if c.st = .stopping ∧ c.checkpoint = none ∧ c.flush = [] ∧ c.heldRecs = [] ∧ c.program = none ∧ ¬ c.pfail then
      let s := State.endCellar { s with cellar := { s.cellar with st := .stopped } } 1 0 0 (BitVec.ofNat 64 c.stopPages)
      match c.startHeld, c.heldMedia with
      | true, some g => s.startCellar g
      | _, _ => s
    else s)

/-- CELLAR CHECKPOINT (R372, R385). -/
def execCellarCheckpoint (c : CmdEntry) (s : State) : Answer :=
  .next (s.startCellarCmd c 2 (c.w2 == 0) (fun s =>
    if s.cellar.st = .running then s.startCheckpoint true else s.endCmd c 7 0 0))

/-- CELLAR FORMAT (R385): it destroys every stored value from its first erase on. -/
def execCellarFormat (c : CmdEntry) (media : NandGeometry) (s : State) : Answer :=
  .next (s.startCellarCmd c 3 (c.w2 == 0x464D5421) (fun s =>
    if s.cellar.st ≠ .stopped ∨ s.cellar.formatting.isSome then s.endCmd c 7 0 0
    else if s.identify media ≠ 0 then s.endCmd c 5 (s.identify media) 0
    else { s with cellar := { s.cellar with
      formatting := some media, store := { s.cellar.store with
        blocks := s.cellar.store.blocks.filterMap (fun (x : Nat × Block) =>
          if x.2.erases = 0 then none else some (x.1, { ({} : Block) with erases := x.2.erases }))
        bad := [], sealedId := 0, sealedTai := 0, mark := 0, lastPages := [] } } }))

/-- CELLAR_FORMAT_DONE (R377, R385): every block has been erased and both roots are written; failed lists the blocks whose
erase or program failed. Block 0 of a target is never bad by its factory marker. -/
def execCellarFormatDone (failed : List Nat) (s : State) : Answer :=
  .next (match s.cellar.formatting with
    | none => s
    | some g =>
      let bad := (failed ++ g.factoryBad.filter (fun b => b % g.blocks != 0)).foldl (fun l b => setInsert b l) []
      let s := s.modStore (fun st => { st with bad := bad, baseErases := st.baseErases + 1 })
      let s := { s with cellar := { s.cellar with formatting := none, geom := some g } }
      let s := (s.countN Reg.cellErases (s.cellar.store.good g)).countN Reg.cellGrownBad failed.length
      if failed ≠ [] ∨ g.short bad then s.endCellar 3 5 5 0
      else State.endCellar (g.roots.foldl (fun s b => s.putRoot g b) s) 3 0 0 (BitVec.ofNat 64 (s.cellar.store.good g)))

/-- The oldest record of the flush buffer has waited BATCH_MS (R371). -/
def State.batchDue (s : State) : Bool :=
  match s.cellar.flush with
  | (_, t) :: _ => decide (t + 1000000 * s.fld Reg.cellCtl2 0 10 ≤ s.time.now)
  | [] => false

/-- BATCH_EXPIRE (R371): the oldest staged record has waited BATCH_MS, and a page falls due. -/
def execBatchExpire (s : State) : Answer :=
  .next (match s.cellar.flush with
    | (_, t) :: _ => s.advanceTo (t + 1000000 * s.fld Reg.cellCtl2 0 10)
    | [] => s)

/-- A journal page may begin: records fill it, it is due, or the Cellar is stopping (R371, R384). -/
def State.journalDue (s : State) (g : NandGeometry) : Bool :=
  let c := s.cellar
  (decide (c.st = .starting) || decide (c.st = .running) || decide (c.st = .stopping)) && !c.pfail && c.program.isNone &&
  !c.degraded && !c.flush.isEmpty && (decide (g.perPage ≤ c.flush.length) || s.batchDue || decide (c.st = .stopping))

/-- The next journal page begins on the next target; a block that may not be taken starts degradation (R371, R374). -/
def State.journalBegin (s : State) (g : NandGeometry) (over' : Bool) : State :=
  let t := s.cellar.nextTarget % g.nTargets
  let needs := (s.cellar.store.openBlock g .journal 0 t).isNone
  if needs && decide (s.cellar.store.freeBlocks g ≤ g.reserve + 2 * g.nTargets + 1) then s.degradeCellar
  else
    match s.nextPlace g .journal 0 with
    | (s, none) => s.degradeCellar
    | (s, some b) =>
      let recs := (s.cellar.flush.take g.perPage).map (·.1)
      let page := storePage 3 s.cellar.store.sealedId false s.cellar.store.mark 0 recs
      let s := { s with cellar := { s.cellar with
        flush := s.cellar.flush.drop g.perPage, program := some { target := b / g.blocks, block := b, page := page } } }
      let s := (((s.countIf over' Reg.cellOverdraftPages).spend g.pageBytes).drainHeld).levelWear g
      if needs then s.settleNand g else s

/-- JOURNAL_PAGE_PROGRAM (R371): a due page begins if the bucket holds its bytes, or if the flush buffer is full. -/
def execJournalPageProgram (s : State) (failing : List Nat := []) : Answer :=
  .next (match s.cellar.geom with
    | none => s
    | some g => s.withFailing failing (fun s =>
      let s := s.fillBucket
      if !s.journalDue g then s
      else if 1000000 * (g.pageBytes : Int) ≤ s.cellar.tokens then s.journalBegin g false
      else if flushRecords ≤ s.cellar.flush.length then s.journalBegin g true
      else s))

/-- A journal page lies in its block (R371). -/
def State.journalProgrammed (s : State) (g : NandGeometry) (q : PageProgram) : State :=
  let s := (s.putPage g q.block q.page).count Reg.cellJpages
  { s with cellar := { s.cellar with
    program := none, stopPages := s.cellar.stopPages + (if s.cellar.st = .stopping then 1 else 0) } }

/-- PAGE_PROGRAM_DONE (R371, R377): the page lies in its block; a failure marks the block BAD, relocates its pages and
programs the page again in a ready block. -/
def execPageProgramDone (target : Nat) (ok : Bool) (s : State) (failing : List Nat := []) : Answer :=
  .next (match s.cellar.geom, s.cellar.program with
    | some g, some q =>
      if q.target ≠ target then s
      else if ok && !s.cellar.store.bad.contains q.block then
        let s := s.journalProgrammed g q
        if s.journalLong g ∧ s.cellar.st = .running ∧ ¬ s.cellar.pfail then s.startCheckpoint false else s
      else s.withFailing failing (fun s =>
        let s := if s.cellar.store.bad.contains q.block then s else s.retireBlock g q.block (s.cellar.store.block q.block).pages
        let s := match s.takeBlock g .journal target g.total with
          | (s, some b) => { s with cellar := { s.cellar with program := some { q with target := b / g.blocks, block := b } } }
          | (s, none) => (State.cellarSevere { s with cellar := { s.cellar with program := none } }).putBack q.page.recs
        s.settleNand g)
    | _, _ => s)

/-- CHECKPOINT_TIMER (R372): CKPT_H hours after the last seal. -/
def execCheckpointTimer (s : State) : Answer :=
  .next (if s.cellar.st = .running ∧ s.cellar.checkpoint = none ∧ ¬ s.cellar.pfail then
      State.startCheckpoint (s.advanceTo (s.cellar.ckptBase + 3600000000000 * s.fld Reg.cellCtl 32 16)) false
    else s)

/-- The pages of an unsealed checkpoint, programmed within the budget (R367, R372): those of an earlier try are given up, and the
records are read through the Pantry. False without room for a page. -/
def State.sealWrites (s : State) (g : NandGeometry) (k : Checkpoint) : State × Bool :=
  let s := s.modStore (fun st => st.freeCheckpoints st.sealedId)
  let recs := s.checkpointRecs (s.scriv.records.map (·.1)) s.cellar.seq
  let s := s.touchAll
  let s := { s with cellar := { s.cellar with seq := s.cellar.seq + recs.length } }
  s.checkpointPages g k.ckptId (sealPages g k s.cellar.store.mark recs)

/-- The pages of a checkpoint, as they lie (R367). -/
def Store.checkpointPlaces (st : Store) (ckptId : Nat) : List (Nat × Nat × StorePage) :=
  (st.places (st.withRole .checkpoint)).filter (fun x => x.2.2.ckptId == ckptId)

/-- CHECKPOINT_SEAL (R367, R372 to R374): the records are read and the pages programmed within the budget; once every page
reads back correctly the checkpoint is sealed and the mark advances. A page that does not leaves it unsealed, to be programmed
afresh. Without room the Cellar is severe. -/
def execCheckpointSeal (s : State) (reads : List PageOutcome := []) (failing : List Nat := []) : Answer :=
  .next (match s.cellar.geom, s.cellar.checkpoint with
    | some g, some k =>
      if s.cellar.pfail then s
      else s.withFailing failing (fun s =>
        match s.sealWrites g k with
        | (s, false) => s.cellarSevere.settleNand g
        | (s, true) =>
          let pages := s.cellar.store.checkpointPlaces k.ckptId
          let s := s.readPages reads pages
          if pages.all (fun x => !PageRead.fails (readOutcome reads x.1 x.2.1)) then (s.sealCheckpoint k).settleNand g
          else s.settleNand g)
    | _, _ => s)

/-! ## Scrub (R376 to R380) -/

/-- The next page of the scrub: the first after the last one read, in order of block and place, or the first of all, with which
a new pass begins. -/
def State.scrubNext (s : State) : Option ((Nat × Nat × StorePage) × Bool) :=
  let l := s.cellar.store.places s.cellar.store.inUse
  match s.cellar.scrubLast with
  | none => (l.head?).map (fun x => (x, false))
  | some (b, i) =>
    match l.find? (fun x => decide (b < x.1) || (x.1 == b && decide (i < x.2.1))) with
    | some x => some (x, false)
    | none => (l.head?).map (fun x => (x, true))

/-- SCRUB_DAYS in nanoseconds. -/
def State.scrubPeriod (s : State) : Nat := 86400000000000 * s.fld Reg.cellMedia 8 9

/-- The scrub comes to its next page, at its even place in the pass (R380). -/
def State.scrubAdvance (s : State) (b i : Nat) (anew : Bool) : State :=
  let base := if anew then s.cellar.scrubBase + s.scrubPeriod else s.cellar.scrubBase
  let done := if anew then 0 else s.cellar.scrubDone
  let pages := (s.cellar.store.places s.cellar.store.inUse).length
  let s := s.advanceTo (base + done * s.scrubPeriod / pages)
  { s with cellar := { s.cellar with scrubBase := base, scrubDone := done + 1, scrubLast := some (b, i) } }

/-- SCRUB (R376, R377, R379, R380): the next page of the pass is read. A block with an uncorrectable codeword turns BAD and its
other records are relocated; one that needed REFRESH corrections, or has reached the disturb limit, is relocated. -/
def execScrub (words : List CodewordRead) (crcBad : Bool) (failing : List Nat) (s : State) : Answer :=
  let read : Sys2Proof.PageRead := { words := words, crcBad := crcBad }
  .next (match s.cellar.geom, s.scrubNext with
    | some g, some ((b, i, p), anew) =>
      if s.cellar.st = .stopped ∨ s.cellar.pfail then s
      else s.withFailing failing (fun s =>
        let s := (s.scrubAdvance b i anew).readPage b read
        let pages := (s.cellar.store.block b).pages
        if PageRead.fails read then (s.retireBlock g b (pages.set i (StorePage.kept p read))).settleNand g
        else if read.words.any (fun w => decide (s.fld Reg.cellMedia 24 8 ≤ w.bits)) then
          ((s.moveBlock g b).count Reg.cellScrubMoves).settleNand g
        else if 1000 * s.fld Reg.cellMedia 0 8 ≤ (s.cellar.store.block b).reads then s.settleNand g
        else s)
    | _, _ => s)

/-! ## Power failure (R381) -/

/-- The flush buffer programmed across the targets, page after page; a page whose program fails is programmed again. -/
def State.flushPages (s : State) (g : NandGeometry) : List (List StoreRec) → State
  | [] => s
  | l :: ls =>
    let x := s.programStore g .journal 0 (storePage 3 s.cellar.store.sealedId false s.cellar.store.mark 0 l) g.total
    (x.1.countIf x.2 Reg.cellJpages).flushPages g ls

/-- FLUSH_COMPLETE (R381 steps 4 and 5): a program under way ends, or is programmed again where it fails, and the flush set is
programmed. A Cellar that was not STARTING or RUNNING has nothing to flush. -/
def execFlushComplete (s : State) (failing : List Nat := []) : Answer :=
  .next (if ¬ s.cellar.pfail ∨ s.cellar.flushDone then s
    else s.withFailing failing (fun s =>
      let s := match s.cellar.geom, s.cellar.program with
        | some g, some q =>
          if s.cellar.failing.contains q.block ∨ s.cellar.store.bad.contains q.block then
            (s.retireBlock g q.block (s.cellar.store.block q.block).pages).flushPages g [q.page.recs]
          else s.journalProgrammed g q
        | _, _ => s
      let s := match s.cellar.geom with
        | some g =>
          if s.cellar.flushFill && !s.cellar.flush.isEmpty then
            s.flushPages g (chunks g.perPage (s.cellar.flush.length + 1) (s.cellar.flush.map (fun (x : StoreRec × Nat) => x.1)))
          else s
        | none => s
      State.count { s with cellar := { s.cellar with flushDone := true, program := none, flush := [] } } Reg.cellFlushes))

end Sys2Proof.Machine
end

