-- ==== Sys2Proof/Machine/Watchman.lean ====
section
/-! DEFINITION. The Watchman: refreshes, the check of an index after a swap, the sweep, walks, the capture of a watch, and
forces (R207 to R225, R233). -/

namespace Sys2Proof.Machine

/-- The window W of an entry in ns (R207). -/
def WatchEntry.window (e : WatchEntry) : Nat := (e.period + e.grace) * tunitNs e.tunit

/-- The refresh of a watch by a frame's last commit, at the present instant (R208, R209, R215, R222). A fenced Watchman
takes none. -/
def State.refresh (s : State) (f : Frame) (w : Nat) : State :=
  if s.watch.fenced then s
  else
    let s := (s.checkIndex w).modWatch w (fun x => { x with checkedAt := s.watch.swapNo })
    let e := (s.bank f.gen).entry w
    if f.gen ≠ s.gen.activeGen ∧ (s.watchOf w).retiredAt = s.watch.swapNo then (s.startWalk .retire w f.gen e 0).count Reg.watchOrphans
    else
      let x := s.watchOf w
      let d : Int := f.validAt + e.window
      let s := s.modWatch w (fun x => { x with
        tLast := some f.validAt, tLastTai := f.validTai, deadline := d, gen := f.gen })
      if d < s.time.now then
        let s := s.count Reg.watchLateRefresh
        let s := if x.st = 2 then s
          else (s.modWatch w (fun x => { x with st := 2, staleAt := some s.time.now })).count Reg.watchStaleEvents
        if e.fanGroup then s else s.startWalk .deadline w f.gen e f.validTai
      else if x.st = 2 ∧ e.fanGroup then s.startWalk .floor w f.gen e f.validTai
      else if s.walkPending w then s
      else s.modWatch w (fun x => { x with st := 1 })

/-- The last pending walk of a watch has ended (R215). -/
def State.walkEnd (s : State) (w : Nat) : State :=
  if s.walkPending w then s
  else
    let x := s.watchOf w
    match x.tLast with
    | none => s.modWatch w (fun x => { x with st := 0 })
    | some _ =>
      if (s.time.now : Int) ≤ x.deadline then s.modWatch w (fun x => { x with st := 1 })
      else if x.st = 1 then s.turnStale w s.time.now
      else if x.st = 0 then s.modWatch w (fun x => { x with st := 2, staleAt := some s.time.now })
      else s

/-- A visit of one watch: the check after a swap, the window of the active entry, and the deadline (R212, R221). -/
def State.visitWatch (s : State) (w : Nat) : State :=
  let s := s.checkIndex w
  let win := ((s.bank s.gen.activeGen).entry w).window
  let s := s.modWatch w (fun x =>
    match x.tLast with
    | some t => { x with deadline := t + win }
    | none => x)
  if (s.watchOf w).st = 1 ∧ (s.watchOf w).deadline < s.time.now then s.turnStale w s.time.now else s

/-- An uncorrectable error in a watch's state retires it (R214). -/
def State.watchEcc (s : State) (w : Nat) : State :=
  (((s.checkIndex w).retireWatch w s.gen.activeGen).count Reg.watchStateEcc).unitFault 290 0

/-- A watch captured into WSTAT and WTIME0 to WTIME2 (R233). -/
def State.captureWatch (s : State) (w : Nat) : State :=
  let x := s.watchOf w
  let has : WalkKind → Bool := fun k => s.watch.walks.any (fun q => q.watch == w && decide (q.kind = k))
  let st := pack [(7, b2n (!s.unchecked w)), (6, b2n (has .retire)), (5, b2n (has .floor)), (4, b2n (has .deadline)),
    (2, x.cutState), (0, x.st)]
  let t0 := match x.tLast with | some t => s.taiAt t | none => 0
  let t1 := match x.tLast with | some _ => s.taiAt x.deadline | none => 0
  let t2 := match x.staleAt with | some t => s.taiAt t | none => 0
  { s with watch := { s.watch with captured := [st, t0, t1, t2] } }

/-- FORCE_CMD for the value written (R224, R225). -/
def State.forceCmd (s : State) (val : Word) : State :=
  let i := s.fld Reg.watchForceSel 0 23
  if val.bit 0 ∧ val.bit 1 then s.count Reg.genBadAccess
  else if val.bit 0 then s.forceRec i (s.reg Reg.watchForceVal)
  else if val.bit 1 then s.releaseRec i
  else s

/-! ## Commands -/

/-- SWEEP_VISIT (R211, R212, R214, R221): the next 16 indices in ascending order. eccBad names those whose state word
cannot be corrected. -/
def execSweepVisit (eccBad : List Nat) (s : State) : Answer :=
  let g := s.watch.sweepPos
  .next (if s.watch.fenced ∨ 16384 ≤ g then s
    else
      let s := (List.range 16).foldl (fun s k =>
        let w := 16 * g + k
        let s := if eccBad.contains w then s.watchEcc w else s
        s.visitWatch w) s
      { s with watch := { s.watch with sweepPos := g + 1, uncheckedLeft := s.watch.uncheckedLeft - 1 } })

/-- SWEEP_COMPLETE (R211, R213): every index has been visited, and the next sweep begins at once. -/
def execSweepComplete (s : State) : Answer :=
  .next (if s.watch.fenced ∨ s.watch.sweepPos < 16384 then s
    else { s with watch := { s.watch with
      cutSwept := s.watch.cutSwept || s.watch.sweepAfterCut
      sweepPos := 0, sweepBegan := s.time.now, sweepAfterCut := true, stalled := false } })

/-- SWEEP_STALL (R213): a sweep has not completed 50 µs after it began. -/
def execSweepStall (s : State) : Answer :=
  .next (if s.watch.fenced ∨ s.watch.stalled then s
    else
      let s := s.advanceTo (s.watch.sweepBegan + 50000)
      State.unitFault { s with watch := { s.watch with stalled := true } } 290 0)

/-- WALK_OP (R216, R217): the walk at the head of the queue reads one op word; after its last it ends. -/
def execWalkOp (s : State) : Answer :=
  .next (match s.watch.walks with
    | [] => s
    | k :: t =>
      if s.watch.fenced then s
      else
        let op := s.opWord (k.opBase + k.pos)
        let s := if k.pos < k.opCount ∧ op.field 62 2 = 0 then s.walkRecord k (op.field 0 23) else s
        if k.pos + 1 < k.opCount then
          { s with watch := { s.watch with walks := { k with pos := k.pos + 1, begun := true } :: t } }
        else State.walkEnd { s with watch := { s.watch with walks := t } } k.watch)

end Sys2Proof.Machine
end

