-- ==== Sys2Proof/Machine/Crier.lean ====
section
/-! DEFINITION. The Crier: subscriber rings, bitmaps, the set that an epoch publishes, close records, loss and
resynchronisation (R234 to R249). -/

namespace Sys2Proof.Machine

/-- Subscriber ring i changed. -/
def State.modSub (s : State) (i : Nat) (f : Sub → Sub) : State :=
  { s with crier := { s.crier with subs := Table.set (fun _ => {}) s.crier.subs i (f (s.sub i)) } }

/-- Endpoint of subscriber ring i (R2). -/
def subEp (i : Nat) : Ep := if i < 16 then .a else .b
/-- The endpoint ring that carries the epoch being published, RING as in force during that epoch (R41, R234). -/
def State.subRing (s : State) (i : Nat) : Ring := s.ring (subEp i) (s.sub i).ring
/-- RESERVE of a ring. -/
def State.subReserve (s : State) (i : Nat) : Nat := s.fld (Reg.crierSubCtl i) 32 16

/-- Its endpoint ring is a RUNNING publication ring of a usable endpoint (R247, R337). -/
def State.subCarried (s : State) (i : Nat) : Bool := (s.subRing i).runs 3 && s.usable (subEp i)

/-- The ring has room for a set to open with a MARK (R236, R247). -/
def State.subRoom (s : State) (i : Nat) : Bool :=
  s.subCarried i && !s.crier.fenced && decide (s.subReserve i + 2 ≤ (s.subRing i).free)

/-! ## Start, stop, loss (R236, R247) -/

/-- A ring enters STARTING, to open with the publication of an epoch at the earliest (R236). -/
def State.subBegin (s : State) (i : Nat) (first : Word) : State :=
  s.modSub i (fun x => { ({} : Sub) with st := .starting, startFrom := first, loss := x.loss })

/-- A stop completes; a held start begins, counted from the commit of its EN = 1 (R236). -/
def State.subStopped (s : State) (i : Nat) : State :=
  if (s.sub i).startHeld then s.subBegin i (s.sub i).startFrom
  else s.modSub i (fun x => { ({} : Sub) with loss := x.loss })

/-- An entry of a ring is lost: the set and its CLOSE with it (R247). A stopping ring stops. -/
def State.subLose (s : State) (i reason : Nat) : State :=
  let s := s.modSub i (fun x => { x with waitSpace := true, loss := reason, closeDue := none })
  let s := (s.count (Reg.crierLosses i)).raise 9
  if (s.sub i).st = .stopping then (s.count (Reg.crierLostEpochs i)).subStopped i else s

/-- A commit of SUB_CTL.EN (R236). At a boundary the ring still writes the epoch's close record. -/
def State.subCommit (s : State) (i : Nat) : State :=
  if s.flag (Reg.crierSubCtl i) 0 then
    match (s.sub i).st with
    | .stopped => s.subBegin i (s.gen.epochNum + 1)
    | .stopping => s.modSub i (fun x => { x with startHeld := true, startFrom := s.gen.epochNum + 1 })
    | .starting | .running => s
  else
    match (s.sub i).st with
    | .stopped => s
    | .starting => s.subStopped i
    | .stopping => s.modSub i (fun x => { x with startHeld := false })
    | .running =>
      if (s.sub i).closeDue.isSome then s.modSub i (fun x => { x with st := .stopping })
      else (s.countIf (s.sub i).waitSpace (Reg.crierLostEpochs i)).subStopped i

/-! ## Bitmaps (R237 to R240) -/

/-- Signals subscribed on ring i, ascending. -/
def State.subSignals (s : State) (i : Nat) : List Nat :=
  (s.crier.bitmaps.filter (fun x => x.1 / mapWords == i)).flatMap (fun x =>
    ((List.range 64).filter x.2.bit).map (fun b => x.1 % mapWords * 64 + b))

/-- A staged word: the most recent value of the word, and the operation on it (R238). OP: 0 SET, 1 CLEAR, 2 WRITE. -/
def mapOp (op : Nat) (old v : Word) : Word :=
  match op with
  | 0 => old ||| v
  | 1 => old &&& ~~~v
  | _ => v

/-- Words staged for ring i from word w on. -/
def State.stageWords (s : State) (i op : Nat) : Nat → List Word → State
  | _, [] => s
  | w, v :: vs =>
    let k := mapWords * i + w
    let old := match Table.find? k s.crier.staged with
      | some x => x
      | none => s.mapWord i w
    State.stageWords { s with crier := { s.crier with staged := Table.insert k (mapOp op old v) s.crier.staged } } i op (w + 1) vs

/-- Bits set in a ring's bitmap: an add resync, or the cursor back at the signals (R248). -/
def State.subGrow (s : State) (i : Nat) : State :=
  let x := s.sub i
  if !(x.st == .running || x.st == .stopping) || x.waitSpace then s
  else if x.resync == 0 || (x.passed && (match x.closeDue with | some c => c.2.2 | none => false)) then
    s.modSub i (fun x => { x with resync := 2, cursor := 262144, passed := false })
  else s.modSub i (fun x => { x with cursor := min x.cursor 262144, passed := false })

/-- The staged bitmap words commit (R238, R240). -/
def State.mapCommit (s : State) : State :=
  let grown := (List.range 32).filter (fun i => s.crier.staged.any (fun x =>
    x.1 / mapWords == i && x.2 &&& ~~~(s.mapWord i (x.1 % mapWords)) != 0))
  let maps := s.crier.staged.foldl (fun t x => Table.set (fun _ => 0) t x.1 x.2) s.crier.bitmaps
  let s := { s with crier := { s.crier with bitmaps := maps, staged := [] } }
  grown.foldl State.subGrow s

/-! ## Entries (R241 to R245) -/

/-- One more entry of the epoch on an endpoint's rings (R246). -/
def State.noteSent (s : State) (e : Ep) : State :=
  match e with
  | .a => { s with crier := { s.crier with sentA := s.crier.sentA + 1 } }
  | .b => { s with crier := { s.crier with sentB := s.crier.sentB + 1 } }

/-- One more INIT entry of the epoch on an endpoint's rings (R246). -/
def State.noteInit (s : State) (e : Ep) : State :=
  match e with
  | .a => { s with crier := { s.crier with initA := s.crier.initA + 1 } }
  | .b => { s with crier := { s.crier with initB := s.crier.initB + 1 } }

/-- An entry that is due on ring i: written, or lost with all that follows it in its set (R247). -/
def State.subWrite (s : State) (i : Nat) (counters : List Nat) (w0 : Word) (rest : List Word) : State :=
  if (s.sub i).waitSpace then s
  else if s.crier.fenced then s.subLose i 2
  else if !s.subCarried i then s.subLose i 3
  else if (s.subRing i).free = 0 then s.subLose i 1
  else ((counters.foldl State.count s).noteSent (subEp i)).ringWrite (subEp i) (s.sub i).ring w0 rest

/-- EPOCH of CHANGE and GROUP entries. -/
def epochField (n : Word) : Nat := n.field 0 32

/-- Words of a CHANGE entry for a record as read; held says that the cut-time copy is taken (R241, R243). -/
def changeWords (i : Nat) (r : Rec) (init : Bool) (cutTai n : Word) : List Word :=
  [pack [(24, i), (20, r.used), (16, r.outvoted), (12, r.cause), (8, if r.kept then r.pubState else r.state), (6, b2n init),
      (5, b2n r.kept), (0, 1)],
    if r.kept then r.pubVal else r.value, if r.kept then cutTai else r.stamp, pack [(32, r.lastWatch), (0, epochField n)]]

/-- Words of a GROUP entry (R241). -/
def State.groupWords (s : State) (w st : Nat) (init : Bool) (n : Word) : List Word :=
  let x := s.watchOf w
  [pack [(32, w), (8, st), (6, b2n init), (0, 2)],
    match x.tLast with | some t => s.taiAt t | none => 0,
    match x.tLast with | some _ => s.taiAt x.deadline | none => 0, pack [(0, epochField n)]]

/-- An entry given as its words. -/
def State.subEntry (s : State) (i : Nat) (counters : List Nat) : List Word → State
  | [] => s
  | w0 :: rest => s.subWrite i counters w0 rest

/-! ## Resync (R248, R249) -/

/-- What a resync cursor still runs over, by cursor position: watches that are not NEVER, then subscribed signals. -/
def State.cursorItems (s : State) (i : Nat) : List Nat :=
  let x := s.sub i
  let ws := if x.resync = 1 then ((s.watch.states.filter (fun y => y.2.st != 0)).map (·.1)).filter (fun w => x.cursor ≤ w) else []
  ws ++ ((s.subSignals i).map (fun n => 262144 + n)).filter (fun c => x.cursor ≤ c)

/-- One INIT entry of a ring (R248). -/
def State.initEntry (s : State) (i : Nat) (n : Word) (c : Nat) : State :=
  if (s.sub i).waitSpace then s
  else if c < 262144 then (s.noteInit (subEp i)).subEntry i [Reg.crierInits i] (s.groupWords c (s.watchOf c).st true n)
  else
    let j := c - 262144
    let s := (s.crierRead j).noteInit (subEp i)
    s.subEntry i [Reg.crierInits i] (changeWords j (s.recOf j) true s.gen.cutTai n)

/-- INIT entries that the cursors of an endpoint may still write in an epoch of which limit ns lie between its boundary and
100 µs before the next cut: each adds 21 ns and 62.5 ns to the bound of R246 on the CLOSE, which the entries of the epoch
so far, its close records among them, have already moved. -/
def State.initRoom (s : State) (e : Ep) (limit : Nat) : Nat :=
  let closes := ((List.range 32).filter (fun i => subEp i == e && (s.sub i).closeDue.isSome)).length
  let sent := match e with | .a => s.crier.sentA | .b => s.crier.sentB
  let inits := match e with | .a => s.crier.initA | .b => s.crier.initB
  (2 * limit - (120000 + 42 * (sent + closes) + 125 * inits)) / 167

/-- A ring's cursor writes the INIT entries of an epoch (R248): limit is the time that R246 leaves them, none where no cut
follows. -/
def State.runCursor (s : State) (i : Nat) (n : Word) (limit : Option Nat) : State :=
  let x := s.sub i
  if x.resync = 0 ∨ x.passed ∨ x.waitSpace then s
  else
    let items := s.cursorItems i
    let room := min (s.fld Reg.crierCtl 0 20) ((s.subRing i).free - s.subReserve i)
    let room := match limit with
      | some t => min room (s.initRoom (subEp i) t)
      | none => room
    let now := items.take room
    let s := now.foldl (fun s c => s.initEntry i n c) s
    if items.length ≤ room then
      s.modSub i (fun x => { x with cursor := max 262144 ((now.getLast?.map (· + 1)).getD x.cursor), passed := true })
    else s.modSub i (fun x => { x with cursor := (now.getLast?.map (· + 1)).getD x.cursor })

/-! ## An epoch's set (R242 to R249) -/

/-- A set opens with a MARK and a full resync (R236, R247). -/
def State.openSet (s : State) (i reason : Nat) (n : Word) : State :=
  let last := (s.sub i).lastClosed
  let s := s.modSub i (fun x => { x with
    st := if x.st = .starting then .running else x.st, waitSpace := false, resync := 1, cursor := 0, passed := false })
  s.subEntry i [] [pack [(8, reason), (0, 4)], last, n, 0]

/-- One ring's normal entries of epoch n, groups and changes as they stood at the cut, and the CLOSE that is due. RING is
taken as in force during the epoch (R41). -/
def State.publishRing (s : State) (info : CloseInfo) (groups : List (Nat × Nat)) (changes : List (Nat × Rec)) (i : Nat) : State :=
  let n := info.epoch
  let s := s.modSub i (fun x => if x.st = .stopped then x else { x with ring := s.fld (Reg.crierSubCtl i) 8 7 })
  let x := s.sub i
  let s := if x.st = .running ∧ x.waitSpace then s.count (Reg.crierLostEpochs i) else s
  let opens : Option Nat :=
    if x.st = .starting then (if x.startFrom.toNat ≤ n.toNat then some 0 else none)
    else if x.st = .running ∧ x.waitSpace then some x.loss else none
  if (x.st = .running ∧ ¬ x.waitSpace) ∨ (opens.isSome ∧ s.subRoom i) then
    let s := match opens with
      | some r => s.openSet i r n
      | none => s
    let s := groups.foldl (fun s g => s.subEntry i [Reg.crierGroups i] (s.groupWords g.1 g.2 false n)) s
    let s := (changes.filter (fun c => s.subscribed i c.1)).foldl (fun s c =>
      s.subEntry i (Reg.crierChanges i :: if c.2.kept then [Reg.crierHeld i] else []) (changeWords c.1 c.2 false s.gen.cutTai n)) s
    let done := (s.sub i).passed
    s.modSub i (fun x => if x.waitSpace then x else { x with closeDue := some (info, if done then 0 else x.resync, done) })
  else s

/-- The publication of the epoch that ends at a boundary (R36, R39, R242 to R245); none after load shed
(R381). What the Crier has still to read is read, watches whose state changed are noted, and each ring receives its set up
to its CLOSE: the normal entries of all rings, then the INIT entries that limit leaves time for (R246). -/
def State.publish (s : State) (info : CloseInfo) (limit : Option Nat) : State :=
  if s.cellar.pfail then s else
  let s := s.crierTake s.crier.cutSet.length
  let changes := s.crier.readRecs
  let groups := (s.watch.states.filter (fun x => x.2.cutState != x.2.prevCut)).map (fun x => (x.1, x.2.cutState))
  let s := { s with crier := { s.crier with readRecs := [], sentA := 0, sentB := 0, initA := 0, initB := 0 } }
  let s := (List.range 32).foldl (fun s i => s.publishRing info groups changes i) s
  (List.range 32).foldl (fun s i => if (s.sub i).closeDue.isSome then s.runCursor i info.epoch limit else s) s

/-- The CLOSE of a ring, if one is due (R231, R246, R249). -/
def State.closeRing (s : State) (i : Nat) : State :=
  match (s.sub i).closeDue with
  | none => s
  | some (c, kind, done) =>
    let w0 := pack [(24, c.leaseNs), (16, c.lease), (15, b2n c.set), (13, kind), (12, b2n done), (0, 3)]
    let s := s.subWrite i [Reg.crierCloses i] w0 [c.epoch, c.tai, c.tai + BitVec.ofNat 64 c.leaseNs]
    if (s.sub i).closeDue.isNone then s
    else
      let s := s.countIf done (Reg.crierResyncs i)
      let s := s.modSub i (fun x => { x with
        closeDue := none, lastClosed := c.epoch
        resync := if done && x.passed then 0 else x.resync, passed := x.passed && !done, cursor := if done && x.passed then 0 else x.cursor })
      if (s.sub i).st = .stopping then s.subStopped i else s

/-- What a cut does to the Crier: sets not closed by now are late, and the next set closes (R17, R246). -/
def State.crierCut (s : State) : State :=
  let s := (List.range 32).foldl (fun s i => if (s.sub i).closeDue.isSome then s.subLose i 2 else s) s
  { s with
    crier := { s.crier with cutSet := s.crier.changed, changed := [], cutAt := s.time.now, cutRead := 0, readRecs := [] }
    watch := { s.watch with
      states := s.watch.states.foldl (fun t (x : Nat × WState) =>
        Table.set (fun _ => {}) t x.1 { x.2 with prevCut := x.2.cutState, cutState := x.2.st }) s.watch.states } }

/-! ## Commands -/

/-- SUBSCRIBE (R238, R239, R346): words is what the host memory read of W4 returned. -/
def execSubscribe (c : CmdEntry) (words : Option (List Word)) (s : State) : Answer :=
  let i := c.w1.field 0 5
  let op := c.w1.field 8 2
  let first := c.w2.toNat
  let n := c.w3.toNat
  .next (s.startCommand c 3 (fun s =>
    if !cmdHeadOk c 0 || c.w1.field 5 3 != 0 || c.w1.field 10 54 != 0 || op == 3 ||
        decide (n < 1 ∨ 65536 < n ∨ mapWords < first + n) || !wordsZero [c.w5, c.w6, c.w7] then s.endCmd c 3 0 0
    else
      match words with
      | none => (s.memError c.ep c.ring).endCmd c 4 0 0
      | some ws =>
        let vs := (List.range n).map (fun k => (ws[k]?).getD 0)
        let fresh := ((List.range n).filter (fun k => (Table.find? (mapWords * i + first + k) s.crier.staged).isNone)).length
        if 65536 < s.crier.staged.length + fresh then (s.count Reg.crierSubFull).endCmd c 6 0 0
        else
          let s := s.stageWords i op first vs
          s.endCmd c 0 0 (BitVec.ofNat 64 s.crier.staged.length)))

/-- CLOSE_RECORD (R213, R231, R246): once a sweep that began at or after the cut has completed. -/
def execCloseRecord (s : State) : Answer :=
  .next (if s.watch.cutSwept ∧ ¬ s.watch.fenced ∧ ¬ s.cellar.pfail then (List.range 32).foldl State.closeRing s else s)

end Sys2Proof.Machine
end

