-- ==== Sys2Proof/Machine/Fabric.lean ====
section
/-! DEFINITION. The register fabric: which writes reach a register, the guard locks, the aliases, clamping, and the staged
and held copies (R42, R55 to R68, R73, R76 to R78, R152). What a write then does in its unit is in RegisterWrites.lean. -/

namespace Sys2Proof.Machine

/-! ## Values (R42, R61) -/

/-- RW fields of the register at an offset. -/
def rwMask (off : Nat) : Word :=
  match regAt off with
  | some (g, _) => BitVec.ofNat 64 g.rw
  | none => 0

/-- A word with the masked bits of another. -/
def mixWord (mask old new : Word) : Word := (old &&& ~~~mask) ||| (new &&& mask)

/-- The most recent value written to a register: held, else staged, else in force; other fields as they stand (R42, R61). -/
def State.latest (s : State) (off : Nat) : Word :=
  match Table.find? off s.regs.held, Table.find? off s.regs.staged with
  | some w, _ => mixWord (rwMask off) (s.reg off) w
  | none, some w => mixWord (rwMask off) (s.reg off) w
  | none, none => s.reg off

/-- A copy written anew has good parity. -/
def State.mendCopy (s : State) (x : RegCopy × Nat) : State :=
  { s with regs := { s.regs with upset := s.regs.upset.filter (fun y => y != x) } }

/-- RW fields staged, or held within the freeze: any freeze in force when the write lands, that of a stop boundary included
(R42, log entry 79). -/
def State.stage (s : State) (off : Nat) (w : Word) : State :=
  if s.gen.freeze then
    State.mendCopy { s with regs := { s.regs with held := Table.insert off (w &&& rwMask off) s.regs.held } } (.held, off)
  else State.mendCopy { s with regs := { s.regs with staged := Table.insert off (w &&& rwMask off) s.regs.staged } } (.staged, off)

/-! ## Parity (R72 to R74) -/

/-- One copy found bad. -/
def State.parityBad (s : State) (x : RegCopy × Nat) : State :=
  match regAt x.2 with
  | none => s
  | some (g, _) =>
    if g.rw = 0 ∧ g.rwi = 0 then s
    else
      match x.1 with
      | .inForce =>
        State.unitFault { s with regs := { s.regs with
          badInForce := setInsert x.2 s.regs.badInForce, parityInForce := true, parityAddr := x.2 } } 360 0
      | .staged =>
        (State.unitFault { s with regs := { s.regs with
          staged := Table.erase x.2 s.regs.staged, stagedLost := setInsert x.2 s.regs.stagedLost, parityAddr := x.2 } } 361 0).raise 2
      | .held =>
        (State.unitFault { s with regs := { s.regs with
          held := Table.erase x.2 s.regs.held, stagedLost := setInsert x.2 s.regs.stagedLost, parityAddr := x.2 } } 361 0).raise 2

/-- A read or a commit touches a copy: its parity is checked (R72). -/
def State.touchCopy (s : State) (x : RegCopy × Nat) : State :=
  if s.regs.upset.contains x then (s.mendCopy x).parityBad x else s

/-- One ranged field of a written word clamped; 0 stays where it means off (R90, R361). -/
def Clamp.apply (c : Clamp) (w : Word) : Word :=
  let v := w.field c.lo c.len
  if c.zero && v == 0 then w
  else if v < c.min then w.setField c.lo c.len c.min
  else if c.max < v then w.setField c.lo c.len c.max
  else w

/-- What R131 and R144 add to the clamping: ILIM rounds down to a multiple of 5; PWML is greater than PWMS, and 63 where PWMS is 63,
for which the range of PWML leaves no such value (log entry 84). -/
def afterClamp (off : Nat) (w : Word) : Word :=
  if 0x151000 ≤ off ∧ off < 0x151800 ∧ off % 0x40 = 8 then w.setField 0 7 (w.field 0 7 / 5 * 5)
  else if 0x153000 ≤ off ∧ off < 0x153600 ∧ off % 0x10 = 0 ∧ w.field 16 6 ≤ w.field 8 6 then
    w.setField 16 6 (min (w.field 8 6 + 1) 63)
  else w

/-! ## Accesses (R55 to R68) -/

/-- The value a write gives to RW and RWI fields (R63, R64). -/
def WriteOp.apply (o : WriteOp) (old v : Word) : Word :=
  match o with
  | .plain => v
  | .set => old ||| v
  | .clear => old &&& ~~~v
  | .toggle => old ^^^ v

/-- The window of a BAR0 offset (R80). -/
def windowOp (off : Nat) : WriteOp :=
  match off / 0x400000 with
  | 0 => .plain
  | 1 => .set
  | 2 => .clear
  | _ => .toggle

/-- The lock of a path is disarmed (R66). -/
def State.unlocked (s : State) : Path → Bool
  | .ep .a => s.regs.unlockedA
  | .ep .b => s.regs.unlockedB
  | .mgmt => s.regs.unlockedM

/-- The lock of a path disarmed or armed. -/
def State.setLock (s : State) (p : Path) (open' : Bool) : State :=
  match p with
  | .ep .a => { s with regs := { s.regs with unlockedA := open' } }
  | .ep .b => { s with regs := { s.regs with unlockedB := open' } }
  | .mgmt => { s with regs := { s.regs with unlockedM := open' } }

/-- A write to GEN.UNLOCK (R67). -/
def State.unlock (s : State) (p : Path) (val : Word) : State :=
  if val.field 0 32 = 0x5A3C96E1 then s.setLock p true else (s.setLock p false).count Reg.genUnlockFail

/-- The register at an offset has a field that a window can write (R59, R64). A write to a register that also has fields the
device writes is no ignored write (log entry 80). -/
def RegGroup.takes (g : RegGroup) (o : WriteOp) : Bool :=
  g.rw != 0 || g.rwi != 0 || (g.wc != 0 && decide (o = .plain))

/-- What becomes of a write that reaches the device: no register, or one that the guard lock refuses, or an access. The
state counts what is ignored, and the path's lock re-arms with every write that reaches the fabric (R55 to R68). -/
def State.accept (s : State) (p : Path) (off size : Nat) (val : Word) (flashOk : Bool) : State × Option Access :=
  if !s.isOwner p then (s.count Reg.genNonownerWrites, none)
  else
    let was := s.unlocked p
    let s := s.setLock p false
    let inner := off % 0x400000
    let o := canonicalOff inner
    let op := windowOp off
    if size ≠ 8 ∨ off % 8 ≠ 0 ∨ 0x1000000 ≤ off ∨ 0x200000 ≤ inner then (s.count Reg.genBadAccess, none)
    else
      match regAt o with
      | none => (s.count Reg.genBadAccess, none)
      | some (g, _) =>
        if g.guarded && !was then ((s.count Reg.genGuardRefused).raise 2, none)
        else if !g.takes op then (s.count Reg.genBadAccess, none)
        else (s, some { path := p, off := o, op := op, val := val, flashOk := flashOk })

/-! ## The write in its register (R61, R64, R76, R152) -/

/-- The word that a write gives to a register, ranged fields clamped. -/
def State.newWord (s : State) (a : Access) (g : RegGroup) : Word :=
  afterClamp a.off (g.clamps.foldl (fun w c => c.apply w) (a.op.apply (s.latest a.off) a.val))

/-- A reserved bit that is a live test control changes (R65, R76). -/
def State.changesLive (s : State) (a : Access) (g : RegGroup) : Bool :=
  (a.op.apply (s.reg a.off) a.val ^^^ s.reg a.off) &&& BitVec.ofNat 64 g.live != 0

/-- The engine whose PORT block holds an offset. -/
def blockEngine (off : Nat) : Option Nat :=
  if 0x100000 ≤ off ∧ off < 0x122000 then some ((off - 0x100000) / 0x400) else none

/-- The spare that shadows the port of a serving engine, if any. -/
def State.spareOf (s : State) (n : Nat) : Option Nat :=
  match s.portOf n with
  | some p => (s.port p).shadow
  | none => none

/-- The report of a lost staged copy ends with the next write of its register by host software (R74). -/
def State.clearLost (s : State) (p : Path) (off : Nat) : State :=
  match p with
  | .ep _ => { s with regs := { s.regs with stagedLost := setErase off s.regs.stagedLost } }
  | .mgmt => s

/-- RW fields take a word: staged or held, counted, and mirrored to a shadowing spare in the same access (R42, R152). -/
def State.stageWrite (s : State) (p : Path) (off : Nat) (w : Word) : State :=
  let s := s.countIf s.gen.freeze Reg.genHeldWrites
  let s := (s.stage off w).clearLost p off
  match blockEngine off with
  | some n =>
    match s.spareOf n with
    | some m => s.stage (off - 0x400 * n + 0x400 * m) w
    | none => s
  | none => s

/-- The register block of a shadowing spare: writes to its RW and WC fields are discarded (R152). -/
def State.shadowBlock (s : State) (off : Nat) : Bool :=
  match blockEngine off with
  | some n => (s.shadowedPort n).isSome
  | none => false

/-- RWI fields updated at once, RW fields staged (R61). A register that holds only WC fields keeps nothing. -/
def State.writeFields (s : State) (a : Access) (g : RegGroup) : State :=
  let w := s.newWord a g
  let s := if g.rwi = 0 then s else s.setReg a.off (mixWord (BitVec.ofNat 64 g.rwi) (s.reg a.off) w)
  let s := if g.rw = 0 then s else s.stageWrite a.path a.off w
  s.clearLost a.path a.off

end Sys2Proof.Machine
end

