-- ==== Sys2Proof/Machine/Forwarding.lean ====
section
/-! DEFINITION. Lookup and forwarding: key lookup (R165 to R173), stream to pipeline (R179 to R181), the route read
(R255 to R263), the late-start rule (R266, R267), placement (R259, R265, R269), capture records (R353 to R356) and dropped
heads (R288). -/

namespace Sys2Proof.Machine

/-! ## Lookup (R165 to R170) -/

/-- The slots that a lookup reads for a key: those of its home buckets, and the slot a stash entry names (R168). -/
def Bank.slots (b : Bank) (key : Word) : List (Nat × Bool) :=
  let h0 := homeBucket key b.seed0
  let h1 := homeBucket key b.seed1
  let homes := (List.range 4).map (fun i => 4 * h0 + i) ++ (if h1 = h0 then [] else (List.range 4).map (fun i => 4 * h1 + i))
  homes.map (fun w => (w, false)) ++ (b.stash.filter (fun e => e.1 == key)).map (fun e => (e.2, true))

/-- A lookup for a key reads a slot, or a stash entry, that holds an uncorrectable error (R170). The stash is read whole. -/
def Bank.slotError (b : Bank) (key : Word) : Bool :=
  b.badSlots.any (fun k => decide (262144 ≤ k ∧ k < 262144 + b.stash.length) || (b.slots key).any (fun x => x.1 == k))

/-- A slot holds a key: VALID, and equal on bits [62:8] (R168). -/
def WatchEntry.holds (e : WatchEntry) (key : Word) : Bool := e.valid && e.1.field 8 55 == key.field 8 55

/-- The slot that a key is found in, and whether the stash named it (R168). -/
def Bank.lookup (b : Bank) (key : Word) : Option (Nat × Bool) := (b.slots key).find? (fun x => (b.entry x.1).holds key)

/-! ## Streams and pipelines (R179, R180) -/

/-- Bucket of a stream (R179). -/
def streamBucket (port ident : Nat) : Nat := (crc32c (leBytes 5 (port * 2 ^ 29 + ident))).toNat % 512
/-- Pipeline in force for a bucket (R180). -/
def State.pipeFor (s : State) (b : Nat) : Nat := Table.get (fun b => b % 8) s.scriv.pipeOf b

/-! ## The late-start rule (R267) -/

/-- Most dynamic stuff bits in m stuffed bits (R267). -/
def stuffMost (m : Nat) : Nat := (m + 3) / 4
/-- Nominal and data bit times of an engine in ps. -/
def Engine.nomPs (e : Engine) : Nat := 6250 * nbtMtq e.useNbt
def Engine.dataPs (e : Engine) (brs : Bool) : Nat := if brs then 6250 * dbtMtq e.useDbt else e.nomPs
/-- The bit at which the rate rises: nominal up to its sample point, then TSEG2 of the data phase (R267). -/
def Engine.brsPs (e : Engine) (brs : Bool) : Nat :=
  if brs then 6250 * (e.useNbt.field 48 9 * (1 + e.useNbt.field 32 9)) + 6250 * (e.useDbt.field 40 6 * e.useDbt.field 16 6)
  else e.nomPs
/-- The bit at which it falls: data phase up to its sample point, then TSEG2 of the nominal phase. -/
def Engine.fallPs (e : Engine) (brs : Bool) : Nat :=
  if brs then 6250 * (e.useDbt.field 40 6 * (1 + e.useDbt.field 32 7)) + 6250 * (e.useNbt.field 48 9 * e.useNbt.field 16 8)
  else e.nomPs
/-- Bits of an FD frame's CRC field with stuff count and fixed stuff bits, CRC-17 to 16 bytes and CRC-21 above
(log entry 14). -/
def fdCrcBits (len : Nat) : Nat := if len ≤ 16 then 27 else 32

/-- V_max − t_K of an ingress frame in ps. -/
def Engine.verdictLatest (e : Engine) (f : BusFrame) : Nat :=
  let m := 8 * f.len
  if f.fmt = 4 then Config.xlVerdictLatest e.useNbt e.useXbt f.len
  else if isFd f.fmt then (m + stuffMost m + fdCrcBits f.len) * e.dataPs f.brs + e.fallPs f.brs + 8 * e.nomPs
  else (m + 15 + stuffMost (m + 15) + 9) * e.nomPs

/-- A_max(k) − t_K in ps. -/
def Engine.byteLatest (e : Engine) (f : BusFrame) (k : Nat) : Nat :=
  let m := 8 * (k + 1)
  if f.fmt = 4 then Config.xlByteLatest e.useNbt e.useXbt k
  else (m + stuffMost m) * (if isFd f.fmt then e.dataPs f.brs else e.nomPs)

/-- E_min(k) of a copy in ps; with k the data length it is C_min (R267). -/
def Engine.byteEarliest (e : Engine) (fmt : Nat) (brs : Bool) (k : Nat) : Nat :=
  if fmt = 4 then Config.xlByteEarliest e.useNbt e.useXbt k
  else if isFd fmt then (if isExtended fmt then 35 else 16) * e.nomPs + e.brsPs brs + (5 + 8 * k) * e.dataPs brs
  else ((if isExtended fmt then 39 else 19) + 8 * k) * e.nomPs

/-- C_min of a copy in ps. -/
def Engine.crcEarliest (e : Engine) (fmt : Nat) (brs : Bool) (len : Nat) : Nat :=
  if fmt = 4 then Config.xlCrcEarliest e.useNbt e.useXbt len else e.byteEarliest fmt brs len

/-- t_min in ps of elapsed time (R267). -/
def tMin (ing egr : Engine) (tk : Nat) (f : BusFrame) (fmt : Nat) (brs : Bool) : Nat :=
  let terms : List Int := ((ing.verdictLatest f : Int) + 29000 - egr.crcEarliest fmt brs f.len) ::
    (List.range f.len).map (fun k => (ing.byteLatest f k : Int) + 29000 - egr.byteEarliest fmt brs k)
  (terms.foldl max 330000 + (1000 * tk : Nat)).toNat

/-! ## The route read (R255 to R263) -/

/-- The copy's form (R261, R262). -/
def RouteEntry.formOf (r : RouteEntry) (f : BusFrame) : Nat × Nat × Bool × Nat :=
  let up := r.promote && isClassicData f.fmt
  let ident := if r.rewrite then (if isExtended f.fmt then r.newId else r.newId % 2 ^ 11) else f.ident
  (if up then f.fmt + 2 else f.fmt, ident, if up then r.brs else f.brs, if up then min f.dlc 8 else f.dlc)

/-- A copy of a frame for a destination of route entry n. -/
def RouteEntry.copyFor (r : RouteEntry) (n : Nat) (f : BusFrame) (d : Dest) (noToken : Bool) : Copy :=
  let x := r.formOf f
  { route := n, dest := d, stage := .waiting, fmt := x.1, ident := x.2.1, brs := x.2.2.1, dlc := x.2.2.2, cls := r.cls
    verify := r.verify, eslot := if r.sealOut then some r.eslot else none, cset := r.cset, life := r.life
    noToken := noToken, noCell := false, fallback := false, space := none, keptLen := min f.len 2048, withdrawn := false
    own := none }

/-- The bucket of a rate-limited entry is brought up to date, and a token is taken if it holds one (R263). -/
def State.takeToken (s : State) (g : Bool) (n : Nat) (r : RouteEntry) : State × Bool :=
  if r.rate = 0 then (s, true)
  else
    let x := s.routeState g n
    let l := min (x.level + 65536 * (r.rate * (s.time.now - x.last)) / 1000000000) (65536 * r.burst)
    let ok := decide (65536 ≤ l)
    (s.modRoute g n (fun x => { x with level := if ok then l - 65536 else l, last := s.time.now }), ok)

/-- Space for a capture copy is reserved as its route is read (R354); a lack of it is a record lost (R356). -/
def State.reserveFor (s : State) (e : Ep) (k len : Nat) : State × Option (Nat × Nat × Bool) :=
  let r := s.captureReserve e k (recordWords len)
  if r.2.isNone && s.captureUsable e k then (r.1.captureLost e k, none) else r

/-- One entry of a route list: a copy for each destination, ports in ascending order, then the capture ring (R258). -/
def State.readEntry (s : State) (g : Bool) (f : BusFrame) (n : Nat) : State × List Copy :=
  let r := (s.bank g).route n
  let t := s.takeToken g n r
  let ports := ((List.range 128).filter r.toPort).map (fun p => r.copyFor n f (.port p) (!t.2))
  if r.cap then
    let c := r.copyFor n f (.capture (epOf r.cep) r.cring) (!t.2)
    if t.2 then
      let x := t.1.reserveFor (epOf r.cep) r.cring c.keptLen
      (x.1, ports ++ [{ c with space := x.2 }])
    else (t.1, ports ++ [c])
  else (t.1, ports)

/-- The whole route list. -/
def State.readRoutes (s : State) (g : Bool) (f : BusFrame) : List Nat → State × List Copy
  | [] => (s, [])
  | n :: t =>
    let a := s.readEntry g f n
    let b := State.readRoutes a.1 g f t
    (b.1, a.2 ++ b.2)

/-! ## Placement (R259, R265, R269) -/

/-- The first outcome of R259 that applies to a copy; none when it is placed. -/
def State.judgeCopy (s : State) (f : Frame) (c : Copy) : Option CopyOutcome :=
  match c.dest with
  | .port p =>
    let words := packetWords c.fmt (match c.own with | some o => o.1.length | none => cellsFor f.f.len)
    if p = f.port ∧ ¬ c.fallback then some .selfPort
    else if c.noToken ∧ ¬ c.fallback then some .rate
    else if ¬ s.portUp p ∨ s.dray.fenced ∨ (s.port p).held then some .down
    else if c.verify ∧ ¬ (f.sealed ∧ f.good) then some .verify
    else if ¬ (s.engine (s.serving p)).enables c.fmt ∨ (c.eslot.isSome ∧ ¬ (isFd c.fmt ∨ c.fmt = 4)) then some .format
    else if c.noCell then some .noCell
    else if c.stage ≠ .lane ∧ c.eslot.isNone ∧ 32 < (s.port p).credits c.cls + words then some .noCredit
    else none
  | .capture e k | .mirror e k | .unknown e k =>
    if c.noToken then some .rate
    else if c.space.isSome then none
    else if ¬ s.captureUsable e k ∨ s.dray.fenced then some .down
    else some .noCredit

/-- The XL word of a packet (R278). -/
def xlWord (f : BusFrame) : Word :=
  if f.fmt = 4 then pack [(56, f.sdt), (48, f.vcid), (47, b2n f.sec), (0, f.af)] else 0

/-- A store-and-forward copy written at the tail of its class queue (R264, R278, R282), with no attempt counted for it, a
cut-through attempt that ended in a bus error included (log entry 85). -/
def State.pushCopy (s : State) (fid i : Nat) (f : Frame) (c : Copy) (p : Nat) : State :=
  let cells := c.chain f
  let expire := if c.life = 0 then none else some ((f.validTai.toNat + 1000000 * c.life) % 2 ^ 40)
  let s := s.withLevel p (fun s => s.pushPacket p c.cls {
    closed := true, abandon := false, fmt := c.fmt, brs := c.brs, ident := c.ident
    len := match c.own with | some o => o.2 | none => f.f.len
    dlc := c.dlc, tag := 0, expire := expire, cset := c.cset, ingress := f.port, host := none, xl := xlWord { f.f with sec := if c.own.isSome then c.ownSec else f.f.sec }, cells := cells
    words := packetWords c.fmt cells.length, attempts := 0, failStatus := 0, failDetail := 0, dropNext := false })
  (s.count (Reg.drayPcntPlaced p)).modCopy fid i (fun c => { c with stage := .placed })

/-- A cut-through request (R16 step 4, R266): a candidate is judged, and placed in its lane with its t_min. -/
def State.cutThrough (s : State) (fid i : Nat) : State :=
  match s.frame? fid, s.copy? fid i with
  | some f, some c =>
    match c.dest with
    | .port p =>
      let q := s.port p
      let r := (s.bank f.gen).route c.route
      let egr := s.engine q.serving
      if !r.ct || c.verify || c.eslot.isSome || !s.flag Reg.drayCtl 0 || s.flag (Reg.drayPortCtl f.port) 1 ||
          !s.ctEligible p || (c.fmt == 4 && !egr.useXl.bit 0) || q.phase == 2 || q.lane.isSome || !(q.queue c.cls).isEmpty then s
      else
        match s.judgeCopy f { c with stage := .lane } with
        | some o => s.endCopy fid i o
        | none =>
          let t := tMin (s.engine (s.serving f.port)) egr f.keyAt f.f c.fmt c.brs
          let s := s.modPort p (fun q => { q with lane := some { fid := fid, copy := i, tMinPs := t, started := false } })
          (s.modCopy fid i (fun c => { c with stage := .lane })).count (Reg.drayPcntPlaced p)
    | _ => s
  | _, _ => s

/-- The Drayman's work at lookup (R16 step 4): routes, cells, capture space and cut-through requests. -/
def State.drayLookup (s : State) (fid : Nat) (f : Frame) : State :=
  let a := s.readRoutes f.gen f.f f.routes
  let uses := (a.2.filter (fun c => c.port?.isSome)).length
  let s := a.1.countIf (!f.routes.isEmpty) Reg.drayFrames
  let put : State → List Nat → List Copy → State := fun s cells cs =>
    s.modFrame fid (fun f => { f with copies := f.copies ++ cs, cells := cells })
  let s := match s.allocCells (cellsFor f.f.len) uses with
    | some x => put (x.1.storeData x.2 f.f.data) x.2 a.2
    | none => put s [] (a.2.map (fun (c : Copy) => if c.port?.isSome then { c with noCell := true } else c))
  let s := a.2.foldl (fun s c => s.openRecord f c) s
  (List.range a.2.length).foldl (fun s i => s.cutThrough fid i) s

/-- The capture of an unknown frame (R173). -/
def State.unknownCapture (s : State) (fid : Nat) (f : Frame) (e : Ep) (k : Nat) : State :=
  let x := s.reserveFor e k f.f.len
  let c : Copy := { (RouteEntry.copyFor (0, 0, 0, 0) 0 f.f (.unknown e k) false) with
    stage := if x.2.isSome then .placed else .done .noCredit, space := x.2 }
  (x.1.openRecord f c).modFrame fid (fun f => { f with copies := [c] })

/-- A list of consecutive route indices that exist (R173, R255). -/
def routeList (base count : Nat) : List Nat := ((List.range count).map (fun i => base + i)).filter (fun r => r < 65536)

/-- A sealed frame is assigned to the lowest-numbered free lane; before the DRBG is instantiated no operation starts, and
its verdict is LANE (R300, R317, log entry 17). -/
def State.assignLane (s : State) (fid : Nat) : State :=
  if !s.lock.drbgReady then
    let valid := match s.frame? fid with | some f => f.valid | none => false
    (s.modFrame fid (fun f => { f with verdictCode := some 6 })).countIf valid Reg.lockLaneLost
  else
    match (List.range 16).find? (fun i =>
      let l := (s.lock.lanes[i]?).getD {}
      !l.fenced && !l.testing && l.verify.isNone && l.job.isNone) with
    | some i =>
      let s := s.modFrame fid (fun f => { f with lane := some i })
      { s with lock := { s.lock with lanes := listMod (fun (l : Lane) => { l with verify := some fid }) i s.lock.lanes } }
    | none => s

/-- A frame found at a watch index enters decode and forwarding (R16 steps 3 to 5, R181). -/
def State.lookupHit (s : State) (fid w : Nat) (f : Frame) : State :=
  let g := s.gen.activeGen
  let e := (s.bank g).entry w
  let q := s.pipeFor (streamBucket f.port f.f.ident)
  let queued := (s.frames.filter (fun (x : Nat × Frame) => x.2.looked && x.2.watch.isSome && x.2.pipe == q &&
    !x.2.decoding && !x.2.committing && !x.2.committed)).length
  let full := decide (256 ≤ queued)
  let f := { f with looked := true, gen := g, watch := some w, sealed := e.sealed, pipe := q, committed := full
                    routes := routeList e.routeBase e.routeCount }
  let s := (s.setFrame fid f).countIf full (Reg.scrivQfull q)
  (if e.sealed then s.assignLane fid else s).drayLookup fid f

/-- A frame that is not found (R173). -/
def State.lookupMiss (s : State) (fid : Nat) (f : Frame) : State :=
  let ctl := s.reg (Reg.watchPortCtl f.port)
  let e := epOf (ctl.field 39 1)
  let k := ctl.field 32 7
  let act := if ctl.field 0 2 = 1 ∧ ¬ s.captureUsable e k then 0 else ctl.field 0 2
  let f := { f with looked := true, gen := s.gen.activeGen, unk := act
                    routes := if act = 2 then routeList (ctl.field 48 16) (ctl.field 42 6) else [] }
  let s := s.setFrame fid f
  if act = 1 then s.unknownCapture fid f e k else s.drayLookup fid f

/-! ## Commands -/

/-- LOOKUP (R16 steps 3 and 4, R168, R170, R173); none after load shed (R381). eccSlot names a slot of the active bank, or
a stash entry as 262144 + place, in which an error that cannot be corrected now stands: until an image rewrites it, every
lookup that reads it fails (R170). -/
def execLookup (fid : Nat) (eccSlot : Option Nat) (s : State) : Answer :=
  .next (match s.frame? fid with
    | none => s
    | some f =>
      if f.looked || s.cellar.pfail then s
      else
        let s := s.count Reg.watchLookups
        let g := s.gen.activeGen
        let s := match eccSlot with
          | some k => s.modBank g (fun b => { b with badSlots := setInsert k b.badSlots })
          | none => s
        let key := f.f.keyWord f.port (s.flag (Reg.watchPortCtl f.port) 2)
        let f := { f with key := key }
        let s := if (s.bank g).slotError key then
            ((s.setFrame fid { f with looked := true, eccLost := true, gen := g, committed := true }).count Reg.watchEccFail).unitFault 289 0
          else
            match (s.bank g).lookup key with
            | some (w, st) => ((s.count Reg.watchHits).countIf st Reg.watchStashHits).lookupHit fid w f
            | none => s.lookupMiss fid f
        s.afterVerdict fid)

/-- COPY_PLACEMENT (R16 step 8, R258, R259, R265, R269): the first copy that waits of a valid frame whose verdicts have landed, in
list and port order, is ended, sealed or placed; nothing is placed after load shed (R381). -/
def execCopyPlacement (fid copy : Nat) (s : State) : Answer :=
  .next (match s.frame? fid, s.copy? fid copy with
    | some f, some c =>
      if s.cellar.pfail || !f.looked || !f.valid || (f.sealed && f.verdictCode.isNone) || decide (c.stage ≠ .waiting) ||
          (f.copies.take copy).any (fun c => decide (c.stage = .waiting)) then s
      else
        let s := match c.dest, c.fallback with
          | .port p, true => (s.count (Reg.drayPcntFallback p)).countSet c.cset Reg.drayCsFallback
          | _, _ => s
        let s := match s.judgeCopy f c with
          | some o => s.endCopy fid copy o
          | none =>
            match c.dest, c.eslot with
            | .port _, some slot =>
              let s := s.modCopy fid copy (fun c => { c with stage := .sealing })
              { s with lock := { s.lock with waiting := s.lock.waiting ++ [(SealSource.copy fid copy, slot)] } }
            | .port p, none => s.pushCopy fid copy f c p
            | _, _ => s.modCopy fid copy (fun c => { c with stage := .placed })
        s.settleFrame fid
    | _, _ => s)

/-- CAPTURE_RECORD_FINISH (R339, R353, R354): the data, the trailing words and, last, the length word of a record are written. A
record whose space has gone with its ring ends with DOWN. -/
def execCaptureRecordFinish (fid copy : Nat) (s : State) : Answer :=
  .next (match s.frame? fid, s.copy? fid copy with
    | some f, some c =>
      match c.ring?, c.space with
      | some (e, k), some sp =>
        if decide (c.stage ≠ .placed) || !f.valid || (f.sealed && f.verdictCode.isNone) then s
        else
          let x := s.takeFree
          let s := x.1.writeData e k sp.1 (recordData (f.plain.take c.keptLen) x.2)
          let s := s.emit (.ring e k (sp.1 + sp.2.1 - 2) (recordTail f c))
          let s := s.emit (.ring e k sp.1 [lengthWord sp.2.1 (recordKind c.dest) sp.2.2])
          let s := (s.modRing e k (fun r => r.written sp.1)).count (Reg.hostRingEntries e.idx k)
          let s := match c.dest with
            | .mirror _ _ => s.countSet c.cset Reg.drayCsMirrored
            | .capture _ _ => s.countOutcome c.cset none .sent
            | .unknown _ _ | .port _ => s
          ((s.ringNotify e k).modCopy fid copy (fun c => { c with stage := .done .sent, space := none })).settleFrame fid
      | some _, none =>
        if decide (c.stage = .placed) then
          let s := match c.dest with
            | .capture _ _ => s.countOutcome c.cset none .down
            | _ => s
          (s.modCopy fid copy (fun c => { c with stage := .done .down })).settleFrame fid
        else s
      | _, _ => s
    | _, _ => s)

/-- DROP_HEAD (R288): the head packet of a class leaves, or leaves when the attempt on the bus ends otherwise than
successfully. An open packet keeps its credits until its backfill has been discarded. -/
def State.dropHead (s : State) (p c : Nat) : State :=
  match (s.port p).queue c with
  | [] => s
  | _ :: _ =>
    if (s.port p).onBus = some (.cls c) then s.modHead p c (fun k => { k with dropNext := true })
    else s.withLevel p (fun s => (s.retireHead p c .txDrop 8 0 0).count (Reg.drayTxqDropcmd p))

end Sys2Proof.Machine
end

