-- ==== Sys2Proof/Machine/Scrivener.lean ====
section
/-! DEFINITION. The Scrivener: op words, extraction, conversion, the commit buffer and its commits (R181 to R193), Pantry
fills (R202), and the captures of SCRIV.REC_SEL and HASH_IN (R206). -/

namespace Sys2Proof.Machine

/-! ## Op words (R184) -/

/-- A decode op word. -/
abbrev OpWord := Word
def OpWord.opc (o : OpWord) : Nat := Word.field o 62 2
def OpWord.src (o : OpWord) : Nat := Word.field o 60 2
def OpWord.bigEndian (o : OpWord) : Bool := Word.bit o 59
def OpWord.muxen (o : OpWord) : Bool := Word.bit o 58
def OpWord.muxreg (o : OpWord) : Bool := Word.bit o 57
def OpWord.muxval (o : OpWord) : Nat := Word.field o 45 12
/-- LEN; 0 means 64. -/
def OpWord.len (o : OpWord) : Nat := if Word.field o 37 6 = 0 then 64 else Word.field o 37 6
def OpWord.start (o : OpWord) : Nat := Word.field o 23 14
def OpWord.signal (o : OpWord) : Nat := Word.field o 0 23

/-! ## Extraction (R185 to R187) -/

/-- The bit at a position of a source; none outside the source's positions (R185, R187). -/
def Frame.srcBit (f : Frame) (src p : Nat) : Option Bool :=
  match src with
  | 0 => if p < 8 * f.f.len then some (((f.plain[p / 8]?).getD 0).getLsbD (p % 8)) else none
  | 1 => if f.f.fmt = 4 ∧ p < 32 then some (natField f.f.af p 1 == 1) else none
  | 2 => if p < (if isExtended f.f.fmt then 29 else 11) then some (natField f.f.ident p 1 == 1) else none
  | _ => if p < 12 then some (natField f.f.len p 1 == 1) else none

/-- The n positions of a big-endian field from its most significant bit down (R186). -/
def bigPositions : Nat → Nat → List Nat
  | _, 0 => []
  | p, n + 1 => p :: bigPositions (if p % 8 = 0 then p + 15 else p - 1) n

/-- The positions of an op's field, most significant bit first (R186). -/
def OpWord.positions (o : OpWord) : List Nat :=
  if o.bigEndian then bigPositions o.start o.len else ((List.range o.len).map (fun k => o.start + k)).reverse

/-- The number whose bits stand at some positions, most significant first; none where one lies outside the source. -/
def readPositions (bit : Nat → Option Bool) (ps : List Nat) : Option Nat :=
  ps.foldl (fun a p =>
    match a, bit p with
    | some n, some b => some (2 * n + b2n b)
    | _, _ => none) (some 0)

/-- The raw value an op reads from a frame; none where it is SHORT (R187). -/
def OpWord.raw (o : OpWord) (f : Frame) : Option Nat := readPositions (f.srcBit o.src) o.positions

/-! ## Conversion and checks (R190 to R192) -/

/-- Value and CAUSE of a raw field, 0 for FRESH; an INVALID result commits no value. -/
def Desc.convert (d : Desc) (len raw : Nat) : Word × Nat :=
  if invalidCode d.invcode len raw then (0, 1)
  else if d.isEnum then (BitVec.ofNat 64 raw, 0)
  else if d.type = 4 ∧ (bcdDigits len raw).any (fun x => decide (9 < x)) then (0, 4)
  else
    let v := ((convertRaw d.type len raw).mul (fl32 d.factor)).add (fl32 d.offset)
    match v.word with
    | none => (0, 3)
    | some x => if outOfRange v d.vmin d.vmax then (0, 2) else (x, 0)

/-- The result of a SIGNAL op that runs (R187, R192). -/
def State.signalResult (s : State) (f : Frame) (o : OpWord) : Result :=
  match o.raw f with
  | none => .value o.signal 0 5
  | some raw =>
    let r := Desc.convert ((s.bank f.gen).desc o.signal) o.len raw
    .value o.signal r.1 r.2

/-! ## Execution (R181, R188, R189) -/

/-- The mux condition of an op holds (R188). -/
def OpWord.runs (o : OpWord) (f : Frame) : Bool := !o.muxen || (if o.muxreg then f.sel1 else f.sel0) == some o.muxval

/-- A selector's new content (R188). -/
def OpWord.selects (o : OpWord) (f : Frame) : Option Nat :=
  match o.raw f with
  | some v => if v ≤ 4095 then some v else none
  | none => none

/-- One op of a frame's program (R183, R188, R189). -/
def State.runOp (s : State) (f : Frame) (o : OpWord) : Frame :=
  let g := { f with opPos := f.opPos + 1 }
  if o.opc = 0 then
    if o.runs f then { g with results := f.results ++ [s.signalResult f o] }
    else if Desc.pages ((s.bank f.gen).desc o.signal) = 0 then g
    else { g with results := f.results ++ [.page o.signal] }
  else if o.opc = 1 then
    if o.runs f then (if o.signal % 2 = 1 then { g with sel1 := o.selects f } else { g with sel0 := o.selects f }) else g
  else { g with badOp := true }

/-- Every op of the frame's program has been executed, or one has ended it (R183). -/
def State.programDone (s : State) (f : Frame) : Bool := f.badOp || decide ((s.frameEntry f).opCount ≤ f.opPos)

/-- An earlier frame of the stream has still to commit, of those that a condition singles out (R20). -/
def State.earlierInStream (s : State) (fid : Nat) (f : Frame) (q : Frame → Bool) : Bool :=
  s.frames.any (fun (x : Nat × Frame) => decide (x.1 < fid) && x.2.looked && x.2.watch.isSome && !x.2.committed &&
    x.2.port == f.port && x.2.f.ident == f.f.ident && q x.2)

/-- Results that stand in a pipeline's commit buffer (R181). -/
def State.buffered (s : State) (q : Nat) : Nat :=
  ((s.frames.filter (fun (x : Nat × Frame) => x.2.pipe == q)).map (fun (x : Nat × Frame) => x.2.results.length)).sum

/-- A frame's next op may execute: it is at the head of its stream, its pipeline is in service and not busy with another
frame, the commit buffer has room, and a sealed frame's F has arrived (R20, R181, R183, R296). -/
def State.mayDecode (s : State) (fid : Nat) (f : Frame) : Bool :=
  f.looked && f.watch.isSome && !f.committed && !f.committing && !s.programDone f && !s.scriv.fenced.contains f.pipe &&
  !s.frames.any (fun (x : Nat × Frame) => x.1 != fid && x.2.decoding && x.2.pipe == f.pipe) &&
  decide (s.buffered f.pipe < 16384) && (!f.sealed || f.fArrived || f.verdictCode.isSome) &&
  !s.earlierInStream fid f (fun g => g.pipe != f.pipe || !g.committing)

/-! ## Commits (R183, R193) -/

/-- One result applied to its record (R189, R193). -/
def State.applyResult (s : State) (f : Frame) (w : Nat) : Result → State
  | .value i v cause => s.commitResult f.gen i w v cause f.validTai
  | .page i => s.pageCheck f.gen i w (s.frameEntry f) f.validTai

/-- The frame's work in its pipeline is over (R47). -/
def State.endDecode (s : State) (fid : Nat) : State :=
  (s.modFrame fid (fun f => { f with results := [], decoding := false, committing := false, committed := true })).settleFrame fid

/-- The last commit has been made: the watch is refreshed, unless a bad op word ended the program (R18, R183). -/
def State.finishFrame (s : State) (fid : Nat) (f : Frame) (w : Nat) : State :=
  if f.badOp then (s.count Reg.scrivBadOp).endDecode fid
  else ((s.count (Reg.scrivFrames f.pipe)).refresh f w).endDecode fid

/-! ## Captures (R206) -/

/-- A record's four words captured in one Pantry access. -/
def State.captureRec (s : State) (i : Nat) : State :=
  let s := s.touchLine (lineOf i)
  let r := s.recOf i
  { s with scriv := { s.scriv with recPeek := [r.value, r.stamp, r.stateWord, r.pubVal] } }

/-- The bucket of the stream that HASH_IN names; HASH_OUT shows it with the pipeline then in force for it. -/
def State.captureHash (s : State) (val : Word) : State :=
  { s with scriv := { s.scriv with hashOut := some (streamBucket (val.field 29 7) (val.field 0 29)) } }

/-! ## Commands -/

/-- DECODE_OP (R181 to R192): the frame's pipeline executes its next op. -/
def execDecodeOp (fid : Nat) (s : State) : Answer :=
  .next (match s.frame? fid with
    | none => s
    | some f =>
      if !s.mayDecode fid f then s
      else
        let g := s.runOp f (s.opWord ((s.frameEntry f).opBase + f.opPos))
        let done := s.programDone g
        (s.setFrame fid { g with decoding := !done, committing := done }).count (Reg.scrivOps f.pipe))

/-- RECORD_COMMIT (R16 step 8, R18, R183, R193): the next result of a good frame's commit buffer reaches the Pantry; the
last one refreshes the watch. An unverified frame drops its buffer. -/
def execRecordCommit (fid : Nat) (s : State) : Answer :=
  .next (match s.frame? fid with
    | none => s
    | some f =>
      match f.watch with
      | none => s
      | some w =>
        if !f.looked || !f.valid || f.committed || (f.sealed && f.verdictCode.isNone) || s.scriv.fenced.contains f.pipe ||
            s.earlierInStream fid f (fun _ => true) then s
        else if f.sealed && !f.good then (s.count Reg.scrivDiscardUnverified).endDecode fid
        else if !s.programDone f then s
        else
          match f.results with
          | [] => s.finishFrame fid f w
          | r :: t =>
            let s := (s.modFrame fid (fun f => { f with results := t })).applyResult f w r
            if t = [] then s.finishFrame fid f w else s)

/-- PANTRY_LINE_FILL (R201, R202): a line is read from the Larder. lost carries VALUE and STAMP of both records as read
when the read, or the line's words in the Pantry, cannot be corrected; an error in a line that stands in the Pantry names
its set (R409). -/
def execPantryLineFill (line : Nat) (lost : Option (Word × Word × Word × Word)) (s : State) : Answer :=
  let present := (Table.get (fun _ => []) s.scriv.pantry (line % 16384)).contains line
  let s := if present then s else s.touchLine line
  .next (match lost with
    | none => s
    | some (v0, t0, v1, t1) =>
      (((s.loseRec (2 * line) v0 t0).loseRec (2 * line + 1) v1 t1).count Reg.scrivDataLost).unitFault 291 (if present then line % 16384 + 1 else 0))

end Sys2Proof.Machine
end

