-- ==== Sys2Proof/Machine/Images.lean ====
section
/-! DEFINITION. Table images: the load command, its phases, the records, and the checks of an image and of the bank it
leaves (R174 to R177, R204, R205, R257, R306, R491). -/

namespace Sys2Proof.Machine

/-! ## The loader (R174, R177) -/

/-- The loader changed. -/
def State.modLoader (s : State) (f : Loader → Loader) : State :=
  { s with watch := { s.watch with loader := f s.watch.loader } }

/-- A load begins to wait; ERR and ERR_REC show the last load until this one ends. The first load after reset fixes the
capture buffer's size (R357). -/
def State.loadBegin (s : State) (e : Ep) (k len : Nat) : State :=
  let s := { s with cellar := { s.cellar with capMib := some (s.cellar.capMib.getD (s.fld Reg.hostCapCtl 0 11)) } }
  s.modLoader (fun l => { ({} : Loader) with
    st := .waiting, cmd := some (e, k), length := len, err := l.err, errRec := l.errRec, queue := l.queue })

/-- A load has ended: its command completes, and a held load starts (R177). -/
def State.loadEnd (s : State) (status detail : Nat) (result : Word) : State :=
  let l := s.watch.loader
  let s := s.modLoader (fun l => { l with st := .idle, cmd := none })
  let s := match l.cmd with
    | some (e, k) => s.endCommand e k status detail result
    | none => s
  match l.queue with
  | [] => s
  | (e, k, len) :: t => (s.modLoader (fun l => { l with queue := t })).loadBegin e k len

/-- A load fails with an error at a record: the inactive bank is bad (R176, R177). -/
def State.loadFail (s : State) (err rec' : Nat) : State :=
  let s := s.modLoader (fun l => { l with err := err, errRec := rec' })
  ((s.markBad).count Reg.watchLoadFail).loadEnd 5 err 0

/-- Something in flight carries the generation of the inactive bank: a frame, a walk, or a swap whose indices are not all
checked (R47, R217, R221). -/
def State.genBusy (s : State) (g : Bool) : Bool :=
  s.genInFlight g || s.watch.walks.any (fun k => k.gen == g) || (decide (0 < s.watch.uncheckedLeft) && g == s.inactiveGen)

/-! ## Records (R175, R176, R204, R257) -/

/-- Number of the section that the next record belongs to; none when every section has been read. -/
def Loader.section? (l : Loader) : Option Nat := (List.range 5).find? (fun i => (l.counts[i]?).getD 0 != 0)

/-- Bytes of a record before an op run's op words. -/
def recordBytes (sec : Nat) : Nat :=
  match sec with
  | 0 => 32
  | 1 => 16
  | 2 => 40
  | 3 => 24
  | _ => 8

/-- A record of a section with its key has been written (R176). -/
def Loader.written (l : Loader) (sec key : Nat) (ws : List Word) : Loader :=
  let left := (l.counts[sec]?).getD 0 - 1
  { l with
    counts := listMod (fun _ => left) sec l.counts
    recNo := if left = 0 then 0 else l.recNo + 1
    pos := l.pos + 8 * ws.length
    crc := (crc32cUpdate (BitVec.ofNat 32 l.crc) (ws.flatMap (fun w => leBytes 8 w.toNat))).toNat
    wrote := (sec, key, l.recNo) :: l.wrote }

/-- Consecutive op words written into op memory. -/
def writeOps (t : Table Word) (base : Nat) : List Word → Table Word
  | [] => t
  | w :: ws => writeOps (Table.set (fun _ => 0) t base w) (base + 1) ws

/-- An op run would write an op word that a valid entry of the active bank references (R176). -/
def State.opOverlap (s : State) (base count : Nat) : Bool :=
  (s.bank s.gen.activeGen).entries.any (fun (x : Nat × WatchEntry) =>
    decide (x.2.opCount ≠ 0 ∧ x.2.opBase < base + count ∧ base < x.2.opBase + x.2.opCount))

/-- The record check that a record fails, if any (R176 point 2): ws is the record as read, header and op words for a run. -/
def State.recordError (s : State) (sec : Nat) (ws : List Word) : Option Nat :=
  let l := s.watch.loader
  let w0 := (ws[0]?).getD 0
  if l.length < l.pos + recordBytes sec then some 1
  else if sec ≤ 1 then (if 2 ^ 18 ≤ ((ws[if sec = 0 then 0 else 1]?).getD 0).toNat then some 3 else none)
  else if sec = 2 then (if 2 ^ 16 ≤ w0.toNat then some 7 else none)
  else if sec = 3 then (if w0.field 23 40 ≠ 0 then some 7 else none)
  else
    let count := w0.field 24 25
    let base := w0.field 0 24
    if w0.field 49 15 ≠ 0 ∨ count = 0 then some 7
    else if l.length < l.pos + 8 + 8 * count then some 1
    else if 2 ^ 24 < base + count then some 8
    else if s.opOverlap base count then some 9
    else none

/-- A record that passes is written into the inactive bank or into op memory (R175, R204, R257). -/
def State.writeRecord (s : State) (sec : Nat) (ws : List Word) : State :=
  let g := s.inactiveGen
  let w : Nat → Word := fun i => (ws[i]?).getD 0
  let k0 := (w 0).toNat
  let s' := match sec with
    | 0 => s.modBank g (fun b => { b with
        badSlots := setErase k0 b.badSlots
        entries := Table.set (fun _ => emptyEntry) b.entries k0 (if (w 1).bit 63 then (w 1, w 2, w 3) else emptyEntry) })
    | 1 => s.modBank g (fun b => { b with
        badSlots := setErase (262144 + s.watch.loader.recNo) b.badSlots
        stash := if s.watch.loader.recNo = 0 then [(w 0, (w 1).toNat)] else b.stash ++ [(w 0, (w 1).toNat)] })
    | 2 =>
      let r : RouteEntry := (w 1, w 2, w 3, w 4)
      (s.modBank g (fun b => { b with routes := Table.set (fun _ => (0, 0, 0, 0)) b.routes k0 r })).modRoute g k0
        (fun _ => { level := 65536 * r.burst, last := s.time.now, mcount := 0 })
    | 3 =>
      let i := (w 0).field 0 23
      let s := s.modBank g (fun b => { b with descs := Table.set (fun _ => (0, 0)) b.descs i (w 1, w 2) })
      if (w 0).bit 63 then s.initRec i else s
    | _ =>
      let ops := (List.range ((w 0).field 24 25)).map (fun i => w (i + 1))
      { s with scriv := { s.scriv with ops := writeOps s.scriv.ops ((w 0).field 0 24) ops } }
  let key := match sec with
    | 1 => s.watch.loader.recNo
    | 3 | 4 => (w 0).field 0 (if sec = 3 then 23 else 24)
    | _ => k0
  s'.modLoader (fun l => l.written sec key ws)

/-! ## Bank checks (R176 point 4, R205, R257, R306) -/

/-- Number of the record of this image that wrote an item; 0xFFFF_FFFF for an item that none wrote. -/
def Loader.recordOf (l : Loader) (sec key : Nat) : Nat :=
  match l.wrote.find? (fun x => x.1 == sec && x.2.1 == key) with
  | some x => x.2.2
  | none => 0xFFFFFFFF

/-- Items of a section in ascending record number, those that no record wrote last, by index. -/
def Loader.order (l : Loader) (sec : Nat) (keys : List Nat) : List Nat :=
  (keys.foldl (fun (t : Table Nat) k => Table.insert (l.recordOf sec k * 2 ^ 32 + k) k t) []).map (·.2)

/-- Indices of the vote record that a record is a source of (R195). -/
def Bank.voteOf (b : Bank) (i : Nat) : Option Nat :=
  (List.range 4).findSome? (fun k =>
    let n := Desc.nsrc (b.desc (i - (k + 1)))
    if k + 1 ≤ i ∧ n ≠ 0 ∧ k + 1 ≤ n + 1 then some (i - (k + 1)) else none)

/-- LEN lies outside R190 for a TYPE. -/
def badLen (ty len : Nat) : Bool :=
  match ty with
  | 2 => len != 32
  | 3 => len != 64
  | 4 => decide (len < 4) || len % 4 != 0
  | 1 | 6 => decide (len < 2)
  | _ => false

/-- An op word of a watch's program is refused (R205). -/
def Bank.badOp (b : Bank) (e : WatchEntry) (o : OpWord) : Bool :=
  let d : Desc := b.desc o.signal
  let limit := match o.src with
    | 1 => 32
    | 2 => if isExtended e.fmt then 29 else 11
    | _ => 12
  decide (2 ≤ o.opc) || Word.field o 43 2 != 0 || (o.opc == 1 && decide (1 < o.signal)) || (o.src == 1 && e.fmt != 4) ||
  (o.src != 0 && o.positions.any (fun p => decide (limit ≤ p))) ||
  (o.opc == 0 && (badLen d.type o.len || d.nsrc != 0 || (e.fanGroup && (b.voteOf o.signal).isSome)))

/-- A watch entry is refused by its own fields (R176). -/
def WatchEntry.bad (e : WatchEntry) : Bool :=
  e.fmt == 7 || e.tunit == 3 || (e.fmt != 4 && e.1.field 8 16 != 0) || (!isExtended e.fmt && decide (0x7FF < e.ident)) ||
  e.period == 0 || decide (e.window < 50000) || (e.sealed && !(e.fmt == 2 || e.fmt == 3 || e.fmt == 4)) ||
  (e.opCount != 0 && isRemote e.fmt) || e.1.field 0 8 != 0 || e.2.1.field 22 5 != 0 || e.2.2.field 26 3 != 0 ||
  e.2.2.field 0 16 != 0

/-- A route entry is refused where it lies in the list of a watch entry (R257, R306). -/
def WatchEntry.badRoute (e : WatchEntry) (r : RouteEntry) : Bool :=
  (r.rewrite && decide (0x7FF < r.newId) && !isExtended e.fmt) || (r.sealOut && !r.verify && e.sealed)

/-- A route entry is refused by its own fields (R257). -/
def RouteEntry.bad (r : RouteEntry) : Bool :=
  (r.ct && (r.verify || r.sealOut)) || (r.rate != 0 && r.burst == 0) || r.2.2.2.field 0 6 != 0

/-- A float is 0 of either sign. -/
def Fl.isZero : Fl → Bool
  | .fin _ m _ => m == 0
  | _ => false

/-- The descriptor of record i is refused (R205). -/
def Bank.badDesc (b : Bank) (i : Nat) : Bool :=
  let d : Desc := b.desc i
  let open' := d.vmin == 0xFC00 && d.vmax == 0x7C00
  let n := d.nsrc
  d.type == 7 || decide (fl16 d.vmin = .nan) || decide (fl16 d.vmax = .nan) || (fl16 d.vmax).lt (fl16 d.vmin) ||
  (d.isEnum && (!open' || !(fl16 d.deadband).isZero)) ||
  (n != 0 && (d.policy == 3 || i % 8 != 0 || (d.policy == 1 && (n != 2 || !d.isEnum)) || (d.policy == 2 && d.isEnum) ||
    decide (n < d.minfresh) || d.factor != 0x3F800000 || !(fl32 d.offset).isZero || !open' || d.invcode != 0 || d.pages != 0)) ||
  (match b.voteOf i with
    | some v => n != 0 || (d.isEnum != Desc.isEnum (b.desc v))
    | none => false)

/-- The first failure of the bank checks, with its record number (R176 point 4). -/
def State.bankError (s : State) : Option (Nat × Nat) :=
  let l := s.watch.loader
  let b := s.bank s.inactiveGen
  let stash := (List.range b.stash.length).zip b.stash
  let stashRec : Nat → Nat := fun r => if l.mode = 1 ∧ l.nStash = 0 then 0xFFFFFFFF else r
  let ws := l.order 0 (b.entries.map (·.1))
  let key : Nat → Nat := fun w => (b.entry w).1.field 8 55
  let homes : Nat → List Nat := fun k =>
    let kw := BitVec.ofNat 64 (256 * k)
    [homeBucket kw b.seed0, homeBucket kw b.seed1]
  let err3 := (stash.find? (fun x => !(b.entry x.2.2).valid)).map (fun x => (3, stashRec x.1))
  let err4 := (ws.find? (fun w => !(homes (key w)).contains (w / 4) &&
      !b.stash.any (fun x => x.2 == w && x.1.field 8 55 == key w))).map (fun w => (4, l.recordOf 0 w))
  let err5a := ((List.range ws.length).find? (fun i => (ws.take i).any (fun v => key v == key ((ws[i]?).getD 0)))).map
    (fun i => (5, l.recordOf 0 ((ws[i]?).getD 0)))
  let err5b := (stash.find? (fun x => ws.any (fun w => key w == x.2.1.field 8 55 && (homes (key w)).contains (w / 4)))).map
    (fun x => (5, stashRec x.1))
  let routesOf : WatchEntry → List Nat := fun e => routeList e.routeBase e.routeCount
  let err7a := ws.findSome? (fun w =>
    let e := b.entry w
    let ops := ((List.range e.opCount).map (fun k => e.opBase + k)).filter (fun a => a < 2 ^ 24)
    if e.bad || ops.any (fun a => b.badOp e (s.opWord a)) then some (7, l.recordOf 0 w)
    else ((routesOf e).find? (fun r => e.badRoute (b.route r))).map (fun r => (7, l.recordOf 2 r)))
  let err7b := ((l.order 2 (b.routes.map (·.1))).find? (fun r => (b.route r).bad)).map (fun r => (7, l.recordOf 2 r))
  let votes := b.descs.flatMap (fun (x : Nat × (Word × Word)) =>
    if Desc.nsrc x.2 = 0 then [x.1] else (List.range (Desc.nsrc x.2 + 2)).map (fun k => x.1 + k))
  let err7c := ((l.order 3 votes).find? b.badDesc).map (fun i => (7, l.recordOf 3 i))
  let err8 := (ws.find? (fun w =>
    let e := b.entry w
    decide ((e.opCount ≠ 0 ∧ 2 ^ 24 < e.opBase + e.opCount) ∨ (e.routeCount ≠ 0 ∧ 65536 < e.routeBase + e.routeCount)))).map
    (fun w => (8, l.recordOf 0 w))
  [err3, err4, err5a, err5b, err7a, err7b, err7c, err8].findSome? id

/-! ## Commands -/

/-- LOAD_IMAGE (R174, R177, R346): the load begins to wait, or is held while another load runs. -/
def execLoadImage (c : CmdEntry) (s : State) : Answer :=
  .next (s.startCommand c 1 (fun s =>
    if !cmdHeadOk c 0 || c.w1.field 0 3 != 0 || !wordsZero [c.w3, c.w4, c.w5, c.w6, c.w7] then s.endCmd c 3 0 0
    else if s.watch.loader.st = .idle then s.loadBegin c.ep c.ring c.w2.toNat
    else s.modLoader (fun l => { l with queue := l.queue ++ [(c.ep, c.ring, c.w2.toNat)] })))

/-- The checks of a header of eight words (R176 point 1). -/
def headerError (len : Nat) (h : Nat → Word) : Option Nat :=
  if len < 64 ∨ (h 0).field 0 32 ≠ 0x5754424C ∨ (h 0).field 32 16 ≠ 1 ∨ 2 < (h 0).field 48 8 ∨ (h 0).field 56 8 ≠ 0 ∨
      262144 < (h 2).field 0 32 ∨ h 6 ≠ 0 ∨ h 7 ≠ 0 then some 1
  else if 64 < (h 2).field 32 32 then some 6
  else none

/-- The write phase begins: a stash that the image replaces is emptied (R175). -/
def State.loadWrite (s : State) : State :=
  let l := s.watch.loader
  let s := s.modLoader (fun l => { l with st := .writing })
  if l.mode = 2 then s.modBank s.inactiveGen (fun b => { b with stash := [] }) else s

/-- IMAGE_COPY_DONE (R174): the active bank's entries, stash, routes, descriptors and seeds stand in the inactive bank. -/
def execImageCopyDone (s : State) : Answer :=
  let a := s.bank s.gen.activeGen
  .next (if s.watch.loader.st ≠ .copying then s
    else State.loadWrite (s.modBank s.inactiveGen (fun b => { b with
      entries := a.entries, stash := a.stash, badSlots := [], routes := a.routes, descs := a.descs, seed0 := a.seed0, seed1 := a.seed1 })))

end Sys2Proof.Machine
end

