-- ==== Sys2Proof/Machine/Transmit.lean ====
section
/-! DEFINITION. Host transmit entries: checks, credits and cells, the open packet, and its backfill (R279 to R283, R288,
R349 to R352). -/

namespace Sys2Proof.Machine

/-! ## The entry (R349, R350) -/

/-- Words 0 to 3 of a transmit entry. -/
structure TxEntry where
  w0 : Word
  w1 : Word
  w2 : Word
  w3 : Word
deriving DecidableEq, Repr

def TxEntry.port (t : TxEntry) : Nat := t.w0.field 56 7
def TxEntry.fmt (t : TxEntry) : Nat := t.w0.field 53 3
def TxEntry.ident (t : TxEntry) : Nat := t.w0.field 24 29
def TxEntry.brs (t : TxEntry) : Bool := t.w0.bit 23
def TxEntry.cls (t : TxEntry) : Nat := t.w0.field 21 2
def TxEntry.sealed (t : TxEntry) : Bool := t.w0.bit 20
def TxEntry.slot (t : TxEntry) : Nat := t.w0.field 10 10
def TxEntry.tag (t : TxEntry) : Nat := t.w1.field 32 32
def TxEntry.life (t : TxEntry) : Nat := t.w1.field 16 16
def TxEntry.dlc (t : TxEntry) : Nat := t.w1.field 12 4
def TxEntry.len (t : TxEntry) : Nat := t.w1.field 0 12

/-- The entry breaks a rule of R350 step 2. -/
def TxEntry.bad (t : TxEntry) : Bool :=
  t.w0.bit 63 || t.w0.field 0 10 != 0 || t.fmt == 7 || (!isExtended t.fmt && decide (0x7FF < t.ident)) ||
  (isClassicData t.fmt && t.len != min t.dlc 8) || (isRemote t.fmt && t.len != 0) || (isFd t.fmt && (fdDlc? t.len).isNone) ||
  (t.fmt == 4 && decide (t.len < 1 ∨ 2048 < t.len)) || (t.sealed && !(isFd t.fmt || t.fmt == 4)) || t.w2.field 0 3 != 0 ||
  (if t.fmt = 4 then t.w3.field 32 15 != 0 else t.w3 != 0)

/-- A half of a slot: 0 current, 1 next (R307). -/
def State.half (s : State) (slot which : Nat) : KeyHalf := Table.get (fun _ => {}) s.lock.halves (2 * slot + which)

/-- Bytes of F (R292). -/
def fBytes (sform : Nat) : Nat := if sform = 0 then 1 else if sform = 1 then 2 else 4
/-- Bytes of T (R292). -/
def tBytes (sform : Nat) : Nat := if sform = 0 then 3 else if sform = 1 then 6 else if sform = 2 then 8 else 12
/-- Seal bytes S (R292). -/
def sealBytes (sform : Nat) : Nat := fBytes sform + tBytes sform

/-- Length of a sealed frame with padding, if its format can hold it (R303, R304). -/
def sealedLen (fmt sform n : Nat) : Option Nat :=
  let m := n + sealBytes sform
  if fmt = 4 then (if m ≤ 2048 then some m else none) else (fdLenAtLeast m).map (·.1)

/-- Data bytes a chain is reserved for: those of the frame as it will be sent, sealed under the form of the slot's current half
(R279, R280, log entry 16). -/
def TxEntry.chainLen (t : TxEntry) (s : State) : Nat :=
  if t.sealed then (sealedLen t.fmt (s.half t.slot 0).sform t.len).getD t.len else t.len

/-- The open packet of an entry, before its place, tag and cells are known (R278, R350 step 5). -/
def TxEntry.packet (t : TxEntry) (h : HostTx) (s : State) : Packet :=
  { closed := false, abandon := false, fmt := t.fmt, brs := isFd t.fmt && t.brs, ident := t.ident, len := t.len
    dlc := if isFd t.fmt then (fdDlc? t.len).getD 0 else t.dlc, tag := 0
    expire := if t.life = 0 then none else some ((s.tai.toNat + 1000000 * t.life) % 2 ^ 40)
    cset := 0, ingress := 0, host := some h, xl := t.w3, cells := [], words := packetWords t.fmt (cellsFor (t.chainLen s))
    attempts := 0
    failStatus := 0, failDetail := 0, dropNext := false }

/-! ## Open packets (R282, R283) -/

/-- Tags of a port's packets that are open or dropped while open. -/
def Port.openTags (p : Port) : List Nat :=
  (p.queues.flatMap (fun q => (q.filter (fun k => !k.closed)).map (·.tag))) ++ p.zombies.map (·.tag)

/-- Cells a waiting packet needs: its words less the head, tag and XL word (R278). -/
def Packet.ncell (k : Packet) : Nat := k.words - packetWords k.fmt 0

/-- The frame's resources are there: class credits, the host's share of them, an open tag, and cells (R279, R280, R282). -/
def State.txFits (s : State) (w : TxWait) : Bool :=
  let q := s.port w.port
  decide (q.credits w.cls + w.pkt.words ≤ 32 ∧ q.hostCredits w.cls + w.pkt.words ≤ s.fld (Reg.drayTxqCtl w.port) 16 6 ∧
    q.openTags.length < 64 ∧ s.dray.hostCells + w.pkt.ncell ≤ s.fld Reg.drayCellCtl 0 15)

/-- The open head is written if everything it needs is there (R350 steps 4 and 5). -/
def State.txOpen (s : State) (w : TxWait) : Option State :=
  if !s.txFits w then none
  else
    match s.allocCells w.pkt.ncell 1 with
    | none => none
    | some x =>
      let tags := (s.port w.port).openTags
      let tag := ((List.range 128).find? (fun t => !tags.contains t)).getD 0
      let s := { x.1 with dray := { x.1.dray with hostCells := x.1.dray.hostCells + x.2.length } }
      some (s.withLevel w.port (fun s => s.pushPacket w.port w.cls { w.pkt with tag := tag, cells := x.2 }))

/-- An open packet changed by its tag. -/
def State.modOpen (s : State) (p tag : Nat) (f : Packet → Packet) : State :=
  s.modPort p (fun q => { q with queues := q.queues.map (fun (l : List Packet) =>
    l.map (fun (k : Packet) => if !k.closed && k.tag == tag then f k else k)) })

/-- The open packet of a tag. -/
def State.openPacket? (s : State) (p tag : Nat) : Option Packet :=
  ((s.port p).queues.flatMap (fun q => q)).find? (fun k => !k.closed && k.tag == tag)

/-- A dropped open packet's backfill has been discarded: its credits return (R288). -/
def State.dropZombie (s : State) (p tag : Nat) : State :=
  s.withLevel p (fun s => s.modPort p (fun q => { q with zombies := q.zombies.filter (fun z => z.tag != tag) }))

/-- A backfill with ABANDON = 1 (R283). -/
def State.abandonOpen (s : State) (p tag status detail : Nat) : State :=
  s.modOpen p tag (fun k => { k with closed := true, abandon := true, failStatus := status, failDetail := detail })

/-- A seal of the open packet waits or runs. -/
def State.sealUnderWay (s : State) (p tag : Nat) : Bool :=
  let mine : SealSource → Bool := fun x =>
    match x with
    | .host q t _ => q == p && t == tag
    | .copy _ _ => false
  s.lock.waiting.any (fun x => mine x.1) || s.lock.lanes.any (fun l => match l.job with | some j => mine j.src | none => false)

/-! ## Commands -/

/-- TRANSMIT_ENTRY (R342, R350): the ring's next entry is read, and ends at its first failing step or is opened. -/
def execTransmitEntry (e : Ep) (ring : Nat) (w0 w1 w2 w3 : Word) (s : State) : Answer :=
  let r := s.ring e ring
  let t : TxEntry := { w0 := w0, w1 := w1, w2 := w2, w3 := w3 }
  let h : HostTx := { ep := e, ring := ring, tag := t.tag, slot := if t.sealed then some t.slot else none }
  .next (if !r.runs 4 || r.hostPos == r.devPos || r.txWait.isSome || s.cqBlocked e ring then s
    else
      let s := (s.modRing e ring (fun r => { r with devPos := (r.devPos + 1) % r.size })).count (Reg.hostRingEntries e.idx ring)
      if !s.flag (Reg.hostEpCtl e.idx) 0 then s.txCompletion h 1 0 0
      else if t.bad then s.txCompletion h 2 0 0
      else if !s.portUp t.port || s.dray.fenced || (s.port t.port).held then s.txCompletion h 3 0 0
      else
        let w : TxWait := { port := t.port, cls := t.cls, pkt := t.packet h s }
        match s.txOpen w with
        | some s' => s'
        | none => s.modRing e ring (fun r => { r with txWait := some w }))

/-- TX_RESOURCES_READY (R279, R280, R350 step 4): a waiting entry is opened once its credits and cells are there. -/
def execTxResourcesReady (e : Ep) (ring : Nat) (s : State) : Answer :=
  .next (match (s.ring e ring).txWait with
    | none => s
    | some w =>
      match s.txOpen w with
      | some s' => s'.modRing e ring (fun r => { r with txWait := none })
      | none => s)

/-- TX_BACKFILL (R283, R288, R350 step 6): the buffer has been fetched, or its fetch failed. A packet to be sealed stays
open until its seal is complete; a dropped packet's backfill is discarded. A failed fetch counts in RING_MEM_ERR (R361). -/
def execTxBackfill (port tag : Nat) (fetched : Option Bytes) (s : State) : Answer :=
  .next (
    if (s.port port).zombies.any (fun z => z.tag == tag) then s.dropZombie port tag
    else
      match s.openPacket? port tag with
      | none => s
      | some k =>
        if s.sealUnderWay port tag then s
        else
          match fetched with
          | none =>
            let s := match k.host with
              | some h => s.count (Reg.hostRingMemErr h.ep.idx h.ring)
              | none => s
            s.abandonOpen port tag 9 0
          | some d =>
            let data := (List.range k.len).map (fun i => (d[i]?).getD 0)
            match k.host.bind (·.slot) with
            | some slot => { s with lock := { s.lock with waiting := s.lock.waiting ++ [(SealSource.host port tag data, slot)] } }
            | none => (s.storeData k.cells data).modOpen port tag (fun k => { k with closed := true }))

end Sys2Proof.Machine
end

