-- ==== Sys2Proof/Machine/Locksmith.lean ====
section
/-! DEFINITION. The Locksmith: seal forms, freshness values, verification, sealing, key slots and their swaps, key commands,
the key management lock, the DRBG, alarms and erase (R292 to R321). -/

namespace Sys2Proof.Machine

/-! ## Halves (R307, R308, R321) -/

/-- A half replaced. -/
def State.setHalf (s : State) (slot which : Nat) (h : KeyHalf) : State :=
  { s with lock := { s.lock with halves := Table.set (fun _ => {}) s.lock.halves (2 * slot + which) h } }

/-- LIMIT; 0 means 2^48 (R312). -/
def KeyHalf.limitOf (h : KeyHalf) : Nat := if h.limit = 0 then 2 ^ 48 else h.limit
/-- The key's bytes. -/
def KeyHalf.keyBytes (h : KeyHalf) : List Byte := beBytes (if h.ksize then 32 else 16) h.key.toNat
/-- The half may not seal: spent, or empty (R308). -/
def KeyHalf.cannotSeal (h : KeyHalf) : Bool := !h.loaded || h.spent

/-- One use of a half counted; the warning and the limit (R308). -/
def State.useHalf (s : State) (slot which : Nat) : State :=
  let h := s.half slot which
  let u := min (h.ucount + 1) h.limitOf
  let warn := !h.warned && decide (h.limitOf * s.fld Reg.lockCtl 0 7 / 100 ≤ u)
  let spent := !h.spent && u == h.limitOf
  let s := s.setHalf slot which { h with ucount := u, warned := h.warned || warn, spent := h.spent || spent }
  let s := if spent ∧ which = 0 then { s with lock := { s.lock with autoDue := setInsert slot s.lock.autoDue } } else s
  s.raiseIf (warn && which == 0) 6

/-! ## Seals (R292 to R295) -/

/-- Bits of FVT. -/
def fvtBits (sform : Nat) : Nat := 8 * fBytes sform - 1

/-- The protected bytes P of a data field (R293). -/
def protectedBytes (sform : Nat) (d : List Byte) : List Byte := (d.drop (fBytes sform)).take (d.length - sealBytes sform)

/-- The seal header SH (R294). -/
def sealHeader (f : BusFrame) (kp : Bool) (plen fv : Nat) : List Byte :=
  let xl := f.fmt == 4
  leBytes 1 f.fmt ++ leBytes 1 (b2n kp + 2 * b2n (xl && f.sec)) ++ leBytes 1 (if xl then f.sdt else 0) ++
  leBytes 1 (if xl then f.vcid else 0) ++ leBytes 4 (f.ident % 2 ^ 29) ++ leBytes 4 (if xl then f.af else 0) ++ leBytes 2 plen ++
  leBytes 2 0 ++ leBytes 8 fv

/-- The IV of GMAC and GCM: SENDER as stored, then FV most significant byte first (R295). -/
def KeyHalf.iv (h : KeyHalf) (fv : Nat) : List Byte := leBytes 4 h.sender ++ beBytes 8 fv

/-- The MAC output over a seal header and the protected bytes as carried (R295). -/
def KeyHalf.mac (h : KeyHalf) (sh p : List Byte) (fv : Nat) : List Byte :=
  match h.alg with
  | 0 => cmac h.keyBytes (sh ++ p)
  | 1 => gcmTag h.keyBytes (h.iv fv) (sh ++ p) []
  | _ => gcmTag h.keyBytes (h.iv fv) sh p

/-- P enciphered or deciphered under GCM; unchanged under the others. -/
def KeyHalf.crypt (h : KeyHalf) (p : List Byte) (fv : Nat) : List Byte :=
  if h.alg = 2 then gctr (roundKeys h.keyBytes) (h.iv fv) p else p

/-- F of a seal: KP and FVT, most significant bit first (R292). -/
def sealF (sform : Nat) (kp : Bool) (fv : Nat) : List Byte :=
  beBytes (fBytes sform) (b2n kp * 2 ^ fvtBits sform + fv % 2 ^ fvtBits sform)

/-! ## Freshness (R297, R298) -/

/-- The candidates for FV, the rebuilt one first. -/
def KeyHalf.candidates (h : KeyHalf) (fvt : Nat) : List Nat :=
  let b := fvtBits h.sform
  let r := h.r.toNat
  let lo := if r < 2 ^ (b - 1) then 0 else if 2 ^ 64 - 1 - 2 ^ (b - 1) < r then 2 ^ 64 - 2 ^ b else r - 2 ^ (b - 1) + 1
  let c := lo + (fvt + 2 ^ b - lo % 2 ^ b) % 2 ^ b
  ((List.range (h.ahead + 1)).map (fun k => c + k * 2 ^ b)).filter (fun v => v < 2 ^ 64)

/-- FVT of a received data field. -/
def receivedFvt (sform : Nat) (d : List Byte) : Nat := beNat (d.take (fBytes sform)) % 2 ^ fvtBits sform

/-- A candidate's tag matches a received frame (R295, R297). -/
def KeyHalf.tagMatches (h : KeyHalf) (f : BusFrame) (fv : Nat) : Bool :=
  let p := protectedBytes h.sform f.data
  (h.mac (sealHeader f h.ph p.length fv) p fv).take (tBytes h.sform) == f.data.drop (f.data.length - tBytes h.sform)

/-- The first candidate whose tag matches, and its number. -/
def KeyHalf.matching (h : KeyHalf) (f : BusFrame) : Option (Nat × Nat) :=
  let cs := h.candidates (receivedFvt h.sform f.data)
  ((List.range cs.length).zip cs).find? (fun x => h.tagMatches f x.2)

/-- The receiving state after a value is accepted; none for a replay (R298). -/
def KeyHalf.accept (h : KeyHalf) (c : Nat) : Option KeyHalf :=
  let r := h.r.toNat
  let keep : Word → Word := fun w => BitVec.ofNat 64 (w.toNat % 2 ^ h.win)
  if r < c then
    let d := c - r
    let m := if d ≤ 64 then (h.bitmap <<< d) ||| (1#64 <<< (d - 1)) else 0
    some { h with r := BitVec.ofNat 64 c, bitmap := keep m }
  else if c < r ∧ r ≤ c + h.win ∧ ¬ h.bitmap.bit (r - 1 - c) then
    some { h with bitmap := h.bitmap ||| (1#64 <<< (r - 1 - c)) }
  else none

/-! ## Verification (R300, R301) -/

/-- The half that KP selects (R300). -/
def State.selectHalf (s : State) (slot : Nat) (kp : Bool) : Option Nat :=
  if (s.half slot 0).loaded && (s.half slot 0).ph == kp then some 0
  else if (s.half slot 1).loaded && (s.half slot 1).ph == kp then some 1
  else none

/-- P of a GCM frame as plaintext, F and T as received (R296): under the FV whose tag matches, else the rebuilt one. -/
def KeyHalf.plaintext (h : KeyHalf) (f : BusFrame) : List Byte :=
  if h.alg ≠ 2 ∨ f.fmt ≠ 4 ∨ f.data.length < sealBytes h.sform then f.data
  else
    let fv := match h.matching f with
      | some x => x.2
      | none => (h.candidates (receivedFvt h.sform f.data)).headD 0
    f.data.take (fBytes h.sform) ++ h.crypt (protectedBytes h.sform f.data) fv ++ f.data.drop (f.data.length - tBytes h.sform)

/-- The verdict on a valid sealed frame, with FV and its candidate number once a tag has matched (R301). GCM is for XL frames only
(R295): an FD frame, which carries no SEC bit to match it, ends with FORM under a GCM half. -/
def Frame.sealCheck (f : Frame) : Nat × Option (Nat × Nat) :=
  let h := f.latched
  if f.keyGone then (5, none)
  else if !(isFd f.f.fmt || f.f.fmt == 4) || f.f.data = [] then (4, none)
  else if f.half.isNone then (3, none)
  else if decide (f.f.data.length < sealBytes h.sform) || (if f.f.fmt = 4 then f.f.sec != (h.alg == 2) else h.alg == 2) then (4, none)
  else match h.matching f.f with
    | some x => (0, some x)
    | none => (1, none)

/-- The counter of a verdict. -/
def verdictReg (code : Nat) : Nat :=
  match code with
  | 0 => Reg.lockVerified
  | 1 => Reg.lockTagFail
  | 2 => Reg.lockReplay
  | 3 => Reg.lockNoKey
  | 4 => Reg.lockFormFail
  | 5 => Reg.lockKeyGone
  | _ => Reg.lockLaneLost

/-- The verdict lands in the frame's record, with its counts (R297, R298, R301, R308). -/
def State.sealVerdict (s : State) (fid : Nat) (f : Frame) : State :=
  let v := f.sealCheck
  let r : State × Nat := match f.half, v.2 with
    | some (slot, which), some (k, fv) =>
      let s := s.countIf (decide (1 ≤ k)) Reg.lockAheadHits
      match (s.half slot which).accept fv with
      | some h => ((s.setHalf slot which h).useHalf slot which, 0)
      | none => (s, 2)
    | _, _ => (s, v.1)
  let s := (r.1.count (verdictReg r.2)).modFrame fid (fun f => { f with verdictCode := some r.2, lane := none })
  ((s.freeLane fid).tinkSettle).settleFrame fid

/-! ## Sealing (R302 to R305) -/

/-- What is to be sealed: header as sent, data bytes, and whether the source is still there. -/
def State.sealInput (s : State) (src : SealSource) : Option (BusFrame × List Byte) :=
  match src with
  | .copy fid i =>
    match s.frame? fid, s.copy? fid i with
    | some f, some c =>
      if c.stage = .sealing then
        some ({ f.f with fmt := c.fmt, ident := c.ident },
          if f.sealed && f.half.isSome then protectedBytes f.latched.sform f.plain else f.f.data)
      else none
    | _, _ => none
  | .host p tag d =>
    match s.openPacket? p tag with
    | some k => some ({ fmt := k.fmt, ident := k.ident, dlc := dlcOf k.fmt k.len k.dlc, brs := k.brs, esi := false, sec := false
                        sdt := k.xl.field 56 8, vcid := k.xl.field 48 8, af := k.xl.field 0 32, data := d }, d)
    | none => none

/-- A seal refused or ended without a sealed frame (R304): SEAL_FAIL for a copy, abandonment for a host frame. -/
def State.sealFail (s : State) (src : SealSource) (reg detail : Nat) : State :=
  let s := s.count reg
  match src with
  | .copy fid i => (s.endCopy fid i .sealFail).settleFrame fid
  | .host p tag _ => s.abandonOpen p tag 10 detail

/-- A seal begins on a lane: the half is latched, its FV taken, and the output's chain reserved (R279, R302, R303). -/
def State.sealBegin (s : State) (lane : Nat) (src : SealSource) (slot : Nat) (f : BusFrame) (d : List Byte) : State :=
  let h := s.half slot 0
  if h.cannotSeal || (h.alg == 2 && f.fmt != 4) then s.sealFail src Reg.lockSealSpent 1
  else
    match sealedLen f.fmt h.sform d.length with
    | none => s.sealFail src Reg.lockSealLong 2
    | some n =>
      let go : State → List Nat → State := fun s cells =>
        let s := s.setHalf slot 0 { h with fvTx := h.fvTx + 1 }
        let j : SealJob := { src := src, slot := slot, half := h, which := 0, fv := h.fvTx, keyGone := false, cells := cells }
        { s with lock := { s.lock with lanes := listMod (fun (l : Lane) => { l with job := some j }) lane s.lock.lanes } }
      match src with
      | .host p tag _ =>
        -- a longer form than the one reserved for takes further cells where there are any (log entry 16)
        let held := match s.openPacket? p tag with | some k => k.cells.length | none => 0
        if cellsFor n ≤ held then go s []
        else
          match s.allocCells (cellsFor n - held) 1 with
          | some x =>
            let s := { x.1 with dray := { x.1.dray with hostCells := x.1.dray.hostCells + x.2.length } }
            go (s.modOpen p tag (fun k => { k with cells := k.cells ++ x.2 })) []
          | none => s.sealFail src Reg.lockSealLong 2
      | .copy fid i =>
        match s.allocCells (cellsFor n) 1 with
        | some x => go x.1 x.2
        | none => (s.endCopy fid i .noCell).settleFrame fid

/-- The data field of a sealed frame (R293, R295, R303). -/
def SealJob.output (j : SealJob) (f : BusFrame) (d : List Byte) : List Byte :=
  let h := j.half
  let n := (sealedLen f.fmt h.sform d.length).getD 0
  let fv := j.fv.toNat
  let p := h.crypt (d ++ List.replicate (n - sealBytes h.sform - d.length) 0#8) fv
  let f := { f with sec := h.alg == 2 }
  sealF h.sform h.ph fv ++ p ++ (h.mac (sealHeader f h.ph p.length fv) p fv).take (tBytes h.sform)

/-- A completed seal's frame goes on: a copy to its placement with its own chain, a host frame to its backfill. -/
def State.sealDone (s : State) (j : SealJob) (out : List Byte) : State :=
  match j.src with
  | .copy fid i =>
    let cells := match s.frame? fid with | some f => f.cells | none => []
    let s := (s.storeData j.cells out).releaseCells cells
    s.modCopy fid i (fun c => { c with
      stage := .waiting, eslot := none, own := some (j.cells, out.length), ownSec := j.half.alg == 2
      dlc := if isFd c.fmt then (fdDlc? out.length).getD c.dlc else c.dlc })
  | .host p tag _ =>
    match s.openPacket? p tag with
    | none => s
    | some k =>
      (s.storeData k.cells out).modOpen p tag (fun k => { k with
        closed := true, len := out.length, dlc := if isFd k.fmt then (fdDlc? out.length).getD k.dlc else k.dlc
        xl := if k.fmt = 4 then k.xl.setField 47 1 (b2n (j.half.alg == 2)) else k.xl })

/-! ## Swaps and writes of halves (R309, R310) -/

/-- A latched half's position after its slot has swapped. -/
def flipHalf (slot : Nat) (x : Nat × Nat) : Nat × Nat := if x.1 = slot then (x.1, 1 - x.2) else x

/-- The halves of a slot change places; operations keep the half they latched (R309, R310). -/
def State.swapSlot (s : State) (slot : Nat) : State :=
  let a := s.half slot 0
  let b := s.half slot 1
  let s := (s.setHalf slot 0 b).setHalf slot 1 a
  { s with
    frames := s.frames.map (fun (x : Nat × Frame) => (x.1, { x.2 with half := x.2.half.map (flipHalf slot) }))
    lock := { s.lock with lanes := s.lock.lanes.map (fun (l : Lane) =>
      { l with job := l.job.map (fun (j : SealJob) => { j with which := (flipHalf slot (j.slot, j.which)).2 }) }) } }

/-- A key command ends with a result of R313, shown in KM_RESULT. -/
def State.keyDone (s : State) (e : Ep) (ring slot code : Nat) (result : Word) : State :=
  let s := { s with lock := { s.lock with resultSlot := slot % 1024, resultCode := code } }
  s.endCommand e ring (if code = 0 then 0 else 5) code result

/-- The swaps of a commit: automatic ones, and those on request where host items commit; a slot swaps once (R309). -/
def State.keySwaps (s : State) (host : Bool) (result : Word) : State :=
  let asked := if host then s.lock.swaps else []
  let slots := asked.foldl (fun l x => setInsert x.1 l) s.lock.autoDue
  let s := slots.foldl State.swapSlot s
  let s := { s with lock := { s.lock with autoDue := [], swaps := if host then [] else s.lock.swaps } }
  asked.foldl (fun s x => s.keyDone x.2.1 x.2.2 x.1 0 result) s

/-- An operation has latched the next half of a slot and has not ended (R310). -/
def State.nextLatched (s : State) (slot : Nat) : Bool :=
  s.frames.any (fun (x : Nat × Frame) => x.2.half == some (slot, 1) && x.2.verdictCode.isNone && !x.2.dead) ||
  s.lock.lanes.any (fun l => match l.job with | some j => j.slot == slot && j.which == 1 | none => false)

/-- The next half is written, or the write waits for the operations that latched it (R310). -/
def State.writeNext (s : State) (e : Ep) (ring slot : Nat) (h : KeyHalf) : State :=
  if s.nextLatched slot then { s with lock := { s.lock with pending := s.lock.pending ++ [(slot, h, e, ring)] } }
  else (s.setHalf slot 1 h).keyDone e ring slot 0 (BitVec.ofNat 64 slot)

/-! ## Erase (R319, R320) -/

/-- An alarm erases the key store at once. -/
def State.eraseKeys (s : State) (code : Nat) : State :=
  let swaps := s.lock.swaps
  let pending := s.lock.pending
  let s := { s with
    frames := s.frames.map (fun (x : Nat × Frame) =>
      if x.2.looked && x.2.sealed && x.2.verdictCode.isNone && !x.2.dead then (x.1, { x.2 with keyGone := true }) else x)
    lock := { s.lock with
      halves := [], keks := [], kek0 := none, erased := true, alarm := code, swaps := [], pending := [], autoDue := []
      lanes := s.lock.lanes.map (fun (l : Lane) => { l with job := l.job.map (fun (j : SealJob) => { j with keyGone := true }) }) } }
  let s := swaps.foldl (fun s x => s.keyDone x.2.1 x.2.2 x.1 5 (BitVec.ofNat 64 x.1)) s
  let s := pending.foldl (fun s x => s.keyDone x.2.2.1 x.2.2.2 x.1 5 (BitVec.ofNat 64 x.1)) s
  (s.count Reg.lockErases).raise 7

/-! ## Key commands (R311 to R314) -/

/-- A KEK by its number: KEK0 as derived, KEK1 to KEK3 as loaded. -/
def State.kek (s : State) (k : Nat) : Option (List Byte) :=
  if k = 0 then s.lock.kek0.map (fun n => beBytes 32 (Config.kek0 n).toNat)
  else (Table.find? k s.lock.keks).map (fun b => beBytes 32 b.toNat)

/-- A key command starts: refused with NOT_HOLDER, or for a parameter (R314, R345). -/
def State.startKey (s : State) (c : CmdEntry) (opc slot : Nat) (ok : Bool) (run : State → State) : State :=
  s.startCommand c opc (fun s =>
    if s.lock.holder ≠ holderCode (.ep c.ep) then s.keyDone c.ep c.ring slot 1 (BitVec.ofNat 64 slot)
    else
      let s := { s with lock := { s.lock with holderAt := s.time.now } }
      if ok then run s else s.endCmd c 3 0 0)

/-- Byte i of an attribute block as a number. -/
def attrByte (a : List Byte) (i : Nat) : Nat := (byteAt a i).toNat

/-- The next half that an unwrapped blob makes; none where an attribute is refused (R312, R313). -/
def loadedHalf (slot : Nat) (x : List Byte) : Option KeyHalf :=
  let b := attrByte x 2
  let alg := natField b 0 2
  let sform := natField b 3 2
  let ksize := natField b 2 1 == 1
  let key := x.drop 16
  if leNat (x.take 2) ≠ slot ∨ alg = 3 ∨ (alg ≠ 0 ∧ sform < 2) ∨ 64 < attrByte x 3 ∨ key.length ≠ (if ksize then 32 else 16) ∨
      leNat ((x.drop 14).take 2) ≠ 0 then none
  else some { loaded := true, key := BitVec.ofNat 256 (beNat key), ksize := ksize, alg := alg, sform := sform
              ahead := natField b 5 2, ph := natField b 7 1 == 1, win := attrByte x 3, sender := leNat ((x.drop 4).take 4)
              limit := leNat ((x.drop 8).take 6), fvTx := 1 }

/-- A KEK blob's attributes are right for a KEK number (R312). -/
def kekAttrsOk (k : Nat) (x : List Byte) : Bool :=
  leNat (x.take 2) == 0xFFFF && ((x.drop 2).take 12).all (fun b => b == 0#8) && attrByte x 14 == k && attrByte x 15 == 0

/-! ## The key management lock (R314, R315) -/

/-- CLAIM by a path. -/
def State.kmClaim (s : State) (p : Path) : State :=
  if s.lock.holder = 0 then { s with lock := { s.lock with holder := holderCode p, holderAt := s.time.now, releaseDue := false } }
  else s.count Reg.lockKmBusy

/-- RELEASE by a path: ignored from any but the holder. -/
def State.kmReleaseBy (s : State) (p : Path) : State := if s.lock.holder = holderCode p then s.kmRelease else s

/-- KM_LOCK written by a path: CLAIM is judged first (log entry 18). -/
def State.kmWrite (s : State) (p : Path) (val : Word) : State :=
  let s := if val.bit 8 then s.kmClaim p else s
  if val.bit 9 then s.kmReleaseBy p else s

/-- The half that SLOT_SEL names, captured into SLOT_PEEK0 to SLOT_PEEK5 (R321). -/
def State.captureSlot (s : State) (val : Word) : State :=
  let h := s.half (val.field 0 10) (val.field 10 1)
  { s with lock := { s.lock with peek := [
      pack [(63, b2n h.loaded), (62, b2n h.ph), (61, b2n h.spent), (60, b2n h.warned), (56, h.alg), (55, b2n h.ksize), (53, h.sform),
        (51, h.ahead), (44, h.win), (0, h.sender)],
      BitVec.ofNat 64 h.ucount, BitVec.ofNat 64 h.limit, h.fvTx, h.r, h.bitmap] } }

/-! ## Commands -/

/-- SEAL_F_ARRIVAL (R300): KP selects the half, and the Locksmith latches it. -/
def execSealFArrival (fid : Nat) (s : State) : Answer :=
  .next (match s.frame? fid with
    | none => s
    | some f =>
      if !f.looked || !f.sealed || f.fArrived || f.verdictCode.isSome || f.f.data = [] || f.dead then s
      else
        let slot := (s.frameEntry f).keySlot
        match s.selectHalf slot ((byteAt f.f.data 0).getLsbD 7) with
        | some w =>
          let h := s.half slot w
          s.setFrame fid { f with fArrived := true, half := some (slot, w), latched := h, plain := h.plaintext f.f }
        | none => s.setFrame fid { f with fArrived := true })

/-- LOCKSMITH_VERDICT (R298, R301): the verdict on a frame that is valid at its port. -/
def execLocksmithVerdict (fid : Nat) (s : State) : Answer :=
  .next (match s.frame? fid with
    | none => s
    | some f =>
      if !f.looked || !f.sealed || !f.valid || f.eccLost || f.verdictCode.isSome ||
          !(f.fArrived || f.keyGone || f.f.data = [] || !(isFd f.f.fmt || f.f.fmt == 4)) then s
      else s.sealVerdict fid f)

/-- SEAL_START (R302 to R305): a free lane takes the oldest waiting copy or host frame. -/
def execSealStart (lane : Nat) (s : State) : Answer :=
  let l := (s.lock.lanes[lane]?).getD { fenced := true }
  .next (match s.lock.waiting with
    | [] => s
    | (src, slot) :: t =>
      if l.fenced || l.testing || l.verify.isSome || l.job.isSome || !s.lock.drbgReady then s
      else
        let s := { s with lock := { s.lock with waiting := t } }
        match s.sealInput src with
        | some x => s.sealBegin lane src slot x.1 x.2
        | none => match src with
          | .host p tag _ => s.dropZombie p tag
          | .copy _ _ => s)

/-- SEAL_COMPLETE (R303 to R305, R308, R320). -/
def execSealComplete (lane : Nat) (s : State) : Answer :=
  .next (match ((s.lock.lanes[lane]?).getD {}).job with
    | none => s
    | some j =>
      let s := { s with lock := { s.lock with lanes := listMod (fun (l : Lane) => { l with job := none }) lane s.lock.lanes } }
      let s := match s.sealInput j.src with
        | none => match j.src with
          | .host p tag _ => s.dropZombie p tag
          | .copy _ _ => s.releaseCells j.cells
        | some x =>
          if j.keyGone then (s.releaseCells j.cells).sealFail j.src Reg.lockKeyGone 3
          else ((s.useHalf j.slot j.which).count Reg.lockSeals).sealDone j (j.output x.1 x.2)
      s.tinkSettle)

/-- KEY_LOAD (R312, R313, R346): blob is what the host memory read returned. -/
def execKeyLoad (c : CmdEntry) (blob : Option Bytes) (s : State) : Answer :=
  let slot := c.w1.field 0 10
  let len := c.w3.toNat
  let ok := cmdHeadOk c 0 && c.w1.field 10 6 == 0 && c.w1.field 18 46 == 0 && (len == 40 || len == 56) &&
    wordsZero [c.w4, c.w5, c.w6, c.w7]
  .next (s.startKey c 5 slot ok (fun s =>
    let fail := fun code => s.keyDone c.ep c.ring slot code (BitVec.ofNat 64 slot)
    match s.kek (c.w1.field 16 2), blob with
    | none, _ => fail 4
    | some _, none => (s.memError c.ep c.ring).keyDone c.ep c.ring slot 6 (BitVec.ofNat 64 slot)
    | some k, some b =>
      match unwrapKey k ((List.range len).map (byteAt b)) with
      | none => fail 2
      | some x =>
        match loadedHalf slot x with
        | none => fail 3
        | some h => s.writeNext c.ep c.ring slot h))

/-- KEK_LOAD (R311 to R313, R346). -/
def execKekLoad (c : CmdEntry) (blob : Option Bytes) (s : State) : Answer :=
  let n := c.w1.toNat
  let ok := cmdHeadOk c 0 && decide (1 ≤ n ∧ n ≤ 3) && wordsZero [c.w3, c.w4, c.w5, c.w6, c.w7]
  .next (s.startKey c 6 n ok (fun s =>
    let fin := fun (s : State) code => s.keyDone c.ep c.ring n code (BitVec.ofNat 64 n)
    match s.kek 0, blob with
    | none, _ => fin s 4
    | some _, none => fin (s.memError c.ep c.ring) 6
    | some k, some b =>
      match unwrapKey k ((List.range 56).map (byteAt b)) with
      | none => fin s 2
      | some x =>
        if kekAttrsOk n x then
          fin { s with lock := { s.lock with keks := Table.insert n (BitVec.ofNat 256 (beNat (x.drop 16))) s.lock.keks } } 0
        else fin s 3))

/-- KEY_CLEAR (R310, R346). -/
def execKeyClear (c : CmdEntry) (s : State) : Answer :=
  let ok := cmdHeadOk c 0 && decide (c.w1.toNat < 1024) && wordsZero [c.w2, c.w3, c.w4, c.w5, c.w6, c.w7]
  .next (s.startKey c 7 (c.w1.field 0 10) ok (fun s => s.writeNext c.ep c.ring (c.w1.field 0 10) {}))

/-- NEXT_HALF_WRITE (R310): the operations that had latched the next half have ended. -/
def execNextHalfWrite (slot : Nat) (s : State) : Answer :=
  .next (match s.lock.pending.find? (fun x => x.1 == slot) with
    | none => s
    | some x =>
      if s.nextLatched slot then s
      else
        let s := { s with lock := { s.lock with pending := s.lock.pending.erase x } }
        (s.setHalf slot 1 x.2.1).keyDone x.2.2.1 x.2.2.2 slot 0 (BitVec.ofNat 64 slot))

/-- KEY_SWAP (R309, R346): the swap is requested, and takes place at a boundary. -/
def execKeySwap (c : CmdEntry) (s : State) : Answer :=
  let ok := cmdHeadOk c 0 && decide (c.w1.toNat < 1024) && wordsZero [c.w2, c.w3, c.w4, c.w5, c.w6, c.w7]
  .next (s.startKey c 8 (c.w1.field 0 10) ok (fun s =>
    { s with lock := { s.lock with swaps := s.lock.swaps ++ [(c.w1.field 0 10, c.ep, c.ring)] } }))

/-- ZEROIZE (R319, R320, R346): needs only ownership. -/
def execZeroize (c : CmdEntry) (s : State) : Answer :=
  .next (s.startCommand c 9 (fun s =>
    if cmdHeadOk c 0 && wordsZero [c.w1, c.w2, c.w3, c.w4, c.w5, c.w6, c.w7] then (s.eraseKeys 6).endCmd c 0 0 0
    else s.endCmd c 3 0 0))

/-- ALARM (R319, R320). In OFF alarms 1 and 2 are not judged (R444). -/
def execAlarm (code : Nat) (s : State) : Answer :=
  .next (if s.sys.pwr = 3 ∧ (code = 1 ∨ code = 2) then s else s.eraseKeys code)

/-- KEK0_DERIVE (R311, R320, R432, R437): KEK0 from the fuse secret, in a lifecycle state that has one, unless withheld. -/
def execKek0Derive (s : State) : Answer :=
  .next (if (s.sys.lifecycle = 1 ∨ s.sys.lifecycle = 2) ∧ ¬ s.lock.withheld ∧ s.lock.kek0 = none then
      { s with lock := { s.lock with kek0 := if s.sys.secretGone then none else some s.sys.secretNo } }
    else s)

/-- KM_TIMEOUT (R315). -/
def execKmTimeout (s : State) : Answer :=
  .next (if s.lock.holder = 0 then s
    else ((s.advanceTo (s.lock.holderAt + 1000000 * s.fld Reg.lockKmCtl 0 16)).count Reg.lockKmTimeouts).kmRelease)

/-- DRBG_INSTANTIATE (R317): after the source has passed its start-up test. -/
def execDrbgInstantiate (s : State) : Answer :=
  .next (if s.lock.drbgReady then s else { s with lock := { s.lock with drbgReady := true, healthFail := false, reseedAt := s.time.now } })

/-- DRBG_RESEED (R317, R318): skipped while the source has failed. -/
def execDrbgReseed (s : State) : Answer :=
  .next (if s.lock.drbgReady ∧ ¬ s.lock.healthFail then
      State.count { s with lock := { s.lock with reseedAt := s.time.now } } Reg.lockReseeds
    else s)

/-- HEALTH_TEST_FAIL (R318). -/
def execHealthTestFail (s : State) : Answer :=
  let s := { s with lock := { s.lock with healthFail := true, retryAt := s.time.now + 1000000000 } }
  .next ((s.count Reg.lockHealthFails).unitFault 288 0)

/-- ENTROPY_RETRY (R318): the start-up test is tried again each second until it passes. -/
def execEntropyRetry (passes : Bool) (s : State) : Answer :=
  .next (if s.lock.healthFail then
      let s := s.advanceTo s.lock.retryAt
      { s with lock := { s.lock with healthFail := !passes, retryAt := if passes then s.lock.retryAt else s.lock.retryAt + 1000000000 } }
    else s)

/-- DRBG_ALARM (R318, R319): 2^48 generate requests have passed without a reseed. -/
def execDrbgAlarm (s : State) : Answer := .next (if s.lock.drbgReady then s.eraseKeys 7 else s)

end Sys2Proof.Machine
end

