-- ==== Sys2Proof/Machine/Epochs.lean ====
section
/-! DEFINITION. The epoch generator: cut, freeze, boundary, start and stop, silent boundaries, manual commits and table
swaps (R30 to R54), what a commit does in every unit, snapshots of the counters (R69 to R71), and the COMMIT command
(R347). -/

namespace Sys2Proof.Machine

/-! ## Snapshots (R69 to R71) -/

/-- The strobe: every counter is captured, and set to 0 if CLEAR is given; auto and written say what asked for it. -/
def State.snapStrobe (s : State) (auto written clear : Bool) : State :=
  { s with
    gen := { s.gen with snapBusy := true, snapAt := s.time.now, snapClear := clear, snapAuto := auto, snapWrite := written }
    regs := { s.regs with holding := s.regs.counters, counters := if clear then [] else s.regs.counters } }

/-- A snapshot is asked for by a boundary (auto) or by a write: it starts; a boundary's and a write's of the same instant are
one; any other that meets one in progress is held, in order (R71; a boundary's and a second held one: log entry 78). -/
def State.snapshot (s : State) (auto clear : Bool) : State :=
  let g := s.gen
  if !g.snapBusy then s.snapStrobe auto (!auto) clear
  else if g.snapAt == s.time.now && g.snapHeld.isEmpty && !(if auto then g.snapAuto else g.snapWrite) then
    if clear && !g.snapClear then s.snapStrobe true true true
    else { s with gen := { g with snapAuto := true, snapWrite := true } }
  else { s with gen := { s.gen with snapHeld := s.gen.snapHeld ++ [clear] } }

/-- SNAPSHOT_COMPLETE (R70, R71). -/
def execSnapshotComplete (s : State) : Answer :=
  .next (if s.gen.snapBusy then
      let s := { s with
        gen := { s.gen with snapBusy := false, snapSeq := s.gen.snapSeq + 1 }
        regs := { s.regs with visible := s.regs.holding, holding := [] } }
      match s.gen.snapHeld with
      | c :: t => State.snapStrobe { s with gen := { s.gen with snapHeld := t } } true true c
      | [] => s
    else s)

/-! ## Instants (R30 to R32) -/

/-- The period in force, in ns (R30). -/
def State.periodNs (s : State) : Nat := 250000 * s.fld Reg.genEpochCtl 16 12

/-- The boundary that ends the epoch begun at epochStart, as the time base and ALIGN now have it (R31). -/
def State.boundaryAt (s : State) : Nat :=
  let t := max (s.gen.epochStart + s.periodNs) s.time.now
  if s.flag Reg.genEpochCtl 1 then t + ((-((t : Int) + s.time.offset)) % (s.periodNs : Int)).toNat else t

/-- Epochs run: a boundary is scheduled. -/
def State.epochsRun (s : State) : Bool := decide (s.gen.st ≠ .stopped)

/-- The freeze ends: held writes move into the staged copies (R42). -/
def State.thaw (s : State) : State :=
  { s with
    gen := { s.gen with freeze := false, thawAt := none }
    regs := { s.regs with
      staged := s.regs.held.foldl (fun (t : Table Word) (x : Nat × Word) => Table.insert x.1 x.2 t) s.regs.staged, held := []
      upset := s.regs.upset.map (fun (x : RegCopy × Nat) => if x.1 = .held then (.staged, x.2) else x) } }

/-- The cut of the current epoch (R32, R35, R213). -/
def State.doCut (s : State) : State :=
  let s := s.crierCut
  { s with
    gen := { s.gen with cutDone := true, cutTai := s.tai }
    watch := { s.watch with sweepAfterCut := false, cutSwept := false } }

/-- The freeze in which some commands started has passed: they await the next boundary's. -/
def State.openCommits (s : State) : State :=
  allRings.foldl (fun s r => if (s.ring r.1 r.2).running.isNone then s else
    s.modRing r.1 r.2 (fun x => { x with running := x.running.map (fun (c : Running) => { c with inFreeze := false }) })) s

/-- What a step of TAI does to the current epoch (R31, R32): its boundary is calculated again; a cut that the move puts in
the past occurs at once; a freeze in force ends, and begins again if its moved instant has passed, so that HOLD cleared and
commands started within the old freeze come before the new one (R43, R347). -/
def State.realign (s : State) : State :=
  let b := s.boundaryAt
  if !s.epochsRun || b == s.gen.nextAt then s
  else
    let s := { s with gen := { s.gen with nextAt := b } }
    let s := if !s.gen.cutDone && decide (b ≤ s.time.now + 50000) then s.doCut else s
    if s.gen.freeze && s.gen.thawAt.isNone then
      let s := s.thaw.openCommits
      { s with gen := { s.gen with holdLate := false, freeze := decide (b ≤ s.time.now + 1000) } }
    else s

/-! ## What commits (R37, R40) -/

/-- A commit point: an epoch boundary, t_s, a manual commit, a silent boundary. -/
inductive CommitKind where
  | boundary | start | manual | silent
deriving DecidableEq, Repr

/-- Items requested by host software commit: never at a silent boundary, always at a manual commit, and otherwise unless
HOLD holds them (R43, R50, R51). -/
def State.hostCommits (s : State) (k : CommitKind) : Bool :=
  match k with
  | .manual => true
  | .silent => false
  | .start => !s.flag Reg.genEpochCtl 2
  | .boundary => !s.flag Reg.genEpochCtl 2 && !s.gen.holdLate

/-- The offset lies in a run of n like registers. -/
def inRun (base stride n off : Nat) : Option Nat :=
  if base ≤ off ∧ (off - base) % stride = 0 ∧ (off - base) / stride < n then some ((off - base) / stride) else none

/-- Length in ns of the epoch that begins with a boundary now, under the PERIOD and ALIGN that commit at it (R30, R31). -/
def State.nextSpan (s : State) : Nat :=
  let old := s.reg Reg.genEpochCtl
  let w := match Table.find? Reg.genEpochCtl s.regs.staged with
    | some w => if s.hostCommits .boundary then mixWord (rwMask Reg.genEpochCtl) old w else old
    | none => old
  let p : Nat := 250000 * w.field 16 12
  if w.bit 1 then p + ((-(((s.time.now + p : Nat) : Int) + s.time.offset)) % (p : Int)).toNat else p

/-- A word put into a table where its key is not there yet. -/
def keepFirst (k : Nat) (w : Word) (t : Table Word) : Table Word := if (Table.find? k t).isSome then t else Table.insert k w t

/-- A word of an engine's PORT block that a commit replaces: it still applies to a frame on the bus, known by now or not (R26). -/
def Engine.replaced (e : Engine) (busy : Bool) (now o : Nat) (old : Word) : Engine :=
  if busy then { e with heldWords := keepFirst o old e.heldWords }
  else { e with prevWords := keepFirst o old (if e.prevAt = now then e.prevWords else []), prevAt := now }

/-- The engine takes part in a frame that has passed its header, or that it transmits. -/
def State.frameOn (s : State) (n : Nat) : Bool :=
  match s.portOf n with
  | some p => (s.port p).rxFrame.isSome || (s.port p).onBus.isSome
  | none => false

/-- One register copy taken into force. A PORT setting that commits while a frame is on the bus applies from the next one (R26). -/
def State.commitWord (s : State) (off : Nat) (w : Word) : State :=
  let s := if off = Reg.cellCtl then s.fillBucket else s
  let s' := s.setReg off (mixWord (rwMask off) (s.reg off) w)
  match blockEngine off with
  | some n => s'.modEngine n (fun e => e.replaced (s.frameOn n) s.time.now (off % 0x400) (s.reg off))
  | none => s'

/-- PPS_EN or PPS_EDGE commits (R84, R482). -/
def State.ppsCommit (s : State) (was : Bool) : State :=
  if s.flag Reg.sysTimeCtl 0 = was then s
  else { s with time := { s.time with
    ppsRef := false, ppsUsed := 0
    ppsLost := !was && (match s.time.ppsLast with | some t => decide (t + 1500000000 ≤ s.time.now) | none => true)
    ppsBase := s.time.ppsLast.getD s.time.now } }

/-- What follows in the unit of a register whose staged copy has committed. -/
def State.commitHook (s : State) (off : Nat) : State :=
  match inRun 0x61008 0x20 128 off, inRun 0x62008 0x20 128 off, inRun 0xa0000 8 32 off with
  | some k, _, _ => s.ringCommit .a k
  | _, some k, _ => s.ringCommit .b k
  | _, _, some i => s.subCommit i
  | _, _, _ =>
    if off = Reg.tinkCtl then s.tinkCommit
    else if off = Reg.hostOwnCtl then { s with regs := { s.regs with beatAt := s.time.now } }
    else match blockEngine off with
      | some n => if off = Reg.portEwl n ∧ ¬ s.frameOn n then s.setErrors n (s.engine n).tec (s.engine n).rxErr else s
      | none => s

/-- The commit checks the copies it touches: the staged copies, and the in-force copies they go to. A staged copy found bad does
not commit (R72, R74). -/
def State.checkCommit (s : State) : State :=
  s.regs.staged.foldl (fun (s : State) (x : Nat × Word) => (s.touchCopy (.staged, x.1)).touchCopy (.inForce, x.1)) s

/-- Every staged copy commits in one cycle (R40); then each unit acts on what is now in force. -/
def State.commitRegs (s : State) : State :=
  let items := s.regs.staged
  let pps := s.flag Reg.sysTimeCtl 0
  let s := s.portsStep (List.range 128) (fun s =>
    items.foldl (fun (s : State) (x : Nat × Word) => s.commitWord x.1 x.2) { s with regs := { s.regs with staged := [] } })
  let s := items.foldl (fun (s : State) (x : Nat × Word) => s.commitHook x.1) (s.ppsCommit pps)
  let engines := (items.filterMap (fun (x : Nat × Word) => blockEngine x.1)).dedup
  let s := engines.foldl State.engineCommit s
  (((List.range 128).foldl State.laneCheck s).stewPins).bellService

/-! ## Streams between pipelines (R20, R49, R180) -/

/-- Pipeline that host software asks for bucket b. -/
def State.hostPipe (s : State) (b : Nat) : Nat := s.fld (Reg.scrivPipeMap (b / 16)) (4 * (b % 16)) 3

/-- A boundary moves streams away from the pipeline: it is held for test, or a fence took effect before this instant (R49). -/
def State.pipeOut (s : State) (q : Nat) : Bool :=
  (s.scriv.fenced.contains q && decide (Table.get (fun _ => 0) s.scriv.fencedAt q < s.time.now)) || s.scriv.testing.contains q

/-- The pipelines of buckets b, b + 1, … : the host's, or dealt out round-robin in ascending order (R180). -/
def State.dealPipes (s : State) (avail : List Nat) (next : Nat) : List Nat → Table Nat → Table Nat
  | [], t => t
  | b :: bs, t =>
    if s.pipeOut (s.hostPipe b) && !avail.isEmpty then
      State.dealPipes s avail (next + 1) bs (Table.set (fun b => b % 8) t b ((avail[next % avail.length]?).getD (b % 8)))
    else State.dealPipes s avail next bs (Table.set (fun b => b % 8) t b (s.hostPipe b))

/-- A frame waits, with no op executed, in a pipeline that is out (R49). -/
def State.awaitsMove (s : State) (f : Frame) : Bool :=
  f.looked && f.watch.isSome && !f.decoding && !f.committing && !f.committed && f.opPos == 0 && s.pipeOut f.pipe

/-- The mapping of all 512 buckets at a boundary. Frames that wait in a pipeline that is out go with their stream (R49). -/
def State.mapPipes (s : State) : State :=
  let avail := (List.range 8).filter (fun q => !s.pipeOut q)
  let s := { s with scriv := { s.scriv with pipeOf := s.dealPipes avail 0 (List.range 512) [] } }
  { s with frames := s.frames.map (fun (x : Nat × Frame) =>
      if s.awaitsMove x.2 then (x.1, { x.2 with pipe := s.pipeFor (streamBucket x.2.port x.2.f.ident) }) else x) }

/-- Host mappings overridden (R180): buckets of the committed PIPE_MAP words whose pipeline is out. -/
def State.overrides (s : State) (offs : List Nat) : Nat :=
  ((offs.filterMap (inRun 0x90000 8 32)).flatMap (fun j =>
    (List.range 16).filter (fun i => s.pipeOut (s.hostPipe (16 * j + i))))).length

/-! ## Table swap (R45 to R47) -/

/-- The bank about to become active is free: nothing in flight carries its generation, and no load writes it. -/
def State.swapEligible (s : State) : Bool := !s.genBusy s.inactiveGen && decide (s.watch.loader.st = .idle)

/-- The banks swap; every watch index becomes unchecked (R221). -/
def State.swapBanks (s : State) : State :=
  { s with
    gen := { s.gen with activeGen := !s.gen.activeGen, swapPending := false }
    watch := { s.watch with swapNo := s.watch.swapNo + 1, uncheckedLeft := 16384 } }

/-- A swap is requested; while the inactive bank is bad it is withdrawn and counted (R45, R177). -/
def State.requestSwap (s : State) : State :=
  if (s.bank s.inactiveGen).bad then s.count Reg.watchSwapRefused
  else { s with gen := { s.gen with swapPending := true } }

/-- COMMIT_BUSY (R54): a manual commit awaits an eligible swap. -/
def State.commitWaits (s : State) : Bool := s.gen.commitBusy && s.gen.swapPending

/-! ## The commit point -/

/-- COMMIT commands with MANUAL = 1 complete once COMMIT_BUSY reads 0 (R347). -/
def State.endManual (s : State) : State :=
  if s.commitWaits then s
  else allRings.foldl (fun s r =>
    match (s.ring r.1 r.2).running with
    | some c => if c.opc = 2 ∧ c.arg = 1 then s.endCommand r.1 r.2 0 0 0 else s
    | none => s) s

/-- COMMIT commands without SWAP and MANUAL complete at a commit point that commits host items; at an epoch boundary, those
that started before its freeze (R347). -/
def State.endCommits (s : State) (k : CommitKind) (result : Word) : State :=
  allRings.foldl (fun s r =>
    match (s.ring r.1 r.2).running with
    | some c =>
      if c.opc = 2 ∧ c.arg = 0 ∧ ¬ c.swap ∧ ¬ (k = .boundary ∧ c.inFreeze) then s.endCommand r.1 r.2 0 0 result
      else s
    | none => s) s

/-- The swap is performed at the commit; no manual commit awaits it any more (R45, R50). -/
def State.performSwap (s : State) : State :=
  let s := s.swapBanks
  { s with gen := { s.gen with commitBusy := false } }

/-- LAST_COMMIT: the first epoch in which the items that have just committed are in force (R54). -/
def State.setLastCommit (s : State) (result : Word) : State := { s with gen := { s.gen with lastCommit := result } }

/-- A manual commit awaits an eligible swap (R50). -/
def State.awaitSwap (s : State) : State := { s with gen := { s.gen with commitBusy := true } }

/-- A pending swap that cannot be performed at a commit of host items: a manual commit awaits it, an epoch boundary leaves
it pending (R46, R50). -/
def State.deferSwap (s : State) (k : CommitKind) : State := if k = .manual then s.awaitSwap else s

/-- A boundary that a pending swap must pass counts in SWAP_DEFERRED, at the boundary's own instant, so that the boundary's
snapshot holds the count (R46, R69). -/
def State.countDeferred (s : State) (k : CommitKind) : State :=
  s.countIf (s.hostCommits k && s.gen.swapPending && !s.swapEligible) Reg.genSwapDeferred

/-- What commits in the units at a commit point, once the banks have swapped; offs are the registers that commit (R40). -/
def State.commitUnits (s : State) (host : Bool) (offs : List Nat) (result : Word) : State :=
  let s := if host then s.commitRegs.mapCommit else s
  let s := ((s.keySwaps host result).handoverCommit (offs.filterMap (inRun 0x140000 8 128))).tinkBoundary
  (s.countN Reg.scrivMapOverride (s.overrides offs)).mapPipes

/-- The commands that complete at a commit point (R347). -/
def State.commitEnds (s : State) (k : CommitKind) (host swap : Bool) (result : Word) : State :=
  let s := if swap then s.endSwapCommands 0 result else s
  let s := if host then s.endCommits k result else s
  s.endManual

/-- Everything that commits at a commit point takes effect together (R37, R40, R43, R44, R46). result is the number of the
first epoch in which the items are in force. -/
def State.commitPoint (s : State) (k : CommitKind) (result : Word) : State :=
  let host := s.hostCommits k
  let s := if host then s.checkCommit else s
  let swap := host && s.gen.swapPending && s.swapEligible
  let items := host && (swap || !s.regs.staged.isEmpty || !s.crier.staged.isEmpty || !s.lock.swaps.isEmpty)
  let offs := if host then s.regs.staged.map (·.1) else []
  let s := if host && s.gen.swapPending && !swap then s.deferSwap k else s
  let s := if swap then s.performSwap else s
  let s := s.commitUnits host offs result
  let s := if items then s.setLastCommit result else s
  s.commitEnds k host swap result

/-- A manual commit in STOPPED (R50). -/
def State.manualCommit (s : State) : State := s.commitPoint .manual (s.gen.epochNum + 1)

/-- COMMIT_BUSY reads 0 (R54). -/
def State.notBusy (s : State) : State := { s with gen := { s.gen with commitBusy := false } }

/-- GEN.COMMIT written (R50): ignored outside STOPPED, held while COMMIT_BUSY reads 1. -/
def State.genCommit (s : State) : State :=
  if s.epochsRun then s.count Reg.genCommitIgnored
  else if s.commitWaits then { s with gen := { s.gen with commitHeld := true } }
  else s.notBusy.manualCommit

/-- COMMIT_BUSY has cleared: a held GEN.COMMIT is performed, and the commands that await it complete (R50, R347). -/
def State.unbusy (s : State) : State :=
  if s.commitWaits then s
  else
    let held := s.gen.commitHeld && !s.epochsRun
    let s := { s with gen := { s.gen with commitBusy := false, commitHeld := false } }
    if held then s.manualCommit else s.endManual

/-- The boundary that is due at this very instant performs the pending swap (R45, R46). -/
def State.swapNow (s : State) : Bool :=
  s.epochsRun && s.gen.cutDone && decide (s.gen.nextAt ≤ s.time.now) && s.gen.swapPending && s.swapEligible &&
  s.hostCommits .boundary

/-- GEN.SWAP.CANCEL (R45): the pending request is withdrawn, unless the boundary of this very cycle performs the swap. -/
def State.cancelSwap (s : State) : State := if s.swapNow then s else s.withdrawSwap.unbusy

/-! ## Start, boundary, stop (R39, R52, R53) -/

/-- A new epoch begins now: its number, its start and its boundary. -/
def State.newEpoch (s : State) (st : RunState) : State :=
  let s := { s with gen := { s.gen with
    st := st, epochNum := s.gen.epochNum + 1, epochStart := s.time.now, boundaryTai := s.tai, cutDone := false } }
  { s with gen := { s.gen with nextAt := s.boundaryAt } }

/-- The start instant t_s (R52). HOLD holds the items of a GEN.COMMIT that t_s absorbs, too (log entry 93). -/
def State.epochStart (s : State) : State :=
  let s := s.countDeferred .start
  let s := if s.flag Reg.genSnapAuto 0 then s.snapshot true false else s
  let s := { s with gen := { s.gen with commitHeld := false, startHeld := false } }
  ((s.commitPoint .start (s.gen.epochNum + 1)).newEpoch .starting).raise 1

/-- The boundary (R39 step 3, R41, R53). The ending epoch is published as it was configured; then everything commits. At a held
start what the freeze of this boundary holds stays held (R42, R52, log entry 79). -/
def State.boundary (s : State) : State :=
  let p := s.periodNs
  let lease := s.fld Reg.genEpochCtl 32 7
  let s := s.countIf (decide (p < s.gen.nextAt - s.gen.epochStart)) Reg.genEpochStretch
  let s := s.countDeferred .boundary
  let s := if s.flag Reg.genSnapAuto 0 then s.snapshot true false else s
  let stopping := decide (s.gen.st = .stopping)
  let s := s.publish { epoch := s.gen.epochNum, tai := s.tai, lease := lease, leaseNs := lease * p, set := s.time.set }
    (if stopping && !s.gen.startHeld then none else some (s.nextSpan - 150000))
  let s := (s.commitPoint .boundary (s.gen.epochNum + 1)).openCommits
  let s := { s with gen := { s.gen with holdLate := false, thawAt := some (s.time.now + 20) } }
  if stopping then
    let s := State.raise { s with gen := { s.gen with
      st := .stopped, boundaryTai := s.tai, cutDone := false, silentAt := s.time.now + s.periodNs } } 1
    if s.gen.startHeld then s.epochStart else s
  else (s.newEpoch .running).raise 1

/-- RUN and HOLD as written to GEN.EPOCH_CTL (R43, R52, R53); oldHold is HOLD before the write. -/
def State.epochCtl (s : State) (oldHold : Bool) : State :=
  let s := if oldHold && !s.flag Reg.genEpochCtl 2 && s.gen.freeze && s.gen.thawAt.isNone then
      { s with gen := { s.gen with holdLate := true } } else s
  if s.flag Reg.genEpochCtl 0 then
    match s.gen.st with
    | .stopped => s.epochStart
    | .stopping => { s with gen := { s.gen with startHeld := true } }
    | .starting | .running => s
  else
    match s.gen.st with
    | .starting | .running => { s with gen := { s.gen with st := .stopping } }
    | .stopping => { s with gen := { s.gen with startHeld := false } }
    | .stopped => s

/-! ## Commands -/

/-- CUT (R32): at B_n − 50 µs, once in each epoch. -/
def execCut (s : State) : Answer :=
  .next (if s.epochsRun && !s.gen.cutDone then (s.advanceTo (s.gen.nextAt - 50000)).doCut else s)

/-- STAGING_FREEZE (R39 step 2, R42): at B_n − 1 µs. -/
def execStagingFreeze (s : State) : Answer :=
  .next (if s.epochsRun && s.gen.cutDone && !s.gen.freeze then
      let s := s.advanceTo (s.gen.nextAt - 1000)
      { s with gen := { s.gen with freeze := true } }
    else s)

/-- EPOCH_BOUNDARY (R39): at B_n, after the epoch's cut. -/
def execEpochBoundary (s : State) : Answer :=
  .next (if s.epochsRun && s.gen.cutDone then (s.advanceTo s.gen.nextAt).boundary else s)

/-- FREEZE_END (R39 step 7, R42): at B_n + 20 ns. -/
def execFreezeEnd (s : State) : Answer :=
  .next (match s.gen.thawAt with
    | some t => (s.advanceTo t).thaw
    | none => s)

/-- SILENT_BOUNDARY (R51): only what the device requests for itself commits. A PERIOD committed since the last one counts from
here on (log entry 94). -/
def execSilentBoundary (s : State) : Answer :=
  .next (if s.epochsRun then s
    else
      let next := s.gen.silentAt + s.periodNs
      let s := s.advanceTo s.gen.silentAt
      let asked := (List.range 128).any (fun p => (s.port p).request.isSome) || !s.lock.autoDue.isEmpty
      let pipes := s.scriv.pipeOf
      let s := s.commitPoint .silent (s.gen.epochNum + 1)
      let s := s.countIf (asked || s.scriv.pipeOf != pipes) Reg.genSilentBoundaries
      { s with gen := { s.gen with silentAt := next } })

/-- COMMIT_SWAP_ELIGIBLE (R50): the swap that a manual commit awaits is performed, or has been withdrawn meanwhile, so that a
held GEN.COMMIT is performed. -/
def execCommitSwapEligible (s : State) : Answer :=
  .next (if !(s.gen.commitBusy || s.gen.commitHeld) || s.epochsRun then s
    else if !s.gen.swapPending then s.unbusy
    else if s.swapEligible then
      let s := s.swapBanks
      let s := s.setLastCommit (s.gen.epochNum + 1)
      (s.endSwapCommands 0 (s.gen.epochNum + 1)).unbusy
    else s)

/-- COMMIT (R346, R347). A swap it requests while the inactive bank is bad is withdrawn, and it completes WITHDRAWN, with
MANUAL = 1 after its commit. -/
def execCommit (c : CmdEntry) (s : State) : Answer :=
  .next (s.startCommand c 2 (fun s =>
    let swap := (cmdFlags c).testBit 0
    let manual := (cmdFlags c).testBit 1
    if !cmdHeadOk c 2 || !wordsZero [c.w1, c.w2, c.w3, c.w4, c.w5, c.w6, c.w7] then s.endCmd c 3 0 0
    else if manual then
      if s.epochsRun then s.endCmd c 7 0 0
      else
        let s := if swap then s.requestSwap else s
        let mark : Bool → Nat → State → State := fun w n s =>
          s.modRing c.ep c.ring (fun r => { r with running := r.running.map (fun (x : Running) => { x with swap := w, arg := n }) })
        if swap && !s.gen.swapPending then ((mark false 2 s).genCommit).endCmd c 9 0 0
        else (mark swap 1 s).genCommit
    else if swap then
      let s := s.requestSwap
      if s.gen.swapPending then
        s.modRing c.ep c.ring (fun r => { r with running := r.running.map (fun (x : Running) => { x with swap := true }) })
      else s.endCmd c 9 0 0
    else s))

end Sys2Proof.Machine
end

