-- ==== Sys2Proof/Machine/Transceivers.lean ====
section
/-! DEFINITION. Integrated transceivers, supplies, Fireguard and logic-port pins (R122 to R146). Wakes are in Power.lean,
beside the power states they end. -/

namespace Sys2Proof.Machine

/-- The ports of transceiver bank b (R122). -/
def bankPorts (b : Nat) : List Nat := (List.range 8).map (fun i => 8 * b + i)
/-- The ports of I/O bank l. -/
def lbankPorts (l : Nat) : List Nat := (List.range 8).map (fun i => 32 + 8 * l + i)

/-- No frame is on the port's bus, as far as its engine takes part: the bus is idle (R124, DEDUCED). -/
def State.busIdle (s : State) (p : Nat) : Bool := (s.port p).rxFrame.isNone && (s.port p).onBus.isNone

/-- The transceiver mode a MODE value selects: 5 to 7 act as OFF (R123). -/
def ipModeOf (m : Nat) : Nat := if m ≤ 4 then m else 0

/-- The i-th element of a list of flags replaced. -/
def setFlag (l : List Bool) (i : Nat) (b : Bool) : List Bool := listMod (fun _ => b) i l

/-- Threshold below which an undervoltage of VBUSn asserts, in mV: 4.25 V ± 0.10 V (R128, log entry 5). -/
def uvAssertMv (b : Nat) : Nat := 4150 + Config.uvAssertTrim b % 201
/-- Threshold above which it clears, in mV: 4.40 V ± 0.10 V (R128). -/
def uvClearMv (b : Nat) : Nat := 4300 + Config.uvClearTrim b % 201
/-- Threshold of VIOLn in mV: 1.50 V ± 0.08 V (R129). -/
def violMv (l : Nat) : Nat := 1420 + Config.violTrim l % 161

/-- Energy of one Fireguard sample in nJ: V × I × 100 ns at 1 nJ resolution, from mV and µA (R130, log entry 5). -/
def sampleEnergy (mv ua : Nat) : Nat :=
  if mv * ua % 10000000 = 0 ∨ Config.fgRound mv ua = 0 then mv * ua / 10000000 else mv * ua / 10000000 + 1

/-- The window energy W in nJ (R130). -/
def Transceiver.energy (t : Transceiver) : Nat := t.windows.sum + t.current

/-- A sample added: after 1,000 samples, 100 µs, the sub-window is complete (R130). -/
def Transceiver.addSample (t : Transceiver) (e : Nat) : Transceiver :=
  if t.samples + 1 < 1000 then { t with current := t.current + e, samples := t.samples + 1 }
  else { t with windows := ((t.current + e) :: t.windows).take 99, current := 0, samples := 0 }

/-- TRIP_SEQ after a trip: one more within 1 s of the preceding retry, 1 otherwise (R133); its field holds 15 at most. -/
def Transceiver.nextTripSeq (t : Transceiver) (now : Nat) : Nat :=
  match t.lastRetry with
  | some r => if now - r ≤ 1000000000 then min (t.tripSeq + 1) 15 else 1
  | none => 1

/-- TRIP_SEQ has reached RETRY_MAX in force; 0 never latches (R133). -/
def State.fgLatches (s : State) (p seq : Nat) : Bool :=
  let m := s.fld (Reg.xcvrFgCtl p) 8 4
  decide (m ≠ 0 ∧ m ≤ seq)

/-- The frame on port p's bus is cut off by a trip: a bit error, TEC and the end of the attempt, which does not count. The phase
of the bit error is a free value (log entry 4). -/
def State.tripCuts (s : State) (p : Nat) : State :=
  let n := s.serving p
  let (s, w) := s.takeFree
  let ph := if w.toNat % 3 = 0 then BitPhase.nominal else if w.toNat % 3 = 1 then .fdData else .xlData
  let lane := decide ((s.port p).onBus = some .lane)
  let s := s.noteError n .bitDominant true ph
  let s := if lane then s.laneReturn p else s.cutAttempt p
  s.setErrors n ((s.engine n).tec + 8) (s.engine n).rxErr

/-- A Fireguard trip (R132, R133): the driver goes off, a frame being transmitted ends with a bit error and keeps its
place and attempt count, the port goes down. Internal loopback never reaches the pins (R125). COOL as it stands at the trip
gives the cool-down's end (log entry 82). -/
def State.fgTrip (s : State) (p : Nat) : State :=
  let seq := (s.ip p).nextTripSeq s.time.now
  let cut := (s.port p).onBus.isSome && s.actingMode p != 3
  let s := s.portStep p (fun s =>
    let s := if cut then s.tripCuts p else s
    s.modIp p (fun t => { t with
      tripped := true, tripSeq := seq, latched := s.fgLatches p seq, cooled := false
      coolUntil := s.time.now + 1000000 * s.fld (Reg.xcvrFgCtl p) 16 14 }))
  let s := if cut then s.busFrameOver p else s
  (s.count (Reg.xcvrFgTrips p)).raise (320 + p)

/-- FG_CLEAR for a port (R133): ends a latch, clears TRIP_SEQ and leads to a retry at the next bus idle; ignored for a
port that is not latched. -/
def State.fgClear (s : State) (p : Nat) : State :=
  if p < 32 ∧ (s.ip p).latched then s.modIp p (fun t => { t with latched := false, tripSeq := 0, cooled := true }) else s

/-! ## Commands -/

/-- XCVR_MODE_EFFECT (R124): at bus idle a committed MODE takes effect and the transceiver begins to settle. -/
def execXcvrModeEffect (port : Nat) (s : State) : Answer :=
  let m := ipModeOf (s.fld (Reg.xcvrIpCtl port) 0 3)
  .next (if s.busIdle port ∧ m ≠ (s.ip port).modeEff then
      s.portStep port (fun s => s.modIp port (fun t => { t with modeEff := m, settleAt := some (s.time.now + 20000) }))
    else s)

/-- XCVR_SETTLED (R124): 20 µs after the mode change. -/
def execXcvrSettled (port : Nat) (s : State) : Answer :=
  .next (match (s.ip port).settleAt with
    | some t => (s.advanceTo t).modIp port (fun t => { t with settleAt := none })
    | none => s)

/-- LP_STB_EFFECT (R142): at bus idle a committed STB takes effect on STB_n. -/
def execLpStbEffect (port : Nat) (s : State) : Answer :=
  .next (if s.busIdle port then
      s.portStep port (fun s => { s with xcvr := { s.xcvr with
        stbLow := if s.flag (Reg.xcvrLpCtl port) 0 then setErase port s.xcvr.stbLow else setInsert port s.xcvr.stbLow } })
    else s)

/-- VBUS_UNDERVOLTAGE (R128): VBUSn has stood at a level for the filter time. A driver whose port is in a frame when an
undervoltage clears returns at its bus idle. -/
def execVbusUndervoltage (bank mv : Nat) (s : State) : Answer :=
  let uv := (s.xcvr.uv[bank]?).getD true
  let un := (s.xcvr.unpowered[bank]?).getD true
  let uv' := if mv < uvAssertMv bank then true else if uvClearMv bank < mv then false else uv
  let un' := decide (mv < 2700)
  .next (
    let s := s.portsStep (bankPorts bank) (fun s =>
      let s := { s with xcvr := { s.xcvr with uv := setFlag s.xcvr.uv bank uv', unpowered := setFlag s.xcvr.unpowered bank un' } }
      if uv && !uv' then
        (bankPorts bank).foldl (fun s p => if s.busIdle p then s else s.modIp p (fun t => { t with uvHold := true })) s
      else s)
    s.raiseIf (uv != uv' || un != un') (11 + bank))

/-- VIOL_UNPOWERED (R129): VIOLn below or above its threshold. -/
def execViolUnpowered (bank mv : Nat) (s : State) : Answer :=
  .next (s.portsStep (lbankPorts bank) (fun s =>
    { s with xcvr := { s.xcvr with lUnpowered := setFlag s.xcvr.lUnpowered bank (decide (mv < violMv bank)) } }))

/-- FG_SAMPLE (R130 to R132): one sample of VBUSn in mV and of the CANH driver current in µA. A limit counts as acting when the
sampled current has reached it (log entry 83). -/
def execFgSample (port mv ua : Nat) (s : State) : Answer :=
  let s := s.modIp port (fun t => { t.addSample (sampleEnergy mv ua) with
    limiting := decide (min (1000 * s.fld (Reg.xcvrFgCtl port) 0 7) 80000 ≤ ua) })
  .next (if !(s.ip port).tripped && decide (1000 * s.fld (Reg.xcvrFgCtl port) 32 11 < (s.ip port).energy) then s.fgTrip port
    else s)

/-- FG_COOL_EXPIRE (R133): COOL milliseconds after the trip; a port that has reached RETRY_MAX stays latched. -/
def execFgCoolExpire (port : Nat) (s : State) : Answer :=
  let t := s.ip port
  .next (if t.tripped && !t.cooled then
      let latch := !t.latched && s.fgLatches port t.tripSeq
      ((s.advanceTo t.coolUntil).modIp port (fun t => { t with cooled := true, latched := t.latched || latch })).raiseIf latch
        (320 + port)
    else s)

/-- FG_RETRY (R133): at the first bus idle after the cool-down the driver is on again, with W 0. -/
def execFgRetry (port : Nat) (s : State) : Answer :=
  let t := s.ip port
  .next (if t.tripped && t.cooled && !t.latched && s.busIdle port then
      s.modIp port (fun t => { t with tripped := false, lastRetry := some s.time.now, windows := [], current := 0, samples := 0 })
    else s)

end Sys2Proof.Machine
end

