-- ==== Sys2Proof/Machine/Power.lean ====
section
/-! DEFINITION. Power states and their moves, wakes, power-fail and the die temperature (R137 to R141, R381, R439 to
R445, R487). -/

namespace Sys2Proof.Machine

/-! ## Moves (R440 to R443) -/

/-- A move toward a state: held while another move runs or while fuses are programmed; none toward the present state
(R432, R440). -/
def State.requestMove (s : State) (t : Nat) : State :=
  if s.sys.moving.isSome || s.sys.lcBusy.isSome then { s with sys := { s.sys with targetHeld := some t } }
  else if t = s.sys.pwr then s
  else { s with sys := { s.sys with moving := some t } }

/-- A write of SYS.PWR_CTL.TARGET (R440). DEPOT is left by a wake alone, OFF by RESET_N alone (R442, R443). -/
def State.writeTarget (s : State) (t : Nat) : State := if 2 ≤ s.sys.pwr then s else s.requestMove t

/-- A held TARGET is acted on (R432, R440). -/
def State.heldTarget (s : State) : State :=
  match s.sys.targetHeld with
  | some t => State.requestMove { s with sys := { s.sys with targetHeld := none } } t
  | none => s

/-- The conditions of PWR_WAIT are met for a move into DEPOT or OFF (R440, R446). -/
def State.restReady (s : State) : Bool :=
  s.gen.st == .stopped && (s.cellar.st == CellState.stopped) && s.tink.st == .stopped && s.tink.tests.isEmpty &&
  (List.range 136).all (fun n => (s.engine n).st == .stopped) && s.sys.switchReq.isNone && s.sys.level == 0

/-- The standby pair as it stands when nothing keeps it from standing by (R439, R409). -/
def State.standbyDue (s : State) : Bool :=
  !s.sys.safe && s.sys.phase == 3 && !s.stew.coreFenced.any (fun m => (pairCores (1 - s.sys.pair)).contains m)

/-- Both PCIe links go to electrical idle (R381, R441). -/
def State.linksDown (s : State) : State :=
  [Ep.a, Ep.b].foldl (fun s e => s.endpointChange e (fun p => { p with link := false, width := 0, speed := 0 })) s

/-- The 25 MHz oscillator runs in DEPOT while a wake-up frame is armed (R140). -/
def State.frameArmed (s : State) : Bool := (List.range 32).any (fun p => s.flag (Reg.xcvrIpCtl p) 9)

/-- The bus-side pins at rest (R145): a transceiver stands by in DEPOT where its wake is armed and is off otherwise, and every
STB_n is driven high. -/
def State.pinsRest (s : State) : State :=
  let s := { s with xcvr := { s.xcvr with stbLow := [] } }
  (List.range 32).foldl (fun s p =>
    let armed := decide (s.sys.pwr = 2) && (s.flag (Reg.xcvrIpCtl p) 8 || s.flag (Reg.xcvrIpCtl p) 9)
    s.modIp p (fun t => { t with modeEff := b2n armed, settleAt := none })) s

/-- The key store emptied as at reset (R443). -/
def State.emptyKeys (s : State) : State :=
  { s with lock := { s.lock with
      halves := [], keks := [], kek0 := none, autoDue := [], swaps := [], pending := []
      lanes := s.lock.lanes.map (fun (l : Lane) => { l with job := l.job.map (fun (j : SealJob) => { j with keyGone := true }) }) } }

/-- The return from DEPOT to RUN (R442). -/
def State.leaveDepot (s : State) : State :=
  let s := s.setFld Reg.sysPwrCtl 0 2 0
  let s := { s with
    sys := { s.sys with pwr := 0, locks := 31, osc25 := true, standby := s.standbyDue }
    time := { s.time with set := false } }
  (s.retireAll).stewPins

/-! ## Wakes (R141) -/

/-- What a wake does in the present power state (R141, R442, R443). -/
def State.wakeActs (s : State) : State :=
  match s.sys.pwr with
  | 0 | 1 => s.raise 4
  | 2 => s.leaveDepot
  | _ => s

/-- A wake: recorded or counted, and held while a move runs (R141). -/
def State.wake (s : State) (port cause : Nat) : State :=
  let s := if s.xcvr.wakeCause = 0 then { s with xcvr := { s.xcvr with wakePort := port, wakeCause := cause } }
    else s.count Reg.xcvrWakeMore
  if s.sys.moving.isSome then { s with xcvr := { s.xcvr with wakeHeld := s.xcvr.wakeHeld ++ [(port, cause)] } } else s.wakeActs

/-- WAKE_CAUSE cleared (R141). -/
def State.ackWake (s : State) : State := { s with xcvr := { s.xcvr with wakePort := 0, wakeCause := 0 } }

/-- A port detects wakes of a kind, armed by a bit of IP_CTL, while its mode in effect is STANDBY and VBUSn is at 2.7 V or more
(R128, R137). -/
def State.detects (s : State) (p bit : Nat) : Bool :=
  decide (p < 32) && s.sys.powered && s.flag (Reg.xcvrIpCtl p) bit && decide (s.sys.pwr ≤ 2) && (s.ip p).modeEff == 1 &&
  !(s.xcvr.unpowered[p / 8]?).getD true

/-- The shortest phase that is recognised, in ns: between 0.5 µs and 1.8 µs (R138, log entry 5). -/
def wakeFilterNs (p : Nat) : Nat := 501 + Config.wakeFilterTrim p % 1300
/-- The time within which the pattern stands, in ns: between 1.2 ms and 2.0 ms (R138, log entry 5). -/
def wakeTimeNs (p : Nat) : Nat := 1200000 + Config.wakeTimeTrim p % 800001

/-- The held wakes act when a move has ended (R141). -/
def State.heldWakes (s : State) : State :=
  let l := s.xcvr.wakeHeld
  l.foldl (fun s _ => s.wakeActs) { s with xcvr := { s.xcvr with wakeHeld := [] } }

/-- A move completes: it is counted, held wakes act, then a held TARGET (R440, R141). -/
def State.endMove (s : State) : State :=
  ((State.count { s with sys := { s.sys with moving := none } } Reg.sysPwrMoves).heldWakes.stewPins).heldTarget

/-! ## Commands -/

/-- WAKE_UP_PATTERN (R138): the lengths of the three phases and of the whole, in ns. -/
def execWakeUpPattern (port dom1 rec' dom2 total : Nat) (s : State) : Answer :=
  let f := wakeFilterNs port
  .next (if s.detects port 8 ∧ f ≤ dom1 ∧ f ≤ rec' ∧ f ≤ dom2 ∧ total ≤ wakeTimeNs port then s.wake port 1 else s)

/-- A frame matches a port's wake-up frame settings (R139). -/
def State.wakeMatch (s : State) (p : Nat) (ide : Bool) (ident dlc : Nat) (data : Word) : Bool :=
  let mask := s.fld (Reg.xcvrWufId p) 32 29
  s.flag (Reg.xcvrWufId p) 61 == ide && (ident &&& mask) == (s.fld (Reg.xcvrWufId p) 0 29 &&& mask) &&
  s.fld (Reg.xcvrIpCtl p) 16 4 == dlc && (s.reg (Reg.xcvrWufData p) == 0 || (data &&& s.reg (Reg.xcvrWufData p)) != 0)

/-- WAKE_UP_FRAME (R139, R400): data byte 0 stands in bits [7:0]. FD frames are ignored. A wake by errors raises the port's
transceiver source besides. -/
def execWakeUpFrame (port : Nat) (ide : Bool) (ident dlc : Nat) (remote fd erroneous : Bool) (data : Word) (s : State) : Answer :=
  .next (if !s.detects port 9 || fd then s
    else if erroneous then
      if 31 < (s.ip port).wufErr + 1 then ((s.modIp port (fun t => { t with wufErr := 0 })).raise (320 + port)).wake port 3
      else s.modIp port (fun t => { t with wufErr := t.wufErr + 1 })
    else
      let s := s.modIp port (fun t => { t with wufErr := t.wufErr - 1 })
      if !remote && s.wakeMatch port ide ident dlc data then s.wake port 2 else s)

/-- WAKE_N (R141): recorded with port code 255. -/
def execWakeN (s : State) : Answer := .next (if s.sys.powered then s.wake 255 4 else s)

/-- POWER_MOVE_START (R440 to R443): the move runs once its wait has ended; until then nothing changes. -/
def execPowerMoveStart (s : State) : Answer :=
  .next (if s.cellar.pfail then s
    else
      match s.sys.moving with
      | some 0 =>
        if s.sys.pwr = 2 then s.leaveDepot.endMove
        else State.endMove { s with sys := { s.sys with pwr := 0, standby := s.standbyDue } }
      | some 1 =>
        if s.tink.tests.isEmpty && s.sys.switchReq.isNone then
          let s := if s.sys.pwr = 2 then s.leaveDepot else s
          State.endMove { s with sys := { s.sys with pwr := 1, standby := false } }
        else s
      | some 2 =>
        if s.restReady then
          let s := s.linksDown.stewPins
          (State.pinsRest { s with sys := { s.sys with pwr := 2, locks := 0, osc25 := s.frameArmed } }).endMove
        else s
      | some _ =>
        if s.restReady then
          let s := s.linksDown.emptyKeys
          let s := (State.pinsRest { s with sys := { s.sys with pwr := 3, locks := 0, osc25 := false } }).endMove
          { s with sys := { s.sys with moving := none, targetHeld := none } }
        else s
      | none => s)

/-- The Cellar as power fails (R381 step 2, R384): FLUSHED; a running checkpoint is abandoned and staging stops. -/
def CellarUnit.failed (c : CellarUnit) : CellarUnit :=
  { c with
    pfail := true, st := .flushed, flushFill := c.st == .starting || c.st == .running, checkpoint := none
    startHeld := false, heldMedia := none, stopHeld := false, formatting := none }

/-- PFAIL (R381 steps 2 and 3, R428): the flush set is fixed and load is shed: every port stops transmitting and both links go
down. A self-test under way is dropped with no result. -/
def execPfail (s : State) : Answer :=
  .next (if s.cellar.pfail ∨ s.sys.pwr = 3 ∨ ¬ s.sys.powered then s
    else
      let s := s.portsStep (List.range 128) (fun s => { s with
        cellar := s.cellar.failed, tink := { s.tink with tests := [] } })
      s.linksDown)

/-- PFAIL_RELEASE (R381 step 6): after the flush, once PFAIL_N has been high for 10 ms. -/
def execPfailRelease (s : State) : Answer :=
  .next (if s.cellar.pfail ∧ s.cellar.flushDone then s.deviceReset 2 s.sys.bootSel else s)

/-- TEMP_UPDATE (R487): the readings of the on-die sensors in 0.25 °C. -/
def execTempUpdate (sensors : List Int) (s : State) : Answer :=
  .next (match sensors with
    | [] => s
    | x :: xs =>
      let t := xs.foldl max x
      { s with sys := { s.sys with tj := t, tjMax := max s.sys.tjMax t } })

end Sys2Proof.Machine
end

