-- ==== Sys2Proof/Machine/Lifecycle.lean ====
section
/-! DEFINITION. Lifecycle transitions, the test access port and debug sessions (R430 to R438, R445). -/

namespace Sys2Proof.Machine

/-! ## Lifecycle (R430 to R432) -/

/-- The 48 bytes of SYS.LC_DATA0 to SYS.LC_DATA5, byte 0 first (R446). -/
def State.lcData (s : State) : List Byte := (List.range 6).flatMap (fun i => leBytes 8 (s.reg (Reg.sysLcData i)).toNat)

/-- The transitions of R431. -/
def lcAllowed (from' to' : Nat) : Bool := (from' == 0 && to' == 1) || (from' == 1 && (to' == 2 || to' == 3)) || (from' == 2 && to' == 3)

/-- LC_STAT.RESULT (R446). -/
def State.setLcResult (s : State) (r : Nat) : State := { s with sys := { s.sys with lcResult := r } }

/-- Programming begins (R431, R432): outside BLANK the key store is erased as by alarm 5 and KEK0 withheld; from BLANK the
owner's key hash is programmed and the fuse secret is drawn; toward RETURNED the secret is overwritten. -/
def State.programFuses (s : State) (t : Nat) : State :=
  if s.sys.lifecycle = 0 then
    { s with sys := { s.sys with
      lcBusy := some t, fuseHash := some (BitVec.ofNat 384 (beNat s.lcData)), secretNo := s.sys.secretNo + 1 } }
  else State.eraseKeys { s with sys := { s.sys with lcBusy := some t, secretGone := s.sys.secretGone || t == 3 }, lock := { s.lock with withheld := true } } 5

/-- A write of SYS.LC_CMD (R432): judged in order of power, transition and needs. -/
def State.lcCmd (s : State) (val : Word) : State :=
  let t := val.field 2 2
  if !val.bit 0 then s
  else if s.sys.lcBusy.isSome ∨ s.sys.lcPending then s.count Reg.genBadAccess
  else if s.sys.pwr ≠ 0 ∨ s.sys.moving.isSome then s.setLcResult 6
  else if ¬ lcAllowed s.sys.lifecycle t then s.setLcResult 2
  else if t = 1 ∧ s.lcData.all (fun (b : Byte) => b == 0#8) then s.setLcResult 4
  else if t = 3 ∧ ¬ (s.sys.auth ∧ s.sys.keysel = 2) then s.setLcResult 3
  else s.programFuses t

/-- LC_PROGRAM_DONE (R432): the fuses verify, or not; a TARGET held meanwhile is then acted on. -/
def execLcProgramDone (verified : Bool) (s : State) : Answer :=
  .next (match s.sys.lcBusy with
    | some t =>
      State.heldTarget (if verified then
        { s with sys := { s.sys with lcBusy := none, fuseState := t, lcPending := true, lcResult := 1 } }
      else { s with sys := { s.sys with lcBusy := none, fuseBroken := true, lcResult := 5 } })
    | none => s)

/-! ## Debug sessions (R434 to R438, R445) -/

/-- A level above 0 is granted without authentication (R445). -/
def debugOpen (lifecycle level : Nat) : Bool := lifecycle == 0 || (level == 1 && lifecycle != 2)

/-- The keys that a level above 0 is granted to, where it is not open (R445). -/
def debugKey (lifecycle level key : Nat) : Bool :=
  match lifecycle, level with
  | 1, 2 => key == 1 || key == 2
  | 2, 1 => key == 1
  | 2, 2 => key == 2
  | 3, 2 => key == 2
  | _, _ => false

/-- A session begins (R434, R435, R437): in PROVISIONED and FIELD the key store is erased and KEK0 withheld; at level 1
every port is down for transmission. -/
def State.openSession (s : State) (level : Nat) (auth : Bool) (key : Nat) : State :=
  let s := s.portsStep (List.range 128) (fun s => { s with sys := { s.sys with level := level, auth := auth, keysel := key } })
  if s.sys.lifecycle = 1 ∨ s.sys.lifecycle = 2 then
    State.eraseKeys { s with lock := { s.lock with withheld := true } } 5
  else s

/-- The session above level 0 ends (R438): after level 1 the device resets as by RESET_N; after level 2 halted cores go on. -/
def State.endSession (s : State) : State :=
  if s.sys.level = 1 then s.deviceReset 3 s.sys.bootSel
  else { s with sys := { s.sys with level := 0, auth := false, keysel := 0, halted := [] } }

/-- The 64-byte challenge record (R435). -/
def State.challengeRecord (s : State) (c : Challenge) : List Byte :=
  beBytes 32 (Config.nonce c.nonce).toNat ++ leBytes 8 (s.reg Reg.genId).toNat ++ beBytes 16 (Config.uniqueId ()).toNat ++
  [BitVec.ofNat 8 c.level, BitVec.ofNat 8 c.key, BitVec.ofNat 8 s.sys.lifecycle] ++ List.replicate 5 0#8

/-- The response answers its challenge (R435): the key's hash is that in fuses or in mask ROM, and the signature verifies. -/
def State.responseOk (s : State) (c : Challenge) (key sig : Bytes) : Bool :=
  let want : Option (BitVec 384) := if c.key = 1 then s.sys.fuseHash else some (Config.balrumDebugHash ())
  key.length == 97 && sig.length == 96 && want == some (sha384 key) &&
  ecdsaOk key (sha384 (s.challengeRecord c)) sig

/-- A failed response (R436): the fourth locks challenges out until the next reset. -/
def State.authFailed (s : State) : State :=
  let n := s.sys.fails + 1
  State.count { s with sys := { s.sys with fails := n, lockout := s.sys.lockout || decide (4 ≤ n) } } Reg.sysDbgAuthFail

/-- The test access port and its levels work (R445): VIN is present, and beyond IDCODE and BYPASS the state is RUN or TRIM. -/
def State.debugUp (s : State) : Bool := s.sys.powered && decide (s.sys.pwr < 2)

/-- The instruction register takes an opcode (R433). -/
def State.setIr (s : State) (op : Nat) : State := { s with sys := { s.sys with ir := op } }

/-! ## Commands on the test access port (R433) -/

/-- IDCODE (R433): the identification register is selected and shifted out. -/
def execIdcode (s : State) : Answer := .next (if s.sys.powered then (s.setIr 1).emit (.tdo (leBytes 4 0x1712896B)) else s)

/-- BYPASS (R433): 0xFF, and every opcode not listed, selects the 1-bit register, which captures 0. -/
def execBypass (opcode : Nat) (s : State) : Answer :=
  .next (if s.sys.powered ∧ ¬ [0x00, 0x01, 0x02, 0x20, 0x21, 0x22].contains opcode then (s.setIr 0xFF).emit (.tdo [0#8]) else s)

/-- The pins under the boundary register are sampled and shifted out: free values (log entry 4). -/
def State.samplePins (s : State) : State :=
  State.emit { s with free := s.free + 1 } (.tdo ((List.range s.sys.boundary.length).map (Config.freeByte s.free)))

/-- SAMPLE/PRELOAD (R433, R445): the sampled pins are shifted out, and a vector may be preloaded. -/
def execSamplePreload (preload : Option Bytes) (s : State) : Answer :=
  .next (if s.debugUp then
      let s := (s.setIr 2).samplePins
      { s with sys := { s.sys with boundary := preload.getD s.sys.boundary } }
    else s)

/-- EXTEST (R433, R434): at level 1 the sampled pins are shifted out and the vector drives the pins; below it the instruction has
no effect on them. -/
def execExtest (vector : Bytes) (s : State) : Answer :=
  .next (if s.debugUp then
      let s := s.setIr 0
      if s.sys.level = 1 then
        let s := s.samplePins
        { s with sys := { s.sys with boundary := vector } }
      else s
    else s)

/-- DBG_CHAL (R435, R436, R445): an open level is granted at once; a level that needs a key is answered with a challenge
record. Refused while locked out, while a session is open, and for what no key is granted. -/
def execDbgChal (request : Nat) (s : State) : Answer :=
  let level := request % 4
  let key := request / 4 % 4
  .next (if !s.debugUp then s
    else
      let s := s.setIr 0x20
      if s.sys.lockout || s.sys.level != 0 || level == 0 || level == 3 then s
      else if debugOpen s.sys.lifecycle level then s.openSession level false 0
      else if debugKey s.sys.lifecycle level key then
        let c : Challenge := { level := level, key := key, nonce := s.sys.nonceNo, issued := s.time.now }
        State.emit { s with sys := { s.sys with challenge := some c, response := none, nonceNo := s.sys.nonceNo + 1 } }
          (.tdo (s.challengeRecord c))
      else s)

/-- DBG_RESP (R435): the response to the challenge; a nonce serves for one. -/
def execDbgResp (key sig : Bytes) (s : State) : Answer :=
  .next (if s.debugUp then
      let s := s.setIr 0x21
      if s.sys.challenge.isSome ∧ s.sys.response = none then { s with sys := { s.sys with response := some (key, sig) } } else s
    else s)

/-- DEBUG_AUTH_RESULT (R435 to R437): verification completes. In FIELD level 2 needs DBG_CTL.ALLOW. -/
def execDebugAuthResult (s : State) : Answer :=
  .next (match s.sys.challenge, s.sys.response with
    | some c, some r =>
      let t := { s with sys := { s.sys with challenge := none, response := none } }
      if s.responseOk c r.1 r.2 then
        if s.sys.lifecycle = 2 ∧ c.level = 2 ∧ ¬ s.flag Reg.sysDbgCtl 0 then t else t.openSession c.level true c.key
      else t.authFailed
    | _, _ => s)

/-- What the internal debug port shifts out: free bytes from an address on (log entry 4). -/
def State.debugData (s : State) (addr : Nat) : State :=
  State.emit { s with free := s.free + 1 } (.tdo ((List.range 8).map (fun i => Config.freeByte s.free (8 * addr + i))))

/-- DBG_ACCESS (R433, R434): at level 2 the internal debug port reads on-chip memory or scans a slice, halts a management core,
or lets a halted one make a step. -/
def execDbgAccess (op : DbgOp) (s : State) : Answer :=
  .next (if s.debugUp then
      let s := s.setIr 0x22
      if s.sys.level ≠ 2 then s
      else match op with
        | .read a => s.debugData a
        | .scan n => s.debugData n
        | .halt m => { s with sys := { s.sys with halted := setInsert m s.sys.halted } }
        | .step m => if s.sys.halted.contains m then s.debugData m else s
    else s)

/-- NONCE_LAPSE (R435): 60 s after it was issued, a nonce that no response has used lapses. -/
def execNonceLapse (s : State) : Answer :=
  .next (match s.sys.challenge, s.sys.response with
    | some c, none =>
      let s := s.advanceTo (c.issued + 60000000000)
      { s with sys := { s.sys with challenge := none } }
    | _, _ => s)

/-- TAP_RESET (R433, R435, R438): IDCODE is selected, the nonce lapses and a session ends. -/
def execTapReset (s : State) : Answer :=
  .next (State.endSession { s with sys := { s.sys with ir := 1, challenge := none, response := none } })

end Sys2Proof.Machine
end

