-- ==== Sys2Proof/Machine/Loads.lean ====
section
/-! DEFINITION. The phases of a table load that may fail (R174 to R177, R491): a failure withdraws a pending swap as
GEN.SWAP.CANCEL does, so that what awaited it goes on. -/

namespace Sys2Proof.Machine

/-- A load fails at a record; a failed read counts (R361); a pending swap is withdrawn, and a manual commit that it held up is
performed (R50, R177). -/
def State.failLoad (s : State) (err rec' : Nat) : State :=
  let s := match s.watch.loader.cmd with
    | some (e, k) => if err = 10 then s.memError e k else s
    | none => s
  (s.loadFail err rec').unbusy

/-- IMAGE_WAIT_END (R174, R176 point 1, R491): the header is read and checked; a delta image is copied first, a full one
clears the bank. -/
def execImageWaitEnd (header : Option (List Word)) (s : State) : Answer :=
  let g := s.inactiveGen
  .next (if s.watch.loader.st ≠ .waiting ∨ s.genBusy g then s
    else
      match header with
      | none => s.failLoad 10 0
      | some ws =>
        let h : Nat → Word := fun i => (ws[i]?).getD 0
        match headerError s.watch.loader.length h with
        | some e => s.failLoad e 0
        | none =>
          let s := s.modLoader (fun l => { l with
            mode := (h 0).field 48 8, seed0 := (h 1).field 0 32, seed1 := (h 1).field 32 32, crcWant := (h 4).field 32 32
            imageId := h 5, nStash := (h 2).field 32 32, recNo := 0, pos := 64, crc := 0xFFFFFFFF, wrote := []
            counts := [(h 2).field 0 32, (h 2).field 32 32, (h 3).field 0 32, (h 3).field 32 32, (h 4).field 0 32] })
          let l := s.watch.loader
          if l.mode = 0 then
            State.loadWrite (s.modBank g (fun b => { b with
              entries := [], stash := [], badSlots := [], routes := [], descs := [], seed0 := l.seed0, seed1 := l.seed1 }))
          else s.modLoader (fun l => { l with st := .copying }))

/-- IMAGE_RECORD_READ (R176 point 2): the next record in image order is read, checked and written. -/
def execImageRecordRead (words : Option (List Word)) (s : State) : Answer :=
  let l := s.watch.loader
  .next (match l.section? with
    | none => s
    | some sec =>
      if l.st ≠ .writing then s
      else
        match words with
        | none => s.failLoad 10 l.recNo
        | some ws =>
          match s.recordError sec ws with
          | some e => s.failLoad e l.recNo
          | none =>
            let n := if sec = 4 then 1 + ((ws[0]?).getD 0).field 24 25 else recordBytes sec / 8
            s.writeRecord sec ((List.range n).map (fun i => (ws[i]?).getD 0)))

/-- IMAGE_END_CHECK (R176 point 3, R491): the bytes left up to the image length have been read, or could not be. -/
def execImageEndCheck (s : State) (readOk : Bool := true) : Answer :=
  let l := s.watch.loader
  .next (if l.st ≠ .writing ∨ l.section? ≠ none then s
    else if l.pos < l.length ∧ ¬ readOk then s.failLoad 10 0
    else if l.pos < l.length then s.failLoad 1 0
    else if l.crc ≠ l.crcWant ^^^ 0xFFFFFFFF then s.failLoad 2 0
    else s.modLoader (fun l => { l with st := .checking }))

/-- IMAGE_BANK_CHECK (R176 point 4, R177). -/
def execImageBankCheck (s : State) : Answer :=
  let l := s.watch.loader
  .next (if l.st ≠ .checking then s
    else
      match s.bankError with
      | some (e, r) => s.failLoad e r
      | none =>
        let s := s.modBank s.inactiveGen (fun b => { b with bad := false, imageId := l.imageId })
        let s := s.modLoader (fun l => { l with err := 0, errRec := 0 })
        (s.count Reg.watchLoads).loadEnd 0 0 l.imageId)

end Sys2Proof.Machine
end

