-- ==== Sys2Proof/Machine/Time.lean ====
section
/-! DEFINITION. The time base: TIME_SET in its three forms, steps of TAI, PPS discipline (R31, R84, R210, R348, R482), and
the PORT_CTL command (R346). -/

namespace Sys2Proof.Machine

/-! ## Steps of TAI (R31, R210, R348) -/

/-- The time base steps to another offset: SET, STEP_LAST and STEP_TAI, TIME events, and the boundary calculation. -/
def State.stepTime (s : State) (offset : Int) : State :=
  let step := BitVec.ofInt 64 (offset - s.time.offset)
  let s := { s with time := { s.time with
    prevOffset := s.time.offset, offset := offset, stepAt := some s.time.now, set := true, stepLast := step } }
  let s := { s with time := { s.time with stepTai := s.tai } }
  ((s.postEvent .a 4 step.toNat).postEvent .b 4 step.toNat).realign

/-- 1 ms has passed since the previous step (R210, R348). -/
def State.stepAllowed (s : State) : Bool :=
  match s.time.stepAt with
  | some t => decide (t + 1000000 ≤ s.time.now)
  | none => true

/-- A TIME_SET takes effect now, and its command completes with the TAI just after the change (R346). -/
def State.applyTime (s : State) (q : TimeReq) : State :=
  let s := { s with time := { s.time with requests := s.time.requests.filter (fun (x : TimeReq) => x != q) } }
  let s := s.stepTime (if q.step then s.time.offset + q.value.toInt else (q.value.toNat : Int) - s.time.now)
  s.endCommand q.ep q.ring 0 0 s.tai

/-! ## PPS (R482) -/

/-- The active edge of PPS_IN: captured, used for discipline when its interval allows, and applied by a TIME_SET that
waits for it. -/
def State.ppsEdge (s : State) : State :=
  let now := s.time.now
  let gap := now - s.time.ppsLast.getD 0
  let ok := s.time.ppsRef && decide (999900000 ≤ gap ∧ gap ≤ 1000100000)
  let s := if s.flag Reg.sysTimeCtl 0 then
      { s with time := { s.time with
        ppsUsed := if ok then min (s.time.ppsUsed + 1) 3 else 0, ppsRef := true, ppsLost := false, ppsBase := now } }
    else s
  let s := match s.time.requests.find? (fun q => q.atPps) with
    | some q => if s.stepAllowed then s.applyTime q else s
    | none => s
  { s with time := { s.time with ppsLast := some now, ppsCapture := s.tai } }

/-! ## Commands -/

/-- PPS_EDGE (R482): the edge that SYS.TIME_CTL.PPS_EDGE selects; the other edge does nothing. -/
def execPpsEdge (rising : Bool) (s : State) : Answer :=
  .next (if rising != s.flag Reg.sysTimeCtl 1 then s.ppsEdge else s)

/-- PPS_LOST (R84, R482): 1.5 s without an edge while PPS_EN is 1 in force. -/
def execPpsLost (s : State) : Answer :=
  .next (if s.flag Reg.sysTimeCtl 0 ∧ ¬ s.time.ppsLost then
      let s := s.advanceTo (s.time.ppsBase + 1500000000)
      { s with time := { s.time with ppsLost := true, ppsRef := false, ppsUsed := 0 } }
    else s)

/-- TIME_SET (R346, R348): the request is taken; AT_PPS needs PPS_EN = 1 in force. -/
def execTimeSet (c : CmdEntry) (s : State) : Answer :=
  .next (s.startCommand c 11 (fun s =>
    let atPps := (cmdFlags c).testBit 1
    if !cmdHeadOk c 2 || !wordsZero [c.w2, c.w3, c.w4, c.w5, c.w6, c.w7] then s.endCmd c 3 0 0
    else if atPps && !s.flag Reg.sysTimeCtl 0 then s.endCmd c 7 0 0
    else { s with time := { s.time with requests := s.time.requests ++
        [{ ep := c.ep, ring := c.ring, step := (cmdFlags c).testBit 0, atPps := atPps, value := c.w1, since := s.time.now }] } }))

/-- TIME_SET_APPLY (R348): the oldest request that waits for no edge takes effect, once 1 ms has passed since the
previous step. -/
def execTimeSetApply (s : State) : Answer :=
  .next (match s.time.requests.find? (fun q => !q.atPps) with
    | some q =>
      (s.advanceTo (match s.time.stepAt with | some t => t + 1000000 | none => s.time.now)).applyTime q
    | none => s)

/-- TIME_SET_TIMEOUT (R348): no edge within 1.5 s; the command completes TIMEOUT. -/
def execTimeSetTimeout (s : State) : Answer :=
  .next (match s.time.requests.find? (fun q => q.atPps) with
    | some q =>
      let s := s.advanceTo (q.since + 1500000000)
      let s := { s with time := { s.time with requests := s.time.requests.filter (fun (x : TimeReq) => x != q) } }
      s.endCommand q.ep q.ring 8 0 0
    | none => s)

/-- One port of a PORT_CTL command (R79, R346). -/
def State.portAction (s : State) (e : Ep) (action p : Nat) : State :=
  let n := s.serving p
  let off := Reg.portCtl n
  match action with
  | 0 => s.stageWrite (.ep e) off (s.latest off ||| 1#64)
  | 1 => s.stageWrite (.ep e) off (s.latest off &&& ~~~1#64)
  | 2 => s.recover n
  | _ => s.fgClear p

/-- PORT_CTL (R346): acts on every named port; FG_CLEAR skips logic ports. RESULT counts the ports acted on. -/
def execPortCtl (c : CmdEntry) (s : State) : Answer :=
  .next (s.startCommand c 4 (fun s =>
    if !cmdHeadOk c 0 || !wordsZero [c.w4, c.w5, c.w6, c.w7] || c.w3.field 2 62 != 0 then s.endCmd c 3 0 0
    else
      let action := c.w3.field 0 2
      let named := (List.range 128).filter (fun p => (if p < 64 then c.w1.bit p else c.w2.bit (p - 64)) && (action != 3 || decide (p < 32)))
      (named.foldl (fun s p => s.portAction c.ep action p) s).endCmd c 0 0 (BitVec.ofNat 64 named.length)))

end Sys2Proof.Machine
end

