-- ==== Sys2Proof/Machine/RegisterWrites.lean ====
section
/-! DEFINITION. What a register write does beyond its fields, register by register, and the commands that are writes of
one register; the parity scan, the reload of a register and what waits for it (R55 to R78). -/

namespace Sys2Proof.Machine

/-! ## Effects of a write, block by block -/

/-- GEN: the lock, ownership, snapshots, epochs, commits and bank swaps. wc holds the WC bits, hold the old HOLD. -/
def State.genEffect (s : State) (a : Access) (wc : Word) (hold : Bool) : State :=
  if a.off = Reg.genUnlock then s.unlock a.path wc
  else if a.off = Reg.genOwner then
    let next := epOf (s.fld Reg.genOwner 0 1)
    if next = s.regs.owner then s else s.ownerMove next 1
  else if a.off = Reg.genSnap then (if wc.bit 0 then s.snapshot false (wc.bit 1) else s)
  else if a.off = Reg.genEpochCtl then s.epochCtl hold
  else if a.off = Reg.genCommit then (if wc.bit 0 then s.genCommit else s)
  else if a.off = Reg.genSwap then (if wc.bit 1 then s.cancelSwap else if wc.bit 0 then s.requestSwap else s)
  else s

/-- WATCH and SCRIV: captures and forcing. -/
def State.watchEffect (s : State) (a : Access) (wc : Word) : State :=
  if a.off = Reg.watchWsel then s.captureWatch (s.fld Reg.watchWsel 0 18)
  else if a.off = Reg.watchForceCmd then s.forceCmd wc
  else if a.off = Reg.scrivRecSel then s.captureRec (s.fld Reg.scrivRecSel 0 23)
  else if a.off = Reg.scrivHashIn then s.captureHash (s.reg Reg.scrivHashIn)
  else s

/-- LOCK: zeroize, acknowledge, the key management lock and the capture of a slot. -/
def State.lockEffect (s : State) (a : Access) (wc : Word) : State :=
  if a.off = Reg.lockZeroize then (if wc.bit 0 then s.eraseKeys 6 else s)
  else if a.off = Reg.lockCmd then (if wc.bit 0 then { s with lock := { s.lock with erased := false } } else s)
  else if a.off = Reg.lockKmLock then s.kmWrite a.path wc
  else if a.off = Reg.lockSlotSel then s.captureSlot (s.reg Reg.lockSlotSel)
  else s

/-- SYS: power, debug, lifecycle, reset, firmware and boot flash. -/
def State.sysEffect (s : State) (a : Access) (wc : Word) : State :=
  if a.off = Reg.sysPwrCtl then s.writeTarget (s.fld Reg.sysPwrCtl 0 2)
  else if a.off = Reg.sysDbgCtl then (if wc.bit 1 then s.endSession else s)
  else if a.off = Reg.sysLcCmd then s.lcCmd wc
  else if a.off = Reg.sysRstCmd then (if wc.bit 0 then s.deviceReset 4 s.sys.bootSel else s)
  else if a.off = Reg.sysFwCmd then s.fwCmd wc a.flashOk
  else if a.off = Reg.sysFlData then s.flWrite wc
  else if a.off = Reg.sysFlAddr then s.flSelect
  else if a.off = Reg.sysFwSel then s.captureHeader (s.reg Reg.sysFwSel)
  else s

/-- XCVR.CMD (R133, R141). -/
def State.xcvrCmd (s : State) (wc : Word) : State :=
  let s := if wc.bit 16 then s.fgClear (wc.field 0 8) else s
  if wc.bit 17 then s.ackWake else s

/-- The registers outside GEN, WATCH, SCRIV, LOCK and SYS whose write does more than store its fields. -/
def State.unitEffect (s : State) (a : Access) (wc : Word) : State :=
  if a.off = Reg.hostOwnHb then
    (if wc.bit 0 ∧ a.path = .ep s.regs.owner then { s with regs := { s.regs with beatAt := s.time.now } } else s)
  else if a.off = Reg.drayTxqCmd then (if wc.bit 16 then s.dropHead (wc.field 0 7) (wc.field 8 2) else s)
  else if a.off = Reg.bellPendClr then s.bellPendClr (wc.field 0 9)
  else if a.off = Reg.stewCmd then s.stewCmd wc
  else if a.off = Reg.tinkSliceSel then s.sliceSel (s.reg Reg.tinkSliceSel)
  else if a.off = Reg.xcvrCmd then s.xcvrCmd wc
  else
    match blockEngine a.off with
    | some n => if a.off = Reg.portCmd n ∧ wc.bit 0 then s.recover n else s
    | none => if 0x10000 ≤ a.off ∧ a.off < 0x20000 then s.bellService else s

/-- What a write does beyond its fields. WC bits act in the normal window alone (R64). -/
def State.writeEffect (s : State) (a : Access) (hold : Bool) : State :=
  let wc := if a.op = .plain then a.val else 0
  if a.off < 0x10000 then s.genEffect a wc hold
  else if 0x80000 ≤ a.off ∧ a.off < 0xA0000 ∨ a.off = Reg.scrivRecSel ∨ a.off = Reg.scrivHashIn then s.watchEffect a wc
  else if a.off = Reg.lockZeroize ∨ a.off = Reg.lockCmd ∨ a.off = Reg.lockKmLock ∨ a.off = Reg.lockSlotSel then s.lockEffect a wc
  else if 0xC0000 ≤ a.off ∧ a.off < 0xD0000 then s.sysEffect a wc
  else s.unitEffect a wc

/-! ## The write (R55 to R68, R73, R152) -/

/-- A write ignored by its register: LC_DATA from PROVISIONED on (R446). -/
def State.lcDataLocked (s : State) (off : Nat) : Bool :=
  decide (Reg.sysLcData 0 ≤ off ∧ off ≤ Reg.sysLcData 5) && s.sys.lifecycle != 0

/-- An access is performed in its register (R61, R152). -/
def State.perform (s : State) (a : Access) (g : RegGroup) : State :=
  if s.shadowBlock a.off then s.count Reg.xbarShadowWrites
  else if s.lcDataLocked a.off then s
  else (s.writeFields a g).writeEffect a (s.flag Reg.genEpochCtl 2)

/-- An access reaches its register: a reserved test control is refused by name (R76). -/
def State.access (s : State) (a : Access) : Answer :=
  match regAt a.off with
  | none => .next s
  | some (g, _) => if s.changesLive a g then .refused (.testControl a.off) else .next (s.perform a g)

/-- What is sent takes its effect: a BAR0 write or a register write of management firmware (R55 to R68), a doorbell, or an
access to BAR4. A claim's read returns its data to the endpoint (R394, R402); an end of interrupt above 511 is on no stack. -/
def State.performPosted (s : State) : Posted → Answer
  | .write p off size val flashOk =>
    match s.accept p off size val flashOk with
    | (s, none) => .next s
    | (s, some a) => s.access a
  | .doorbell e ring off val => .next (s.doorbell e ring off val)
  | .claim e l => .next (State.emit (s.bellClaim (targetOf e l)).1 (.claim e (s.bellClaim (targetOf e l)).2))
  | .eoi e l val => .next (s.bellEoi (targetOf e l) val.toNat)
  | .mask e l val => .next (s.bellSetMask (targetOf e l) (val.bit 0))
  | .msix e w size val => .next (s.msixWrite e w size val)

/-- Where it comes from. -/
def Posted.path : Posted → Path
  | .write p _ _ _ _ => p
  | .doorbell e _ _ _ => .ep e
  | .claim e _ => .ep e
  | .eoi e _ _ => .ep e
  | .mask e _ _ => .ep e
  | .msix e _ _ _ => .ep e

/-- It passes through the register fabric, whose accesses are performed in the order in which they reach it (R56, R402). -/
def Posted.fabric : Posted → Bool
  | .doorbell _ _ _ _ => false
  | .msix _ _ _ _ => false
  | _ => true

/-- It is a write that would be performed in a register whose in-force copy awaits its rewrite (R73). -/
def State.meetsBad (s : State) : Posted → Bool
  | .write p off size val flashOk =>
    match s.accept p off size val flashOk with
    | (_, some a) => s.regs.badInForce.contains a.off
    | (_, none) => false
  | _ => false

/-- What is sent waits: for the rewrite of its register (R73), behind another access that waits at the fabric (R56), or behind
an earlier write of the same endpoint (R56, R336). -/
def State.mustWait (s : State) (x : Posted) : Bool :=
  s.meetsBad x || s.regs.waiting.any (fun y => x.fabric || y.path == x.path)

/-- What is sent arrives. -/
def State.arrive (s : State) (x : Posted) : Answer :=
  if s.mustWait x then .next { s with regs := { s.regs with waiting := s.regs.waiting ++ [x] } } else s.performPosted x

/-- What waited is performed in the order sent, up to the next write that must wait (R56, R73). -/
def State.replay (s : State) : List Posted → Answer
  | [] => .next { s with regs := { s.regs with waiting := [] } }
  | x :: t =>
    if s.meetsBad x then .next { s with regs := { s.regs with waiting := x :: t } }
    else
      match s.performPosted x with
      | .next s => State.replay s t
      | o => o

/-- The offset of BAR0 that an offset decodes to, in its window: of an engine's block only the first 0x100 bytes are decoded
(R78). -/
def decodedOff (off : Nat) : Nat := off / 0x400000 * 0x400000 + canonicalOff (off % 0x400000)

/-- A BAR0 write, or a register write of management firmware (R55 to R68). -/
def State.busWrite (s : State) (p : Path) (off size : Nat) (val : Word) (flashOk : Bool) : Answer :=
  s.arrive (.write p (decodedOff off) size val flashOk)

/-- A 64-bit write in the normal window. -/
def State.write (s : State) (p : Path) (off : Nat) (val : Word) : Answer := s.busWrite p off 8 val true

/-! ## Parity (R72 to R74) -/

/-- PARITY_SCAN (R72 to R74): one pass over every copy. It finds bad the copies named first, and every copy gone bad since the
last pass that no read or commit has met; those named second go bad after the pass has gone by. -/
def execParityScan (bad : List (RegCopy × Nat)) (s : State) (later : List (RegCopy × Nat) := []) : Answer :=
  let s := (bad ++ s.regs.upset).eraseDups.foldl State.parityBad s
  let s := { s with regs := { s.regs with upset := later.eraseDups } }
  .next (if s.regs.badInForce = [] then { s with regs := { s.regs with parityInForce := false } } else s)

/-- CONFIG_RELOAD (R73): the in-force copy is rewritten, and what waited for it is performed in order. -/
def execConfigReload (off : Nat) (s : State) : Answer :=
  if s.regs.badInForce.contains off && s.regs.reload.contains off then
    State.replay (State.mendCopy { s with regs := { s.regs with
      badInForce := setErase off s.regs.badInForce, reload := setErase off s.regs.reload } } (.inForce, off)) s.regs.waiting
  else .next s

/-! ## Accesses outside BAR0 (R336, R393 to R402) -/

/-- DOORBELL (R82, R336, R359): handled after every earlier write of its endpoint. -/
def execDoorbell (e : Ep) (ring off : Nat) (val : Word) (s : State) : Answer := s.arrive (.doorbell e ring off val)
/-- BELL_CLAIM: a read of CLAIM in the endpoint's own window (R394). -/
def execBellClaim (e : Ep) (l : Nat) (s : State) : Answer := s.arrive (.claim e l)
/-- BELL_EOI (R396). -/
def execBellEoi (e : Ep) (l : Nat) (val : Word) (s : State) : Answer := s.arrive (.eoi e l val)
/-- BELL_MASK (R398). -/
def execBellMask (e : Ep) (l : Nat) (val : Word) (s : State) : Answer := s.arrive (.mask e l val)
/-- MSI_X_TABLE_WRITE (R393, R402). -/
def execMsiXTableWrite (e : Ep) (w : MsixPlace) (size : Nat) (val : Word) (s : State) : Answer := s.arrive (.msix e w size val)

/-! ## Commands that are writes -/

/-- REGISTER_WRITE (R61). -/
def execRegisterWrite (p : Path) (off size : Nat) (val : Word) (s : State) : Answer := s.busWrite p off size val true
/-- ALIAS_WRITE (R63, R64): the offset names the window and the register. -/
def execAliasWrite (p : Path) (off size : Nat) (val : Word) (s : State) : Answer := s.busWrite p off size val true
/-- GEN_UNLOCK (R67). -/
def execGenUnlock (p : Path) (val : Word) (s : State) : Answer := s.write p Reg.genUnlock val
/-- GEN_OWNER_WRITE (R326). -/
def execGenOwnerWrite (p : Path) (val : Word) (s : State) : Answer := s.write p Reg.genOwner val
/-- OWN_HB_BEAT (R327). -/
def execOwnHbBeat (p : Path) (val : Word) (s : State) : Answer := s.write p Reg.hostOwnHb val
/-- GEN_SNAP_TAKE (R69, R71). -/
def execGenSnapTake (p : Path) (val : Word) (s : State) : Answer := s.write p Reg.genSnap val
/-- GEN_COMMIT (R50). -/
def execGenCommit (p : Path) (val : Word) (s : State) : Answer := s.write p Reg.genCommit val
/-- EPOCH_CTL_RUN_START (R52). -/
def execEpochCtlRunStart (p : Path) (val : Word) (s : State) : Answer := s.write p Reg.genEpochCtl val
/-- EPOCH_CTL_RUN_STOP (R53). -/
def execEpochCtlRunStop (p : Path) (val : Word) (s : State) : Answer := s.write p Reg.genEpochCtl val
/-- EPOCH_CTL_HOLD (R43). -/
def execEpochCtlHold (p : Path) (val : Word) (s : State) : Answer := s.write p Reg.genEpochCtl val
/-- GEN_SWAP_REQ (R45). -/
def execGenSwapReq (p : Path) (val : Word) (s : State) : Answer := s.write p Reg.genSwap val
/-- GEN_SWAP_CANCEL (R45, R46). -/
def execGenSwapCancel (p : Path) (val : Word) (s : State) : Answer := s.write p Reg.genSwap val
/-- PORT_CMD_RECOVER (R99): PORT.CMD of an engine's block. -/
def execPortCmdRecover (p : Path) (eng : Nat) (val : Word) (s : State) : Answer := s.write p (Reg.portCmd eng) val
/-- FG_CLEAR (R133). -/
def execFgClear (p : Path) (val : Word) (s : State) : Answer := s.write p Reg.xcvrCmd val
/-- WAKE_ACK (R141). -/
def execWakeAck (p : Path) (val : Word) (s : State) : Answer := s.write p Reg.xcvrCmd val
/-- WATCH_WSEL (R233). -/
def execWatchWsel (p : Path) (val : Word) (s : State) : Answer := s.write p Reg.watchWsel val
/-- FORCE_CMD_FORCE (R224). -/
def execForceCmdForce (p : Path) (val : Word) (s : State) : Answer := s.write p Reg.watchForceCmd val
/-- FORCE_CMD_RELEASE (R225). -/
def execForceCmdRelease (p : Path) (val : Word) (s : State) : Answer := s.write p Reg.watchForceCmd val
/-- SCRIV_REC_SEL (R206). -/
def execScrivRecSel (p : Path) (val : Word) (s : State) : Answer := s.write p Reg.scrivRecSel val
/-- SCRIV_HASH_IN (R206). -/
def execScrivHashIn (p : Path) (val : Word) (s : State) : Answer := s.write p Reg.scrivHashIn val
/-- TXQ_DROP_HEAD (R288). -/
def execTxqDropHead (p : Path) (val : Word) (s : State) : Answer := s.write p Reg.drayTxqCmd val
/-- LOCK_ZEROIZE (R319). -/
def execLockZeroize (p : Path) (val : Word) (s : State) : Answer := s.write p Reg.lockZeroize val
/-- LOCK_CMD_ACK (R320). -/
def execLockCmdAck (p : Path) (val : Word) (s : State) : Answer := s.write p Reg.lockCmd val
/-- KM_LOCK_CLAIM (R314). -/
def execKmLockClaim (p : Path) (val : Word) (s : State) : Answer := s.write p Reg.lockKmLock val
/-- KM_LOCK_RELEASE (R314). -/
def execKmLockRelease (p : Path) (val : Word) (s : State) : Answer := s.write p Reg.lockKmLock val
/-- BELL_PEND_CLR (R389). -/
def execBellPendClr (p : Path) (val : Word) (s : State) : Answer := s.write p Reg.bellPendClr val
/-- BELL_GDIS (R397): BELL.CTL. -/
def execBellGdis (p : Path) (val : Word) (s : State) : Answer := s.write p Reg.bellCtl val
/-- BELL_SRC_EN (R390): BELL.SRC_CFG of a source. -/
def execBellSrcEn (p : Path) (src : Nat) (val : Word) (s : State) : Answer := s.write p (Reg.bellSrcCfg src) val
/-- STEW_CMD_ACK (R416). -/
def execStewCmdAck (p : Path) (val : Word) (s : State) : Answer := s.write p Reg.stewCmd val
/-- STEW_CMD_RECOVER (R410). -/
def execStewCmdRecover (p : Path) (val : Word) (s : State) : Answer := s.write p Reg.stewCmd val
/-- STEW_CMD_RCLR (R417). -/
def execStewCmdRclr (p : Path) (val : Word) (s : State) : Answer := s.write p Reg.stewCmd val
/-- LC_CMD_GO (R432). -/
def execLcCmdGo (p : Path) (val : Word) (s : State) : Answer := s.write p Reg.sysLcCmd val
/-- DBG_CTL_END (R438). -/
def execDbgCtlEnd (p : Path) (val : Word) (s : State) : Answer := s.write p Reg.sysDbgCtl val
/-- PWR_CTL_TARGET (R440). -/
def execPwrCtlTarget (p : Path) (val : Word) (s : State) : Answer := s.write p Reg.sysPwrCtl val
/-- RST_CMD_FULL (R447). -/
def execRstCmdFull (p : Path) (val : Word) (s : State) : Answer := s.write p Reg.sysRstCmd val
/-- FW_CMD_ACTIVATE (R460). -/
def execFwCmdActivate (p : Path) (val : Word) (s : State) : Answer := s.write p Reg.sysFwCmd val
/-- FW_CMD_CONFIRM (R460, R462). -/
def execFwCmdConfirm (p : Path) (val : Word) (s : State) : Answer := s.write p Reg.sysFwCmd val
/-- FW_CMD_REVERT (R460, R462). -/
def execFwCmdRevert (p : Path) (val : Word) (s : State) : Answer := s.write p Reg.sysFwCmd val
/-- FW_CMD_ROLL (R461). -/
def execFwCmdRoll (p : Path) (val : Word) (s : State) : Answer := s.write p Reg.sysFwCmd val
/-- FW_CMD_ERASE (R458); flashOk says whether the flash cycle succeeds. -/
def execFwCmdErase (p : Path) (val : Word) (flashOk : Bool) (s : State) : Answer := s.busWrite p Reg.sysFwCmd 8 val flashOk
/-- FW_CMD_PROGRAM (R458); flashOk says whether the flash cycle succeeds. -/
def execFwCmdProgram (p : Path) (val : Word) (flashOk : Bool) (s : State) : Answer := s.busWrite p Reg.sysFwCmd 8 val flashOk
/-- FL_DATA (R458). -/
def execFlData (p : Path) (val : Word) (s : State) : Answer := s.write p Reg.sysFlData val
/-- FL_ADDR (R458). -/
def execFlAddr (p : Path) (val : Word) (s : State) : Answer := s.write p Reg.sysFlAddr val
/-- FW_SEL (R463). -/
def execFwSel (p : Path) (val : Word) (s : State) : Answer := s.write p Reg.sysFwSel val
/-- LOCK_SLOT_SEL (R321). -/
def execLockSlotSel (p : Path) (val : Word) (s : State) : Answer := s.write p Reg.lockSlotSel val
/-- TINK_SLICE_SEL (R429). -/
def execTinkSliceSel (p : Path) (val : Word) (s : State) : Answer := s.write p Reg.tinkSliceSel val

end Sys2Proof.Machine
end

