-- ==== Sys2Proof/Machine/Dispatch.lean ====
section
/-! DEFINITION. exec: one arm per command of the opcode table, each one direct call of its meaning. -/

namespace Sys2Proof.Machine

/-- The effect of a command on everything but the queue. -/
def exec (i : Instr) (s : State) : Host.Outcome State Fault Refusal :=
  match i with
  | .registerWrite p off size val => Sys2Proof.Machine.execRegisterWrite p off size val s
  | .aliasWrite p off size val => Sys2Proof.Machine.execAliasWrite p off size val s
  | .genUnlock p val => Sys2Proof.Machine.execGenUnlock p val s
  | .genOwnerWrite p val => Sys2Proof.Machine.execGenOwnerWrite p val s
  | .ownHbBeat p val => Sys2Proof.Machine.execOwnHbBeat p val s
  | .ownerJudge => Sys2Proof.Machine.execOwnerJudge s
  | .genSnapTake p val => Sys2Proof.Machine.execGenSnapTake p val s
  | .snapshotComplete => Sys2Proof.Machine.execSnapshotComplete s
  | .parityScan bad later => Sys2Proof.Machine.execParityScan bad s later
  | .configReload off => Sys2Proof.Machine.execConfigReload off s
  | .cut => Sys2Proof.Machine.execCut s
  | .stagingFreeze => Sys2Proof.Machine.execStagingFreeze s
  | .epochBoundary => Sys2Proof.Machine.execEpochBoundary s
  | .freezeEnd => Sys2Proof.Machine.execFreezeEnd s
  | .closeRecord => Sys2Proof.Machine.execCloseRecord s
  | .silentBoundary => Sys2Proof.Machine.execSilentBoundary s
  | .genCommit p val => Sys2Proof.Machine.execGenCommit p val s
  | .commitSwapEligible => Sys2Proof.Machine.execCommitSwapEligible s
  | .epochCtlRunStart p val => Sys2Proof.Machine.execEpochCtlRunStart p val s
  | .epochCtlRunStop p val => Sys2Proof.Machine.execEpochCtlRunStop p val s
  | .epochCtlHold p val => Sys2Proof.Machine.execEpochCtlHold p val s
  | .genSwapReq p val => Sys2Proof.Machine.execGenSwapReq p val s
  | .genSwapCancel p val => Sys2Proof.Machine.execGenSwapCancel p val s
  | .rxHeader port f sofAgo => Sys2Proof.Machine.execRxHeader port f sofAgo s
  | .rxFrameEnd port v sv toAck => Sys2Proof.Machine.execRxFrameEnd port v sv s toAck
  | .busError port e transmitter ph loop sv => Sys2Proof.Machine.execBusError port e transmitter ph s loop sv
  | .boDelayExpire port => Sys2Proof.Machine.execBoDelayExpire port s
  | .busOffRecovery port occurrences => Sys2Proof.Machine.execBusOffRecovery port occurrences s
  | .portCmdRecover p eng val => Sys2Proof.Machine.execPortCmdRecover p eng val s
  | .portIntegrated eng => Sys2Proof.Machine.execPortIntegrated eng s
  | .portStopComplete eng => Sys2Proof.Machine.execPortStopComplete eng s
  | .portHoldExpire port => Sys2Proof.Machine.execPortHoldExpire port s
  | .txChoice port => Sys2Proof.Machine.execTxChoice port s
  | .txSuccess port loopMtq sv => Sys2Proof.Machine.execTxSuccess port loopMtq sv s
  | .arbLost port => Sys2Proof.Machine.execArbLost port s
  | .selfAbort port ph loop sv => Sys2Proof.Machine.execSelfAbort port ph s loop sv
  | .ctUnderrun port ph loop sv => Sys2Proof.Machine.execCtUnderrun port ph s loop sv
  | .xcvrModeEffect port => Sys2Proof.Machine.execXcvrModeEffect port s
  | .xcvrSettled port => Sys2Proof.Machine.execXcvrSettled port s
  | .lpStbEffect port => Sys2Proof.Machine.execLpStbEffect port s
  | .vbusUndervoltage bank mv => Sys2Proof.Machine.execVbusUndervoltage bank mv s
  | .violUnpowered bank mv => Sys2Proof.Machine.execViolUnpowered bank mv s
  | .fgSample port mv ua => Sys2Proof.Machine.execFgSample port mv ua s
  | .fgCoolExpire port => Sys2Proof.Machine.execFgCoolExpire port s
  | .fgRetry port => Sys2Proof.Machine.execFgRetry port s
  | .fgClear p val => Sys2Proof.Machine.execFgClear p val s
  | .wakeUpPattern port dom1 rec dom2 total => Sys2Proof.Machine.execWakeUpPattern port dom1 rec dom2 total s
  | .wakeUpFrame port ide ident dlc remote fd erroneous data => Sys2Proof.Machine.execWakeUpFrame port ide ident dlc remote fd erroneous data s
  | .wakeN => Sys2Proof.Machine.execWakeN s
  | .wakeAck p val => Sys2Proof.Machine.execWakeAck p val s
  | .takeoverCopy port => Sys2Proof.Machine.execTakeoverCopy port s
  | .takeoverSwitch port overload => Sys2Proof.Machine.execTakeoverSwitch port overload s
  | .hoTimeout port => Sys2Proof.Machine.execHoTimeout port s
  | .lookup fid eccSlot => Sys2Proof.Machine.execLookup fid eccSlot s
  | .decodeOp fid => Sys2Proof.Machine.execDecodeOp fid s
  | .recordCommit fid => Sys2Proof.Machine.execRecordCommit fid s
  | .pantryLineFill line lost => Sys2Proof.Machine.execPantryLineFill line lost s
  | .sweepVisit eccBad => Sys2Proof.Machine.execSweepVisit eccBad s
  | .sweepComplete => Sys2Proof.Machine.execSweepComplete s
  | .sweepStall => Sys2Proof.Machine.execSweepStall s
  | .walkOp => Sys2Proof.Machine.execWalkOp s
  | .watchWsel p val => Sys2Proof.Machine.execWatchWsel p val s
  | .forceCmdForce p val => Sys2Proof.Machine.execForceCmdForce p val s
  | .forceCmdRelease p val => Sys2Proof.Machine.execForceCmdRelease p val s
  | .scrivRecSel p val => Sys2Proof.Machine.execScrivRecSel p val s
  | .scrivHashIn p val => Sys2Proof.Machine.execScrivHashIn p val s
  | .loadImage c => Sys2Proof.Machine.execLoadImage c s
  | .imageWaitEnd header => Sys2Proof.Machine.execImageWaitEnd header s
  | .imageCopyDone => Sys2Proof.Machine.execImageCopyDone s
  | .imageRecordRead words => Sys2Proof.Machine.execImageRecordRead words s
  | .imageEndCheck readOk => Sys2Proof.Machine.execImageEndCheck s readOk
  | .imageBankCheck => Sys2Proof.Machine.execImageBankCheck s
  | .subscribe c words => Sys2Proof.Machine.execSubscribe c words s
  | .copyPlacement fid copy => Sys2Proof.Machine.execCopyPlacement fid copy s
  | .txqDropHead p val => Sys2Proof.Machine.execTxqDropHead p val s
  | .txBackfill port tag fetched => Sys2Proof.Machine.execTxBackfill port tag fetched s
  | .sealFArrival fid => Sys2Proof.Machine.execSealFArrival fid s
  | .locksmithVerdict fid => Sys2Proof.Machine.execLocksmithVerdict fid s
  | .sealStart lane => Sys2Proof.Machine.execSealStart lane s
  | .sealComplete lane => Sys2Proof.Machine.execSealComplete lane s
  | .keyLoad c blob => Sys2Proof.Machine.execKeyLoad c blob s
  | .kekLoad c blob => Sys2Proof.Machine.execKekLoad c blob s
  | .keyClear c => Sys2Proof.Machine.execKeyClear c s
  | .nextHalfWrite slot => Sys2Proof.Machine.execNextHalfWrite slot s
  | .keySwap c => Sys2Proof.Machine.execKeySwap c s
  | .zeroize c => Sys2Proof.Machine.execZeroize c s
  | .lockZeroize p val => Sys2Proof.Machine.execLockZeroize p val s
  | .alarm code => Sys2Proof.Machine.execAlarm code s
  | .kek0Derive => Sys2Proof.Machine.execKek0Derive s
  | .lockCmdAck p val => Sys2Proof.Machine.execLockCmdAck p val s
  | .kmLockClaim p val => Sys2Proof.Machine.execKmLockClaim p val s
  | .kmLockRelease p val => Sys2Proof.Machine.execKmLockRelease p val s
  | .kmTimeout => Sys2Proof.Machine.execKmTimeout s
  | .drbgInstantiate => Sys2Proof.Machine.execDrbgInstantiate s
  | .drbgReseed => Sys2Proof.Machine.execDrbgReseed s
  | .healthTestFail => Sys2Proof.Machine.execHealthTestFail s
  | .entropyRetry passes => Sys2Proof.Machine.execEntropyRetry passes s
  | .drbgAlarm => Sys2Proof.Machine.execDrbgAlarm s
  | .endpointUsableChange e link mse bme d3 width speed bars => Sys2Proof.Machine.execEndpointUsableChange e link mse bme d3 width speed s bars
  | .endpointReset e active fundamental => Sys2Proof.Machine.execEndpointReset e active s fundamental
  | .d3hotEntry e => Sys2Proof.Machine.execD3hotEntry e s
  | .ringRunning e ring => Sys2Proof.Machine.execRingRunning e ring s
  | .ringStopComplete e ring => Sys2Proof.Machine.execRingStopComplete e ring s
  | .doorbell e ring off val => Sys2Proof.Machine.execDoorbell e ring off val s
  | .completionWrite e ring => Sys2Proof.Machine.execCompletionWrite e ring s
  | .nop c => Sys2Proof.Machine.execNop c s
  | .opcodeUnknown c => Sys2Proof.Machine.execOpcodeUnknown c s
  | .commit c => Sys2Proof.Machine.execCommit c s
  | .portCtl c => Sys2Proof.Machine.execPortCtl c s
  | .timeSet c => Sys2Proof.Machine.execTimeSet c s
  | .timeSetApply => Sys2Proof.Machine.execTimeSetApply s
  | .timeSetTimeout => Sys2Proof.Machine.execTimeSetTimeout s
  | .transmitEntry e ring w0 w1 w2 w3 => Sys2Proof.Machine.execTransmitEntry e ring w0 w1 w2 w3 s
  | .txResourcesReady e ring => Sys2Proof.Machine.execTxResourcesReady e ring s
  | .captureRecordFinish fid copy => Sys2Proof.Machine.execCaptureRecordFinish fid copy s
  | .cellarStart c media => Sys2Proof.Machine.execCellarStart c media s
  | .cellarRestoreDone reads failing => Sys2Proof.Machine.execCellarRestoreDone s reads failing
  | .cellarStop c => Sys2Proof.Machine.execCellarStop c s
  | .cellarStopped => Sys2Proof.Machine.execCellarStopped s
  | .cellarCheckpoint c => Sys2Proof.Machine.execCellarCheckpoint c s
  | .cellarFormat c media => Sys2Proof.Machine.execCellarFormat c media s
  | .cellarFormatDone failed => Sys2Proof.Machine.execCellarFormatDone failed s
  | .batchExpire => Sys2Proof.Machine.execBatchExpire s
  | .journalPageProgram failing => Sys2Proof.Machine.execJournalPageProgram s failing
  | .pageProgramDone target ok failing => Sys2Proof.Machine.execPageProgramDone target ok s failing
  | .checkpointTimer => Sys2Proof.Machine.execCheckpointTimer s
  | .checkpointSeal reads failing => Sys2Proof.Machine.execCheckpointSeal s reads failing
  | .scrub words crcBad failing => Sys2Proof.Machine.execScrub words crcBad failing s
  | .pfail => Sys2Proof.Machine.execPfail s
  | .flushComplete failing => Sys2Proof.Machine.execFlushComplete s failing
  | .pfailRelease => Sys2Proof.Machine.execPfailRelease s
  | .sourceRaise src => Sys2Proof.Machine.execSourceRaise src s
  | .bellPendClr p val => Sys2Proof.Machine.execBellPendClr p val s
  | .bellClaim e l => Sys2Proof.Machine.execBellClaim e l s
  | .bellEoi e l val => Sys2Proof.Machine.execBellEoi e l val s
  | .bellMask e l val => Sys2Proof.Machine.execBellMask e l val s
  | .bellGdis p val => Sys2Proof.Machine.execBellGdis p val s
  | .bellSrcEn p src val => Sys2Proof.Machine.execBellSrcEn p src val s
  | .faultEvent f => Sys2Proof.Machine.execFaultEvent f s
  | .brokenWire f high => Sys2Proof.Machine.execBrokenWire f s high
  | .levelRestored f fault => Sys2Proof.Machine.execLevelRestored f fault s
  | .subBucketAdvance f => Sys2Proof.Machine.execSubBucketAdvance f s
  | .recovery f => Sys2Proof.Machine.execRecovery f s
  | .rcntDecay f => Sys2Proof.Machine.execRcntDecay f s
  | .windowClose f => Sys2Proof.Machine.execWindowClose f s
  | .stewCmdAck p val => Sys2Proof.Machine.execStewCmdAck p val s
  | .stewCmdRecover p val => Sys2Proof.Machine.execStewCmdRecover p val s
  | .stewCmdRclr p val => Sys2Proof.Machine.execStewCmdRclr p val s
  | .watchdogTrip => Sys2Proof.Machine.execWatchdogTrip s
  | .sliceSelect => Sys2Proof.Machine.execSliceSelect s
  | .testResult slice misr saved reloaded => Sys2Proof.Machine.execTestResult slice misr saved s reloaded
  | .goldenCheck good => Sys2Proof.Machine.execGoldenCheck good s
  | .pairHandoverTimer => Sys2Proof.Machine.execPairHandoverTimer s
  | .lcCmdGo p val => Sys2Proof.Machine.execLcCmdGo p val s
  | .lcProgramDone verified => Sys2Proof.Machine.execLcProgramDone verified s
  | .idcode => Sys2Proof.Machine.execIdcode s
  | .bypass opcode => Sys2Proof.Machine.execBypass opcode s
  | .samplePreload preload => Sys2Proof.Machine.execSamplePreload preload s
  | .extest vector => Sys2Proof.Machine.execExtest vector s
  | .dbgChal request => Sys2Proof.Machine.execDbgChal request s
  | .dbgResp key sig => Sys2Proof.Machine.execDbgResp key sig s
  | .debugAuthResult => Sys2Proof.Machine.execDebugAuthResult s
  | .dbgAccess op => Sys2Proof.Machine.execDbgAccess op s
  | .nonceLapse => Sys2Proof.Machine.execNonceLapse s
  | .tapReset => Sys2Proof.Machine.execTapReset s
  | .dbgCtlEnd p val => Sys2Proof.Machine.execDbgCtlEnd p val s
  | .pwrCtlTarget p val => Sys2Proof.Machine.execPwrCtlTarget p val s
  | .powerMoveStart => Sys2Proof.Machine.execPowerMoveStart s
  | .powerOn bootSel => Sys2Proof.Machine.execPowerOn bootSel s
  | .resetN bootSel lowNs => Sys2Proof.Machine.execResetN bootSel lowNs s
  | .rstCmdFull p val => Sys2Proof.Machine.execRstCmdFull p val s
  | .firmwareReady => Sys2Proof.Machine.execFirmwareReady s
  | .bootReadyTimeout => Sys2Proof.Machine.execBootReadyTimeout s
  | .fwCmdActivate p val => Sys2Proof.Machine.execFwCmdActivate p val s
  | .fwCmdConfirm p val => Sys2Proof.Machine.execFwCmdConfirm p val s
  | .fwCmdRevert p val => Sys2Proof.Machine.execFwCmdRevert p val s
  | .fwCmdRoll p val => Sys2Proof.Machine.execFwCmdRoll p val s
  | .fwCmdErase p val flashOk => Sys2Proof.Machine.execFwCmdErase p val flashOk s
  | .fwCmdProgram p val flashOk => Sys2Proof.Machine.execFwCmdProgram p val flashOk s
  | .flData p val => Sys2Proof.Machine.execFlData p val s
  | .flAddr p val => Sys2Proof.Machine.execFlAddr p val s
  | .fwSel p val => Sys2Proof.Machine.execFwSel p val s
  | .pairSwitch => Sys2Proof.Machine.execPairSwitch s
  | .switchTimeout => Sys2Proof.Machine.execSwitchTimeout s
  | .confirmTimeout => Sys2Proof.Machine.execConfirmTimeout s
  | .ppsEdge rising => Sys2Proof.Machine.execPpsEdge rising s
  | .ppsLost => Sys2Proof.Machine.execPpsLost s
  | .lockSlotSel p val => Sys2Proof.Machine.execLockSlotSel p val s
  | .tinkSliceSel p val => Sys2Proof.Machine.execTinkSliceSel p val s
  | .protocolExceptionExit eng => Sys2Proof.Machine.execProtocolExceptionExit eng s
  | .msiXTableWrite e w size val => Sys2Proof.Machine.execMsiXTableWrite e w size val s
  | .ringReadFailure e ring => Sys2Proof.Machine.execRingReadFailure e ring s
  | .minimumLowTime => Sys2Proof.Machine.execMinimumLowTime s
  | .lossOfPower => Sys2Proof.Machine.execLossOfPower s
  | .tempUpdate sensors => Sys2Proof.Machine.execTempUpdate sensors s

end Sys2Proof.Machine
end

