-- ==== Sys2Proof/Machine/Read.lean ====
section
/-! DEFINITION. What reads return: the normal window of BAR0, the in-force view, the visible snapshot registers and every status
field the device writes (R55 to R62, R70, and the register tables of each chapter), the doorbells of BAR2, the MSI-X structures
and claim windows of BAR4, and configuration space (R322 to R325, R336, R402); and what a read does to the state. The table has no
row for a read: these are the observations that the state gives. -/

namespace Sys2Proof.Machine

/-- A word with one bit per number of a run for which a test holds. -/
def bitsWhere (n : Nat) (f : Nat → Bool) : Word := pack ((List.range n).map (fun i => (i, b2n (f i))))

/-- Element i of a list of captured words. -/
def wordAt (l : List Word) (i : Nat) : Word := (l[i]?).getD 0

/-! ## GEN and SYS (R54, R83, R84, R446, R463, R487) -/

/-- Status fields of GEN; p is the reading path. -/
def State.genStatus (s : State) (p : Path) (off : Nat) : Word :=
  let g := s.gen
  if off = Reg.genEpochStat then
    pack [(7, b2n g.activeGen), (6, b2n g.swapPending), (5, b2n s.commitWaits), (4, b2n g.freeze), (3, b2n g.startHeld), (0, g.st.code)]
  else if off = Reg.genEpochNum then g.epochNum
  else if off = Reg.genBoundaryTai then g.boundaryTai
  else if off = Reg.genNextBoundaryTai then (if g.st = .starting ∨ g.st = .running then s.taiAt g.nextAt else 0)
  else if off = Reg.genLastCommit then g.lastCommit
  else if off = Reg.genRegStat then pack [(1, b2n g.snapBusy), (0, b2n (s.unlocked p))]
  else if off = Reg.genParityStat then pack [(1, b2n (!s.regs.stagedLost.isEmpty)), (0, b2n s.regs.parityInForce)]
  else if off = Reg.genParityAddr then BitVec.ofNat 64 s.regs.parityAddr
  else if off = Reg.genSnapSeq then g.snapSeq
  else 0

/-- PWR_WAIT, while a move into DEPOT or OFF waits (R440). -/
def State.pwrWait (s : State) : Word :=
  let tests := !s.tink.tests.isEmpty
  pack [(5, b2n (s.sys.level != 0)), (4, b2n (s.tink.st != .stopped || tests)), (3, b2n (s.cellar.st != .stopped)),
    (2, b2n ((List.range 136).any (fun n => (s.engine n).st != .stopped))), (1, b2n (s.gen.st != .stopped)),
    (0, b2n s.sys.switchReq.isSome)]

/-- Slots of a pair that the boot record names, as a mask. -/
def pairSlots (c : Nat) (n : Nat) : Bool :=
  match recordPair c with
  | some x => x.1 == n || x.2 == n
  | none => false

/-- Slot n belongs to a rejected pair. -/
def BootRecord.slotRejected (r : BootRecord) (n : Nat) : Bool :=
  (List.range 16).any (fun i => natField r.rej i 1 == 1 && (i / 4 == n || i % 4 + 4 == n))

/-- Status fields of SYS. -/
def State.sysStatus (s : State) (off : Nat) : Word :=
  let u := s.sys
  let t := s.time
  let version : Option Nat → Nat := fun m => match m with | some n => s.slotVersion n | none => 0
  if off = Reg.sysClkStat then pack [(5, b2n u.osc25), (0, u.locks)]
  else if off = Reg.sysPwrStat then pack [(2, b2n u.moving.isSome), (0, u.pwr)]
  else if off = Reg.sysLifecycle then BitVec.ofNat 64 u.lifecycle
  else if off = Reg.sysDbgStat then pack [(2, b2n u.auth), (0, u.level)]
  else if off = Reg.sysTimeStat then
    pack [(2, b2n t.ppsLost), (1, b2n (s.flag Reg.sysTimeCtl 0 && !t.ppsLost && decide (3 ≤ t.ppsUsed))), (0, b2n t.set)]
  else if off = Reg.sysTimeNow then s.tai
  else if off = Reg.sysPpsCapture then t.ppsCapture
  else if off = Reg.sysPwrWait then s.pwrWait
  else if off = Reg.sysDbgSess then pack [(8, b2n u.lockout), (4, u.keysel), (0, u.fails)]
  else if off = Reg.sysLcStat then pack [(6, u.fuseState), (4, b2n u.lcPending), (3, b2n u.lcBusy.isSome), (0, u.lcResult)]
  else if off = Reg.sysBootStat then
    pack [(24, u.bootCause), (16, u.bootSel), (12, u.pair), (11, b2n s.standbyReady), (10, b2n u.trial), (9, b2n u.lkgBoot),
      (8, b2n u.safe), (4, u.bootFails), (0, u.phase)]
  else if off = Reg.sysFwSlots then
    pack ((List.range 8).flatMap (fun n => [(24 + n, b2n (s.slotInUse n)), (16 + n, b2n (u.record.slotRejected n)),
      (8 + n, b2n (pairSlots u.record.lkg n))]) ++ [(0, u.slotsValid)])
  else if off = Reg.sysFwStat then
    let left := if u.roll = 1 then ((List.range 128).filter s.rollPort).length else 0
    pack [(48, left), (32, u.bufIdx), (16, u.fwResult), (12, b2n u.confirmPend), (10, u.roll), (0, u.busyOp)]
  else if off = Reg.sysFwPeek then u.fwPeek
  else if off = Reg.sysFwVer then
    pack [(32, version u.runMgmt), (0, version ((recordPair u.record.cur).map (fun x => x.2)))]
  else if off = Reg.sysTemp then
    pack [(32, (BitVec.ofInt 16 u.tjMax).toNat), (0, (BitVec.ofInt 16 u.tj).toNat)]
  else 0

/-! ## Ports, transceivers, crossbar (R120, R146, R164) -/

/-- Settings in force differ from those the engine took at STARTING (R93). -/
def State.timingStale (s : State) (n : Nat) : Bool :=
  let e := s.engine n
  s.takeSettings n e != e

/-- Status fields of PORT block n. -/
def State.portStatus (s : State) (n off : Nat) : Word :=
  let e := s.engine n
  let ct : Bool := match s.portOf n with
    | some p => s.ctEligible p
    | none => false
  if off = Reg.portId n then pack [(24, 3), (0, n)]
  else if off = Reg.portMcode n then BitVec.ofNat 64 e.mcode
  else if off = Reg.portStat n then
    pack [(11, b2n (e.st == .starting)), (10, b2n e.boWait), (9, b2n ct), (8, b2n (s.ewarnOf n e)), (7, b2n (s.timingStale n)),
      (6, b2n s.sys.safe), (5, b2n e.cfgErr), (4, b2n e.startHeld), (2, e.errState), (0, e.st.code)]
  else if off = Reg.portErrcnt n then pack [(48, e.recov), (32, e.rxErr), (0, e.tec)]
  else if off = Reg.portLastErr n then e.lastErr
  else if off = Reg.portTdcStat n then pack [(8, e.ssp), (0, e.tdcv)]
  else 0

/-- Status fields of XCVR. -/
def State.xcvrStatus (s : State) (off i : Nat) : Word :=
  let t := s.ip i
  if off = Reg.xcvrBankStat i then pack [(1, b2n ((s.xcvr.unpowered[i]?).getD true)), (0, b2n ((s.xcvr.uv[i]?).getD true))]
  else if off = Reg.xcvrLbankStat i then BitVec.ofNat 64 (b2n ((s.xcvr.lUnpowered[i]?).getD true))
  else if off = Reg.xcvrWakeCause then pack [(8, s.xcvr.wakePort), (0, s.xcvr.wakeCause)]
  else if off = Reg.xcvrIpStat i then
    pack [(16, t.wufErr), (8, t.tripSeq), (6, b2n t.settleAt.isSome), (5, b2n t.limiting), (4, b2n t.latched), (3, b2n t.tripped),
      (0, t.modeEff)]
  else if off = Reg.xcvrFgEnergy i then BitVec.ofNat 64 (t.energy % 2 ^ 32)
  else if off = Reg.xcvrLpStat i then BitVec.ofNat 64 (b2n (!s.xcvr.stbLow.contains i))
  else 0

/-- Status fields of XBAR. -/
def State.xbarStatus (s : State) (off i : Nat) : Word :=
  let q := s.port i
  if off = Reg.xbarPstat i then pack [(24, q.result), (16, q.phase), (8, q.shadow.getD 255), (0, q.serving)]
  else if off = Reg.xbarFree0 then bitsWhere 64 s.engineFree
  else if off = Reg.xbarFree1 then bitsWhere 64 (fun n => s.engineFree (64 + n))
  else if off = Reg.xbarFree2 then bitsWhere 8 (fun n => s.engineFree (128 + n))
  else 0

/-! ## Watch table, Watchman, Scrivener (R178, R206, R233) -/

/-- Codes of LOAD_STAT.STATE. -/
def LoadState.code : LoadState → Nat
  | .idle => 0
  | .waiting => 1
  | .copying => 2
  | .writing => 3
  | .checking => 4

/-- Status fields of WATCH. -/
def State.watchStatus (s : State) (off i : Nat) : Word :=
  let l := s.watch.loader
  let b := s.bank (i == 1)
  let sel := (s.bank (s.flag Reg.watchPeekSel 18)).entry (s.fld Reg.watchPeekSel 0 18)
  if off = Reg.watchLoadStat then pack [(32, l.errRec), (8, l.err), (0, l.st.code)]
  else if off = Reg.watchBankStat i then pack [(63, b2n b.bad), (48, b.stash.length), (0, b.entries.length)]
  else if off = Reg.watchBankSeed i then pack [(32, b.seed1), (0, b.seed0)]
  else if off = Reg.watchBankImage i then b.imageId
  else if off = Reg.watchPeek0 then sel.1
  else if off = Reg.watchPeek1 then sel.2.1
  else if off = Reg.watchPeek2 then sel.2.2
  else if off = Reg.watchWmStat then
    pack [(32, b2n s.watch.stalled), (0, (s.watch.walks.map (fun (w : Walk) => w.opCount - w.pos)).sum)]
  else if off = Reg.watchWstat then wordAt s.watch.captured 0
  else if off = Reg.watchWtime0 then wordAt s.watch.captured 1
  else if off = Reg.watchWtime1 then wordAt s.watch.captured 2
  else if off = Reg.watchWtime2 then wordAt s.watch.captured 3
  else if off = Reg.watchStepLast then s.time.stepLast
  else if off = Reg.watchStepTai then s.time.stepTai
  else 0

/-- Status fields of SCRIV. -/
def State.scrivStatus (s : State) (off : Nat) : Word :=
  let u := s.scriv
  let d := (s.bank (s.flag Reg.scrivDescSel 23)).desc (s.fld Reg.scrivDescSel 0 23)
  if off = Reg.scrivPipeStat then
    pack ((List.range 8).flatMap (fun q => [(16 + q, b2n (u.away.contains q)), (8 + q, b2n (u.testing.contains q)), (q, b2n (u.fenced.contains q))]))
  else if off = Reg.scrivHashOut then
    (match u.hashOut with | some b => pack [(16, s.pipeFor b), (0, b)] | none => 0)
  else if off = Reg.scrivRecPeek0 then wordAt u.recPeek 0
  else if off = Reg.scrivRecPeek1 then wordAt u.recPeek 1
  else if off = Reg.scrivRecPeek2 then wordAt u.recPeek 2
  else if off = Reg.scrivRecPeek3 then wordAt u.recPeek 3
  else if off = Reg.scrivDescPeek0 then d.1
  else if off = Reg.scrivDescPeek1 then d.2
  else if off = Reg.scrivOpPeek then s.opWord (s.fld Reg.scrivOpSel 0 24)
  else 0

/-- The mapping in force of the 16 buckets of PIPE_MAP j (R180). -/
def State.pipeMapUsed (s : State) (j : Nat) : Word := pack ((List.range 16).map (fun k => (4 * k, s.pipeFor (16 * j + k))))

/-! ## Crier, Drayman, queues (R252, R276, R291) -/

/-- Status fields of CRIER. -/
def State.crierStatus (s : State) (off i : Nat) : Word :=
  let x := s.sub i
  let ring := s.fld Reg.crierMapSel 17 5
  let mine := s.crier.bitmaps.filter (fun (w : Nat × Word) => w.1 / mapWords == i)
  if off = Reg.crierSubStat i then
    pack [(32, x.cursor), (8, x.loss), (7, b2n x.waitSpace), (4, x.resync), (3, b2n x.startHeld), (0, x.st.code)]
  else if off = Reg.crierSubCount i then
    BitVec.ofNat 64 ((mine.map (fun (w : Nat × Word) => ((List.range 64).filter w.2.bit).length)).sum)
  else if off = Reg.crierPend then BitVec.ofNat 64 s.crier.staged.length
  else if off = Reg.crierMapPeek then s.mapWord ring (s.fld Reg.crierMapSel 0 17)
  else 0

/-- Status fields of DRAY. -/
def State.drayStatus (s : State) (off i : Nat) : Word :=
  let q := s.port i
  let bank := s.fld Reg.drayRtSel 16 1
  let idx := s.fld Reg.drayRtSel 0 16
  let r := (s.bank (bank == 1)).route idx
  let rs := Table.get (fun _ => {}) s.dray.routeState (65536 * bank + idx)
  let head : Nat → Bool → Bool := fun c closed => match q.queue c with | k :: _ => k.closed == closed | [] => false
  if off = Reg.drayPortStat i then
    pack [(3, b2n q.held), (2, b2n q.lane.isSome), (1, b2n q.suspSteward), (0, b2n (s.suspended i))]
  else if off = Reg.drayRtState then pack [(32, rs.level), (0, rs.mcount)]
  else if off = Reg.drayRtPeek0 then r.1
  else if off = Reg.drayRtPeek1 then r.2.1
  else if off = Reg.drayRtPeek2 then r.2.2.1
  else if off = Reg.drayRtPeek3 then r.2.2.2
  else if off = Reg.drayTxqStat i then
    pack ([(48, q.credits 3), (40, q.credits 2), (32, q.credits 1), (24, q.credits 0), (12, b2n q.armed)] ++
      (List.range 4).flatMap (fun c => [(8 + c, b2n (head c false)), (c, b2n (head c true))]))
  else if off = Reg.drayCellStat then pack [(16, s.dray.hostCells), (0, s.freeCells)]
  else 0

/-! ## Locksmith, host side, Cellar (R321, R361, R388) -/

/-- Status fields of LOCK. -/
def State.lockStatus (s : State) (off i : Nat) : Word :=
  let u := s.lock
  if off = Reg.lockStat then
    pack ((List.range 16).map (fun n => (16 + n, b2n (((u.lanes[n]?).map (fun (l : Lane) => l.fenced)).getD false))) ++
      [(8, u.alarm), (2, b2n u.healthFail), (1, b2n u.kek0.isNone), (0, b2n u.erased)])
  else if off = Reg.lockKmLock then BitVec.ofNat 64 u.holder
  else if off = Reg.lockKmResult then pack [(16, u.resultSlot), (0, u.resultCode)]
  else if Reg.lockSlotPeek0 ≤ off ∧ off ≤ Reg.lockSlotPeek5 then wordAt u.peek ((off - Reg.lockSlotPeek0) / 8)
  else if off = Reg.lockWarn i then bitsWhere 64 (fun n => (s.half (64 * i + n) 0).warned)
  else if off = Reg.lockSpent i then bitsWhere 64 (fun n => (s.half (64 * i + n) 0).cannotSeal)
  else 0

/-- Status fields of HOST outside the rings. -/
def State.hostStatus (s : State) (off i : Nat) : Word :=
  let p := s.ep (epOf i)
  if off = Reg.hostEpStat i then
    pack [(12, b2n p.d3), (8, p.width), (4, p.speed), (3, b2n p.flr), (2, b2n p.bme), (1, b2n p.link), (0, b2n p.usable)]
  else if off = Reg.hostOwnStat then BitVec.ofNat 64 s.regs.ownCause
  else 0

/-- NGRP, IRQ_EN, CQ, SIZE_LOG2 and TYPE of RING_CTL (R334). -/
def ringSettings : Word := 0x00000FFF001F0700

/-- Settings of a ring in force differ from those in use (R334). -/
def State.ringStale (s : State) (e : Ep) (k : Nat) : Bool :=
  let r := s.ring e k
  (s.reg (Reg.hostRingCtl e.idx k) ^^^ r.useCtl) &&& ringSettings != 0 || s.reg (Reg.hostRingBase e.idx k) != r.useBase

/-- Status registers of ring k. -/
def State.ringStatus (s : State) (e : Ep) (k off : Nat) : Word :=
  let r := s.ring e k
  if off = Reg.hostRingStat e.idx k then
    pack [(8, r.err), (4, b2n r.armed), (3, b2n (s.ringStale e k)), (2, b2n r.startHeld), (0, r.st.code)]
  else if off = Reg.hostRingPos e.idx k then pack [(32, r.hostPos), (0, r.devPos)]
  else 0

/-- Codes of CELL.STAT.STATE. -/
def CellState.code : CellState → Nat
  | .stopped => 0
  | .starting => 1
  | .running => 2
  | .stopping => 3
  | .flushed => 4

/-- Erase counts of the good blocks (R378). -/
def Store.eraseCounts (st : Store) (g : NandGeometry) : List Nat :=
  ((List.range g.total).filter (fun b => !st.bad.contains b)).map (fun b => st.baseErases + (st.block b).erases)

/-- Status fields of CELL. -/
def State.cellStatus (s : State) (off : Nat) : Word :=
  let c := s.cellar
  let st := c.store
  let geo : (NandGeometry → Word) → Word := fun f => match c.geom with | some g => f g | none => 0
  if off = Reg.cellGeom then geo (fun g => pack [(48, g.targets), (46, g.pageCode), (32, g.pages), (0, st.good g)])
  else if off = Reg.cellGeom2 then geo (fun g => pack [(16, g.tprogUs), (0, g.flushUs)])
  else if off = Reg.cellStat then
    pack [(12, b2n (!c.heldRecs.isEmpty)), (11, b2n c.severe), (9, c.drop), (8, b2n c.degraded), (7, b2n c.checkpoint.isSome),
      (6, b2n c.pfail), (5, b2n (decide (s.fillBucket.cellar.tokens < 0))), (4, b2n c.startHeld), (0, c.st.code)]
  else if off = Reg.cellSeq then BitVec.ofNat 64 c.seq
  else if off = Reg.cellCkptId then geo (fun _ => BitVec.ofNat 64 st.sealedId)
  else if off = Reg.cellCkptTai then geo (fun _ => st.sealedTai)
  else if off = Reg.cellMark then geo (fun _ => BitVec.ofNat 64 st.mark)
  else if off = Reg.cellBlocks0 then geo (fun g => pack [(32, st.freeBlocks g), (0, (st.withRole .journal).length)])
  else if off = Reg.cellBlocks1 then geo (fun g => pack [(32, st.jmax g), (0, g.reserve)])
  else if off = Reg.cellPending then pack [(32, c.heldRecs.length), (0, 32 * c.flush.length)]
  else if off = Reg.cellTokens then BitVec.ofInt 64 (s.fillBucket.cellar.tokens.fdiv 1000000)
  else if off = Reg.cellWear then geo (fun g =>
    let l := st.eraseCounts g
    let limit := s.fld Reg.cellMedia 47 17
    let life := if limit = 0 ∨ l = [] then 0 else min (l.sum * 1000 / (l.length * limit)) 1000
    pack [(34, life), (17, l.foldl max 0), (0, l.foldl min (l.headD 0))])
  else 0

/-! ## Bus-side pins (R142, R145) -/

/-- What drives a bus-side pin (R145): nothing; a level; the transceiver in its mode in effect; the engine; or it is an input;
idle is the electrical idle of a PCIe transmitter. -/
inductive PinDrive where
  | highZ | high | low | idle | transceiver (mode : Nat) | engine | input | ignored
deriving DecidableEq, Repr

/-- The device is booted and in RUN or TRIM. -/
def State.pinsRun (s : State) : Bool := s.sys.powered && decide (3 ≤ s.sys.phase) && decide (s.sys.pwr < 2)

/-- CANH_n and CANL_n of an integrated port. -/
def State.canPins (s : State) (p : Nat) : PinDrive :=
  if (s.xcvr.unpowered[p / 8]?).getD true || s.sys.pwr == 3 then .highZ else .transceiver (s.ip p).modeEff

/-- A pin of a logic port, which is at high impedance while its I/O bank is unpowered. -/
def State.logicPin (s : State) (p : Nat) (d : PinDrive) : PinDrive :=
  if (s.xcvr.lUnpowered[(p - 32) / 8]?).getD true then .highZ else d

/-- TXD_n: from the engine, high where it is not RUN or TRIM. -/
def State.txdPin (s : State) (p : Nat) : PinDrive := s.logicPin p (if s.pinsRun then .engine else .high)
/-- STB_n: high requests standby. -/
def State.stbPin (s : State) (p : Nat) : PinDrive :=
  s.logicPin p (if s.pinsRun && s.xcvr.stbLow.contains p then .low else .high)
/-- RXD_n. -/
def State.rxdPin (s : State) (p : Nat) : PinDrive := s.logicPin p (if s.pinsRun then .input else .ignored)

/-! ## Bell Board, Steward, Tinker (R402, R417, R429) -/

/-- Status fields of BELL. -/
def State.bellStatus (s : State) (off i : Nat) : Word :=
  let stk := s.bellStack i
  let top := match stk with | x :: _ => x.1 | [] => 0
  if off = Reg.bellTgtStat i then
    pack [(32, top), (24, stk.length), (16, s.runPri i), (1, b2n (s.bell.masked.contains i)), (0, b2n (s.bell.signalled.contains i))]
  else if off = Reg.bellPend i then bitsWhere 64 (fun n => s.bell.pend.contains (64 * i + n))
  else if off = Reg.bellAct i then
    bitsWhere 64 (fun n => (List.range 16).any (fun t => (s.bellStack t).any (fun x => x.1 == 64 * i + n)))
  else 0

/-- Status fields of STEW. -/
def State.stewStatus (s : State) (off i : Nat) : Word :=
  let x := s.src i
  let quiet := x.quietAt + s.quietNs i - s.time.now
  let left := if x.st = 1 ∧ x.level = 0 then (quiet + 999999) / 1000000 else 0
  if off = Reg.stewPinStat then pack [(2, b2n s.stew.wdog), (1, b2n s.stew.alert), (0, b2n s.stew.flt)]
  else if off = Reg.stewSrcStat i then
    pack [(32, left), (24, min x.buckets.sum 255), (20, x.rcnt), (8, b2n (!reactAllowed i (s.fld (Reg.stewSrcCfg i) 39 3))),
      (7, b2n x.window.isSome), (4, x.level), (0, x.st)]
  else if off = Reg.stewSticky i then bitsWhere 64 (fun n => (s.src (64 * i + n)).sticky)
  else if off = Reg.stewBroken i then bitsWhere 64 (fun n => (s.src (64 * i + n)).broken)
  else if off = Reg.stewFaulted i then bitsWhere 64 (fun n => (s.src (64 * i + n)).st == 1 || (s.src (64 * i + n)).st == 2)
  else if off = Reg.stewMasked i then bitsWhere 64 (fun n => (s.src (64 * i + n)).st == 3)
  else 0

/-- Status fields of TINK. -/
def State.tinkStatus (s : State) (off : Nat) : Word :=
  let u := s.tink
  let under := (u.tests.filter (fun (t : SliceTest) => t.held)).map (fun (t : SliceTest) => t.slice)
  if off = Reg.tinkStat then
    pack [(24, (under[1]?).getD 255), (16, (under[0]?).getD 255), (6, u.seedset), (5, b2n u.goldErr), (3, b2n u.startHeld), (0, u.st.code)]
  else if off = Reg.tinkSlicePeek0 then wordAt u.peek 0
  else if off = Reg.tinkSlicePeek1 then wordAt u.peek 1
  else if off = Reg.tinkSlicePeek2 then wordAt u.peek 2
  else if off = Reg.tinkSlicePeek3 then wordAt u.peek 3
  else 0

/-! ## A read (R55 to R62, R70) -/

/-- What the device shows in the fields it writes itself, register i of its run. -/
def State.statusWord (s : State) (p : Path) (off i : Nat) : Word :=
  if off = Reg.genId then resetWord off
  else if off < 0x10000 then s.genStatus p off
  else if off < 0x20000 then s.bellStatus off i
  else if off < 0x30000 then s.stewStatus off i
  else if off < 0x40000 then s.tinkStatus off
  else if off < 0x50000 then s.lockStatus off i
  else if off < 0x60000 then s.cellStatus off
  else if off < 0x61000 then s.hostStatus off i
  else if off < 0x62000 then s.ringStatus .a i off
  else if off < 0x70000 then s.ringStatus .b i off
  else if off < 0x80000 then s.drayStatus off i
  else if off < 0x90000 then s.watchStatus off i
  else if off < 0xA0000 then s.scrivStatus off
  else if off < 0xB0000 then s.crierStatus off i
  else if off < 0x100000 then s.sysStatus off
  else if off < 0x140000 then s.portStatus i off
  else if off < 0x150000 then s.xbarStatus off i
  else s.xcvrStatus off i

/-- The 64-bit word at a canonical offset: stored fields as latest or in force, then the device's own (R61, R62, R70). -/
def State.registerWord (s : State) (p : Path) (inForce : Bool) (off : Nat) : Word :=
  match regAt off with
  | none => 0
  | some (g, i) =>
    if g.counter then Table.get (fun _ => 0) s.regs.visible off
    else
      let own := BitVec.ofNat 64 (g.rw ||| g.rwi ||| g.live)
      let used := g.base = Reg.scrivPipeMap 0 ∧ inForce
      let stored := if used then s.pipeMapUsed i else if inForce then s.reg off else s.latest off
      (stored &&& own) ||| (s.statusWord p off i &&& ~~~own)

/-- A read of a 64-bit register as an access of 8 or 4 aligned bytes; any other access returns 0 (R55). -/
def readPart (w : Word) (off size : Nat) : Word :=
  if ¬ (size = 8 ∨ size = 4) ∨ off % size ≠ 0 then 0
  else if size = 8 then w
  else BitVec.ofNat 64 (w.field (8 * (off % 8)) 32)

/-- An access that R55 performs as a read. -/
def readOk (off size : Nat) : Bool := (size == 8 || size == 4) && off % size == 0

/-- Register that a BAR0 offset reads, and whether it reads the in-force view; a read in an alias window is a read at the same
offset less the window's base (R62, R80, R489). -/
def readAt (off : Nat) : Nat × Bool :=
  let at' := off % 0x400000 / 8 * 8
  (canonicalOff (at' % 0x200000), decide (0x200000 ≤ at'))

/-- What a read of BAR0 returns, 8 or 4 bytes wide; what is no access to a register reads 0 (R55, R59, R62). -/
def State.busRead (s : State) (p : Path) (off size : Nat) : Word :=
  if 0x1000000 ≤ off then 0 else readPart (s.registerWord p (readAt off).2 (readAt off).1) off size

/-- A read checks the copies it touches: the one that gives the RW fields, and the in-force copy for the others (R72). -/
def State.touchRead (s : State) (off : Nat) (inForce : Bool) : State :=
  match regAt off with
  | none => s
  | some (g, _) =>
    let copy : RegCopy := if inForce then .inForce else if (Table.find? off s.regs.held).isSome then .held
      else if (Table.find? off s.regs.staged).isSome then .staged else .inForce
    let s := s.touchCopy (copy, off)
    if g.rwi = 0 then s else s.touchCopy (.inForce, off)

/-- What a read of BAR0 leaves: an ignored one is counted (R55), any other checks parity (R72). Its data is that of the state it
leaves, where a bad in-force copy has been rewritten (R73). -/
def State.busReadEffect (s : State) (off size : Nat) : State :=
  if 0x1000000 ≤ off then s
  else if readOk off size then s.touchRead (readAt off).1 (readAt off).2
  else s.count Reg.genBadAccess

/-! ## BAR2 and BAR4 (R82, R336, R393, R402) -/

/-- What a read of BAR2 returns: RING_POS in doorbell k's first word, elsewhere 0 (R59, R82, R336). -/
def State.doorbellRead (s : State) (e : Ep) (off size : Nat) : Word :=
  if off / 0x1000 < 128 ∧ off % 0x1000 / 8 = 0 then
    readPart (s.ringStatus e (off / 0x1000) (Reg.hostRingPos e.idx (off / 0x1000))) off size
  else 0

/-- A 64-bit word of the claim window of target l at an offset in it; the claim itself is BELL_CLAIM's (R394, R402). -/
def State.windowWord (s : State) (e : Ep) (l off : Nat) : Word :=
  match off with
  | 0x10 => BitVec.ofNat 64 (b2n (s.bell.masked.contains (targetOf e l)))
  | 0x18 => s.bellStatus (Reg.bellTgtStat (targetOf e l)) (targetOf e l)
  | _ => 0

/-- Two 32-bit words of an MSI-X table as one. -/
def Endpoint.msixPair (p : Endpoint) (i : Nat) : Word := (p.msixWord (2 * i)).setWidth 64 ||| ((p.msixWord (2 * i + 1)).setWidth 64 <<< 32)

/-- What a read of BAR4 returns: the table, the pending bit array, the claim windows; elsewhere 0 (R59, R402). -/
def State.bar4Read (s : State) (e : Ep) (off size : Nat) : Word :=
  if off < 0x400 then readPart ((s.ep e).msixPair (off / 8)) off size
  else if 0x8000 ≤ off ∧ off < 0x8008 then readPart (s.ep e).pba off size
  else if 0xC000 ≤ off ∧ off < 0xC800 then readPart (s.windowWord e ((off - 0xC000) / 0x100) (off % 0x100 / 8 * 8)) off size
  else 0

/-- Offsets of BAR4 that the table, the array and the claim windows occupy. -/
def bar4Used (off : Nat) : Bool := decide (off < 0x400 ∨ 0x8000 ≤ off ∧ off < 0x8008 ∨ 0xC000 ≤ off ∧ off < 0xC800)

/-- What a read of BAR4 leaves: an ignored one is counted (R55, R402). A read of CLAIM that claims is BELL_CLAIM. -/
def State.bar4ReadEffect (s : State) (off size : Nat) : State :=
  s.countIf (bar4Used off && !readOk off size) Reg.genBadAccess

/-! ## Configuration space (R322 to R325) -/

/-- A capability of both endpoints' configuration space (R5, R322, R325). -/
inductive Capability where
  /-- Power management: D3hot beside D0, No_Soft_Reset, PME support. -/
  | power (d3hot noSoftReset pme : Bool)
  /-- PCI Express: supported payload in bytes, highest generation, most lanes, function level reset. -/
  | express (payload gen lanes : Nat) (flr : Bool)
  /-- MSI-X: vectors; BAR and offset of the table and of the pending bit array. -/
  | msix (vectors tableBar tableOff pbaBar pbaOff : Nat)
  /-- Advanced error reporting. -/
  | aer
deriving DecidableEq, Repr

/-- The capabilities of an endpoint; there is no INTx, no MSI and no SR-IOV (R5, R322, R325). -/
def capabilities : List Capability :=
  [.power true true false, .express 512 4 4 true, .msix 64 4 0 4 0x8000, .aer]

/-- What identifies an endpoint: vendor, device, class code, subsystem vendor and subsystem (R3, R322, R450). -/
structure Identity where
  vendor    : Nat
  device    : Nat
  classCode : Nat
  ssVendor  : Nat
  subsystem : Nat
deriving DecidableEq, Repr

/-- The identity of both endpoints: the subsystem IDs are those of the boot flash configuration, as read at reset (R450). -/
def State.identity (s : State) : Identity :=
  { vendor := 0x1F6B, device := 0x7128, classCode := 0x0C0900, ssVendor := s.sys.config.ssVendor, subsystem := s.sys.config.subsystem }

/-- A BAR of an endpoint as configuration space shows it: 64-bit, non-prefetchable, of its size (R322). -/
def barWord (base : Word) (log2 : Nat) : Word := (base >>> log2 <<< log2) ||| 4#64

/-- What configuration space shows of an endpoint's settings (R322 to R325): BAR0 of 16 MiB, BAR2 of 1 MiB, BAR4 of 64 KiB,
Memory Space Enable and Bus Master Enable in the command register, D3hot in PMCSR, the MSI-X function mask. -/
def State.configWords (s : State) (e : Ep) : List Word :=
  let p := s.ep e
  [barWord p.bar0 24, barWord p.bar2 20, barWord p.bar4 16, pack [(2, b2n p.bme), (1, b2n p.mse)],
    pack [(0, if p.d3 then 3 else 0), (3, 1)], pack [(14, b2n p.funcMask), (0, 63)]]

end Sys2Proof.Machine
end

