-- ==== Sys2Proof/Safety.lean ====
section
/-! DEFINITION. What counts as a safe run: the byte memories of the state stay in their canonical form, so that equal
contents are equal data. And the words in which statements are made: the parts of the state that a command leaves as they
are, and when a register write reaches its register. -/

namespace Sys2Proof.Safety

open Sys2Proof.Machine

/-- Every byte memory of the state is in canonical form: Storeroom, boot flash and page buffer; and the list of slots whose
erase failed, on which an unlisted flash byte rests, is in rising order. -/
def memoryCanonical (s : State) : Bool :=
  Memory.wf storeDefault s.dray.storeroom && Table.wf (flashDefault s.sys.flashLost) s.sys.flash && Memory.wf 0 s.sys.pageBuf &&
  Table.sortedFrom 0 s.sys.flashLost

/-- The outcome is a next state. -/
def completes (a : Answer) : Bool :=
  match a with
  | .next _ => true
  | .fault _ => false
  | .refused _ => false

/-- The parts of the state, as frames name them. -/
inductive Part where
  | pending | clock | tai | epoch | freeze | commit | snap
  | inForce | staged | held | counters | snapCopies | locks | parity | owner
  | engines | ports | xcvr | frames | banks | loader | watch | ops | records | scriv
  | subs | bitmaps | crier | halves | keks | lock | epA | epB | rings | bell
  | routes | cells | storeroom | store | cellar | srcs | stew | tink
  | power | fuses | lifecycle | debug | firmware | flash | pageBuf | temp | free | out
deriving DecidableEq, Repr

/-- A part of t is as it is in s. Where a unit's record holds several parts, the last of them is what remains of it. -/
def Part.same (p : Part) (s t : State) : Prop :=
  match p with
  | .pending => t.pending = s.pending
  | .clock => t.time.now = s.time.now
  | .tai => { t.time with now := 0 } = { s.time with now := 0 }
  | .epoch => t.gen.st = s.gen.st ∧ t.gen.startHeld = s.gen.startHeld ∧ t.gen.epochNum = s.gen.epochNum ∧
      t.gen.boundaryTai = s.gen.boundaryTai ∧ t.gen.epochStart = s.gen.epochStart ∧ t.gen.nextAt = s.gen.nextAt ∧
      t.gen.cutDone = s.gen.cutDone ∧ t.gen.cutTai = s.gen.cutTai ∧ t.gen.silentAt = s.gen.silentAt
  | .freeze => t.gen.freeze = s.gen.freeze ∧ t.gen.thawAt = s.gen.thawAt ∧ t.gen.holdLate = s.gen.holdLate
  | .commit => t.gen.lastCommit = s.gen.lastCommit ∧ t.gen.commitBusy = s.gen.commitBusy ∧
      t.gen.commitHeld = s.gen.commitHeld ∧ t.gen.swapPending = s.gen.swapPending ∧ t.gen.activeGen = s.gen.activeGen
  | .snap => t.gen.snapBusy = s.gen.snapBusy ∧ t.gen.snapAt = s.gen.snapAt ∧ t.gen.snapClear = s.gen.snapClear ∧
      t.gen.snapHeld = s.gen.snapHeld ∧ t.gen.snapSeq = s.gen.snapSeq ∧
      t.gen.snapAuto = s.gen.snapAuto ∧ t.gen.snapWrite = s.gen.snapWrite
  | .inForce => t.regs.inForce = s.regs.inForce
  | .staged => t.regs.staged = s.regs.staged
  | .held => t.regs.held = s.regs.held
  | .counters => t.regs.counters = s.regs.counters
  | .snapCopies => t.regs.holding = s.regs.holding ∧ t.regs.visible = s.regs.visible
  | .locks => t.regs.unlockedA = s.regs.unlockedA ∧ t.regs.unlockedB = s.regs.unlockedB ∧ t.regs.unlockedM = s.regs.unlockedM
  | .parity => t.regs.badInForce = s.regs.badInForce ∧ t.regs.waiting = s.regs.waiting ∧
      t.regs.parityInForce = s.regs.parityInForce ∧ t.regs.stagedLost = s.regs.stagedLost ∧ t.regs.parityAddr = s.regs.parityAddr ∧
      t.regs.upset = s.regs.upset ∧ t.regs.reload = s.regs.reload
  | .owner => t.regs.owner = s.regs.owner ∧ t.regs.ownCause = s.regs.ownCause ∧ t.regs.beatAt = s.regs.beatAt
  | .engines => t.engines = s.engines
  | .ports => t.ports = s.ports
  | .xcvr => t.xcvr = s.xcvr
  | .frames => t.frames = s.frames ∧ t.nextFrame = s.nextFrame
  | .banks => t.watch.bank0 = s.watch.bank0 ∧ t.watch.bank1 = s.watch.bank1
  | .loader => t.watch.loader = s.watch.loader
  | .watch => { t.watch with bank0 := {}, bank1 := {}, loader := {} } = { s.watch with bank0 := {}, bank1 := {}, loader := {} }
  | .ops => t.scriv.ops = s.scriv.ops
  | .records => t.scriv.records = s.scriv.records
  | .scriv => { t.scriv with ops := [], records := [] } = { s.scriv with ops := [], records := [] }
  | .subs => t.crier.subs = s.crier.subs
  | .bitmaps => t.crier.bitmaps = s.crier.bitmaps ∧ t.crier.staged = s.crier.staged
  | .crier => { t.crier with subs := [], bitmaps := [], staged := [] } = { s.crier with subs := [], bitmaps := [], staged := [] }
  | .halves => t.lock.halves = s.lock.halves
  | .keks => t.lock.keks = s.lock.keks ∧ t.lock.kek0 = s.lock.kek0 ∧ t.lock.withheld = s.lock.withheld
  | .lock => { t.lock with halves := [], keks := [], kek0 := none, withheld := false } =
      { s.lock with halves := [], keks := [], kek0 := none, withheld := false }
  | .epA => t.epA = s.epA
  | .epB => t.epB = s.epB
  | .rings => t.rings = s.rings
  | .bell => t.bell = s.bell
  | .routes => t.dray.routeState = s.dray.routeState ∧ t.dray.fenced = s.dray.fenced
  | .cells => t.dray.cellUse = s.dray.cellUse ∧ t.dray.hostCells = s.dray.hostCells ∧ t.dray.retiredCells = s.dray.retiredCells
  | .storeroom => t.dray.storeroom = s.dray.storeroom
  | .store => t.cellar.store = s.cellar.store
  | .cellar => { t.cellar with store := {} } = { s.cellar with store := {} }
  | .srcs => t.stew.srcs = s.stew.srcs
  | .stew => { t.stew with srcs := [] } = { s.stew with srcs := [] }
  | .tink => t.tink = s.tink
  | .power => t.sys.pwr = s.sys.pwr ∧ t.sys.moving = s.sys.moving ∧ t.sys.targetHeld = s.sys.targetHeld ∧
      t.sys.powered = s.sys.powered ∧ t.sys.locks = s.sys.locks ∧ t.sys.osc25 = s.sys.osc25
  | .fuses => t.sys.fuseState = s.sys.fuseState ∧ t.sys.fuseHash = s.sys.fuseHash ∧ t.sys.fuseBroken = s.sys.fuseBroken ∧
      t.sys.secretNo = s.sys.secretNo ∧ t.sys.secretGone = s.sys.secretGone
  | .lifecycle => t.sys.lifecycle = s.sys.lifecycle ∧ t.sys.lcBusy = s.sys.lcBusy ∧ t.sys.lcPending = s.sys.lcPending ∧
      t.sys.lcResult = s.sys.lcResult
  | .debug => t.sys.ir = s.sys.ir ∧ t.sys.boundary = s.sys.boundary ∧ t.sys.level = s.sys.level ∧ t.sys.auth = s.sys.auth ∧
      t.sys.keysel = s.sys.keysel ∧ t.sys.fails = s.sys.fails ∧ t.sys.lockout = s.sys.lockout ∧
      t.sys.challenge = s.sys.challenge ∧ t.sys.response = s.sys.response ∧ t.sys.nonceNo = s.sys.nonceNo ∧
      t.sys.halted = s.sys.halted
  | .firmware => t.sys.bootCause = s.sys.bootCause ∧ t.sys.bootFails = s.sys.bootFails ∧ t.sys.bootSel = s.sys.bootSel ∧
      t.sys.phase = s.sys.phase ∧ t.sys.trial = s.sys.trial ∧ t.sys.lkgBoot = s.sys.lkgBoot ∧ t.sys.safe = s.sys.safe ∧
      t.sys.pair = s.sys.pair ∧ t.sys.standby = s.sys.standby ∧ t.sys.fwStart = s.sys.fwStart ∧ t.sys.record = s.sys.record ∧
      t.sys.bufIdx = s.sys.bufIdx ∧ t.sys.fwPeek = s.sys.fwPeek ∧ t.sys.slotsValid = s.sys.slotsValid ∧
      t.sys.runMgmt = s.sys.runMgmt ∧ t.sys.runMicro = s.sys.runMicro ∧ t.sys.fwResult = s.sys.fwResult ∧
      t.sys.confirmPend = s.sys.confirmPend ∧ t.sys.confirmAt = s.sys.confirmAt ∧ t.sys.confirmRoll = s.sys.confirmRoll ∧
      t.sys.oldMgmt = s.sys.oldMgmt ∧ t.sys.oldMicro = s.sys.oldMicro ∧ t.sys.roll = s.sys.roll ∧ t.sys.rollNew = s.sys.rollNew ∧
      t.sys.rollSlot = s.sys.rollSlot ∧ t.sys.rollFails = s.sys.rollFails ∧ t.sys.rollBack = s.sys.rollBack ∧
      t.sys.busyOp = s.sys.busyOp ∧ t.sys.actSlot = s.sys.actSlot ∧ t.sys.switchReq = s.sys.switchReq ∧
      t.sys.bootCur = s.sys.bootCur ∧ t.sys.recordSeq = s.sys.recordSeq ∧ t.sys.recordAt = s.sys.recordAt ∧
      t.sys.config = s.sys.config
  | .flash => t.sys.flash = s.sys.flash ∧ t.sys.flashLost = s.sys.flashLost
  | .pageBuf => t.sys.pageBuf = s.sys.pageBuf
  | .temp => t.sys.tj = s.sys.tj ∧ t.sys.tjMax = s.sys.tjMax
  | .free => t.free = s.free
  | .out => t.out = s.out

/-- From s to t, nothing has changed outside the named parts. -/
def Keeps (changed : List Part) (s t : State) : Prop := ∀ p : Part, p ∉ changed → p.same s t

/-- The parts that raising a Bell Board source may change: the pending bit or COALESCED, and the messages it leads to
(R389 to R393). -/
def bellParts : List Part := [.bell, .counters, .epA, .epB, .out]

/-- Parts, and those that raising a source may change. -/
def andBell (parts : List Part) : List Part := parts ++ bellParts

/-- The parts that an event of a fault source may change: its reaction can fence a unit, replace an engine, mark a register
for its reload, or end commands (R409). -/
def faultParts : List Part :=
  [.commit, .tai, .inForce, .staged, .held, .counters, .parity, .engines, .ports, .frames, .banks, .loader, .watch, .scriv,
    .crier, .lock, .epA, .epB, .rings, .bell, .routes, .cells, .srcs, .stew, .tink, .firmware, .flash, .free, .out]

/-- A 64-bit write of path p in the normal window reaches the register at an offset and is performed there at once: the
path may configure (R58), the register is not guarded or the path's lock is disarmed (R66), the block is not that of a
shadowing spare (R152), the in-force copy awaits no rewrite (R73), no access waits at the fabric (R56), and the value
written leaves the reserved bits that are live test controls as they are (R76). -/
def canWrite (s : State) (p : Path) (off : Nat) (val : Word) : Bool :=
  s.isOwner p && !s.regs.badInForce.contains off && s.regs.waiting.isEmpty && !s.shadowBlock off &&
  (match regAt off with
    | some (g, _) => (!g.guarded || s.unlocked p) && (val ^^^ s.reg off) &&& BitVec.ofNat 64 g.live == 0
    | none => false)

/-- An entry of a command ring with this opcode is taken and its command runs: its ring may start it, its endpoint is the
configuration owner, and the device is not in safe mode (R342 to R346). -/
def runsCommand (s : State) (c : CmdEntry) (opc : Nat) : Bool :=
  s.mayStart c.ep c.ring && cmdOpc c == opc && decide (s.regs.owner = c.ep) && !s.sys.safe

/-- From s to t, the command of an entry has ended: nothing runs on its ring, and its completion, with its tag, this status,
detail and result, has been written to its completion ring or is held for it (R342, R345). -/
def commandEnded (s t : State) (c : CmdEntry) (status detail : Nat) (result : Word) : Prop :=
  let q := (s.ring c.ep c.ring).cq
  let k : Completion := { tag := c.w0.field 32 32, detail := detail, status := status, src := c.ring, kind := 1, result := result }
  (t.ring c.ep c.ring).running = none ∧
  (k ∈ (t.ring c.ep q).heldCq ∨ ∃ (pos : Nat) (ph : Bool), .ring c.ep q pos [withPhase ph k.word0, k.result] ∈ t.out)

/-- From s to t, every byte of boot flash outside the two sectors of the boot record reads as before (R451), where the place of the
next entry is one of their 4096. -/
def flashKept (s t : State) : Prop :=
  s.sys.recordAt < 4096 → ∀ a : Nat, a < 0x20000 ∨ 0x40000 ≤ a → t.flashRead a = s.flashRead a

/-- t is what a reset of the device makes of s, booted (R447, R448, R456): every part is at its reset value but for those
named; the generator, the engines and the rings are stopped, the key store and the banks are empty; NAND, fuses and boot
flash outside the boot record are as they were; firmware starts on a pair, or the device is in safe mode. -/
def isReset (s t : State) : Prop :=
  Keeps [.pending, .inForce, .engines, .xcvr, .stew, .store, .fuses, .lifecycle, .power, .debug, .firmware, .flash, .free, .out]
    State.reset t ∧
  (∀ n : Nat, (t.engine n).st = .stopped) ∧ t.xcvr.ip = [] ∧ t.sys.level = 0 ∧ t.sys.auth = false ∧ t.sys.pwr = 0 ∧
  t.pending = s.pending ∧ t.cellar.store = s.cellar.store ∧ flashKept s t ∧ t.sys.fuseState = s.sys.fuseState ∧
  (t.sys.phase = 2 ∧ t.sys.safe = false ∨ t.sys.phase = 4 ∧ t.sys.safe = true)

/-- The registers whose writes have rows of their own in the opcode table. -/
def hasOwnRow (off : Nat) : Bool :=
  [Reg.genUnlock, Reg.genOwner, Reg.hostOwnHb, Reg.genSnap, Reg.genEpochCtl, Reg.genCommit, Reg.genSwap, Reg.xcvrCmd,
    Reg.watchWsel, Reg.watchForceCmd, Reg.scrivRecSel, Reg.scrivHashIn, Reg.drayTxqCmd, Reg.lockZeroize, Reg.lockCmd,
    Reg.lockKmLock, Reg.lockSlotSel, Reg.bellPendClr, Reg.bellCtl, Reg.stewCmd, Reg.sysLcCmd, Reg.sysDbgCtl, Reg.sysPwrCtl,
    Reg.sysRstCmd, Reg.sysFwCmd, Reg.sysFlData, Reg.sysFlAddr, Reg.sysFwSel, Reg.tinkSliceSel].contains off ||
  (List.range 512).any (fun n => off == Reg.bellSrcCfg n) || (List.range 136).any (fun n => off == Reg.portCmd n)

end Sys2Proof.Safety
end

