-- ==== Sys2Proof/Certificates/Slice0/Obligations.lean ====
section
/-! DEFINITION. The statements for the provers, family by family. A completion statement gives the conditions under which a
command has its own effect, the effect, and the frame: Keeps names the parts of the state that may change, and every other
part is as it was. The rules in parentheses at the end of a docstring are those its clauses draw on; only a statement that
OBLIGATIONS.json lists as 'stated' gives its rule whole. -/

open Sys2Proof Sys2Proof.Machine Sys2Proof.Safety

/-! ## The queue, reset and the invariant -/

/-- A step with a command at the front of the queue is exec of that command on the state with the queue's rest. -/
def Obligations.StepRunsFront : Prop :=
  ∀ (c : Instr) (rest : List Instr) (s : State), s.pending = c :: rest → step s = exec c { s with pending := rest }

/-- On an empty queue the block idles for one nanosecond of elapsed time and changes nothing else: the model's choice (log
entry 11), no rule of the spec. No command ever faults, and none that answers a next state touches the queue that waits behind
it. -/
def Obligations.QueueAndOutcomes : Prop :=
  (∀ s : State, s.pending = [] →
     ∃ t : State, step s = .next t ∧ t.time.now = s.time.now + 1 ∧ Keeps [.clock] s t) ∧
  (∀ (c : Instr) (s : State),
     (∀ f : Fault, exec c s ≠ .fault f) ∧ (∀ t : State, exec c s = .next t → t.pending = s.pending))

/-- Right after reset the byte memories are in canonical form, and the list of boot-flash slots whose erase failed is in
rising order. -/
def Obligations.ResetMemoryCanonical : Prop := memoryCanonical State.reset = true

/-- Every step keeps the byte memories (Storeroom, boot flash, page buffer) in canonical form and the list of boot-flash slots
whose erase failed in rising order. -/
def Obligations.StepKeepsMemoryCanonical : Prop :=
  ∀ s t : State, memoryCanonical s = true → step s = .next t → memoryCanonical t = true

/-! ## The register fabric (R55 to R68) -/

/-- A write that reaches a register without a row of its own, in the normal window or in one of the three alias windows, sets
its RWI fields at once to the new word's and leaves every other register in force as it was. It puts the new word's RW fields
into the register's staged copy, or within the freeze into its held copy, and, where the register is in the block of an engine
whose port a spare shadows, into the same copy of the spare's register; no other staged or held copy changes. The new word is
newWord: what the window makes of the latest word and the data, ranged fields clamped. The path's lock is armed after it.
(R61, R63, R66, R152.) -/
def Obligations.WriteStagesFields : Prop :=
  ∀ (p : Path) (off k i : Nat) (val : Word) (s : State) (g : RegGroup),
    regAt off = some (g, i) → off < 0x200000 → off % 8 = 0 → canonicalOff off = off → hasOwnRow off = false → k < 4 →
    g.rw ≠ 0 ∨ g.rwi ≠ 0 → s.lcDataLocked off = false →
    canWrite s p off ((windowOp (off + 0x400000 * k)).apply (s.reg off) val) = true →
    let a : Access := { path := p, off := off, op := windowOp (off + 0x400000 * k), val := val, flashOk := true }
    let mirror : Option Nat := (blockEngine off).bind (fun n => (s.spareOf n).map (fun m => off - 0x400 * n + 0x400 * m))
    let copies : State → Table Word := fun u => if s.gen.freeze then u.regs.held else u.regs.staged
    let done : State → Prop := fun t =>
      t.reg off = mixWord (BitVec.ofNat 64 g.rwi) (s.reg off) (s.newWord a g) ∧
      (∀ o : Nat, o ≠ off → t.reg o = s.reg o) ∧
      (g.rw ≠ 0 → Table.find? off (copies t) = some (s.newWord a g &&& rwMask off) ∧
        (∀ o : Nat, mirror = some o → Table.find? o (copies t) = some (s.newWord a g &&& rwMask o))) ∧
      (∀ o : Nat, o ≠ off → mirror ≠ some o → Table.find? o t.regs.staged = Table.find? o s.regs.staged ∧
        Table.find? o t.regs.held = Table.find? o s.regs.held) ∧
      t.unlocked p = false ∧
      Keeps (andBell [.inForce, .staged, .held, .locks, .parity]) s t
    (k = 0 → ∃ t : State, exec (.registerWrite p off 8 val) s = .next t ∧ done t) ∧
    (k ≠ 0 → ∃ t : State, exec (.aliasWrite p (off + 0x400000 * k) 8 val) s = .next t ∧ done t)

/-- What becomes of a write that does not reach a register, while none waits at the fabric. One of a path that is not the
owner's is ignored and counted. One that is not 64 bits wide, not aligned, or at an offset with no register is ignored and
counted, and the path's lock is armed. One of a guarded register by a path whose lock is armed is refused and counted, and
raises source 2. Nothing else changes. (R58, R59, R65, R66.) -/
def Obligations.WriteIgnored : Prop :=
  ∀ (p : Path) (off size : Nat) (val : Word) (s : State), s.regs.waiting = [] →
    (s.isOwner p = false → exec (.registerWrite p off size val) s = .next (s.count Reg.genNonownerWrites)) ∧
    (s.isOwner p = true → size ≠ 8 ∨ off % 8 ≠ 0 ∨ regAt (canonicalOff (off % 0x400000)) = none →
      exec (.registerWrite p off size val) s = .next ((s.setLock p false).count Reg.genBadAccess)) ∧
    (s.isOwner p = true → s.unlocked p = false → off < 0x200000 → off % 8 = 0 →
      ∀ (g : RegGroup) (i : Nat), regAt (canonicalOff off) = some (g, i) → g.guarded = true →
        exec (.registerWrite p off 8 val) s = .next (((s.setLock p false).count Reg.genGuardRefused).raise 2))

/-- Of an engine's block only the first 0x100 bytes are decoded. An offset from 0x100 to 0x3FF reaches the register at that
offset modulo 0x100: a write does the same, in the normal window and in the alias windows, and a read returns the same, in the
normal window and in the one that shows the values in force. (R78.) -/
def Obligations.EngineBlocksRepeat : Prop :=
  ∀ (p : Path) (n k size : Nat) (val : Word) (s : State), n < 136 → 0x100 ≤ k → k < 0x400 →
    let here := 0x100000 + 0x400 * n + k
    let there := 0x100000 + 0x400 * n + k % 0x100
    exec (.registerWrite p here size val) s = exec (.registerWrite p there size val) s ∧
    (∀ w : Nat, 1 ≤ w → w < 4 →
      exec (.aliasWrite p (here + 0x400000 * w) size val) s = exec (.aliasWrite p (there + 0x400000 * w) size val) s) ∧
    s.busRead p here size = s.busRead p there size ∧
    s.busRead p (here + 0x200000) size = s.busRead p (there + 0x200000) size

/-- A 64-bit write of the key to GEN.UNLOCK disarms the lock of the path that writes it; a write of any other low word arms it
and counts in UNLOCK_FAIL. A beat that the owner writes restarts the heartbeat timer and arms the owner's lock. (R66, R67,
R327.) -/
def Obligations.UnlockAndBeat : Prop :=
  ∀ (p : Path) (val : Word) (s : State),
    (canWrite s p Reg.genUnlock val = true →
      ∃ t : State, exec (.genUnlock p val) s = .next t ∧
        (val.field 0 32 = 0x5A3C96E1 → t.unlocked p = true ∧ Keeps [.locks, .parity] s t) ∧
        (val.field 0 32 ≠ 0x5A3C96E1 → t.unlocked p = false ∧
          t.counter Reg.genUnlockFail = satAdd (s.counter Reg.genUnlockFail) 1 ∧ Keeps [.locks, .counters, .parity] s t)) ∧
    (canWrite s p Reg.hostOwnHb val = true → p = .ep s.regs.owner → val.bit 0 = true →
      ∃ t : State, exec (.ownHbBeat p val) s = .next t ∧ t.regs.beatAt = s.time.now ∧ t.regs.owner = s.regs.owner ∧
        t.unlocked p = false ∧ Keeps [.locks, .owner, .parity] s t)

/-- A write of GEN.OWNER that names the endpoint that is not the owner moves ownership at once, arms both endpoints' locks and
restarts the heartbeat timer; one that names the owner moves nothing. The judgement of the owner moves ownership to a usable
other endpoint when the owner has not been usable for LINK_MS, and when HB_MS is not 0 and a usable owner's heartbeat has not
come for longer than HB_MS; it records the cause, arms both locks and restarts the timer. (R326 to R328.) -/
def Obligations.OwnershipMoves : Prop :=
  (∀ (p : Path) (val : Word) (s : State), canWrite s p Reg.genOwner val = true → epOf (val.field 0 1) ≠ s.regs.owner →
    ∃ t : State, exec (.genOwnerWrite p val) s = .next t ∧ t.regs.owner = epOf (val.field 0 1) ∧ t.regs.ownCause = 1 ∧
      t.regs.unlockedA = false ∧ t.regs.unlockedB = false ∧ t.regs.beatAt = s.time.now ∧
      Keeps (andBell [.inForce, .locks, .parity, .owner, .lock, .rings]) s t) ∧
  (∀ (p : Path) (val : Word) (s : State), canWrite s p Reg.genOwner val = true → epOf (val.field 0 1) = s.regs.owner →
    ∃ t : State, exec (.genOwnerWrite p val) s = .next t ∧ t.regs.owner = s.regs.owner ∧ t.regs.ownCause = s.regs.ownCause ∧
      t.fld Reg.genOwner 0 1 = s.regs.owner.idx ∧ (∀ off : Nat, off ≠ Reg.genOwner → t.reg off = s.reg off) ∧
      Keeps [.inForce, .locks, .parity] s t) ∧
  (∀ s : State, s.usable s.regs.owner.other = true → s.usable s.regs.owner = false →
    1000000 * s.fld Reg.hostOwnCtl 32 16 ≤ s.time.now - (s.ep s.regs.owner).downSince →
    ∃ t : State, exec .ownerJudge s = .next t ∧ t.regs.owner = s.regs.owner.other ∧ t.regs.ownCause = 2 ∧
      t.regs.unlockedA = false ∧ t.regs.unlockedB = false ∧ t.regs.beatAt = s.time.now ∧
      Keeps (andBell [.inForce, .locks, .owner, .lock, .rings]) s t) ∧
  (∀ s : State, s.usable s.regs.owner.other = true → s.usable s.regs.owner = true → s.fld Reg.hostOwnCtl 0 16 ≠ 0 →
    1000000 * s.fld Reg.hostOwnCtl 0 16 < s.time.now - s.regs.beatAt →
    ∃ t : State, exec .ownerJudge s = .next t ∧ t.regs.owner = s.regs.owner.other ∧ t.regs.ownCause = 3 ∧
      t.regs.unlockedA = false ∧ t.regs.unlockedB = false ∧ t.regs.beatAt = s.time.now ∧
      Keeps (andBell [.inForce, .locks, .owner, .lock, .rings]) s t)

/-- SNAP.TAKE with no snapshot in progress copies every counter into the holding registers, with CLEAR sets every counter to
0, and leaves the RS registers as they are; while a snapshot that a write asked for is in progress, TAKE is held with its
CLEAR bit behind those held already. The completion of a snapshot moves the holding registers into the RS registers and adds 1
to SNAP.SEQ; where one is held, it begins in the same way. While no copy's error is waiting to be met: a parity pass that
finds one register's in-force copy bad marks the register as awaiting its rewrite, sets PARITY.INFORCE and records the offset;
one that finds its staged copy bad gives the copy up, marks the register as one whose copy was lost, and records the offset. A
pass that finds nothing, with no register awaiting its rewrite, clears INFORCE and changes nothing else. The reload of a
register that awaits its rewrite, with nothing waiting behind it, takes the register's mark away and leaves the others'. What
is sent while the fabric makes it wait joins the end of what waits, and nothing else changes. (R69 to R71, R56, R72 to R74.)
-/
def Obligations.SnapshotsAndParity : Prop :=
  ((∀ (p : Path) (val : Word) (s : State), canWrite s p Reg.genSnap val = true → val.bit 0 = true →
     (s.gen.snapBusy = false →
       ∃ t : State, exec (.genSnapTake p val) s = .next t ∧ t.gen.snapBusy = true ∧ t.regs.holding = s.regs.counters ∧
         t.regs.visible = s.regs.visible ∧ t.regs.counters = (if val.bit 1 then [] else s.regs.counters) ∧
         t.gen.snapSeq = s.gen.snapSeq ∧ Keeps [.locks, .parity, .snap, .snapCopies, .counters] s t) ∧
     (s.gen.snapBusy = true → s.gen.snapWrite = true →
       ∃ t : State, exec (.genSnapTake p val) s = .next t ∧ t.gen.snapHeld = s.gen.snapHeld ++ [val.bit 1] ∧
         t.gen.snapBusy = true ∧ t.gen.snapSeq = s.gen.snapSeq ∧ Keeps [.locks, .parity, .snap] s t)) ∧
   (∀ s : State, s.gen.snapBusy = true →
     (s.gen.snapHeld = [] →
       ∃ t : State, exec .snapshotComplete s = .next t ∧ t.gen.snapBusy = false ∧ t.gen.snapSeq = s.gen.snapSeq + 1 ∧
         t.regs.visible = s.regs.holding ∧ Keeps [.snap, .snapCopies] s t) ∧
     (∀ (c : Bool) (r : List Bool), s.gen.snapHeld = c :: r →
       ∃ t : State, exec .snapshotComplete s = .next t ∧ t.gen.snapBusy = true ∧ t.gen.snapHeld = r ∧
         t.gen.snapSeq = s.gen.snapSeq + 1 ∧ t.regs.visible = s.regs.holding ∧ t.regs.holding = s.regs.counters ∧
         t.regs.counters = (if c then [] else s.regs.counters) ∧ Keeps [.snap, .snapCopies, .counters] s t))) ∧
  ((∀ (off i : Nat) (g : RegGroup) (later : List (RegCopy × Nat)) (s : State), regAt off = some (g, i) →
     g.rw ≠ 0 ∨ g.rwi ≠ 0 → s.regs.upset = [] →
     (∃ t : State, exec (.parityScan [(.inForce, off)] later) s = .next t ∧ off ∈ t.regs.badInForce ∧
       t.regs.parityInForce = true ∧ t.regs.parityAddr = off ∧ Keeps faultParts s t) ∧
     (∃ t : State, exec (.parityScan [(.staged, off)] later) s = .next t ∧ off ∈ t.regs.stagedLost ∧ t.regs.parityAddr = off ∧
       t.regs.staged = Table.erase off s.regs.staged ∧ t.regs.held = s.regs.held ∧ Keeps faultParts s t)) ∧
   (∀ (later : List (RegCopy × Nat)) (s : State), s.regs.upset = [] → s.regs.badInForce = [] →
     ∃ t : State, exec (.parityScan [] later) s = .next t ∧ t.regs.parityInForce = false ∧ t.regs.badInForce = [] ∧
       t.regs.stagedLost = s.regs.stagedLost ∧ t.regs.parityAddr = s.regs.parityAddr ∧ Keeps [.parity] s t) ∧
   (∀ (off : Nat) (s : State), off ∈ s.regs.badInForce → off ∈ s.regs.reload → s.regs.waiting = [] →
     ∃ t : State, exec (.configReload off) s = .next t ∧ off ∉ t.regs.badInForce ∧
       (∀ o : Nat, o ≠ off → (o ∈ t.regs.badInForce ↔ o ∈ s.regs.badInForce)) ∧ Keeps [.parity] s t) ∧
   (∀ (p : Path) (off size : Nat) (val : Word) (s : State), s.mustWait (.write p (decodedOff off) size val true) = true →
     exec (.registerWrite p off size val) s =
       .next { s with regs := { s.regs with waiting := s.regs.waiting ++ [.write p (decodedOff off) size val true] } }))

/-! ## Epochs, commits and swaps (R30 to R54) -/

/-- While epochs run: the cut comes 50 µs before the boundary or at once where that has passed, and takes the TAI of the cut;
after the cut the staging freeze begins 1 µs before the boundary or at once; and a freeze whose end is due ends at that
instant, which empties the held copies. At a boundary that is reached after the epoch's cut a generator that is STARTING or
RUNNING is RUNNING in the next epoch, numbered one higher and begun at that instant, whose cut is still to come; one that is
STOPPING, with no start held, is STOPPED and its epoch number stays. (R32, R42, R243, R39, R53.) -/
def Obligations.Epochs : Prop :=
  (∀ s : State,
     (s.epochsRun = true → s.gen.cutDone = false →
       ∃ t : State, exec .cut s = .next t ∧ t.gen.cutDone = true ∧ t.time.now = max s.time.now (s.gen.nextAt - 50000) ∧
         t.gen.cutTai = t.tai ∧ t.gen.epochNum = s.gen.epochNum ∧
         Keeps (andBell [.clock, .epoch, .watch, .crier, .subs]) s t) ∧
     (s.epochsRun = true → s.gen.cutDone = true → s.gen.freeze = false →
       ∃ t : State, exec .stagingFreeze s = .next t ∧ t.gen.freeze = true ∧ t.time.now = max s.time.now (s.gen.nextAt - 1000) ∧
         Keeps [.clock, .freeze] s t) ∧
     (∀ n : Nat, s.gen.thawAt = some n →
       ∃ t : State, exec .freezeEnd s = .next t ∧ t.gen.freeze = false ∧ t.gen.thawAt = none ∧ t.time.now = max s.time.now n ∧
         t.regs.held = [] ∧ Keeps [.clock, .freeze, .staged, .held, .parity] s t)) ∧
  (∀ s : State, s.gen.cutDone = true →
     (s.gen.st = .starting ∨ s.gen.st = .running →
       ∃ t : State, exec .epochBoundary s = .next t ∧ t.gen.st = .running ∧ t.gen.epochNum = s.gen.epochNum + 1 ∧
         t.gen.epochStart = max s.time.now s.gen.nextAt ∧ t.time.now = max s.time.now s.gen.nextAt ∧ t.gen.cutDone = false ∧
         Keeps (faultParts ++ [.epoch, .freeze, .snap, .clock, .snapCopies, .owner, .records, .subs, .bitmaps, .halves, .cellar]) s t) ∧
     (s.gen.st = .stopping → s.gen.startHeld = false →
       ∃ t : State, exec .epochBoundary s = .next t ∧ t.gen.st = .stopped ∧ t.gen.epochNum = s.gen.epochNum ∧
         t.time.now = max s.time.now s.gen.nextAt ∧
         Keeps (faultParts ++ [.epoch, .freeze, .snap, .clock, .snapCopies, .owner, .records, .subs, .bitmaps, .halves, .cellar]) s t))

/-- A write of EPOCH_CTL with RUN = 1 starts a STOPPED generator: it is STARTING, in an epoch numbered one higher that begins
at once. One with RUN = 0 makes a STARTING or RUNNING generator STOPPING. One with RUN = 1 on a STARTING or RUNNING generator
changes neither its state nor its epoch, and HOLD takes the value written at once. (R43, R52, R53.) -/
def Obligations.EpochControl : Prop :=
  ∀ (p : Path) (val : Word) (s : State), canWrite s p Reg.genEpochCtl val = true →
    (s.gen.st = .stopped → val.bit 0 = true →
      ∃ t : State, exec (.epochCtlRunStart p val) s = .next t ∧ t.gen.st = .starting ∧ t.gen.epochNum = s.gen.epochNum + 1 ∧
        t.gen.epochStart = s.time.now ∧ t.gen.boundaryTai = t.tai ∧
        Keeps (faultParts ++ [.epoch, .freeze, .snap, .snapCopies, .owner, .subs, .bitmaps, .halves, .cellar, .locks]) s t) ∧
    (s.gen.st = .starting ∨ s.gen.st = .running → val.bit 0 = false →
      ∃ t : State, exec (.epochCtlRunStop p val) s = .next t ∧ t.gen.st = .stopping ∧ t.gen.epochNum = s.gen.epochNum ∧
        Keeps [.epoch, .freeze, .inForce, .staged, .held, .locks, .counters, .parity] s t) ∧
    (s.gen.st = .starting ∨ s.gen.st = .running → val.bit 0 = true →
      ∃ t : State, exec (.epochCtlHold p val) s = .next t ∧ t.flag Reg.genEpochCtl 2 = val.bit 2 ∧ t.gen.st = s.gen.st ∧
        Keeps [.freeze, .inForce, .staged, .held, .locks, .counters, .parity] s t)

/-- GEN.COMMIT in STOPPED, with no earlier commit waiting for a swap, leaves nothing staged, changes neither the generator's
state nor its epoch number, and where a register was staged (its copy of good parity) sets LAST_COMMIT to the epoch number
plus 1. In any other state GEN.COMMIT is ignored and counted. A silent boundary comes at its instant, schedules the next one a
period later, and changes neither LAST_COMMIT nor the active generation. SWAP.REQ makes a swap pending where the inactive bank
is not bad, and is counted in SWAP_REFUSED where it is. SWAP.CANCEL takes a pending swap back, with no GEN.COMMIT held, before
the instant of a boundary that performs it; from that instant on CANCEL does nothing. While STOPPED, the swap that a manual
commit awaits is performed once it is eligible: the generations change places, LAST_COMMIT is the epoch number plus 1, and the
commit no longer waits. (R50, R51, R54, R72, R45, R46, R50, R177.) -/
def Obligations.CommitsAndSwaps : Prop :=
  ((∀ (p : Path) (val : Word) (s : State), canWrite s p Reg.genCommit val = true → val.bit 0 = true →
     (s.gen.st = .stopped → s.commitWaits = false →
       ∃ t : State, exec (.genCommit p val) s = .next t ∧ t.gen.st = .stopped ∧ t.gen.epochNum = s.gen.epochNum ∧
         (s.checkCommit.regs.staged ≠ [] → t.gen.lastCommit = s.gen.epochNum + 1) ∧ t.regs.staged = [] ∧
         Keeps (faultParts ++ [.owner, .subs, .bitmaps, .halves, .cellar, .locks]) s t) ∧
     (s.gen.st ≠ .stopped →
       ∃ t : State, exec (.genCommit p val) s = .next t ∧
         t.counter Reg.genCommitIgnored = satAdd (s.counter Reg.genCommitIgnored) 1 ∧
         Keeps [.locks, .counters, .parity] s t)) ∧
   (∀ s : State, s.gen.st = .stopped →
     ∃ t : State, exec .silentBoundary s = .next t ∧ t.gen.silentAt = s.gen.silentAt + s.periodNs ∧
       t.time.now = max s.time.now s.gen.silentAt ∧ t.gen.lastCommit = s.gen.lastCommit ∧ t.gen.activeGen = s.gen.activeGen ∧
       Keeps (faultParts ++ [.epoch, .clock, .owner, .subs, .bitmaps, .halves, .cellar]) s t)) ∧
  ((∀ (p : Path) (val : Word) (s : State), canWrite s p Reg.genSwap val = true → val.bit 0 = true → val.bit 1 = false →
     ((s.bank s.inactiveGen).bad = false →
       ∃ t : State, exec (.genSwapReq p val) s = .next t ∧ t.gen.swapPending = true ∧ t.gen.activeGen = s.gen.activeGen ∧
         Keeps [.locks, .commit, .parity] s t) ∧
     ((s.bank s.inactiveGen).bad = true →
       ∃ t : State, exec (.genSwapReq p val) s = .next t ∧
         t.counter Reg.watchSwapRefused = satAdd (s.counter Reg.watchSwapRefused) 1 ∧ Keeps [.locks, .counters, .parity] s t)) ∧
   (∀ (p : Path) (val : Word) (s : State), canWrite s p Reg.genSwap val = true → val.bit 1 = true →
     (s.swapNow = false → s.gen.swapPending = true → s.gen.commitHeld = false →
       ∃ t : State, exec (.genSwapCancel p val) s = .next t ∧ t.gen.swapPending = false ∧ t.gen.activeGen = s.gen.activeGen ∧
         Keeps (andBell [.commit, .lock, .locks, .parity, .rings]) s t) ∧
     (s.swapNow = true →
       ∃ t : State, exec (.genSwapCancel p val) s = .next t ∧ t.gen = s.gen ∧ Keeps [.locks, .parity] s t)) ∧
   (∀ s : State, s.gen.st = .stopped → s.gen.commitBusy = true → s.gen.swapPending = true → s.swapEligible = true →
     s.gen.commitHeld = false →
     ∃ t : State, exec .commitSwapEligible s = .next t ∧ t.gen.activeGen = s.inactiveGen ∧ t.gen.swapPending = false ∧
       t.gen.lastCommit = s.gen.epochNum + 1 ∧ t.gen.commitBusy = false ∧ t.watch.swapNo = s.watch.swapNo + 1 ∧
       Keeps (faultParts ++ [.owner, .subs, .bitmaps, .halves, .cellar]) s t))

/-! ## The Bell Board (R389 to R400) -/

/-- The raise of a source that is used sets its pending bit, or where that is set counts in COALESCED and changes nothing
else. A claim, when no earlier access of the fabric waits, takes the target's deliverable source of the highest priority: its
pending bit is cleared, the source is pushed on the target's stack with its priority, the target is no longer signalled, and
the read returns source, priority and depth; without such a source the claim is counted as spurious and returns the depth
alone. An end of interrupt takes the topmost entry of its source off the stack, and is counted as stray without one. MASK is
set and cleared. (R389, R394 to R396, R398.) -/
def Obligations.BellBoard : Prop :=
  (∀ (n : Nat) (s : State), sourceUsed n = true →
    (n ∉ s.bell.pend →
      ∃ t : State, exec (.sourceRaise n) s = .next t ∧ t.bell.pend = setInsert n s.bell.pend ∧ t.bell.stack = s.bell.stack ∧
        Keeps bellParts s t) ∧
    (n ∈ s.bell.pend →
      ∃ t : State, exec (.sourceRaise n) s = .next t ∧ t.counter Reg.bellCoalesced = satAdd (s.counter Reg.bellCoalesced) 1 ∧
        t.bell = s.bell ∧ Keeps [.counters] s t)) ∧
  (∀ (e : Ep) (l : Nat) (s : State), l < 8 → s.regs.waiting = [] →
    (∀ n : Nat, s.bestSource (targetOf e l) = some n →
      ∃ t : State, exec (.bellClaim e l) s = .next t ∧ t.bell.pend = setErase n s.bell.pend ∧
        t.bellStack (targetOf e l) = (n, s.bellPrio n) :: s.bellStack (targetOf e l) ∧
        targetOf e l ∉ t.bell.signalled ∧
        t.out = .claim e (pack [(0, n), (16, s.bellPrio n), (24, (s.bellStack (targetOf e l)).length + 1)]) :: s.out ∧
        Keeps [.bell, .counters, .out] s t) ∧
    (s.bestSource (targetOf e l) = none →
      ∃ t : State, exec (.bellClaim e l) s = .next t ∧ t.bell.pend = s.bell.pend ∧ t.bell.stack = s.bell.stack ∧
        t.counter (Reg.bellSpurious (targetOf e l)) = satAdd (s.counter (Reg.bellSpurious (targetOf e l))) 1 ∧
        t.out = .claim e (pack [(24, (s.bellStack (targetOf e l)).length)]) :: s.out ∧
        Keeps [.bell, .counters, .out] s t)) ∧
  (∀ (e : Ep) (l : Nat) (val : Word) (s : State), l < 8 → s.regs.waiting = [] →
    (∀ r : List (Nat × Nat), stackRemove val.toNat (s.bellStack (targetOf e l)) = some r →
      ∃ t : State, exec (.bellEoi e l val) s = .next t ∧ t.bellStack (targetOf e l) = r ∧ t.bell.pend = s.bell.pend ∧
        Keeps bellParts s t) ∧
    (stackRemove val.toNat (s.bellStack (targetOf e l)) = none →
      exec (.bellEoi e l val) s = .next (s.count (Reg.bellStray (targetOf e l)))) ∧
    (∃ t : State, exec (.bellMask e l val) s = .next t ∧
      t.bell.masked = (if val.bit 0 then setInsert (targetOf e l) s.bell.masked else setErase (targetOf e l) s.bell.masked) ∧
      t.bell.pend = s.bell.pend ∧ Keeps bellParts s t))

/-- PEND_CLR clears the pending bit it names; GDIS and a source's EN take the value written at once, and leave the pending
bits as they are. The raise of a source that was not pending and is deliverable to a target of a usable endpoint which is not
signalled signals the target: a message of the target's vector goes out where the vector is not masked, and where it is masked
the vector's bit in the pending bit array is set. (R389, R390, R397, R391 to R393.) -/
def Obligations.BellRegistersAndMessages : Prop :=
  (∀ (p : Path) (val : Word) (s : State),
     (canWrite s p Reg.bellPendClr val = true →
       ∃ t : State, exec (.bellPendClr p val) s = .next t ∧ t.bell.pend = setErase (val.field 0 9) s.bell.pend ∧
         Keeps (andBell [.locks, .parity]) s t) ∧
     (canWrite s p Reg.bellCtl val = true →
       ∃ t : State, exec (.bellGdis p val) s = .next t ∧ t.flag Reg.bellCtl 0 = val.bit 0 ∧ t.bell.pend = s.bell.pend ∧
         Keeps (andBell [.inForce, .locks, .parity]) s t) ∧
     (∀ n : Nat, 1 ≤ n → n < 512 → canWrite s p (Reg.bellSrcCfg n) val = true →
       ∃ t : State, exec (.bellSrcEn p n val) s = .next t ∧ t.flag (Reg.bellSrcCfg n) 0 = val.bit 0 ∧ t.bell.pend = s.bell.pend ∧
         Keeps (andBell [.inForce, .staged, .held, .locks, .parity]) s t)) ∧
  (∀ (n g : Nat) (s : State), sourceUsed n = true → n ∉ s.bell.pend → g < 16 → g ∉ s.bell.signalled →
     s.deliverable g n = true → s.usable (targetEp g) = true →
     ∃ t : State, exec (.sourceRaise n) s = .next t ∧ g ∈ t.bell.signalled ∧
       ((s.ep (targetEp g)).vectorMasked (s.fld (Reg.bellTgtCfg g) 0 6) = false →
         ∃ (a : Word) (d : Nat), .message (targetEp g) (s.fld (Reg.bellTgtCfg g) 0 6) a d ∈ t.out) ∧
       ((s.ep (targetEp g)).vectorMasked (s.fld (Reg.bellTgtCfg g) 0 6) = true →
         (t.ep (targetEp g)).pba.bit (s.fld (Reg.bellTgtCfg g) 0 6) = true) ∧
       Keeps bellParts s t)

/-! ## Endpoints, rings, completions (R322 to R361) -/

/-- An endpoint's conditions become those of the change: link as it is; MSE, BME, D3hot and the three BARs as configured where
management firmware serves configuration requests, and else the first three 0 and the BARs as they were; width and speed as
negotiated, 0 without a link. A reset of the endpoint makes it unusable and clears MSE, BME, D3hot, its BARs, its MSI-X table,
its pending bits and its function mask; the end of the reset takes the reset's mark away. Entry into D3hot makes it unusable.
A STARTING ring of a usable endpoint whose rings are not fenced becomes RUNNING at position 0 with phase 1; of an endpoint
that is not usable, or whose rings are fenced, it is STOPPING with error 3. A STOPPING ring with nothing begun, and no start
held, is STOPPED. A RUNNING command or transmit ring whose read fails counts it, and is STOPPING with error 2. (R323 to R325,
R333, R335, R409.) -/
def Obligations.EndpointsAndRings : Prop :=
  (∀ (e : Ep) (s : State),
     (∀ (link mse bme d3 : Bool) (width speed : Nat) (bars : Bars),
       ∃ t : State, exec (.endpointUsableChange e link mse bme d3 width speed bars) s = .next t ∧
         (t.ep e).link = link ∧ (t.ep e).mse = (s.configServed && mse) ∧ (t.ep e).bme = (s.configServed && bme) ∧
         (t.ep e).d3 = (s.configServed && d3) ∧
         (t.ep e).bar0 = (if s.configServed then bars.bar0 else (s.ep e).bar0) ∧
         (t.ep e).bar2 = (if s.configServed then bars.bar2 else (s.ep e).bar2) ∧
         (t.ep e).bar4 = (if s.configServed then bars.bar4 else (s.ep e).bar4) ∧
         (t.ep e).width = (if link then width else 0) ∧ (t.ep e).speed = (if link then speed else 0) ∧
         Keeps (andBell [.frames, .rings]) s t) ∧
     (∀ fundamental : Bool,
       (∃ t : State, exec (.endpointReset e true fundamental) s = .next t ∧ t.usable e = false ∧
         (t.ep e).mse = false ∧ (t.ep e).bme = false ∧ (t.ep e).d3 = false ∧ (t.ep e).bar0 = 0 ∧ (t.ep e).bar2 = 0 ∧
         (t.ep e).bar4 = 0 ∧ (t.ep e).msix = [] ∧ (t.ep e).pba = 0 ∧ (t.ep e).funcMask = false ∧
         Keeps (andBell [.frames, .rings]) s t) ∧
       (∃ t : State, exec (.endpointReset e false fundamental) s = .next t ∧
         (t.ep e).flr = ((s.ep e).flr && fundamental) ∧ (t.ep e).fundamental = ((s.ep e).fundamental && !fundamental) ∧
         Keeps (andBell [.frames, .rings]) s t)) ∧
     (∃ t : State, exec (.d3hotEntry e) s = .next t ∧ t.usable e = false ∧ (t.ep e).d3 = true ∧
       Keeps (andBell [.frames, .rings]) s t)) ∧
  (∀ (e : Ep) (k : Nat) (s : State), k < 128 →
     ((s.ring e k).st = .starting → s.usable e = true → s.stew.ringFenced.contains e = false →
       ∃ t : State, exec (.ringRunning e k) s = .next t ∧ (t.ring e k).st = .running ∧ (t.ring e k).devPos = 0 ∧
         (t.ring e k).hostPos = 0 ∧ (t.ring e k).phase = true ∧ Keeps [.rings] s t) ∧
     ((s.ring e k).st = .starting → (s.usable e && !s.stew.ringFenced.contains e) = false →
       ∃ t : State, exec (.ringRunning e k) s = .next t ∧ (t.ring e k).st = .stopping ∧ (t.ring e k).err = 3 ∧
         Keeps [.rings] s t) ∧
     ((s.ring e k).st = .stopping → (s.ring e k).idle = true → (s.ring e k).startHeld = false →
       ∃ t : State, exec (.ringStopComplete e k) s = .next t ∧ (t.ring e k).st = .stopped ∧
         Keeps (andBell [.rings]) s t) ∧
     ((s.ring e k).runs 1 = true ∨ (s.ring e k).runs 4 = true →
       ∃ t : State, exec (.ringReadFailure e k) s = .next t ∧ (t.ring e k).st = .stopping ∧ (t.ring e k).err = 2 ∧
         t.counter (Reg.hostRingMemErr e.idx k) = satAdd (s.counter (Reg.hostRingMemErr e.idx k)) 1 ∧
         Keeps [.rings, .counters] s t))

/-- A doorbell that need not wait behind an earlier write of its endpoint: an acceptable position becomes the host's position
of the ring, whose state stays; any other is counted for the ring and raises source 10; a write at another offset of the
ring's page is counted in BAD_ACCESS. The oldest completion that a RUNNING completion ring with room holds is written at the
device's position and leaves the held ones. A write to an MSI-X table that need not wait behind an earlier write of its
endpoint: an aligned 32-bit or 64-bit write inside the table sets the words it covers and no other; any other write is counted
in BAD_ACCESS. The function mask takes its value and the table stays. Neither touches the other endpoint. (R82, R336, R342,
R393, R402.) -/
def Obligations.DoorbellsCompletionsAndVectors : Prop :=
  (∀ (e : Ep) (k : Nat) (s : State), k < 128 →
     (∀ (off : Nat) (val : Word), s.mustWait (.doorbell e k off val) = false →
       (off = 0 → (s.ring e k).doorbellOk val = true →
         ∃ t : State, exec (.doorbell e k off val) s = .next t ∧ (t.ring e k).hostPos = val.toNat ∧
           (t.ring e k).st = (s.ring e k).st ∧ Keeps (andBell [.rings]) s t) ∧
       (off = 0 → (s.ring e k).doorbellOk val = false →
         exec (.doorbell e k off val) s = .next ((s.count (Reg.hostRingBadDb e.idx k)).raise 10)) ∧
       (off ≠ 0 → exec (.doorbell e k off val) s = .next (s.count Reg.genBadAccess))) ∧
     (∀ (c : Completion) (r : List Completion), (s.ring e k).heldCq = c :: r → (s.ring e k).runs 2 = true →
       0 < (s.ring e k).free →
       ∃ t : State, exec (.completionWrite e k) s = .next t ∧ (t.ring e k).heldCq = r ∧
         .ring e k (s.ring e k).devPos [withPhase (s.ring e k).phase c.word0, c.result] ∈ t.out ∧
         Keeps (andBell [.rings]) s t)) ∧
  (∀ (e : Ep) (s : State),
     (∀ (off : Nat) (val : Word), s.mustWait (.msix e (.table off) 4 val) = false →
       (off % 4 = 0 → off + 4 ≤ 1024 →
         ∃ t : State, exec (.msiXTableWrite e (.table off) 4 val) s = .next t ∧
           (t.ep e).msixWord (off / 4) = val.setWidth 32 ∧
           (∀ i : Nat, i ≠ off / 4 → (t.ep e).msixWord i = (s.ep e).msixWord i) ∧ t.ep e.other = s.ep e.other ∧
           Keeps [.epA, .epB, .out] s t) ∧
       (off % 4 ≠ 0 ∨ 1024 < off + 4 →
         exec (.msiXTableWrite e (.table off) 4 val) s = .next (s.count Reg.genBadAccess))) ∧
     (∀ (off : Nat) (val : Word), s.mustWait (.msix e (.table off) 8 val) = false →
       (off % 8 = 0 → off + 8 ≤ 1024 →
         ∃ t : State, exec (.msiXTableWrite e (.table off) 8 val) s = .next t ∧
           (t.ep e).msixWord (off / 4) = val.setWidth 32 ∧ (t.ep e).msixWord (off / 4 + 1) = (val >>> 32).setWidth 32 ∧
           (∀ i : Nat, i ≠ off / 4 → i ≠ off / 4 + 1 → (t.ep e).msixWord i = (s.ep e).msixWord i) ∧
           t.ep e.other = s.ep e.other ∧ Keeps [.epA, .epB, .out] s t) ∧
       (off % 8 ≠ 0 ∨ 1024 < off + 8 →
         exec (.msiXTableWrite e (.table off) 8 val) s = .next (s.count Reg.genBadAccess))) ∧
     (∀ (size : Nat) (val : Word), s.mustWait (.msix e .functionMask size val) = false →
       ∃ t : State, exec (.msiXTableWrite e .functionMask size val) s = .next t ∧ (t.ep e).funcMask = val.bit 0 ∧
         (t.ep e).msix = (s.ep e).msix ∧ t.ep e.other = s.ep e.other ∧ Keeps [.epA, .epB, .out] s t))

/-! ## Commands of the command rings (R342 to R348) -/

/-- An entry with opcode 0 that its ring may start, from either endpoint, moves the ring's position on by one and ends: with
status OK where its flags, reserved bits and unused words are 0, and with PARAM where they are not. One of the owner with an
opcode above 0x0B ends with status OPCODE, outside safe mode. COMMIT of the owner without flags goes on executing and changes
nothing but its ring; COMMIT with SWAP, where the inactive bank is not bad, makes a swap pending and goes on executing as one
that asked for it; TIME_SET joins the requests that wait, at PPS only where PPS_EN is 1. (R342 to R346, R346 to R348.) -/
def Obligations.CommandsThatEndOrWait : Prop :=
  (∀ (c : CmdEntry) (s : State),
     (s.mayStart c.ep c.ring = true → cmdOpc c = 0 →
       ∃ t : State, exec (.nop c) s = .next t ∧
         commandEnded s t c (if cmdHeadOk c 0 && wordsZero [c.w1, c.w2, c.w3, c.w4, c.w5, c.w6, c.w7] then 0 else 3) 0 0 ∧
         (t.ring c.ep c.ring).running = none ∧ Keeps (andBell [.rings, .lock]) s t) ∧
     (runsCommand s c (cmdOpc c) = true → 12 ≤ cmdOpc c →
       ∃ t : State, exec (.opcodeUnknown c) s = .next t ∧ commandEnded s t c 2 0 0 ∧ Keeps (andBell [.rings, .lock]) s t)) ∧
  (∀ (c : CmdEntry) (s : State),
     (runsCommand s c 2 = true → cmdHeadOk c 2 = true → wordsZero [c.w1, c.w2, c.w3, c.w4, c.w5, c.w6, c.w7] = true →
       (cmdFlags c = 0 →
         ∃ t : State, exec (.commit c) s = .next t ∧ (t.ring c.ep c.ring).running.map (·.opc) = some 2 ∧
           Keeps [.rings, .counters] s t) ∧
       (cmdFlags c = 1 → (s.bank s.inactiveGen).bad = false →
         ∃ t : State, exec (.commit c) s = .next t ∧ t.gen.swapPending = true ∧
           (t.ring c.ep c.ring).running.map (·.swap) = some true ∧ Keeps [.rings, .counters, .commit] s t)) ∧
     (runsCommand s c 11 = true → cmdHeadOk c 2 = true → wordsZero [c.w2, c.w3, c.w4, c.w5, c.w6, c.w7] = true →
       ((cmdFlags c).testBit 1 = true → s.flag Reg.sysTimeCtl 0 = true) →
       ∃ t : State, exec (.timeSet c) s = .next t ∧
         t.time.requests = s.time.requests ++ [{ ep := c.ep, ring := c.ring, step := (cmdFlags c).testBit 0
                                                 atPps := (cmdFlags c).testBit 1, value := c.w1, since := s.time.now }] ∧
         (t.ring c.ep c.ring).running.map (·.opc) = some 11 ∧ Keeps [.rings, .counters, .tai] s t))

/-- PORT_CTL of the owner with action 0 that names one port below 64, outside the staging freeze, whose engine no spare
shadows: the engine's CTL is staged with EN = 1, and the command ends with OK and the number of ports named, 1. Integration
takes a STARTING engine that serves a port to RUNNING; makes the spare that shadows a port ready to receive; and ends the wait
for bus idle of any other engine. The exit from a protocol exception ends it and leaves the engine's state. A STOPPING engine
whose port has nothing on its bus is STOPPED, with no start held. The end of HOLD flushes the frames that a port which is
down, and not in STOPPING, holds. The end of a DELAYED wait, at its instant, and RECOVER in a DELAYED or MANUAL wait both
begin the monitoring and leave the counts. While a bus-off engine monitors, the occurrences seen are added up; with the 128th
the engine leaves bus-off with TEC and REC 0. No other engine changes. (R346, R89, R100, R112, R113, R154, R273, R98, R99.) -/
def Obligations.EngineStates : Prop :=
  (∀ (c : CmdEntry) (p : Nat) (s : State), runsCommand s c 4 = true → p < 64 → cmdHeadOk c 0 = true →
     c.w1 = 1#64 <<< p → c.w2 = 0 → c.w3 = 0 → wordsZero [c.w4, c.w5, c.w6, c.w7] = true → s.gen.freeze = false →
     s.serving p < 136 → s.spareOf (s.serving p) = none →
     ∃ t : State, exec (.portCtl c) s = .next t ∧ commandEnded s t c 0 0 1 ∧
       (∃ w : Word, Table.find? (Reg.portCtl (s.serving p)) t.regs.staged = some w ∧ w.bit 0 = true) ∧
       Keeps (andBell [.rings, .lock, .staged, .held, .parity]) s t) ∧
  ((∀ (n : Nat) (s : State), s.shadowedPort n = none →
     ((s.engine n).st = .starting → (s.portOf n).isSome = true →
       ∃ t : State, exec (.portIntegrated n) s = .next t ∧ (t.engine n).st = .running ∧
         (∀ m : Nat, m ≠ n → t.engine m = s.engine m) ∧ Keeps [.engines] s t) ∧
     ((s.engine n).st ≠ .starting →
       ∃ t : State, exec (.portIntegrated n) s = .next t ∧ (t.engine n).idleWait = false ∧ (t.engine n).st = (s.engine n).st ∧
         (∀ m : Nat, m ≠ n → t.engine m = s.engine m) ∧ Keeps [.engines] s t)) ∧
   (∀ (n p : Nat) (s : State), s.shadowedPort n = some p →
     ∃ t : State, exec (.portIntegrated n) s = .next t ∧ (t.port p).spareReady = true ∧ Keeps [.ports] s t) ∧
   (∀ (n : Nat) (s : State),
     ∃ t : State, exec (.protocolExceptionExit n) s = .next t ∧ (t.engine n).pex = false ∧ (t.engine n).st = (s.engine n).st ∧
       (∀ m : Nat, m ≠ n → t.engine m = s.engine m) ∧ Keeps [.engines] s t) ∧
   (∀ (n p : Nat) (s : State), s.portOf n = some p → (s.engine n).st = .stopping → (s.engine n).startHeld = false →
     (s.port p).rxFrame = none → (s.port p).onBus = none → (s.port p).shadow = none →
     ∃ t : State, exec (.portStopComplete n) s = .next t ∧ (t.engine n).st = .stopped ∧
       Keeps (andBell [.engines, .ports, .cells, .rings]) s t) ∧
   (∀ (p : Nat) (s : State), (s.port p).held = true → s.portUp p = false → (s.engine (s.serving p)).st ≠ .stopping →
     (s.port p).queues.length = 4 →
     ∃ t : State, exec (.portHoldExpire p) s = .next t ∧ (t.port p).held = false ∧ (t.port p).queuesEmpty = true ∧
       t.time.now = max s.time.now ((s.port p).heldSince + 1000000 * s.fld (Reg.drayPortCtl p) 16 8) ∧
       Keeps (andBell [.clock, .ports, .cells, .rings]) s t)) ∧
  ((∀ (port : Nat) (s : State), (s.engine (s.serving port)).boWait = true → (s.engine (s.serving port)).boPolicy = 1 →
     ∃ t : State, exec (.boDelayExpire port) s = .next t ∧ (t.engine (s.serving port)).boMonitor = true ∧
       (t.engine (s.serving port)).boWait = false ∧ (t.engine (s.serving port)).tec = (s.engine (s.serving port)).tec ∧
       t.time.now = max s.time.now (s.engine (s.serving port)).boUntil ∧
       (∀ n : Nat, n ≠ s.serving port → t.engine n = s.engine n) ∧ Keeps [.clock, .engines] s t) ∧
   (∀ (port k : Nat) (s : State), (s.engine (s.serving port)).busOff = true →
     (s.engine (s.serving port)).boMonitor = true →
     ((s.engine (s.serving port)).recov + k < 128 →
       ∃ t : State, exec (.busOffRecovery port k) s = .next t ∧ (t.engine (s.serving port)).busOff = true ∧
         (t.engine (s.serving port)).recov = (s.engine (s.serving port)).recov + k ∧
         (∀ n : Nat, n ≠ s.serving port → t.engine n = s.engine n) ∧ Keeps [.engines] s t) ∧
     (128 ≤ (s.engine (s.serving port)).recov + k →
       ∃ t : State, exec (.busOffRecovery port k) s = .next t ∧ (t.engine (s.serving port)).busOff = false ∧
         (t.engine (s.serving port)).tec = 0 ∧ (t.engine (s.serving port)).rxErr = 0 ∧
         (∀ n : Nat, n ≠ s.serving port → t.engine n = s.engine n) ∧ Keeps (andBell [.engines]) s t)) ∧
   (∀ (p : Path) (n : Nat) (val : Word) (s : State), n < 136 → canWrite s p (Reg.portCmd n) val = true → val.bit 0 = true →
     (s.engine n).busOff = true → (s.engine n).boWait = true → (s.engine n).boPolicy = 1 ∨ (s.engine n).boPolicy = 2 →
     ∃ t : State, exec (.portCmdRecover p n val) s = .next t ∧ (t.engine n).boMonitor = true ∧ (t.engine n).boWait = false ∧
       (t.engine n).tec = (s.engine n).tec ∧ (∀ m : Nat, m ≠ n → t.engine m = s.engine m) ∧
       Keeps [.engines, .locks, .parity] s t))

/-! ## The time base (R31, R84, R210, R348, R482) -/

/-- The oldest TIME_SET that is not at PPS takes effect, 1 ms after the previous step where that is still to come: an absolute
one makes TAI the value, a step adds the value to the offset, and SET reads 1. The oldest TIME_SET at PPS that has waited 1.5
s is given up, and the offset stays. The selected edge of PPS_IN is captured: PPS_CAPTURE takes TAI, and with PPS_EN = 1
PPS_LOST reads 0 and the edge is the reference of the next interval. Where no TIME_SET waits for an edge the offset stays; the
oldest one that does, absolute, takes effect there where a step is allowed. With PPS_EN = 1, PPS_LOST reads 1 and the
discipline starts over 1.5 s after the last edge, or after the commit of PPS_EN where none has been captured. (R210, R348,
R84, R348, R482.) -/
def Obligations.TimeBase : Prop :=
  (∀ (q : TimeReq) (s : State),
     (s.time.requests.find? (fun x => !x.atPps) = some q → q.step = false →
       ∃ t : State, exec .timeSetApply s = .next t ∧ t.time.set = true ∧ t.time.stepAt = some t.time.now ∧ t.tai = q.value ∧
         t.time.now = max s.time.now (match s.time.stepAt with | some n => n + 1000000 | none => s.time.now) ∧
         t.time.prevOffset = s.time.offset ∧
         Keeps (andBell [.clock, .tai, .epoch, .freeze, .staged, .held, .parity, .watch, .subs, .crier, .lock, .rings]) s t) ∧
     (s.time.requests.find? (fun x => !x.atPps) = some q → q.step = true →
       ∃ t : State, exec .timeSetApply s = .next t ∧ t.time.set = true ∧ t.time.offset = s.time.offset + q.value.toInt ∧
         Keeps (andBell [.clock, .tai, .epoch, .freeze, .staged, .held, .parity, .watch, .subs, .crier, .lock, .rings]) s t) ∧
     (s.time.requests.find? (fun x => x.atPps) = some q →
       ∃ t : State, exec .timeSetTimeout s = .next t ∧ t.time.offset = s.time.offset ∧ q ∉ t.time.requests ∧
         t.time.now = max s.time.now (q.since + 1500000000) ∧ Keeps (andBell [.clock, .tai, .rings, .lock]) s t)) ∧
  ((∀ (rising : Bool) (s : State), (rising != s.flag Reg.sysTimeCtl 1) = true →
     (s.time.requests.find? (fun q => q.atPps) = none →
       ∃ t : State, exec (.ppsEdge rising) s = .next t ∧ t.time.ppsCapture = s.tai ∧ t.time.ppsLast = some s.time.now ∧
         t.time.offset = s.time.offset ∧ (s.flag Reg.sysTimeCtl 0 = true → t.time.ppsLost = false ∧ t.time.ppsRef = true) ∧
         Keeps [.tai] s t) ∧
     (∀ q : TimeReq, s.time.requests.find? (fun q => q.atPps) = some q → q.step = false → s.stepAllowed = true →
       ∃ t : State, exec (.ppsEdge rising) s = .next t ∧ t.tai = q.value ∧ t.time.set = true ∧ q ∉ t.time.requests ∧
         Keeps (andBell [.epoch, .freeze, .tai, .staged, .held, .parity, .watch, .subs, .crier, .lock, .rings]) s t)) ∧
   (∀ s : State, s.flag Reg.sysTimeCtl 0 = true → s.time.ppsLost = false →
     ∃ t : State, exec .ppsLost s = .next t ∧ t.time.ppsLost = true ∧ t.time.ppsUsed = 0 ∧ t.time.ppsRef = false ∧
       t.time.now = max s.time.now (s.time.ppsBase + 1500000000) ∧ Keeps [.clock, .tai] s t))

/-! ## Port engines (R85 to R121) -/

/-- An error of type stuff, form, ACK, bit or CRC, outside the XL data phase, met by the engine of a port that no spare
shadows and that acts in MODE 0, adds 8 to TEC where the engine transmits and 1 to REC where it receives, and is recorded in
LAST_ERR with its type and role; here from counts that stay within 255. A transmitter whose TEC passes 255 is bus-off. The
error of a class packet on the bus, that no drop command named and RETX_LIMIT allows another attempt, takes it off the bus and
counts the attempt. An error flag goes out, active or passive as the engine's error state is. The end of a received frame
frees its port's receiver, whatever the verdict; where the port acts in MODE 0 or MODE 2 and the frame was correct, or correct
up to its ACK slot, an acknowledgement goes out last. A successful transmission frees the port's transmitter, and where no
spare shadows the port lowers TEC by 1, to 0 at the least. A lost arbitration, outside MODE 3, frees the transmitter and is
counted. (R95, R97 to R99, R108, R109, R95, R103, R104, R107, R120, R490.) -/
def Obligations.BusErrorsAndEndings : Prop :=
  (∀ (p : Nat) (e : BusErr) (ph : BitPhase) (loop : Option Nat) (sv : ShadowView) (s : State),
     let n := s.serving p
     let g := s.engine n
     e ∈ [BusErr.stuff, .form, .ack, .bitRecessive, .bitDominant, .crc] → ph ≠ .xlData → g.takesPart = true → s.seesBus p = true →
     s.actingMode p = 0 → (s.port p).shadow = none → g.tec ≤ 255 → g.rxErr < 255 →
     ((s.port p).onBus = none → g.tec + 8 ≤ 255 →
       ∃ t : State, exec (.busError p e true ph loop sv) s = .next t ∧ (t.engine n).tec = g.tec + 8 ∧
         (t.engine n).rxErr = g.rxErr ∧ t.out.head? = some (.errorFlag p g.passive) ∧ Keeps (faultParts ++ [.xcvr]) s t) ∧
     ((s.port p).onBus = none → 255 < g.tec + 8 → g.st = .running →
       ∃ t : State, exec (.busError p e true ph loop sv) s = .next t ∧ (t.engine n).busOff = true ∧
         Keeps (faultParts ++ [.xcvr]) s t) ∧
     (g.tec + 8 ≤ 255 →
       ∃ t : State, exec (.busError p e false ph loop sv) s = .next t ∧ (t.engine n).tec = g.tec ∧
         (t.engine n).rxErr = g.rxErr + 1 ∧ (t.engine n).lastErr.field 0 3 = busErrCode e ∧
         (t.engine n).lastErr.bit 5 = false ∧ t.out.head? = some (.errorFlag p g.passive) ∧
         Keeps (faultParts ++ [.xcvr]) s t) ∧
     (∀ (c : Nat) (k : Packet) (r : List Packet), (s.port p).onBus = some (.cls c) → (s.port p).queue c = k :: r →
       (s.port p).queues.length = 4 → k.dropNext = false → g.tec + 8 ≤ 255 → g.heldWords = [] → s.portUp p = true →
       (s.fld (Reg.portCtl n) 12 4 = 0 ∨ k.attempts + 1 < s.fld (Reg.portCtl n) 12 4) →
       ∃ t : State, exec (.busError p e true ph loop sv) s = .next t ∧ (t.port p).onBus = none ∧
         (t.port p).queue c = { k with attempts := k.attempts + 1 } :: r ∧ (t.engine n).tec = g.tec + 8 ∧
         Keeps (faultParts ++ [.xcvr]) s t)) ∧
  ((∀ (p fid : Nat) (v : RxVerdict) (toAck : Bool) (sv : ShadowView) (s : State), (s.port p).rxFrame = some fid →
     ∃ t : State, exec (.rxFrameEnd p v sv toAck) s = .next t ∧ (t.port p).rxFrame = none ∧
       ((rxCorrect v = true ∨ toAck = true) → s.actingMode p = 0 ∨ s.actingMode p = 2 → t.out.head? = some (.ack p)) ∧
       Keeps (faultParts ++ [.xcvr]) s t) ∧
   (∀ (p mtq : Nat) (sv : ShadowView) (s : State), (s.port p).onBus.isSome = true → (s.busFrame? p).isSome = true →
     ∃ t : State, exec (.txSuccess p mtq sv) s = .next t ∧ (t.port p).onBus = none ∧
       ((s.port p).shadow = none → (t.engine (s.serving p)).tec = (s.engine (s.serving p)).tec - 1) ∧
       Keeps (faultParts ++ [.xcvr]) s t) ∧
   (∀ (p : Nat) (o : OnBus) (s : State), (s.port p).onBus = some o → s.modeOf (s.serving p) ≠ 3 →
     (o = .lane → (s.port p).lane.isSome = true) →
     ∃ t : State, exec (.arbLost p) s = .next t ∧ (t.port p).onBus = none ∧
       t.counter (Reg.portArbLost (s.serving p)) = satAdd (s.counter (Reg.portArbLost (s.serving p))) 1 ∧
       Keeps (andBell [.ports, .frames, .rings, .cells]) s t))

/-- A header that the engine of a port receives, with nothing of the port's own on the bus and no other frame under way: of an
enabled format it enters flight as the port's frame, with the SOF timestamp of its SOF edge; of a format that is not enabled
it is a protocol exception where PEX is on, counted, and a form error where PEX is off, counted, and no frame enters flight.
What the settings are for the frame is what frameBegins leaves. (R26, R88, R89, R104, R110.) -/
def Obligations.HeadersEnterFlight : Prop :=
  ∀ (p ago : Nat) (f : BusFrame) (s : State), s.receives p = true → (s.port p).rxFrame = none → (s.port p).onBus = none →
    let n := s.serving p
    let sof : Int := (s.time.now : Int) - ago
    let u := s.frameBegins p sof
    ((u.engine n).enables f.fmt = true →
      ∃ t : State, exec (.rxHeader p f ago) s = .next t ∧ (t.port p).rxFrame = some s.nextFrame ∧ t.nextFrame = s.nextFrame + 1 ∧
        t.frame? s.nextFrame = some (s.newFrame p f (u.stampAt p sof)) ∧
        Keeps (andBell [.engines, .ports, .xcvr, .frames, .rings, .cells]) s t) ∧
    ((u.engine n).enables f.fmt = false → (u.portWord n (Reg.portCtl n)).bit 6 = true →
      ∃ t : State, exec (.rxHeader p f ago) s = .next t ∧ (t.engine n).pex = true ∧ (t.port p).rxFrame = none ∧
        t.counter (Reg.portPex n) = satAdd (s.counter (Reg.portPex n)) 1 ∧ t.nextFrame = s.nextFrame ∧
        Keeps (andBell [.engines, .ports, .xcvr, .frames, .rings, .cells]) s t) ∧
    ((u.engine n).enables f.fmt = false → (u.portWord n (Reg.portCtl n)).bit 6 = false →
      ∃ t : State, exec (.rxHeader p f ago) s = .next t ∧ (t.port p).rxFrame = none ∧
        t.counter (Reg.portErrForm n) = satAdd (s.counter (Reg.portErrForm n)) 1 ∧ t.nextFrame = s.nextFrame ∧
        Keeps (andBell [.engines, .ports, .xcvr, .frames, .rings, .cells]) s t)

/-- With a port up whose engine takes part, nothing on its bus, no lane copy, no setting waiting for the end of a frame, and
one closed packet that may be sent at the head of one class: the choice starts that packet, which stays at the head of its
queue; the frame on the bus is the packet's, but in MODE 3 none goes out. A self-abort, whether its cause is an invalid
ingress frame or an empty lane, frees the lane and the bus of its port, and an active error flag goes out. (R100, R107, R284,
R285, R116, R118, R119.) -/
def Obligations.ChoicesAndSelfAborts : Prop :=
  (∀ (p c : Nat) (k : Packet) (r : List Packet) (s : State), s.portUp p = true → (s.port p).onBus = none →
     (s.port p).rxFrame = none → (s.engine (s.serving p)).takesPart = true → (s.engine (s.serving p)).heldWords = [] →
     (s.port p).lane = none → c < 4 →
     (s.port p).queues.length = 4 → (s.port p).queue c = k :: r → (∀ d : Nat, d ≠ c → (s.port p).queue d = []) →
     k.closed = true → k.abandon = false → s.expired k = false → (s.engine (s.serving p)).enables k.fmt = true →
     ∃ t : State, exec (.txChoice p) s = .next t ∧ (t.port p).onBus = some (.cls c) ∧ (t.port p).sofAt = s.time.now ∧
       (t.port p).queue c = k :: r ∧
       (s.actingMode p ≠ 3 → .frame p (s.packetFrame p k) ∈ t.out) ∧
       (s.actingMode p = 3 → ∀ f : BusFrame, .frame p f ∈ t.out → .frame p f ∈ s.out) ∧
       Keeps (andBell [.ports, .engines]) s t) ∧
  (∀ (p : Nat) (ph : BitPhase) (loop : Option Nat) (sv : ShadowView) (l : LaneCopy) (f : Machine.Frame) (c : Copy) (s : State),
     (s.port p).onBus = some .lane → s.laneCopy? p = some (l, f, c) →
     (f.dead = true →
       ∃ t : State, exec (.selfAbort p ph loop sv) s = .next t ∧ (t.port p).lane = none ∧ (t.port p).onBus = none ∧
         t.out.head? = some (.errorFlag p false) ∧ Keeps (faultParts ++ [.xcvr]) s t) ∧
     (∃ t : State, exec (.ctUnderrun p ph loop sv) s = .next t ∧ (t.port p).lane = none ∧ (t.port p).onBus = none ∧
       t.out.head? = some (.errorFlag p false) ∧ Keeps (faultParts ++ [.xcvr]) s t))

/-! ## Transceivers and the Fireguard (R122 to R146) -/

/-- At bus idle a committed MODE that differs from the one in effect takes effect, and a committed STB takes effect; the
transceiver's mode change has settled 20 µs after it began, at that instant. A VBUS supply below its lower threshold puts its
bank in undervoltage, one above its upper threshold takes it out, and in between the bank stays as it is; below 2.7 V the bank
is unpowered. An I/O supply below its threshold makes its bank unpowered, and from the threshold on powered. The other banks
stay as they are. (R124, R142, R128, R129.) -/
def Obligations.ModesAndSupplies : Prop :=
  ((∀ (p : Nat) (s : State), s.busIdle p = true → ipModeOf (s.fld (Reg.xcvrIpCtl p) 0 3) ≠ (s.ip p).modeEff →
     ∃ t : State, exec (.xcvrModeEffect p) s = .next t ∧ (t.ip p).modeEff = ipModeOf (s.fld (Reg.xcvrIpCtl p) 0 3) ∧
       (t.ip p).settleAt = some (s.time.now + 20000) ∧ (∀ q : Nat, q ≠ p → t.ip q = s.ip q) ∧
       Keeps (andBell [.xcvr, .ports, .cells, .rings]) s t) ∧
   (∀ (p at' : Nat) (s : State), (s.ip p).settleAt = some at' →
     ∃ t : State, exec (.xcvrSettled p) s = .next t ∧ (t.ip p).settleAt = none ∧ (t.ip p).modeEff = (s.ip p).modeEff ∧
       t.time.now = max s.time.now at' ∧ Keeps [.clock, .xcvr] s t) ∧
   (∀ (p : Nat) (s : State), s.busIdle p = true →
     ∃ t : State, exec (.lpStbEffect p) s = .next t ∧
       t.xcvr.stbLow = (if s.flag (Reg.xcvrLpCtl p) 0 then setErase p s.xcvr.stbLow else setInsert p s.xcvr.stbLow) ∧
       Keeps (andBell [.xcvr, .ports, .cells, .rings]) s t)) ∧
  ((∀ (b mv : Nat) (s : State), b < 4 → s.xcvr.uv.length = 4 → s.xcvr.unpowered.length = 4 →
     ∃ t : State, exec (.vbusUndervoltage b mv) s = .next t ∧
       (mv < uvAssertMv b → t.xcvr.uv[b]? = some true) ∧
       (uvAssertMv b ≤ mv → uvClearMv b < mv → t.xcvr.uv[b]? = some false) ∧
       (uvAssertMv b ≤ mv → mv ≤ uvClearMv b → t.xcvr.uv[b]? = s.xcvr.uv[b]?) ∧
       t.xcvr.unpowered[b]? = some (decide (mv < 2700)) ∧
       (∀ a : Nat, a ≠ b → t.xcvr.uv[a]? = s.xcvr.uv[a]? ∧ t.xcvr.unpowered[a]? = s.xcvr.unpowered[a]?) ∧
       Keeps (andBell [.xcvr, .ports, .cells, .rings]) s t) ∧
   (∀ (b mv : Nat) (s : State), b < 12 → s.xcvr.lUnpowered.length = 12 →
     ∃ t : State, exec (.violUnpowered b mv) s = .next t ∧ t.xcvr.lUnpowered[b]? = some (decide (mv < violMv b)) ∧
       (∀ a : Nat, a ≠ b → t.xcvr.lUnpowered[a]? = s.xcvr.lUnpowered[a]?) ∧
       Keeps (andBell [.xcvr, .ports, .cells, .rings]) s t))

/-- A sample joins the window's energy, whose window is fgWindow. At or below the limit nothing else changes of the trip;
above it a driver that has not tripped trips: its cool-down ends COOL later and the trips of the sequence are counted. A
cool-down ends at its instant, and the driver stays tripped; once it has ended, and where it did not latch, a retry at bus
idle clears the trip and the window; FG_CLEAR of a latched port takes the latch and the sequence away, and its driver has
cooled. (R130, R131, R133.) -/
def Obligations.Fireguard : Prop :=
  (∀ (p mv ua : Nat) (s : State),
    let w := ((s.ip p).addSample (sampleEnergy mv ua)).energy
    (w ≤ 1000 * s.fld (Reg.xcvrFgCtl p) 32 11 →
      ∃ t : State, exec (.fgSample p mv ua) s = .next t ∧ (t.ip p).energy = w ∧ (t.ip p).tripped = (s.ip p).tripped ∧
        Keeps [.xcvr] s t) ∧
    (1000 * s.fld (Reg.xcvrFgCtl p) 32 11 < w → (s.ip p).tripped = false →
      ∃ t : State, exec (.fgSample p mv ua) s = .next t ∧ (t.ip p).tripped = true ∧
        (t.ip p).coolUntil = s.time.now + 1000000 * s.fld (Reg.xcvrFgCtl p) 16 14 ∧
        (t.ip p).tripSeq = (s.ip p).nextTripSeq s.time.now ∧
        Keeps (andBell [.engines, .ports, .xcvr, .frames, .rings, .cells, .free]) s t)) ∧
  (∀ (p : Nat) (s : State), (s.ip p).tripped = true → (s.ip p).cooled = false →
    ∃ t : State, exec (.fgCoolExpire p) s = .next t ∧ (t.ip p).cooled = true ∧ (t.ip p).tripped = true ∧
      t.time.now = max s.time.now (s.ip p).coolUntil ∧ Keeps (andBell [.clock, .xcvr]) s t) ∧
  (∀ (p : Nat) (s : State), (s.ip p).tripped = true → (s.ip p).cooled = true → (s.ip p).latched = false →
    s.busIdle p = true →
    ∃ t : State, exec (.fgRetry p) s = .next t ∧ (t.ip p).tripped = false ∧ (t.ip p).energy = 0 ∧
      (t.ip p).lastRetry = some s.time.now ∧ (∀ q : Nat, q ≠ p → t.ip q = s.ip q) ∧ Keeps [.xcvr] s t) ∧
  (∀ (w : Path) (val : Word) (s : State), canWrite s w Reg.xcvrCmd val = true → val.bit 16 = true → val.bit 17 = false →
    val.field 0 8 < 32 → (s.ip (val.field 0 8)).latched = true →
    ∃ t : State, exec (.fgClear w val) s = .next t ∧ (t.ip (val.field 0 8)).latched = false ∧
      (t.ip (val.field 0 8)).tripSeq = 0 ∧ (t.ip (val.field 0 8)).cooled = true ∧
      (∀ q : Nat, q ≠ val.field 0 8 → t.ip q = s.ip q) ∧ Keeps [.xcvr, .locks, .parity] s t)

/-! ## Handovers (R147 to R164) -/

/-- While no microcode roll and no Tinker test is under way and a spare shadows a port. In the intermission after a proving
frame, with the serving engine not bus-off, the copy is taken and the spare goes on shadowing. Once the copy is taken: with no
overload the spare serves the port, whose class queues stay, and no spare shadows it, with result 1; with an overload the copy
is given up, which is counted, and the serving engine serves on. A spare that no frame has proved in the time allowed is let
go, with result 4, and the serving engine serves on. (R156 to R158.) -/
def Obligations.Takeover : Prop :=
  ∀ (p n : Nat) (s : State), (s.port p).shadow = some n → s.sys.roll ≠ 1 → s.tink.tests = [] →
    ((s.port p).phase = 1 → (s.port p).proved = true → (s.engine (s.port p).serving).busOff = false →
      ∃ t : State, exec (.takeoverCopy p) s = .next t ∧ (t.port p).phase = 2 ∧ (t.port p).shadow = some n ∧
        (∀ q : Nat, q ≠ p → t.port q = s.port q) ∧ Keeps [.ports] s t) ∧
    ((s.port p).phase = 2 →
      ∃ t : State, exec (.takeoverSwitch p false) s = .next t ∧ t.serving p = n ∧ (t.port p).shadow = none ∧
        (t.port p).result = 1 ∧ (t.port p).queues = (s.port p).queues ∧
        Keeps (andBell [.engines, .ports, .scriv, .lock, .srcs, .tink, .firmware, .flash]) s t) ∧
    ((s.port p).phase = 2 →
      ∃ t : State, exec (.takeoverSwitch p true) s = .next t ∧ (t.port p).phase = 1 ∧ t.serving p = s.serving p ∧
        t.counter Reg.xbarHoOverload = satAdd (s.counter Reg.xbarHoOverload) 1 ∧ Keeps [.ports, .counters] s t) ∧
    ((s.port p).phase = 1 → (s.port p).everProved = false →
      ∃ t : State, exec (.hoTimeout p) s = .next t ∧ (t.port p).shadow = none ∧ t.serving p = s.serving p ∧
        (t.port p).result = 4 ∧ t.time.now = max s.time.now (s.port p).hoUntil ∧
        Keeps (andBell [.clock, .engines, .ports, .scriv, .lock, .srcs, .tink, .firmware, .flash]) s t)

/-! ## Watches (R207 to R233) -/

/-- A visit that meets no ECC error moves the sweep on by one group of 16 indices, and so lowers by one the groups not checked
since the last swap. A sweep that has visited all groups completes: the next begins at that instant, with no stall, and a
sweep that began after the cut is on record. A sweep that has not stalled yet stalls 50 µs after it began, or at once where
that has passed. Before the first swap, at the visit of a watch's group: a FRESH watch whose last refresh lies further back
than its window is STALE from that instant, and one whose last refresh does not stays FRESH. (R211, R213, R212, R215.) -/
def Obligations.SweepsAndDeadlines : Prop :=
  ((∀ s : State, s.watch.fenced = false → s.watch.sweepPos < 16384 →
     ∃ t : State, exec (.sweepVisit []) s = .next t ∧ t.watch.sweepPos = s.watch.sweepPos + 1 ∧
       t.watch.uncheckedLeft = s.watch.uncheckedLeft - 1 ∧ Keeps [.watch, .counters] s t) ∧
   (∀ s : State, s.watch.fenced = false → 16384 ≤ s.watch.sweepPos →
     ∃ t : State, exec .sweepComplete s = .next t ∧ t.watch.sweepPos = 0 ∧ t.watch.sweepBegan = s.time.now ∧
       t.watch.stalled = false ∧ t.watch.cutSwept = (s.watch.cutSwept || s.watch.sweepAfterCut) ∧ Keeps [.watch] s t) ∧
   (∀ s : State, s.watch.fenced = false → s.watch.stalled = false →
     ∃ t : State, exec .sweepStall s = .next t ∧ t.watch.stalled = true ∧
       t.time.now = max s.time.now (s.watch.sweepBegan + 50000) ∧ Keeps (faultParts ++ [.clock]) s t)) ∧
  (∀ (k : Nat) (x : Int) (s : State), s.watch.fenced = false → s.watch.sweepPos < 16384 → k < 16 → s.watch.swapNo = 0 →
     let w := 16 * s.watch.sweepPos + k
     (s.watchOf w).st = 1 → (s.watchOf w).tLast = some x →
     ((x + ((s.bank s.gen.activeGen).entry w).window < s.time.now →
       ∃ t : State, exec (.sweepVisit []) s = .next t ∧ (t.watchOf w).st = 2 ∧ (t.watchOf w).staleAt = some (s.time.now : Int) ∧
         Keeps [.watch, .counters] s t) ∧
     ((s.time.now : Int) ≤ x + ((s.bank s.gen.activeGen).entry w).window →
       ∃ t : State, exec (.sweepVisit []) s = .next t ∧ (t.watchOf w).st = 1 ∧ Keeps [.watch, .counters] s t)))

/-- The walk at the head of the queue, while the Watchman is not fenced: with a further op word to come it moves on by one. A
deadline walk whose op word is a SIGNAL op, while the Crier has nothing of the cut set to read, turns the op's record STALE
with cause 0, keeping value and stamp, where the record is FRESH or INVALID, of the walk's watch and stamped no later than the
cutoff; a record whose stamp lies after the cutoff stays as it is. With its last op word, not a SIGNAL op, and no other walk
of its watch pending, the walk leaves the queue, and the watch is NEVER where it has no refresh. (R215 to R217.) -/
def Obligations.Walks : Prop :=
  ∀ (k : Walk) (r : List Walk) (s : State), s.watch.walks = k :: r → s.watch.fenced = false → k.pos < k.opCount →
    let op := s.opWord (k.opBase + k.pos)
    let i := op.field 0 23
    (k.pos + 1 < k.opCount →
      ∃ t : State, exec .walkOp s = .next t ∧ t.watch.walks = { k with pos := k.pos + 1, begun := true } :: r ∧
        Keeps (faultParts ++ [.records, .cellar]) s t) ∧
    (k.kind = .deadline → op.field 62 2 = 0 → s.crier.cutSet = [] →
      ((s.recOf i).state = qFresh ∨ (s.recOf i).state = qInvalid → (s.recOf i).lastWatch = k.watch →
        (s.recOf i).stamp.toNat ≤ k.cutoff.toNat →
        ∃ t : State, exec .walkOp s = .next t ∧ (t.recOf i).state = qStale ∧ (t.recOf i).cause = 0 ∧
          (t.recOf i).value = (s.recOf i).value ∧ (t.recOf i).stamp = (s.recOf i).stamp ∧
          Keeps (faultParts ++ [.records, .cellar]) s t) ∧
      (k.cutoff.toNat < (s.recOf i).stamp.toNat →
        ∃ t : State, exec .walkOp s = .next t ∧ t.scriv.records = s.scriv.records ∧ Keeps [.watch, .scriv, .counters] s t)) ∧
    (k.opCount = k.pos + 1 → op.field 62 2 ≠ 0 → r.all (fun q => q.watch != k.watch) = true →
      (s.watchOf k.watch).tLast = none →
      ∃ t : State, exec .walkOp s = .next t ∧ t.watch.walks = r ∧ (t.watchOf k.watch).st = 0 ∧ Keeps [.watch] s t)

/-- A write of WSEL captures four words of the watch, the first of which shows its state, and changes no watch. A write of
REC_SEL captures the four words of a record, and changes no record. A write of HASH_IN makes HASH_OUT show the bucket of the
stream it names. (R179, R206, R233.) -/
def Obligations.Captures : Prop :=
  ∀ (p : Path) (val : Word) (s : State),
    (canWrite s p Reg.watchWsel val = true →
      ∃ t : State, exec (.watchWsel p val) s = .next t ∧ t.watch.captured.length = 4 ∧
        t.watch.captured.head?.map (fun x => x.field 0 2) = some ((s.watchOf (val.field 0 18)).st % 4) ∧
        t.watch.states = s.watch.states ∧ Keeps [.watch, .inForce, .locks, .parity] s t) ∧
    (canWrite s p Reg.scrivRecSel val = true →
      ∃ t : State, exec (.scrivRecSel p val) s = .next t ∧
        t.scriv.recPeek = [(s.recOf (val.field 0 23)).value, (s.recOf (val.field 0 23)).stamp,
          (s.recOf (val.field 0 23)).stateWord, (s.recOf (val.field 0 23)).pubVal] ∧
        t.scriv.records = s.scriv.records ∧ Keeps [.scriv, .inForce, .locks, .parity, .counters] s t) ∧
    (canWrite s p Reg.scrivHashIn val = true →
      ∃ t : State, exec (.scrivHashIn p val) s = .next t ∧
        t.scriv.hashOut = some (streamBucket (val.field 29 7) (val.field 0 29)) ∧
        Keeps [.scriv, .inForce, .locks, .parity] s t)

/-- While the Crier has nothing of the cut set to read, for a plain record whose signal is not persistent and that is a source
of no vote: FORCE gives it the value of FORCE_VAL with state FORCED, cause 0, the hand mark and the TAI, and it joins the
records changed since the cut; RELEASE makes one that was forced by hand STALE without the mark, keeping its value. No other
record changes. A write of both is ignored and counted in BAD_ACCESS. (R224, R225.) -/
def Obligations.Forces : Prop :=
  ∀ (p : Path) (val : Word) (s : State),
    let i := s.fld Reg.watchForceSel 0 23
    canWrite s p Reg.watchForceCmd val = true → s.crier.cutSet = [] → s.atCut = false →
    Desc.nsrc ((s.bank s.gen.activeGen).desc (i - i % 8)) = 0 →
    Desc.pclass ((s.bank s.gen.activeGen).desc i) = 0 → Desc.nsrc ((s.bank s.gen.activeGen).desc i) = 0 →
    (val.bit 0 = true → val.bit 1 = false →
      ∃ t : State, exec (.forceCmdForce p val) s = .next t ∧ (t.recOf i).value = s.reg Reg.watchForceVal ∧
        (t.recOf i).state = qForced ∧ (t.recOf i).cause = 0 ∧ (t.recOf i).hand = true ∧ (t.recOf i).stamp = s.tai ∧
        i ∈ t.crier.changed ∧ (∀ j : Nat, j ≠ i → t.recOf j = s.recOf j) ∧
        Keeps [.records, .scriv, .crier, .counters, .locks, .parity] s t) ∧
    (val.bit 0 = false → val.bit 1 = true → (s.recOf i).state = qForced → (s.recOf i).hand = true →
      ∃ t : State, exec (.forceCmdRelease p val) s = .next t ∧ (t.recOf i).state = qStale ∧ (t.recOf i).hand = false ∧
        (t.recOf i).value = (s.recOf i).value ∧ (∀ j : Nat, j ≠ i → t.recOf j = s.recOf j) ∧
        Keeps [.records, .scriv, .crier, .counters, .locks, .parity] s t) ∧
    (val.bit 0 = true → val.bit 1 = true →
      ∃ t : State, exec (.forceCmdForce p val) s = .next t ∧
        t.counter Reg.genBadAccess = satAdd (s.counter Reg.genBadAccess) 1 ∧ Keeps [.counters, .locks, .parity] s t)

/-! ## Lookup, decode, commit (R16 to R20, R165 to R206) -/

/-- A lookup of a frame without a verdict marks it looked up in the active generation. Where no slot it reads is in error, a
key that is found gives the frame its watch, and a key that is not leaves it without one. Where a slot of the key's is found
in error in this lookup, the frame is lost and no longer decodes, the lookup is counted in ECC_FAIL, and the slot stays in
error. (R16, R170, R173.) -/
def Obligations.Lookups : Prop :=
  ∀ (fid : Nat) (f : Machine.Frame) (s : State), s.frame? fid = some f → f.looked = false →
    f.verdict = none → s.cellar.pfail = false →
    let key := f.f.keyWord f.port (s.flag (Reg.watchPortCtl f.port) 2)
    ((s.bank s.gen.activeGen).slotError key = false →
      (∀ (w : Nat) (st : Bool), (s.bank s.gen.activeGen).lookup key = some (w, st) →
        ∃ (t : State) (g : Machine.Frame), exec (.lookup fid none) s = .next t ∧ t.frame? fid = some g ∧ g.looked = true ∧
          g.watch = some w ∧ g.gen = s.gen.activeGen ∧ g.f = f.f ∧ Keeps (faultParts ++ [.storeroom]) s t) ∧
      ((s.bank s.gen.activeGen).lookup key = none → f.watch = none →
        ∃ (t : State) (g : Machine.Frame), exec (.lookup fid none) s = .next t ∧ t.frame? fid = some g ∧ g.looked = true ∧
          g.watch = none ∧ g.gen = s.gen.activeGen ∧ g.f = f.f ∧ Keeps (faultParts ++ [.storeroom]) s t)) ∧
    (∀ x : Nat × Bool, x ∈ (s.bank s.gen.activeGen).slots key →
      ∃ (t : State) (g : Machine.Frame), exec (.lookup fid (some x.1)) s = .next t ∧ t.frame? fid = some g ∧ g.looked = true ∧
        g.eccLost = true ∧ g.committed = true ∧ x.1 ∈ (t.bank s.gen.activeGen).badSlots ∧
        t.counter Reg.watchEccFail = satAdd (s.counter Reg.watchEccFail) 1 ∧ Keeps (faultParts ++ [.storeroom]) s t)

/-- A frame that may decode executes its next op: it moves on by one op, counted for its pipeline, and an unconditional SIGNAL
op adds one result. The commit of a valid, unsealed frame of the active generation that has no result left, before the first
swap, refreshes its watch with the frame's VALID time and the window of its entry, and ends the frame's decoding. While the
Crier has nothing of the cut set to read, for a record that is a source of no vote and is neither FRESH nor FORCED: the commit
of a FRESH result of a valid, unsealed frame writes the value, with the frame's VALID timestamp and watch, state FRESH and
cause 0. For a FORCED record the commit leaves the record as it is. No other record changes. (R20, R181 to R193, R208, R193.)
-/
def Obligations.DecodeAndCommit : Prop :=
  ((∀ (fid : Nat) (f : Machine.Frame) (s : State), s.frame? fid = some f → s.mayDecode fid f = true →
     let o : OpWord := s.opWord ((s.frameEntry f).opBase + f.opPos)
     ∃ (t : State) (g : Machine.Frame), exec (.decodeOp fid) s = .next t ∧ t.frame? fid = some g ∧ g.opPos = f.opPos + 1 ∧
       (o.opc = 0 → o.muxen = false → g.results = f.results ++ [s.signalResult f o]) ∧
       t.counter (Reg.scrivOps f.pipe) = satAdd (s.counter (Reg.scrivOps f.pipe)) 1 ∧ Keeps [.frames, .counters] s t) ∧
   (∀ (fid w : Nat) (f : Machine.Frame) (s : State), s.frame? fid = some f → f.watch = some w → f.looked = true →
     f.valid = true → f.committed = false → f.sealed = false → s.scriv.fenced.contains f.pipe = false →
     s.earlierInStream fid f (fun _ => true) = false →
     s.programDone f = true → f.badOp = false → f.results = [] → s.watch.fenced = false → s.watch.swapNo = 0 →
     f.gen = s.gen.activeGen →
     ∃ t : State, exec (.recordCommit fid) s = .next t ∧ (∀ g : Machine.Frame, t.frame? fid = some g → g.committed = true) ∧
       (t.watchOf w).tLast = some f.validAt ∧ (t.watchOf w).tLastTai = f.validTai ∧
       (t.watchOf w).deadline = f.validAt + ((s.bank f.gen).entry w).window ∧
       Keeps [.frames, .watch, .counters] s t)) ∧
  (∀ (fid w i : Nat) (v : Word) (r : List Result) (f : Machine.Frame) (s : State), s.frame? fid = some f →
     f.watch = some w → f.looked = true → f.valid = true → f.committed = false → f.sealed = false →
     s.scriv.fenced.contains f.pipe = false →
     s.earlierInStream fid f (fun _ => true) = false → s.programDone f = true → f.results = .value i v 0 :: r →
     s.crier.cutSet = [] → s.atCut = false → Desc.nsrc ((s.bank f.gen).desc (i - i % 8)) = 0 →
     ((s.recOf i).state ≠ qFresh → (s.recOf i).state ≠ qForced →
       ∃ t : State, exec (.recordCommit fid) s = .next t ∧ (t.recOf i).value = v ∧ (t.recOf i).state = qFresh ∧
         (t.recOf i).stamp = f.validTai ∧ (t.recOf i).lastWatch = w ∧ (t.recOf i).cause = 0 ∧ i ∈ t.crier.changed ∧
         (∀ j : Nat, j ≠ i → t.recOf j = s.recOf j) ∧ Keeps (faultParts ++ [.records, .cellar]) s t) ∧
     ((s.recOf i).state = qForced →
       ∃ t : State, exec (.recordCommit fid) s = .next t ∧ (∀ j : Nat, t.recOf j = s.recOf j) ∧
         Keeps (faultParts ++ [.records, .cellar]) s t))

/-- A fill that reads correctly brings the line into the Pantry and leaves every record as it is. One that cannot be
corrected, while the Crier has nothing of the cut set to read and neither record is a source of a vote, makes both records of
the line INVALID with cause LOST and the words as read. (R201, R202.) -/
def Obligations.PantryFills : Prop :=
  ∀ (line : Nat) (s : State), line < 0x400000 →
    (0 < s.pantryWays (line % 16384) →
      ∃ t : State, exec (.pantryLineFill line none) s = .next t ∧
        line ∈ Table.get (fun _ => []) t.scriv.pantry (line % 16384) ∧ t.scriv.records = s.scriv.records ∧
        Keeps [.scriv, .counters] s t) ∧
    (∀ v0 t0 v1 t1 : Word, s.crier.cutSet = [] → s.atCut = false →
      Desc.nsrc ((s.bank s.gen.activeGen).desc (2 * line - 2 * line % 8)) = 0 →
      ∃ t : State, exec (.pantryLineFill line (some (v0, t0, v1, t1))) s = .next t ∧
        (t.recOf (2 * line)).state = qInvalid ∧ (t.recOf (2 * line)).cause = 7 ∧ (t.recOf (2 * line)).value = v0 ∧
        (t.recOf (2 * line + 1)).state = qInvalid ∧ (t.recOf (2 * line + 1)).cause = 7 ∧ (t.recOf (2 * line + 1)).value = v1 ∧
        Keeps (faultParts ++ [.records, .cellar]) s t)

/-! ## Publication (R234 to R254) -/

/-- The only CLOSE that is due, of a RUNNING subscription whose ring carries it and has room, is written once a sweep begun
after the cut is complete and the Watchman and the Crier are not fenced: with the epoch's number, its TAI and the end of its
lease. SUBSCRIBE of the owner with one word, nothing staged, stages the word as its operation makes it of the bitmap's and
ends with OK and 1; the bitmaps stay. (R231, R238, R246, R251.) -/
def Obligations.Publication : Prop :=
  (∀ (i kind : Nat) (c : CloseInfo) (done : Bool) (s : State), i < 32 → s.watch.cutSwept = true → s.watch.fenced = false →
    s.cellar.pfail = false → (∀ j : Nat, j ≠ i → (s.sub j).closeDue = none) → (s.sub i).closeDue = some (c, kind, done) →
    (s.sub i).waitSpace = false → (s.sub i).st = .running → s.crier.fenced = false → s.subCarried i = true →
    0 < (s.subRing i).free →
    ∃ (t : State) (w : Word), exec .closeRecord s = .next t ∧ (t.sub i).closeDue = none ∧ (t.sub i).lastClosed = c.epoch ∧
      .ring (subEp i) (s.sub i).ring (s.subRing i).devPos
        [w, c.epoch, c.tai, c.tai + BitVec.ofNat 64 c.leaseNs] ∈ t.out ∧
      Keeps (andBell [.subs, .crier, .rings]) s t) ∧
  (∀ (c : CmdEntry) (v : Word) (s : State), runsCommand s c 3 = true → cmdHeadOk c 0 = true → c.w1.field 5 3 = 0 →
    c.w1.field 10 54 = 0 → c.w1.field 8 2 < 3 →
    c.w2.toNat < mapWords → c.w3 = 1 → wordsZero [c.w5, c.w6, c.w7] = true → s.crier.staged = [] →
    ∃ t : State, exec (.subscribe c (some [v])) s = .next t ∧ commandEnded s t c 0 0 1 ∧
      t.crier.staged = [(mapWords * c.w1.field 0 5 + c.w2.toNat,
        mapOp (c.w1.field 8 2) (s.mapWord (c.w1.field 0 5) c.w2.toNat) v)] ∧
      t.crier.bitmaps = s.crier.bitmaps ∧ Keeps (andBell [.rings, .bitmaps, .lock]) s t)

/-! ## Forwarding and transmission (R255 to R291, R349 to R360) -/

/-- A waiting copy of a valid, unsealed, looked-up frame to a port's class queues, with no earlier copy of the frame waiting
and not a fallback: judged without an outcome and not to be sealed, it is written at the tail of its class queue, closed, on
its chain of cells, and no other port changes; judged without an outcome and to be sealed, it joins what waits for a lane;
judged with an outcome, it ends with it and no port changes. The record of a capture copy that has space and whose frame has
its verdicts is completed: its last two words and then its length word are written at the places reserved for it, the ring
notes that the stretch is written, and the entry is counted. Without space the copy ends DOWN. (R258, R259, R265, R278, R282,
R296, R353, R354.) -/
def Obligations.Copies : Prop :=
  (∀ (fid i p : Nat) (f : Machine.Frame) (c : Copy) (s : State), s.frame? fid = some f → f.copies[i]? = some c →
     s.cellar.pfail = false → f.looked = true → f.valid = true → f.sealed = false → c.stage = .waiting → c.dest = .port p →
     (f.copies.take i).all (fun x => x.stage != .waiting) = true → c.fallback = false →
     (s.judgeCopy f c = none → c.eslot = none → c.cls < 4 → (s.port p).queues.length = 4 →
       ∃ (t : State) (k : Packet), exec (.copyPlacement fid i) s = .next t ∧ (t.port p).queue c.cls = (s.port p).queue c.cls ++ [k] ∧
         k.closed = true ∧ k.ident = c.ident ∧ k.fmt = c.fmt ∧ k.cells = c.chain f ∧ k.ingress = f.port ∧
         (∀ q : Nat, q ≠ p → t.port q = s.port q) ∧ Keeps (andBell [.ports, .frames]) s t) ∧
     (∀ slot : Nat, s.judgeCopy f c = none → c.eslot = some slot →
       ∃ t : State, exec (.copyPlacement fid i) s = .next t ∧ t.lock.waiting = s.lock.waiting ++ [(.copy fid i, slot)] ∧
         Keeps [.lock, .frames] s t) ∧
     (∀ o : CopyOutcome, s.judgeCopy f c = some o →
       ∃ t : State, exec (.copyPlacement fid i) s = .next t ∧ t.ports = s.ports ∧
         (∀ g : Machine.Frame, t.frame? fid = some g → (g.copies[i]?).map (·.stage) = some (.done o)) ∧
         Keeps [.frames, .cells, .counters] s t)) ∧
  (∀ (fid i k : Nat) (e : Ep) (f : Machine.Frame) (c : Copy) (s : State), s.frame? fid = some f →
     f.copies[i]? = some c → c.dest = .capture e k → c.stage = .placed → f.valid = true →
     (f.sealed = false ∨ f.verdictCode.isSome = true) →
     (∀ sp : Nat × Nat × Bool, c.space = some sp →
       ∃ t : State, exec (.captureRecordFinish fid i) s = .next t ∧
         .ring e k sp.1 [lengthWord sp.2.1 1 sp.2.2] ∈ t.out ∧ .ring e k (sp.1 + sp.2.1 - 2) (recordTail f c) ∈ t.out ∧
         (t.ring e k).ahead = ((s.ring e k).written sp.1).ahead ∧
         t.counter (Reg.hostRingEntries e.idx k) = satAdd (s.counter (Reg.hostRingEntries e.idx k)) 1 ∧
         Keeps (andBell [.frames, .rings, .free]) s t) ∧
     (c.space = none →
       ∃ t : State, exec (.captureRecordFinish fid i) s = .next t ∧
         (∀ g : Machine.Frame, t.frame? fid = some g → (g.copies[i]?).map (·.stage) = some (.done .down)) ∧
         Keeps [.frames, .counters] s t))

/-- DROP_HEAD of a class whose head is on the bus marks the head, which stays; with nothing on the port's bus it takes the
head off the queue and counts it. The backfill of an open packet that is not to be sealed writes its data along its chain,
changes no byte of the Storeroom outside the chain's cells, and leaves no open packet of that tag. One whose fetch failed
leaves no open packet of that tag and changes no byte of the Storeroom. (R288, R283, R279.) -/
def Obligations.ClassQueues : Prop :=
  (∀ (w : Path) (val : Word) (k : Packet) (r : List Packet) (s : State),
     let p := val.field 0 7
     let c := val.field 8 2
     canWrite s w Reg.drayTxqCmd val = true → val.bit 16 = true → (s.port p).queue c = k :: r →
     (s.port p).queues.length = 4 →
     ((s.port p).onBus = some (.cls c) →
       ∃ t : State, exec (.txqDropHead w val) s = .next t ∧ (t.port p).queue c = { k with dropNext := true } :: r ∧
         Keeps [.ports, .locks, .parity] s t) ∧
     ((s.port p).onBus = none →
       ∃ t : State, exec (.txqDropHead w val) s = .next t ∧ (t.port p).queue c = r ∧
         t.counter (Reg.drayTxqDropcmd p) = satAdd (s.counter (Reg.drayTxqDropcmd p)) 1 ∧
         Keeps (andBell [.ports, .cells, .rings, .locks, .parity]) s t)) ∧
  (∀ (p tag : Nat) (k : Packet) (s : State), (s.port p).zombies.any (fun z => z.tag == tag) = false →
     s.openPacket? p tag = some k → s.sealUnderWay p tag = false → k.host.bind (·.slot) = none →
     (∀ d : Bytes, d.length = k.len →
       ∃ t : State, exec (.txBackfill p tag (some d)) s = .next t ∧ t.openPacket? p tag = none ∧
         t.dray.storeroom = writeChain s.dray.storeroom k.cells d ∧
         (∀ a : Nat, a / 256 ∉ k.cells →
           Memory.read storeDefault t.dray.storeroom a = Memory.read storeDefault s.dray.storeroom a) ∧
         Keeps [.ports, .storeroom] s t) ∧
     (∃ t : State, exec (.txBackfill p tag none) s = .next t ∧ t.openPacket? p tag = none ∧ Keeps [.ports, .counters] s t))

/-- An entry of a running transmit ring with something to read, of an endpoint with TX_EN, that breaks no rule and names a
port which is up: where its credits, tag and cells are there it is opened at the tail of its class, without data yet; where
its credits, tag or share of cells are not there it waits. In both cases the ring moves on by one. A waiting entry is opened
in the same way once they are there. (R342, R350.) -/
def Obligations.TransmitEntries : Prop :=
  (∀ (e : Ep) (k : Nat) (w0 w1 w2 w3 : Word) (s : State),
    let x : TxEntry := { w0 := w0, w1 := w1, w2 := w2, w3 := w3 }
    let h : HostTx := { ep := e, ring := k, tag := x.tag, slot := if x.sealed then some x.slot else none }
    let q : TxWait := { port := x.port, cls := x.cls, pkt := x.packet h s }
    (s.ring e k).runs 4 = true → ((s.ring e k).hostPos == (s.ring e k).devPos) = false → (s.ring e k).txWait = none →
    s.cqBlocked e k = false → s.flag (Reg.hostEpCtl e.idx) 0 = true → x.bad = false → s.portUp x.port = true →
    s.dray.fenced = false → (s.port x.port).held = false → (s.port x.port).queues.length = 4 →
    (s.txFits q = true → (s.allocCells q.pkt.ncell 1).isSome = true →
      ∃ (t : State) (g : Packet), exec (.transmitEntry e k w0 w1 w2 w3) s = .next t ∧
        (t.port x.port).queue x.cls = (s.port x.port).queue x.cls ++ [g] ∧ g.closed = false ∧ g.ident = x.ident ∧
        g.host = some h ∧ (t.ring e k).devPos = ((s.ring e k).devPos + 1) % (s.ring e k).size ∧
        Keeps (andBell [.ports, .cells, .rings]) s t) ∧
    (s.txFits q = false →
      ∃ t : State, exec (.transmitEntry e k w0 w1 w2 w3) s = .next t ∧ (t.ring e k).txWait = some q ∧
        (t.ring e k).devPos = ((s.ring e k).devPos + 1) % (s.ring e k).size ∧ Keeps [.rings, .counters] s t)) ∧
  (∀ (e : Ep) (k : Nat) (q : TxWait) (s : State), (s.ring e k).txWait = some q → s.txFits q = true →
    (s.allocCells q.pkt.ncell 1).isSome = true → q.cls < 4 → (s.port q.port).queues.length = 4 →
    ∃ (t : State) (g : Packet), exec (.txResourcesReady e k) s = .next t ∧ (t.ring e k).txWait = none ∧
      (t.port q.port).queue q.cls = (s.port q.port).queue q.cls ++ [g] ∧ g.ident = q.pkt.ident ∧ g.host = q.pkt.host ∧
      Keeps (andBell [.ports, .cells, .rings]) s t)

/-! ## Table images (R174 to R177) -/

/-- LOAD_IMAGE of the owner with good parameters, at an idle loader, makes the loader wait for the inactive bank with the
image's length. Once the inactive generation is not busy, a good header of a full image clears that bank and takes its seeds,
and the loader writes; one of a delta image makes the loader copy. The copy gives the inactive bank the active bank's entries,
routes, descriptors and seeds. None of these changes the active bank. A watch record that passes its checks becomes the entry
of its index in the inactive bank, and empties the index where its VALID is 0; no other entry changes, and the active bank
stays. An image read to its length goes on to the bank checks where its CRC-32C agrees, and else ends with error 2. An
inactive bank that passes the bank checks is no longer bad and takes the image's number; one that does not is bad, with the
check's error and record. (R174, R176, R491, R174 to R177.) -/
def Obligations.Images : Prop :=
  ((∀ (c : CmdEntry) (s : State), runsCommand s c 1 = true →
     cmdHeadOk c 0 = true → c.w1.field 0 3 = 0 → wordsZero [c.w3, c.w4, c.w5, c.w6, c.w7] = true →
     s.watch.loader.st = .idle →
     ∃ t : State, exec (.loadImage c) s = .next t ∧ t.watch.loader.st = .waiting ∧ t.watch.loader.cmd = some (c.ep, c.ring) ∧
       t.watch.loader.length = c.w2.toNat ∧ (t.ring c.ep c.ring).running.map (·.opc) = some 1 ∧
       Keeps [.rings, .counters, .loader, .cellar] s t) ∧
   (∀ (ws : List Word) (s : State),
     let h : Nat → Word := fun i => (ws[i]?).getD 0
     s.watch.loader.st = .waiting → s.genBusy s.inactiveGen = false → headerError s.watch.loader.length h = none →
     ((h 0).field 48 8 = 0 →
       ∃ t : State, exec (.imageWaitEnd (some ws)) s = .next t ∧ t.watch.loader.st = .writing ∧
         (t.bank s.inactiveGen).entries = [] ∧ (t.bank s.inactiveGen).routes = [] ∧ (t.bank s.inactiveGen).descs = [] ∧
         (t.bank s.inactiveGen).seed0 = (h 1).field 0 32 ∧ (t.bank s.inactiveGen).seed1 = (h 1).field 32 32 ∧
         t.bank s.gen.activeGen = s.bank s.gen.activeGen ∧ Keeps [.banks, .loader] s t) ∧
     ((h 0).field 48 8 ≠ 0 →
       ∃ t : State, exec (.imageWaitEnd (some ws)) s = .next t ∧ t.watch.loader.st = .copying ∧ Keeps [.loader] s t)) ∧
   (∀ s : State, s.watch.loader.st = .copying →
     ∃ t : State, exec .imageCopyDone s = .next t ∧ t.watch.loader.st = .writing ∧
       (t.bank s.inactiveGen).entries = (s.bank s.gen.activeGen).entries ∧
       (t.bank s.inactiveGen).routes = (s.bank s.gen.activeGen).routes ∧
       (t.bank s.inactiveGen).descs = (s.bank s.gen.activeGen).descs ∧
       (t.bank s.inactiveGen).seed0 = (s.bank s.gen.activeGen).seed0 ∧
       (t.bank s.inactiveGen).seed1 = (s.bank s.gen.activeGen).seed1 ∧
       t.bank s.gen.activeGen = s.bank s.gen.activeGen ∧ Keeps [.banks, .loader] s t)) ∧
  ((∀ (w0 w1 w2 w3 : Word) (s : State), s.watch.loader.st = .writing → s.watch.loader.section? = some 0 →
     s.recordError 0 [w0, w1, w2, w3] = none →
     ∃ t : State, exec (.imageRecordRead (some [w0, w1, w2, w3])) s = .next t ∧
       (t.bank s.inactiveGen).entry w0.toNat = (if w1.bit 63 then (w1, w2, w3) else emptyEntry) ∧
       (∀ i : Nat, i ≠ w0.toNat → (t.bank s.inactiveGen).entry i = (s.bank s.inactiveGen).entry i) ∧
       t.bank s.gen.activeGen = s.bank s.gen.activeGen ∧ t.watch.loader.pos = s.watch.loader.pos + 32 ∧
       Keeps [.banks, .loader] s t) ∧
   (∀ (readOk : Bool) (s : State), s.watch.loader.st = .writing → s.watch.loader.section? = none →
     s.watch.loader.length ≤ s.watch.loader.pos →
     (s.watch.loader.crc = s.watch.loader.crcWant ^^^ 0xFFFFFFFF →
       ∃ t : State, exec (.imageEndCheck readOk) s = .next t ∧ t.watch.loader.st = .checking ∧ Keeps [.loader] s t) ∧
     (s.watch.loader.crc ≠ s.watch.loader.crcWant ^^^ 0xFFFFFFFF → s.watch.loader.queue = [] →
       ∃ t : State, exec (.imageEndCheck readOk) s = .next t ∧ t.watch.loader.st = .idle ∧ t.watch.loader.err = 2 ∧
         (t.bank s.inactiveGen).bad = true ∧ Keeps (faultParts ++ [.owner, .subs, .bitmaps, .halves, .cellar]) s t)) ∧
   (∀ s : State, s.watch.loader.st = .checking → s.watch.loader.queue = [] →
     (s.bankError = none →
       ∃ t : State, exec .imageBankCheck s = .next t ∧ t.watch.loader.st = .idle ∧ (t.bank s.inactiveGen).bad = false ∧
         (t.bank s.inactiveGen).imageId = s.watch.loader.imageId ∧ t.watch.loader.err = 0 ∧
         t.bank s.gen.activeGen = s.bank s.gen.activeGen ∧
         Keeps (faultParts ++ [.owner, .subs, .bitmaps, .halves, .cellar]) s t) ∧
     (∀ e r : Nat, s.bankError = some (e, r) →
       ∃ t : State, exec .imageBankCheck s = .next t ∧ t.watch.loader.st = .idle ∧ (t.bank s.inactiveGen).bad = true ∧
         t.watch.loader.err = e ∧ t.watch.loader.errRec = r ∧
         Keeps (faultParts ++ [.owner, .subs, .bitmaps, .halves, .cellar]) s t)))

/-! ## The Locksmith (R292 to R321) -/

/-- When the freshness field of a sealed frame that has data arrives, the half of its slot that the field's KP selects is
latched for the frame. A valid sealed FD frame whose freshness field has arrived and for which no half was latched gets the
verdict NO_KEY, which is counted; no key half changes. (R300, R301.) -/
def Obligations.SealedReception : Prop :=
  (∀ (fid w : Nat) (f : Machine.Frame) (s : State), s.frame? fid = some f → f.looked = true → f.sealed = true →
    f.fArrived = false → f.verdictCode = none → f.f.data ≠ [] → f.dead = false →
    s.selectHalf (s.frameEntry f).keySlot ((byteAt f.f.data 0).getLsbD 7) = some w →
    ∃ (t : State) (g : Machine.Frame), exec (.sealFArrival fid) s = .next t ∧ t.frame? fid = some g ∧ g.fArrived = true ∧
      g.half = some ((s.frameEntry f).keySlot, w) ∧ g.latched = s.half (s.frameEntry f).keySlot w ∧ Keeps [.frames] s t) ∧
  (∀ (fid : Nat) (f : Machine.Frame) (s : State), s.frame? fid = some f → f.looked = true → f.sealed = true →
    f.valid = true → f.eccLost = false → f.verdictCode = none → f.fArrived = true → f.keyGone = false →
    f.half = none → f.f.data ≠ [] → isFd f.f.fmt = true → s.tink.tests = [] →
    ∃ t : State, exec (.locksmithVerdict fid) s = .next t ∧
      (∀ g : Machine.Frame, t.frame? fid = some g → g.verdictCode = some 3) ∧
      t.counter Reg.lockNoKey = satAdd (s.counter Reg.lockNoKey) 1 ∧ t.lock.halves = s.lock.halves ∧
      Keeps [.frames, .lock, .counters] s t)

/-- A lane that is neither fenced nor under test nor occupied takes the open host packet that has waited longest, where its
slot's current half can seal it and the sealed length needs no cells beyond the packet's: the packet leaves the queue, the
lane's job latches the half's FV_TX, and FV_TX goes up by 1. The end of that seal frees the lane, is counted, and leaves no
open packet of that tag. (R302 to R305.) -/
def Obligations.Seals : Prop :=
  (∀ (i p tag slot n : Nat) (d : Bytes) (k : Packet) (r : List (SealSource × Nat)) (l : Lane) (s : State),
    s.lock.lanes[i]? = some l → l.fenced = false → l.testing = false → l.verify = none → l.job = none →
    s.lock.drbgReady = true → s.lock.waiting = (.host p tag d, slot) :: r → s.openPacket? p tag = some k →
    (s.half slot 0).cannotSeal = false → ((s.half slot 0).alg = 2 → k.fmt = 4) →
    sealedLen k.fmt (s.half slot 0).sform d.length = some n → cellsFor n ≤ k.cells.length →
    ∃ (t : State) (j : SealJob), exec (.sealStart i) s = .next t ∧ t.lock.waiting = r ∧ (t.lock.lanes[i]?).map (·.job) = some (some j) ∧
      j.fv = (s.half slot 0).fvTx ∧ (t.half slot 0).fvTx = (s.half slot 0).fvTx + 1 ∧ Keeps [.lock, .halves] s t) ∧
  (∀ (i p tag : Nat) (d : Bytes) (k : Packet) (l : Lane) (j : SealJob) (s : State), s.lock.lanes[i]? = some l →
    l.job = some j → j.src = .host p tag d → j.keyGone = false → s.openPacket? p tag = some k → s.tink.tests = [] →
    ∃ t : State, exec (.sealComplete i) s = .next t ∧ (t.lock.lanes[i]?).map (·.job) = some none ∧ t.openPacket? p tag = none ∧
      t.counter Reg.lockSeals = satAdd (s.counter Reg.lockSeals) 1 ∧ t.dray.cellUse = s.dray.cellUse ∧
      Keeps (andBell [.ports, .halves, .lock, .storeroom]) s t)

/-- Key commands of the owner, which holds the key lock, with good parameters. KEY_LOAD whose KEK is there and whose slot's
next half no operation latches leaves the current half: a blob that unwraps to good attributes becomes the next half, and the
command ends with OK and the slot; one that does not unwrap changes no half, and the command ends with KEY and detail 2.
KEK_LOAD in the same way stores the KEK of the blob, or changes none. KEY_CLEAR empties the next half, which no operation
latches, and leaves the current one. KEY_SWAP goes on executing, its swap waits for a boundary, and no half changes. A key
command of the owner, when its endpoint does not hold the key management lock, shows NOT_HOLDER and nothing runs on its ring;
no key half and no KEK changes, and no swap is added. (R309 to R313, R346, R314.) -/
def Obligations.KeyCommands : Prop :=
  (∀ (c : CmdEntry) (s : State), s.lock.holder = holderCode (.ep c.ep) → cmdHeadOk c 0 = true →
     (∀ (k : List Byte) (b : Bytes), runsCommand s c 5 = true → c.w1.field 10 6 = 0 → c.w1.field 18 46 = 0 →
       c.w3.toNat = 40 ∨ c.w3.toNat = 56 → wordsZero [c.w4, c.w5, c.w6, c.w7] = true → s.kek (c.w1.field 16 2) = some k →
       s.nextLatched (c.w1.field 0 10) = false →
       ∃ t : State, exec (.keyLoad c (some b)) s = .next t ∧
         t.half (c.w1.field 0 10) 0 = s.half (c.w1.field 0 10) 0 ∧
         (∀ (x : List Byte) (h : KeyHalf), unwrapKey k ((List.range c.w3.toNat).map (byteAt b)) = some x →
           loadedHalf (c.w1.field 0 10) x = some h → t.half (c.w1.field 0 10) 1 = h ∧ t.lock.resultCode = 0 ∧
           commandEnded s t c 0 0 (BitVec.ofNat 64 (c.w1.field 0 10))) ∧
         (unwrapKey k ((List.range c.w3.toNat).map (byteAt b)) = none →
           t.lock.halves = s.lock.halves ∧ t.lock.resultCode = 2 ∧
           commandEnded s t c 5 2 (BitVec.ofNat 64 (c.w1.field 0 10))) ∧
         Keeps (andBell [.rings, .lock, .halves]) s t) ∧
     (∀ (k : List Byte) (b : Bytes), runsCommand s c 6 = true → 1 ≤ c.w1.toNat → c.w1.toNat ≤ 3 →
       wordsZero [c.w3, c.w4, c.w5, c.w6, c.w7] = true → s.kek 0 = some k →
       ∃ t : State, exec (.kekLoad c (some b)) s = .next t ∧ (t.ring c.ep c.ring).running = none ∧
         (∀ x : List Byte, unwrapKey k ((List.range 56).map (byteAt b)) = some x → kekAttrsOk c.w1.toNat x = true →
           Table.find? c.w1.toNat t.lock.keks = some (BitVec.ofNat 256 (beNat (x.drop 16))) ∧ t.lock.resultCode = 0) ∧
         (unwrapKey k ((List.range 56).map (byteAt b)) = none → t.lock.keks = s.lock.keks ∧ t.lock.resultCode = 2) ∧
         Keeps (andBell [.rings, .lock, .keks]) s t) ∧
     (runsCommand s c 7 = true → c.w1.toNat < 1024 → wordsZero [c.w2, c.w3, c.w4, c.w5, c.w6, c.w7] = true →
       s.nextLatched (c.w1.field 0 10) = false →
       ∃ t : State, exec (.keyClear c) s = .next t ∧ t.half (c.w1.field 0 10) 1 = {} ∧
         t.half (c.w1.field 0 10) 0 = s.half (c.w1.field 0 10) 0 ∧ t.lock.resultCode = 0 ∧
         commandEnded s t c 0 0 (BitVec.ofNat 64 (c.w1.field 0 10)) ∧ Keeps (andBell [.rings, .lock, .halves]) s t) ∧
     (runsCommand s c 8 = true → c.w1.toNat < 1024 → wordsZero [c.w2, c.w3, c.w4, c.w5, c.w6, c.w7] = true →
       ∃ t : State, exec (.keySwap c) s = .next t ∧ t.lock.swaps = s.lock.swaps ++ [(c.w1.field 0 10, c.ep, c.ring)] ∧
         (t.ring c.ep c.ring).running.map (·.opc) = some 8 ∧ Keeps [.rings, .counters, .lock] s t)) ∧
  (∀ (c : CmdEntry) (b : Option Bytes) (s : State), s.lock.holder ≠ holderCode (.ep c.ep) →
     ∀ x ∈ [(5, Instr.keyLoad c b), (6, .kekLoad c b), (7, .keyClear c), (8, .keySwap c)], runsCommand s c x.1 = true →
       ∃ t : State, exec x.2 s = .next t ∧ t.lock.resultCode = 1 ∧ (t.ring c.ep c.ring).running = none ∧
         t.lock.halves = s.lock.halves ∧ t.lock.keks = s.lock.keks ∧ t.lock.swaps = s.lock.swaps ∧
         Keeps (andBell [.rings, .lock]) s t)

/-- A write of a next half that had to wait is made once no operation latches that half, and the current half stays. ZEROIZE,
as a good command of the owner and as a register write, an alarm other than a sensor alarm in OFF, and an alarm of an
instantiated DRBG leave no key half, no KEK and no KEK0; ERASED reads 1 and ALARM reads 6, 6, the alarm's code and 7. (R310,
R317 to R320.) -/
def Obligations.EraseAndWaitingWrites : Prop :=
  (∀ (slot : Nat) (x : Nat × KeyHalf × Ep × Nat) (s : State),
    s.lock.pending.find? (fun y => y.1 == slot) = some x → s.nextLatched slot = false →
    ∃ t : State, exec (.nextHalfWrite slot) s = .next t ∧ t.half slot 1 = x.2.1 ∧ t.half slot 0 = s.half slot 0 ∧
      t.lock.resultCode = 0 ∧ Keeps (andBell [.halves, .lock, .rings]) s t) ∧
  (∀ (c : CmdEntry) (s : State), runsCommand s c 9 = true →
    cmdHeadOk c 0 = true → wordsZero [c.w1, c.w2, c.w3, c.w4, c.w5, c.w6, c.w7] = true →
    ∃ t : State, exec (.zeroize c) s = .next t ∧ t.lock.halves = [] ∧ t.lock.keks = [] ∧ t.lock.kek0 = none ∧
      t.lock.erased = true ∧ t.lock.alarm = 6 ∧ (t.ring c.ep c.ring).running = none ∧
      Keeps (andBell [.rings, .frames, .lock, .halves, .keks]) s t) ∧
  (∀ (p : Path) (val : Word) (s : State), canWrite s p Reg.lockZeroize val = true → val.bit 0 = true →
    ∃ t : State, exec (.lockZeroize p val) s = .next t ∧ t.lock.halves = [] ∧ t.lock.keks = [] ∧ t.lock.kek0 = none ∧
      t.lock.erased = true ∧ t.lock.alarm = 6 ∧
      Keeps (andBell [.rings, .frames, .lock, .halves, .keks, .locks, .parity]) s t) ∧
  (∀ (code : Nat) (s : State), ¬ (s.sys.pwr = 3 ∧ (code = 1 ∨ code = 2)) →
    ∃ t : State, exec (.alarm code) s = .next t ∧ t.lock.halves = [] ∧ t.lock.keks = [] ∧ t.lock.kek0 = none ∧
      t.lock.erased = true ∧ t.lock.alarm = code ∧ Keeps (andBell [.rings, .frames, .lock, .halves, .keks]) s t) ∧
  (∀ s : State, s.lock.drbgReady = true →
    ∃ t : State, exec .drbgAlarm s = .next t ∧ t.lock.halves = [] ∧ t.lock.keks = [] ∧ t.lock.kek0 = none ∧
      t.lock.erased = true ∧ t.lock.alarm = 7 ∧ Keeps (andBell [.rings, .frames, .lock, .halves, .keks]) s t)

/-- KEK0 is derived from the fused secret where the lifecycle has one, no alarm withholds it, it is not there yet and the
secret was not erased. ACK clears ERASED alone. CLAIM of a free key lock makes its writer the holder; RELEASE by the holder
with no key command executing frees it; SLOT_SEL captures the selected half; and a held lock with no key command executing is
free, and counted, TIMEOUT ms after the holder's last key command, or at once where that has passed. A DRBG that is not
instantiated is, from that instant. One that is and whose source is good is reseeded at that instant, and counted. A failed
health test marks the source as failed, to be retried 1 s later, and leaves the keys; a retry that passes, 1 s after the
failure or later, takes the mark away, and one that fails leaves it for another second. (R311, R314, R315, R320, R321, R317,
R318.) -/
def Obligations.KeyLockAndDrbg : Prop :=
  ((∀ s : State, s.sys.lifecycle = 1 ∨ s.sys.lifecycle = 2 → s.lock.withheld = false → s.lock.kek0 = none →
     s.sys.secretGone = false →
     ∃ t : State, exec .kek0Derive s = .next t ∧ t.lock.kek0 = some s.sys.secretNo ∧ t.lock.keks = s.lock.keks ∧
       Keeps [.keks] s t) ∧
   (∀ (p : Path) (val : Word) (s : State),
     (canWrite s p Reg.lockCmd val = true → val.bit 0 = true →
       ∃ t : State, exec (.lockCmdAck p val) s = .next t ∧ t.lock = { s.lock with erased := false } ∧
         Keeps [.lock, .locks, .parity] s t) ∧
     (canWrite s p Reg.lockKmLock val = true → val.bit 8 = true → val.bit 9 = false → s.lock.holder = 0 →
       ∃ t : State, exec (.kmLockClaim p val) s = .next t ∧ t.lock.holder = holderCode p ∧ t.lock.holderAt = s.time.now ∧
         Keeps [.lock, .locks, .parity] s t) ∧
     (canWrite s p Reg.lockKmLock val = true → val.bit 8 = false → val.bit 9 = true → s.lock.holder = holderCode p →
       s.keyBusy .a = false → s.keyBusy .b = false →
       ∃ t : State, exec (.kmLockRelease p val) s = .next t ∧ t.lock.holder = 0 ∧ Keeps [.lock, .locks, .parity] s t) ∧
     (canWrite s p Reg.lockSlotSel val = true →
       ∃ t : State, exec (.lockSlotSel p val) s = .next t ∧
         t.lock.peek[3]? = some (s.half (val.field 0 10) (val.field 10 1)).fvTx ∧
         t.lock.peek[4]? = some (s.half (val.field 0 10) (val.field 10 1)).r ∧
         Keeps [.lock, .inForce, .locks, .parity] s t)) ∧
   (∀ s : State, s.lock.holder ≠ 0 → s.keyBusy .a = false → s.keyBusy .b = false →
     ∃ t : State, exec .kmTimeout s = .next t ∧ t.lock.holder = 0 ∧
       t.time.now = max s.time.now (s.lock.holderAt + 1000000 * s.fld Reg.lockKmCtl 0 16) ∧
       t.counter Reg.lockKmTimeouts = satAdd (s.counter Reg.lockKmTimeouts) 1 ∧ Keeps [.clock, .lock, .counters] s t)) ∧
  (∀ s : State,
     (s.lock.drbgReady = false →
       ∃ t : State, exec .drbgInstantiate s = .next t ∧ t.lock.drbgReady = true ∧ t.lock.reseedAt = s.time.now ∧ Keeps [.lock] s t) ∧
     (s.lock.drbgReady = true → s.lock.healthFail = false →
       ∃ t : State, exec .drbgReseed s = .next t ∧ t.lock.reseedAt = s.time.now ∧
         t.counter Reg.lockReseeds = satAdd (s.counter Reg.lockReseeds) 1 ∧ Keeps [.lock, .counters] s t) ∧
     (∃ t : State, exec .healthTestFail s = .next t ∧ t.lock.healthFail = true ∧ t.lock.retryAt = s.time.now + 1000000000 ∧
       t.lock.halves = s.lock.halves ∧ Keeps faultParts s t) ∧
     (s.lock.healthFail = true →
       ∃ t : State, exec (.entropyRetry true) s = .next t ∧ t.lock.healthFail = false ∧ t.time.now = max s.time.now s.lock.retryAt ∧
         Keeps [.clock, .lock] s t) ∧
     (s.lock.healthFail = true →
       ∃ t : State, exec (.entropyRetry false) s = .next t ∧ t.lock.healthFail = true ∧
         t.lock.retryAt = s.lock.retryAt + 1000000000 ∧ t.time.now = max s.time.now s.lock.retryAt ∧ Keeps [.clock, .lock] s t))

/-! ## The Steward (R403 to R417) -/

/-- An event of a used source that is QUIET and NORMAL, not the Pantry's or the Storeroom's, and stays below its threshold is
counted and enters its newest sub-bucket; under an open consequence window it is counted as a shadow and no sub-bucket
changes. No other source changes. A wire of a REACTED or LATCHED source that breaks, whichever rail level it shows, makes its
level invalid and marks the source, whose state stays. A source with an invalid level that is restored to QUIET or to FAULT is
at that level. (R403 to R405, R407, R411.) -/
def Obligations.FaultEvents : Prop :=
  ∀ (f : Nat) (s : State), faultUsed f = true →
    ((s.src f).level = 0 → (s.src f).st = 0 → (s.src f).window = none → f ≠ 291 → f ≠ 292 →
      (listMod (fun n => min (n + 1) 255) 0 (s.src f).buckets).sum < s.threshOf f →
      ∃ t : State, exec (.faultEvent f) s = .next t ∧ (t.src f).level = 1 ∧ (t.src f).st = 0 ∧
        (t.src f).buckets = listMod (fun n => min (n + 1) 255) 0 (s.src f).buckets ∧
        t.counter (Reg.stewEvents f) = satAdd (s.counter (Reg.stewEvents f)) 1 ∧
        (∀ g : Nat, g ≠ f → t.src g = s.src g) ∧ Keeps [.srcs, .counters] s t) ∧
    ((s.src f).level = 0 → (s.src f).st = 0 → (s.src f).window.isSome = true → f ≠ 291 → f ≠ 292 →
      ∃ t : State, exec (.faultEvent f) s = .next t ∧ (t.src f).level = 1 ∧ (t.src f).buckets = (s.src f).buckets ∧
        t.counter (Reg.stewShadow f) = satAdd (s.counter (Reg.stewShadow f)) 1 ∧
        (∀ g : Nat, g ≠ f → t.src g = s.src g) ∧ Keeps [.srcs, .counters] s t) ∧
    (∀ high : Bool, (s.src f).level ≠ 2 → (s.src f).st = 1 ∨ (s.src f).st = 2 →
      ∃ t : State, exec (.brokenWire f high) s = .next t ∧ (t.src f).level = 2 ∧ (t.src f).broken = true ∧
        (t.src f).st = (s.src f).st ∧ Keeps [.srcs, .stew, .counters] s t) ∧
    (∀ fault : Bool, (s.src f).level = 2 →
      ∃ t : State, exec (.levelRestored f fault) s = .next t ∧ (t.src f).level = (if fault then 1 else 0) ∧
        (t.src f).quietAt = s.time.now ∧ (∀ g : Nat, g ≠ f → t.src g = s.src g) ∧ Keeps [.srcs] s t)

/-- At its instant, or at once where that has passed: the sub-buckets of a used source move on by one; the count of recoveries
of a NORMAL source goes down by one; the consequence window of a source that is not at FAULT closes; and a REACTED source that
is QUIET recovers to NORMAL, with one more recovery counted, up to 15. (R407, R408, R410, R411.) -/
def Obligations.FaultTimes : Prop :=
  ∀ (f : Nat) (s : State),
    (faultUsed f = true →
      ∃ t : State, exec (.subBucketAdvance f) s = .next t ∧ (t.src f).buckets = 0 :: (s.src f).buckets.take 15 ∧
        (t.src f).bucketAt = (s.src f).bucketAt + s.bucketNs f ∧
        t.time.now = max s.time.now ((s.src f).bucketAt + s.bucketNs f) ∧ Keeps [.clock, .srcs] s t) ∧
    ((s.src f).st = 0 → 0 < (s.src f).rcnt →
      ∃ t : State, exec (.rcntDecay f) s = .next t ∧ (t.src f).rcnt = (s.src f).rcnt - 1 ∧
        t.time.now = max s.time.now ((s.src f).normalAt + 86400000000000) ∧ Keeps [.clock, .srcs] s t) ∧
    (∀ e : Nat, (s.src f).window = some e → (s.src f).level ≠ 1 →
      ∃ t : State, exec (.windowClose f) s = .next t ∧ (t.src f).window = none ∧ t.time.now = max s.time.now e ∧
        Keeps [.clock, .srcs] s t) ∧
    ((s.src f).st = 1 → (s.src f).level = 0 →
      ∃ t : State, exec (.recovery f) s = .next t ∧ (t.src f).st = 0 ∧ (t.src f).react = 0 ∧
        (t.src f).rcnt = min ((s.src f).rcnt + 1) 15 ∧ t.time.now = max s.time.now ((s.src f).quietAt + s.quietNs f) ∧
        Keeps (andBell [.clock, .engines, .ports, .watch, .scriv, .subs, .crier, .lock, .routes, .srcs, .stew, .tink,
          .firmware]) s t)

/-- A write of STEW.CMD for one source: ACK alone clears its sticky and broken-wire marks and leaves its state; RCLR alone
makes its count of recoveries 0; RECOVER alone takes a LATCHED source to NORMAL without changing that count. ACK and RCLR
touch no other source. In RUN the watchdog's trip drives FLT_N low. While ALERT_N is high and is not due, a low FLT_N whose
condition has ended is released 1 ms after it went low, or at once where that has passed. (R410, R416, R417, R413 to R415.) -/
def Obligations.StewardCommandsAndPins : Prop :=
  (∀ (p : Path) (val : Word) (s : State), canWrite s p Reg.stewCmd val = true →
     (val.bit 16 = true → val.bit 17 = false → val.bit 18 = false → val.bit 19 = false →
       ∃ t : State, exec (.stewCmdAck p val) s = .next t ∧ (t.src (val.field 0 9)).sticky = false ∧
         (t.src (val.field 0 9)).broken = false ∧ (t.src (val.field 0 9)).st = (s.src (val.field 0 9)).st ∧
         (∀ g : Nat, g ≠ val.field 0 9 → t.src g = s.src g) ∧ Keeps [.srcs, .stew, .locks, .parity] s t) ∧
     (val.bit 16 = false → val.bit 17 = false → val.bit 18 = true →
       ∃ t : State, exec (.stewCmdRclr p val) s = .next t ∧ (t.src (val.field 0 9)).rcnt = 0 ∧
         (∀ g : Nat, g ≠ val.field 0 9 → t.src g = s.src g) ∧ Keeps [.srcs, .stew, .locks, .parity] s t) ∧
     (val.bit 16 = false → val.bit 17 = true → val.bit 18 = false → (s.src (val.field 0 9)).st = 2 →
       ∃ t : State, exec (.stewCmdRecover p val) s = .next t ∧ (t.src (val.field 0 9)).st = 0 ∧
         (t.src (val.field 0 9)).rcnt = (s.src (val.field 0 9)).rcnt ∧ (t.src (val.field 0 9)).react = 0 ∧
         Keeps (andBell [.engines, .ports, .watch, .scriv, .subs, .crier, .lock, .routes, .srcs, .stew, .tink,
           .firmware, .locks, .parity]) s t)) ∧
  (∀ s : State, s.sys.pwr = 0 →
     (∃ t : State, exec .watchdogTrip s = .next t ∧ t.stew.flt = true ∧ t.stew.wdog = true ∧ Keeps [.stew] s t) ∧
     (s.stew.flt = true → s.fltDue = false → s.stew.alert = false → (s.stew.started && s.alertDue) = false →
       ∃ t : State, exec .minimumLowTime s = .next t ∧ t.stew.flt = false ∧ t.stew.alert = false ∧
         t.time.now = max s.time.now (s.stew.fltAt + 1000000) ∧ Keeps [.clock, .stew] s t))

/-! ## The Cellar (R362 to R388) -/

/-- CELLAR commands of the owner with good parameters: START in STOPPED, with no format under way, of media that mount, makes
the Cellar STARTING with that geometry and goes on executing; of media that do not mount, it ends with status 5 and the
fault's number and the Cellar stays STOPPED. STOP in RUNNING makes it STOPPING. FORMAT in STOPPED, with no format under way,
of media that are identified begins the format. A restore without records to apply takes STARTING to RUNNING and changes no
record. STOPPING with nothing left to program, and no start held, ends in STOPPED and leaves the store. The end of a format
with no failed block and enough good ones leaves every root block a root. A restore whose pages all read correctly and hold
one newest record, of a persistent signal that is NEVER, with a descriptor of the record's type and in no vote: the record's
value and STAMP come back with state RESTORED, no other record changes, and the Cellar is RUNNING. The Crier has nothing of a
cut set to read. (R377, R384, R385, R386, R387.) -/
def Obligations.CellarStates : Prop :=
  ((∀ (c : CmdEntry) (s : State), runsCommand s c 10 = true →
     cmdHeadOk c 0 = true → wordsZero [c.w3, c.w4, c.w5, c.w6, c.w7] = true →
     (∀ (g : NandGeometry) (r : RootBody), c.w1 = 0 → c.w2.toNat < 2 → s.cellar.st = .stopped → s.cellar.formatting = none →
       s.mount g = .inr r →
       ∃ t : State, exec (.cellarStart c g) s = .next t ∧ t.cellar.st = .starting ∧ t.cellar.geom = some g ∧
         t.cellar.noRestore = c.w2.bit 0 ∧ (t.ring c.ep c.ring).running.map (·.opc) = some 10 ∧
         Keeps [.rings, .counters, .cellar, .store] s t) ∧
     (∀ (g : NandGeometry) (f : Nat), c.w1 = 0 → c.w2.toNat < 2 → s.cellar.st = .stopped → s.cellar.formatting = none →
       s.mount g = .inl f →
       ∃ t : State, exec (.cellarStart c g) s = .next t ∧ t.cellar.st = .stopped ∧ commandEnded s t c 5 f 0 ∧
         Keeps (andBell [.lock, .rings, .cellar]) s t) ∧
     (c.w1 = 1 → c.w2 = 0 → s.cellar.st = .running →
       ∃ t : State, exec (.cellarStop c) s = .next t ∧ t.cellar.st = .stopping ∧ t.cellar.stopPages = 0 ∧
         Keeps [.rings, .counters, .cellar] s t) ∧
     (∀ g : NandGeometry, c.w1 = 3 → c.w2 = 0x464D5421 → s.cellar.st = .stopped → s.cellar.formatting = none →
       s.identify g = 0 →
       ∃ t : State, exec (.cellarFormat c g) s = .next t ∧ t.cellar.formatting = some g ∧ t.cellar.st = .stopped ∧
         Keeps [.rings, .counters, .cellar, .store] s t)) ∧
   (∀ (g : NandGeometry) (reads : List PageOutcome) (failing : List Nat) (s : State), s.cellar.geom = some g →
     s.cellar.st = .starting → s.cellar.pfail = false → s.cellar.noRestore = true → s.cellar.stopHeld = false →
     ∃ t : State, exec (.cellarRestoreDone reads failing) s = .next t ∧ t.cellar.st = .running ∧
       t.scriv.records = s.scriv.records ∧ Keeps (faultParts ++ [.records, .store, .cellar]) s t) ∧
   (∀ s : State, s.cellar.st = .stopping → s.cellar.checkpoint = none → s.cellar.flush = [] → s.cellar.heldRecs = [] →
     s.cellar.program = none → s.cellar.pfail = false → s.cellar.startHeld = false →
     ∃ t : State, exec .cellarStopped s = .next t ∧ t.cellar.st = .stopped ∧ t.cellar.store = s.cellar.store ∧
       Keeps (andBell [.lock, .rings, .cellar]) s t) ∧
   (∀ (g : NandGeometry) (s : State), s.cellar.formatting = some g →
     g.short (((g.factoryBad.filter (fun b => b % g.blocks != 0)).foldl (fun l b => setInsert b l) [])) = false →
     ∃ t : State, exec (.cellarFormatDone []) s = .next t ∧ t.cellar.formatting = none ∧ t.cellar.geom = some g ∧
       (∀ b ∈ g.roots, (t.cellar.store.block b).role = .root) ∧ Keeps (andBell [.lock, .rings, .store, .cellar]) s t)) ∧
  (∀ (g : NandGeometry) (r : StoreRec) (s : State), s.cellar.geom = some g → s.cellar.st = .starting → s.cellar.pfail = false →
     s.cellar.noRestore = false → s.cellar.stopHeld = false →
     (newestRecs (s.storeRecs s.cellar.store.restorePages)).map (·.2) = [r] → s.crier.cutSet = [] →
     (s.recOf r.signal).state = qNever → Desc.pclass ((s.bank s.gen.activeGen).desc r.signal) ≠ 0 →
     Desc.type ((s.bank s.gen.activeGen).desc r.signal) = r.type →
     Desc.nsrc ((s.bank s.gen.activeGen).desc (r.signal - r.signal % 8)) = 0 →
     ∃ t : State, exec (.cellarRestoreDone [] []) s = .next t ∧ t.cellar.st = .running ∧ (t.recOf r.signal).value = r.value ∧
       (t.recOf r.signal).stamp = r.stamp ∧ (t.recOf r.signal).state = qRestored ∧
       (∀ j : Nat, j ≠ r.signal → t.recOf j = s.recOf j) ∧ Keeps (faultParts ++ [.records, .store, .cellar]) s t)

/-- BATCH_MS after the oldest record of the flush buffer was staged, or at once where that has passed, a batch is due. A page
that is due and that the budget covers, with a journal block open on the next target and no record held back, begins to be
programmed with the oldest records of the buffer. A page whose program succeeded, on a block that is not bad, lies at the end
of the block with the block's erase count; while STOPPING it is counted for STOP. A block whose program failed is bad. (R370,
R371, R374, R377, R385.) -/
def Obligations.JournalPages : Prop :=
  (∀ (x : StoreRec × Nat) (r : List (StoreRec × Nat)) (s : State), s.cellar.flush = x :: r →
    ∃ t : State, exec .batchExpire s = .next t ∧ t.time.now = max s.time.now (x.2 + 1000000 * s.fld Reg.cellCtl2 0 10) ∧
      t.batchDue = true ∧ Keeps [.clock] s t) ∧
  (∀ (g : NandGeometry) (s : State), s.cellar.geom = some g → s.fillBucket.journalDue g = true →
    1000000 * (g.pageBytes : Int) ≤ s.fillBucket.cellar.tokens → s.cellar.heldRecs = [] →
    (s.cellar.store.openBlock g .journal 0 (s.cellar.nextTarget % g.nTargets)).isSome = true →
    ∃ (t : State) (q : PageProgram), exec (.journalPageProgram []) s = .next t ∧ t.cellar.program = some q ∧ q.page.area = 3 ∧
      q.page.recs = (s.cellar.flush.take g.perPage).map (·.1) ∧ t.cellar.flush = s.cellar.flush.drop g.perPage ∧
      Keeps (faultParts ++ [.store, .cellar]) s t) ∧
  (∀ (g : NandGeometry) (q : PageProgram) (s : State), s.cellar.geom = some g → s.cellar.program = some q →
    s.cellar.store.bad.contains q.block = false →
    (∀ failing : List Nat, s.cellar.st = .stopping →
      ∃ t : State, exec (.pageProgramDone q.target true failing) s = .next t ∧ t.cellar.program = none ∧
        (t.cellar.store.block q.block).pages =
          (s.cellar.store.block q.block).pages ++ [{ q.page with erases := s.cellar.store.eraseCount q.block }] ∧
        t.cellar.stopPages = s.cellar.stopPages + 1 ∧ Keeps [.counters, .cellar, .store, .out] s t) ∧
    (∀ failing : List Nat,
      ∃ t : State, exec (.pageProgramDone q.target false failing) s = .next t ∧ q.block ∈ t.cellar.store.bad ∧
        Keeps (faultParts ++ [.store, .cellar]) s t))

/-- A checkpoint begins with the number after the last sealed one: CHECKPOINT of the owner begins one in RUNNING while none is
under way, and so does the timer, CKPT_H hours after the last seal or at once where that has passed. Once every page of it is
programmed, a checkpoint whose pages all read correctly is sealed, the mark moves to where it began, and the Cellar is not
degraded. One with a page that does not read correctly is not sealed. The scrub of a page that reads without reaching the
refresh limit, in a block below the disturb limit, counts a read of its block and leaves the block's pages. (R367, R372 to
R374, R379, R380.) -/
def Obligations.Checkpoints : Prop :=
  (∀ (c : CmdEntry) (s : State), runsCommand s c 10 = true →
    cmdHeadOk c 0 = true → c.w1 = 2 → c.w2 = 0 → wordsZero [c.w3, c.w4, c.w5, c.w6, c.w7] = true →
    s.cellar.st = .running → s.cellar.checkpoint = none →
    ∃ t : State, exec (.cellarCheckpoint c) s = .next t ∧
      t.cellar.checkpoint = some { ckptId := s.cellar.store.sealedId + 1, s := s.cellar.seq } ∧
      Keeps [.rings, .counters, .cellar] s t) ∧
  (∀ s : State, s.cellar.st = .running → s.cellar.checkpoint = none → s.cellar.pfail = false →
    ∃ t : State, exec .checkpointTimer s = .next t ∧
      t.cellar.checkpoint = some { ckptId := s.cellar.store.sealedId + 1, s := s.cellar.seq } ∧
      t.time.now = max s.time.now (s.cellar.ckptBase + 3600000000000 * s.fld Reg.cellCtl 32 16) ∧
      Keeps [.clock, .cellar] s t) ∧
  (∀ (g : NandGeometry) (k : Checkpoint) (s : State), s.cellar.geom = some g → s.cellar.checkpoint = some k →
    s.cellar.pfail = false → s.cellar.failing = [] → (s.sealWrites g k).2 = true →
    (∃ t : State, exec (.checkpointSeal [] []) s = .next t ∧ t.cellar.store.sealedId = k.ckptId ∧ t.cellar.store.mark = k.s ∧
      t.cellar.checkpoint = none ∧ t.cellar.degraded = false ∧ t.cellar.ckptBase = (s.sealWrites g k).1.time.now ∧
      Keeps (faultParts ++ [.clock, .store, .cellar]) s t) ∧
    (∀ (reads : List PageOutcome) (x : Nat × Nat × StorePage),
      x ∈ (s.sealWrites g k).1.cellar.store.checkpointPlaces k.ckptId → PageRead.fails (readOutcome reads x.1 x.2.1) = true →
      ∃ t : State, exec (.checkpointSeal reads []) s = .next t ∧ t.cellar.checkpoint = some k ∧
        t.cellar.store.sealedId = s.cellar.store.sealedId ∧ Keeps (faultParts ++ [.clock, .store, .cellar]) s t)) ∧
  (∀ (g : NandGeometry) (b i : Nat) (p : StorePage) (anew : Bool) (read : PageRead) (failing : List Nat) (s : State),
    s.cellar.geom = some g → s.scrubNext = some ((b, i, p), anew) → s.cellar.st ≠ .stopped → s.cellar.pfail = false →
    PageRead.fails read = false → read.words.any (fun w => decide (s.fld Reg.cellMedia 24 8 ≤ w.bits)) = false →
    (s.cellar.store.block b).reads + 1 < 1000 * s.fld Reg.cellMedia 0 8 →
    ∃ t : State, exec (.scrub read.words read.crcBad failing) s = .next t ∧
      (t.cellar.store.block b).reads = (s.cellar.store.block b).reads + 1 ∧
      (t.cellar.store.block b).pages = (s.cellar.store.block b).pages ∧ Keeps [.clock, .counters, .store, .cellar] s t)

/-! ## The Tinker (R418 to R429) -/

/-- A running Tinker whose turn is at a slice below 173, in RUN with no power move, PFAIL_N not acted on, no test under way
and tests allowed: a slice with a reason to be skipped is skipped for it and counted, and the turn moves on by one; a free
engine that has none is held for its test at once, with its fault source MASKED. The result of a held engine's test, its
first, gives PASS where the signature is the golden one and the saved configuration came back, and the engine and its source
are back; else MISMATCH where the configuration came back, and RESTORE where it did not. A good golden check takes a STARTING
Tinker to RUNNING at slice 0, and a bad one to STOPPED. SLICE_SEL captures an outcome. With a complete standby pair whose
slices all passed, the timer requests the switch of the pairs. (R419, R420, R423 to R429.) -/
def Obligations.Tinker : Prop :=
  (∀ s : State, s.tink.st = .running → s.cellar.pfail = false → s.sys.pwr = 0 → s.sys.moving = none →
    s.tink.tests = [] → 0 < s.fld Reg.tinkCtl 8 2 →
    (∀ r : Nat, s.tink.next < 173 → s.skipReason s.tink.next = some r →
      ∃ t : State, exec .sliceSelect s = .next t ∧ t.tink.next = s.tink.next + 1 ∧
        (Table.get (fun _ => {}) t.tink.outcomes s.tink.next).skip = r ∧
        t.counter Reg.tinkSkips = satAdd (s.counter Reg.tinkSkips) 1 ∧
        t.time.now = max s.time.now s.tink.notBefore ∧ Keeps [.clock, .tink, .counters] s t) ∧
    (s.tink.next < 136 → s.skipReason s.tink.next = none → s.engineFree s.tink.next = true →
      ∃ t : State, exec .sliceSelect s = .next t ∧ t.tink.next = s.tink.next + 1 ∧ (t.engine s.tink.next).tested = true ∧
        t.tink.tests.map (fun x => (x.slice, x.held)) = [(s.tink.next, true)] ∧ (t.src s.tink.next).st = 3 ∧
        Keeps [.clock, .tink, .engines, .srcs] s t)) ∧
  (∀ (x : SliceTest) (saved reloaded : Bytes) (s : State), s.tink.tests = [x] → x.held = true → x.slice < 136 → x.bad = 0 →
    let golden := Config.goldenSignature (sliceType x.slice) s.tink.seedset
    (crc32c saved = crc32c reloaded →
      ∃ t : State, exec (.testResult x.slice golden saved reloaded) s = .next t ∧
        t.tink.tests = [] ∧ (Table.get (fun _ => {}) t.tink.outcomes x.slice).result = 1 ∧
        (t.engine x.slice).tested = false ∧ (t.src x.slice).st = 0 ∧ Keeps faultParts s t) ∧
    (∀ misr : Word, crc32c saved = crc32c reloaded → misr ≠ golden →
      ∃ t : State, exec (.testResult x.slice misr saved reloaded) s = .next t ∧
        (Table.get (fun _ => {}) t.tink.outcomes x.slice).result = 2 ∧ Keeps faultParts s t) ∧
    (∀ misr : Word, crc32c saved ≠ crc32c reloaded →
      ∃ t : State, exec (.testResult x.slice misr saved reloaded) s = .next t ∧
        (Table.get (fun _ => {}) t.tink.outcomes x.slice).result = 3 ∧ Keeps faultParts s t)) ∧
  (∀ s : State, s.tink.st = .starting →
    (∃ t : State, exec (.goldenCheck true) s = .next t ∧ t.tink.st = .running ∧ t.tink.next = 0 ∧ t.tink.goldErr = false ∧
      Keeps [.tink] s t) ∧
    (∃ t : State, exec (.goldenCheck false) s = .next t ∧ t.tink.st = .stopped ∧ t.tink.goldErr = true ∧
      Keeps (andBell [.tink]) s t)) ∧
  (∀ (p : Path) (val : Word) (s : State), canWrite s p Reg.tinkSliceSel val = true → val.field 0 8 < 174 →
    ∃ t : State, exec (.tinkSliceSel p val) s = .next t ∧
      t.tink.peek[1]? = some (Table.get (fun _ => {}) s.tink.outcomes (val.field 0 8)).misr ∧
      t.tink.peek[3]? = some (Table.get (fun _ => {}) s.tink.outcomes (val.field 0 8)).tai ∧
      Keeps [.tink, .inForce, .locks, .parity] s t) ∧
  (∀ s : State, s.fld Reg.tinkCtl2 0 16 ≠ 0 → s.standbyReady = true → s.sys.confirmPend = false →
    s.sys.switchReq = none → s.sys.safe = false →
    ([168 + 2 * (1 - s.sys.pair), 169 + 2 * (1 - s.sys.pair), 172 + (1 - s.sys.pair)].all
      (fun n => (Table.get (fun _ => {}) s.tink.outcomes n).result == 1)) = true →
    ∃ t : State, exec .pairHandoverTimer s = .next t ∧ t.sys.switchReq = some (.periodic, t.time.now + 10000000000) ∧
      t.sys.pair = s.sys.pair ∧ Keeps [.clock, .firmware] s t)

/-! ## Wakes, power and temperature (R137 to R141, R381, R440 to R443, R487) -/

/-- In RUN, with no power move and no wake on record: a pattern within the port's times, a matching frame and WAKE_N (of a
device with its supplies) each record the wake, the first two with the port and WAKE_N with 255, and the cause. WAKE_N while a
wake is on record leaves the record. A frame in error at a port whose error count is below 31 adds one to that count and wakes
nothing. WAKE_ACK clears the record. (R137 to R139, R141.) -/
def Obligations.Wakes : Prop :=
  (∀ s : State, s.sys.pwr = 0 → s.sys.moving = none → s.xcvr.wakeCause = 0 →
    (∀ p dom1 rec' dom2 total : Nat,
      s.detects p 8 = true → wakeFilterNs p ≤ dom1 → wakeFilterNs p ≤ rec' → wakeFilterNs p ≤ dom2 → total ≤ wakeTimeNs p →
      ∃ t : State, exec (.wakeUpPattern p dom1 rec' dom2 total) s = .next t ∧ t.xcvr.wakePort = p ∧ t.xcvr.wakeCause = 1 ∧
        Keeps (andBell [.xcvr]) s t) ∧
    (∀ (p ident dlc : Nat) (ide : Bool) (data : Word), s.detects p 9 = true → s.wakeMatch p ide ident dlc data = true →
      ∃ t : State, exec (.wakeUpFrame p ide ident dlc false false false data) s = .next t ∧ t.xcvr.wakePort = p ∧
        t.xcvr.wakeCause = 2 ∧ (t.ip p).wufErr = (s.ip p).wufErr - 1 ∧ Keeps (andBell [.xcvr]) s t) ∧
    (s.sys.powered = true →
      ∃ t : State, exec .wakeN s = .next t ∧ t.xcvr.wakePort = 255 ∧ t.xcvr.wakeCause = 4 ∧ Keeps (andBell [.xcvr]) s t)) ∧
  (∀ s : State, s.sys.pwr = 0 → s.sys.moving = none → s.sys.powered = true → s.xcvr.wakeCause ≠ 0 →
    ∃ t : State, exec .wakeN s = .next t ∧ t.xcvr.wakePort = s.xcvr.wakePort ∧ t.xcvr.wakeCause = s.xcvr.wakeCause ∧
      Keeps bellParts s t) ∧
  (∀ (p ident dlc : Nat) (ide remote : Bool) (data : Word) (s : State), s.detects p 9 = true → (s.ip p).wufErr < 31 →
    ∃ t : State, exec (.wakeUpFrame p ide ident dlc remote false true data) s = .next t ∧
      (t.ip p).wufErr = (s.ip p).wufErr + 1 ∧ t.xcvr.wakeCause = s.xcvr.wakeCause ∧ Keeps [.xcvr] s t) ∧
  (∀ (p : Path) (val : Word) (s : State), canWrite s p Reg.xcvrCmd val = true → val.bit 16 = false → val.bit 17 = true →
    ∃ t : State, exec (.wakeAck p val) s = .next t ∧ t.xcvr.wakePort = 0 ∧ t.xcvr.wakeCause = 0 ∧ t.xcvr.ip = s.xcvr.ip ∧
      Keeps [.xcvr, .locks, .parity] s t)

/-- A TARGET other than the power state, in RUN or TRIM with no move and no lifecycle program under way, begins the move. With
no TARGET and no wake held: a move from RUN to TRIM, with no test and no switch of the pairs waiting, and one from TRIM to RUN
complete and are counted; a move to DEPOT or OFF of a device at rest completes with both endpoints unusable and no STB_n low,
and in OFF the key store is empty. PFAIL, acted on in a device with its supplies outside OFF, makes the Cellar FLUSHED without
a checkpoint, both endpoints unusable and every port down. The end of the flush leaves the buffer empty. TJ becomes the
hottest of the sensors, and TJ_MAX follows it upward. (R381, R384, R440 to R443, R487.) -/
def Obligations.PowerStates : Prop :=
  (∀ (p : Path) (val : Word) (s : State), canWrite s p Reg.sysPwrCtl val = true → s.sys.pwr < 2 → s.sys.moving = none →
    s.sys.lcBusy = none → val.field 0 2 ≠ s.sys.pwr →
    ∃ t : State, exec (.pwrCtlTarget p val) s = .next t ∧ t.sys.moving = some (val.field 0 2) ∧ t.sys.pwr = s.sys.pwr ∧
      Keeps [.power, .inForce, .locks, .parity] s t) ∧
  (∀ s : State, s.cellar.pfail = false → s.sys.targetHeld = none → s.xcvr.wakeHeld = [] →
    (s.sys.moving = some 1 → s.sys.pwr = 0 → s.tink.tests = [] → s.sys.switchReq = none →
      ∃ t : State, exec .powerMoveStart s = .next t ∧ t.sys.pwr = 1 ∧ t.sys.moving = none ∧ t.sys.standby = false ∧
        t.counter Reg.sysPwrMoves = satAdd (s.counter Reg.sysPwrMoves) 1 ∧ Keeps [.power, .firmware, .counters, .stew, .xcvr] s t) ∧
    (s.sys.moving = some 0 → s.sys.pwr = 1 →
      ∃ t : State, exec .powerMoveStart s = .next t ∧ t.sys.pwr = 0 ∧ t.sys.moving = none ∧
        t.counter Reg.sysPwrMoves = satAdd (s.counter Reg.sysPwrMoves) 1 ∧ Keeps [.power, .firmware, .counters, .stew, .xcvr] s t) ∧
    (∀ n : Nat, n = 2 ∨ n = 3 → s.sys.moving = some n → s.restReady = true →
      ∃ t : State, exec .powerMoveStart s = .next t ∧ t.sys.pwr = n ∧ t.sys.moving = none ∧ t.usable .a = false ∧
        t.usable .b = false ∧ t.xcvr.stbLow = [] ∧ (n = 3 → t.lock.halves = [] ∧ t.lock.keks = [] ∧ t.lock.kek0 = none) ∧
        Keeps (andBell [.tai, .inForce, .xcvr, .frames, .watch, .halves, .keks, .lock, .rings, .stew, .power, .firmware]) s t)) ∧
  (∀ s : State, s.cellar.pfail = false → s.sys.pwr ≠ 3 → s.sys.powered = true →
    ∃ t : State, exec .pfail s = .next t ∧ t.cellar.pfail = true ∧ t.cellar.st = .flushed ∧ t.cellar.checkpoint = none ∧
      t.usable .a = false ∧ t.usable .b = false ∧ (∀ p : Nat, t.portUp p = false) ∧
      Keeps (andBell [.ports, .frames, .rings, .cells, .store, .cellar, .tink]) s t) ∧
  (∀ (failing : List Nat) (s : State), s.cellar.pfail = true → s.cellar.flushDone = false →
    ∃ t : State, exec (.flushComplete failing) s = .next t ∧ t.cellar.flushDone = true ∧ t.cellar.flush = [] ∧
      t.cellar.program = none ∧ t.cellar.st = s.cellar.st ∧
      t.counter Reg.cellFlushes = satAdd (s.counter Reg.cellFlushes) 1 ∧ Keeps (faultParts ++ [.store, .cellar]) s t) ∧
  (∀ (x : Int) (xs : List Int) (s : State),
    ∃ t : State, exec (.tempUpdate (x :: xs)) s = .next t ∧ t.sys.tj ∈ x :: xs ∧ t.sys.tjMax = max s.sys.tjMax t.sys.tj ∧
      (∀ y ∈ x :: xs, y ≤ t.sys.tj) ∧ Keeps [.temp] s t)

/-! ## Lifecycle and debug (R430 to R446) -/

/-- GO from PROVISIONED to FIELD, in RUN with no power move, no program under way and none pending, begins to program the
fuses, empties the key store as alarm 5 does and withholds KEK0; the lifecycle stays. The end of a program, with no TARGET
held, records the new state as pending where the fuses verify, and marks the fuses broken where they do not; the lifecycle
stays in both cases. A reset of the test access port selects IDCODE, and takes the challenge back and closes the session; of a
session at level 1 it resets the device, with cause 3. END closes a session that is not at level 1. (R431, R432, R437, R433,
R438.) -/
def Obligations.LifecycleAndSessions : Prop :=
  ((∀ (p : Path) (val : Word) (s : State), canWrite s p Reg.sysLcCmd val = true → val.bit 0 = true → s.sys.lcBusy = none →
     s.sys.lcPending = false → s.sys.pwr = 0 → s.sys.moving = none → s.sys.lifecycle = 1 → val.field 2 2 = 2 →
     ∃ t : State, exec (.lcCmdGo p val) s = .next t ∧ t.sys.lcBusy = some 2 ∧ t.lock.halves = [] ∧ t.lock.keks = [] ∧
       t.lock.kek0 = none ∧ t.lock.alarm = 5 ∧ t.lock.withheld = true ∧ t.sys.lifecycle = s.sys.lifecycle ∧
       Keeps (andBell [.frames, .halves, .keks, .lock, .rings, .lifecycle, .locks, .parity]) s t) ∧
   (∀ (n : Nat) (s : State), s.sys.lcBusy = some n → s.sys.targetHeld = none →
     (∃ t : State, exec (.lcProgramDone true) s = .next t ∧ t.sys.fuseState = n ∧ t.sys.lcPending = true ∧ t.sys.lcBusy = none ∧
       t.sys.lcResult = 1 ∧ t.sys.lifecycle = s.sys.lifecycle ∧ Keeps [.fuses, .lifecycle] s t) ∧
     (∃ t : State, exec (.lcProgramDone false) s = .next t ∧ t.sys.fuseState = s.sys.fuseState ∧ t.sys.fuseBroken = true ∧
       t.sys.lcResult = 5 ∧ t.sys.lifecycle = s.sys.lifecycle ∧ Keeps [.fuses, .lifecycle] s t))) ∧
  ((∀ s : State,
     (s.sys.level ≠ 1 →
       ∃ t : State, exec .tapReset s = .next t ∧ t.sys.ir = 1 ∧ t.sys.challenge = none ∧ t.sys.level = 0 ∧ t.sys.auth = false ∧
         Keeps [.debug] s t) ∧
     (s.sys.level = 1 → ∃ t : State, exec .tapReset s = .next t ∧ isReset s t ∧ t.sys.bootCause = 3)) ∧
   (∀ (p : Path) (val : Word) (s : State), canWrite s p Reg.sysDbgCtl val = true → val.bit 1 = true → s.sys.level ≠ 1 →
     ∃ t : State, exec (.dbgCtlEnd p val) s = .next t ∧ t.sys.level = 0 ∧ t.sys.auth = false ∧ t.sys.keysel = 0 ∧
       Keeps [.debug, .inForce, .staged, .held, .counters, .locks, .parity] s t))

/-- IDCODE shifts out the device's code, with its supplies; an opcode of no instruction of the table selects BYPASS and shifts
out one 0. In RUN and TRIM: SAMPLE/PRELOAD shifts out as many free bits as the boundary register holds bytes' worth, and loads
a vector that is given; EXTEST does the same at level 1, and below or above it only selects; DBG_ACCESS at level 2 shifts out
8 free bytes for a read and for a scan, and halts a core. What is shifted out of pins and memories is a free value (log entry
4). (R433, R434, R445.) -/
def Obligations.TestAccessPort : Prop :=
  ∀ s : State, s.sys.powered = true →
    (∃ t : State, exec .idcode s = .next t ∧ t.sys.ir = 1 ∧ t.out = .tdo (leBytes 4 0x1712896B) :: s.out ∧ Keeps [.debug, .out] s t) ∧
    (∀ op : Nat, op ∉ [0x00, 0x01, 0x02, 0x20, 0x21, 0x22] →
      ∃ t : State, exec (.bypass op) s = .next t ∧ t.sys.ir = 0xFF ∧ t.out = .tdo [0#8] :: s.out ∧ Keeps [.debug, .out] s t) ∧
    (s.sys.pwr < 2 →
      (∀ v : Option Bytes,
        ∃ t : State, exec (.samplePreload v) s = .next t ∧ t.sys.ir = 2 ∧ t.sys.boundary = v.getD s.sys.boundary ∧
          t.out = .tdo ((List.range s.sys.boundary.length).map (Config.freeByte s.free)) :: s.out ∧
          t.free = s.free + 1 ∧ Keeps [.debug, .free, .out] s t) ∧
      (∀ v : Bytes, s.sys.level = 1 →
        ∃ t : State, exec (.extest v) s = .next t ∧ t.sys.ir = 0 ∧ t.sys.boundary = v ∧
          t.out = .tdo ((List.range s.sys.boundary.length).map (Config.freeByte s.free)) :: s.out ∧
          t.free = s.free + 1 ∧ Keeps [.debug, .free, .out] s t) ∧
      (∀ v : Bytes, s.sys.level ≠ 1 →
        ∃ t : State, exec (.extest v) s = .next t ∧ t.sys.ir = 0 ∧ t.sys.boundary = s.sys.boundary ∧ Keeps [.debug] s t) ∧
      (∀ a : Nat, s.sys.level = 2 → ∀ op ∈ [DbgOp.read a, .scan a],
        ∃ t : State, exec (.dbgAccess op) s = .next t ∧ t.sys.ir = 0x22 ∧
          t.out = .tdo ((List.range 8).map (fun i => Config.freeByte s.free (8 * a + i))) :: s.out ∧
          t.free = s.free + 1 ∧ Keeps [.debug, .free, .out] s t) ∧
      (∀ m : Nat, s.sys.level = 2 →
        ∃ t : State, exec (.dbgAccess (.halt m)) s = .next t ∧ t.sys.ir = 0x22 ∧ t.sys.halted = setInsert m s.sys.halted ∧
          Keeps [.debug] s t))

/-- In RUN and TRIM, with no lockout and no session open: a request for a level that needs a key draws a fresh nonce and
shifts out the challenge for it; a request for a level that the lifecycle opens without one opens the session. The first
response to a challenge is taken. A response that verifies opens the session at the challenge's level with its key, but in
FIELD at level 2 only with ALLOW; with a lifecycle of PROVISIONED or FIELD the session empties the key halves and withholds
KEK0. A response that does not verify is counted and opens nothing, and the fourth failure, or a later one, locks out. A
challenge without a response lapses 60 s after it was issued, or at once where that has passed. (R435 to R437.) -/
def Obligations.DebugAuthentication : Prop :=
  (∀ (r : Nat) (s : State), s.debugUp = true → s.sys.lockout = false → s.sys.level = 0 → r % 4 = 1 ∨ r % 4 = 2 →
    (debugOpen s.sys.lifecycle (r % 4) = false → debugKey s.sys.lifecycle (r % 4) (r / 4 % 4) = true →
      ∃ (t : State) (c : Challenge), exec (.dbgChal r) s = .next t ∧
        c = { level := r % 4, key := r / 4 % 4, nonce := s.sys.nonceNo, issued := s.time.now } ∧ t.sys.challenge = some c ∧
        t.out = .tdo (s.challengeRecord c) :: s.out ∧
        t.sys.nonceNo = s.sys.nonceNo + 1 ∧ t.sys.level = 0 ∧ Keeps [.debug, .out] s t) ∧
    (debugOpen s.sys.lifecycle (r % 4) = true →
      ∃ t : State, exec (.dbgChal r) s = .next t ∧ t.sys.level = r % 4 ∧ t.sys.auth = false ∧
        Keeps (andBell [.ports, .frames, .halves, .keks, .lock, .rings, .cells, .debug]) s t)) ∧
  (∀ (k sig : Bytes) (s : State), s.debugUp = true → s.sys.challenge.isSome = true → s.sys.response = none →
    ∃ t : State, exec (.dbgResp k sig) s = .next t ∧ t.sys.response = some (k, sig) ∧ t.sys.challenge = s.sys.challenge ∧
      Keeps [.debug] s t) ∧
  (∀ (c : Challenge) (r : Bytes × Bytes) (s : State), s.sys.challenge = some c → s.sys.response = some r →
    ∃ t : State, exec .debugAuthResult s = .next t ∧ t.sys.challenge = none ∧ t.sys.response = none ∧
      (s.responseOk c r.1 r.2 = true → ¬ (s.sys.lifecycle = 2 ∧ c.level = 2 ∧ s.flag Reg.sysDbgCtl 0 = false) →
        t.sys.level = c.level ∧ t.sys.auth = true ∧ t.sys.keysel = c.key ∧
        (s.sys.lifecycle = 1 ∨ s.sys.lifecycle = 2 → t.lock.halves = [] ∧ t.lock.withheld = true)) ∧
      (s.responseOk c r.1 r.2 = true → s.sys.lifecycle = 2 → c.level = 2 → s.flag Reg.sysDbgCtl 0 = false →
        t.sys.level = s.sys.level ∧ Keeps [.debug] s t) ∧
      (s.responseOk c r.1 r.2 = false → t.sys.level = s.sys.level ∧ t.sys.fails = s.sys.fails + 1 ∧
        (3 ≤ s.sys.fails → t.sys.lockout = true) ∧ Keeps [.debug, .counters] s t) ∧
      Keeps (andBell [.ports, .frames, .halves, .keks, .lock, .rings, .cells, .debug]) s t) ∧
  (∀ (c : Challenge) (s : State), s.sys.challenge = some c → s.sys.response = none →
    ∃ t : State, exec .nonceLapse s = .next t ∧ t.sys.challenge = none ∧ t.time.now = max s.time.now (c.issued + 60000000000) ∧
      Keeps [.clock, .debug] s t)

/-! ## Resets, boot and images (R447 to R463) -/

/-- Power-on, RESET_N low for 1 µs or more in a device with its supplies, the FULL command and the release of PFAIL_N after
the flush each make the device what isReset says, a booted device after a reset, with CAUSE 0, 1, 4 and 2. But for power-on,
WAKE_CAUSE survives. A shorter RESET_N pulse either resets the device or takes one free value and changes nothing else. A loss
of power leaves no key, no KEK and no record, and leaves the NAND, the fuses and the boot flash outside the boot record as
they were. (R447, R448, R454, R456.) -/
def Obligations.Resets : Prop :=
  (∀ (sel : Nat) (s : State),
    ∃ t : State, exec (.powerOn sel) s = .next t ∧ isReset s t ∧ t.sys.bootCause = 0 ∧ t.sys.bootFails = 0 ∧ t.xcvr.wakeCause = 0 ∧
      t.sys.bootSel = sel % 4 ∧ (2 ≤ sel % 4 → t.sys.safe = true ∧ t.sys.phase = 4)) ∧
  (∀ (sel ns : Nat) (s : State), s.sys.powered = true →
    (1000 ≤ ns →
      ∃ t : State, exec (.resetN sel ns) s = .next t ∧ isReset s t ∧ t.sys.bootCause = 1 ∧ t.sys.bootSel = sel % 4 ∧
        t.xcvr.wakeCause = s.xcvr.wakeCause) ∧
    (ns < 1000 →
      ∃ t : State, exec (.resetN sel ns) s = .next t ∧
        (isReset s t ∧ t.sys.bootCause = 1 ∨ t.free = s.free + 1 ∧ Keeps [.free] s t))) ∧
  (∀ (p : Path) (val : Word) (s : State), canWrite s p Reg.sysRstCmd val = true → val.bit 0 = true →
    ∃ t : State, exec (.rstCmdFull p val) s = .next t ∧ isReset s t ∧ t.sys.bootCause = 4 ∧ t.xcvr.wakeCause = s.xcvr.wakeCause) ∧
  (∀ s : State, s.cellar.pfail = true → s.cellar.flushDone = true →
    ∃ t : State, exec .pfailRelease s = .next t ∧ isReset s t ∧ t.sys.bootCause = 2 ∧ t.cellar.pfail = false ∧
      t.xcvr.wakeCause = s.xcvr.wakeCause) ∧
  (∀ s : State,
    ∃ t : State, exec .lossOfPower s = .next t ∧ t.sys.powered = false ∧ t.lock.halves = [] ∧ t.lock.keks = [] ∧ t.lock.kek0 = none ∧
      t.scriv.records = [] ∧ t.cellar.store = s.cellar.store ∧ flashKept s t ∧ t.sys.fuseState = s.sys.fuseState)

/-- While firmware is starting: its READY ends the run of failed boots, in BOOT_FAILS and in the boot record, and gives the
device a complete standby pair. Its timeout, 2 s after it started, resets the device with cause 5: of a pair that is not on
trial it counts a failure in the boot record, and rejects none; a pair on trial it rejects, and counts none. (R454 to R456.)
-/
def Obligations.BootsEnd : Prop :=
  ∀ s : State, s.sys.phase = 2 →
    (∃ t : State, exec .firmwareReady s = .next t ∧ t.sys.phase = 3 ∧ t.sys.standby = true ∧ t.sys.bootFails = 0 ∧
      t.sys.record = { s.sys.record with fails := 0 } ∧ Keeps [.firmware, .tink, .flash] s t) ∧
    (∃ t : State, exec .bootReadyTimeout s = .next t ∧ isReset s t ∧ t.sys.bootCause = 5 ∧
      (s.sys.trial = false → t.sys.record.rej = s.sys.record.rej ∧ t.sys.record.fails = min (s.sys.record.fails + 1) 255) ∧
      (∀ m u : Nat, s.sys.trial = true → s.sys.runMgmt = some m → s.sys.runMicro = some u → m < 4 → 4 ≤ u → u < 8 →
        t.sys.record.rejected m u = true ∧ t.sys.record.fails = s.sys.record.fails))

/-- ACTIVATE of a management slot whose image lists the running microcode, in RUN outside safe mode with a ready standby pair
and nothing else under way: of a valid image the standby pair loads it and the switch is requested within 10 s; of an invalid
one it ends with result 2. CONFIRM of a pair that awaits it makes it CUR and LKG. REVERT of such a pair, with no switch
requested, requests the switch back. ROLL of a microcode slot that fits the running images, outside safe mode with nothing
else under way: of a valid image every free engine holds it; of an invalid one it ends with result 3. (R460 to R462.) -/
def Obligations.FirmwareCommands : Prop :=
  ∀ (p : Path) (val : Word) (s : State), canWrite s p Reg.sysFwCmd val = true →
    let n := val.field 8 3
    (val.field 0 3 = 1 → s.sys.safe = false → n < 4 →
      s.runningMicrocode.all (fun v => s.lists n v) = true → s.sys.roll ≠ 1 → s.sys.busyOp ≠ 1 → s.sys.confirmPend = false →
      s.sys.pwr = 0 → s.standbyReady = true →
      ∃ t : State, exec (.fwCmdActivate p val) s = .next t ∧ t.sys.runMgmt = s.sys.runMgmt ∧
        (s.imageValid n = true → t.sys.actSlot = n ∧ t.sys.busyOp = 1 ∧ t.sys.standby = false ∧
          t.sys.switchReq = some (.activate, s.time.now + 10000000000) ∧ Keeps [.firmware, .locks, .parity] s t) ∧
        (s.imageValid n = false → t.sys.fwResult = 2 ∧ t.sys.standby = s.sys.standby ∧ t.sys.switchReq = s.sys.switchReq ∧
          Keeps (andBell [.firmware, .locks, .parity]) s t)) ∧
    (val.field 0 3 = 2 → s.sys.confirmPend = true → s.sys.confirmRoll = false →
      ∃ t : State, exec (.fwCmdConfirm p val) s = .next t ∧ t.sys.confirmPend = false ∧ t.sys.fwResult = 1 ∧
        t.sys.record.cur = pairCode s.sys.runMgmt s.sys.runMicro ∧ t.sys.record.lkg = t.sys.record.cur ∧
        Keeps (andBell [.firmware, .flash, .locks, .parity]) s t) ∧
    (val.field 0 3 = 3 → s.sys.confirmPend = true → s.sys.confirmRoll = false → s.sys.switchReq = none →
      ∃ t : State, exec (.fwCmdRevert p val) s = .next t ∧ t.sys.switchReq = some (.revert, s.time.now + 10000000000) ∧
        t.sys.confirmPend = true ∧ Keeps [.firmware, .locks, .parity] s t) ∧
    (∀ m : Nat, val.field 0 3 = 4 → s.sys.runMgmt = some m → s.sys.safe = false → 4 ≤ n →
      s.lists n (s.slotVersion m) = true → s.lists m (s.slotVersion n) = true →
      s.runningMicrocode.all (fun v => s.lists m v) = true → s.sys.busyOp ≠ 1 → s.sys.confirmPend = false → s.sys.roll ≠ 1 →
      ∃ t : State, exec (.fwCmdRoll p val) s = .next t ∧
        (s.imageValid n = true → t.sys.rollNew = s.slotVersion n ∧ t.sys.rollSlot = n ∧ t.sys.roll ≠ 0 ∧
          (∀ k ∈ s.freeEngines, (t.engine k).mcode = s.slotVersion n)) ∧
        (s.imageValid n = false → t.sys.fwResult = 3 ∧ t.sys.roll = s.sys.roll) ∧
        Keeps (andBell [.firmware, .engines, .ports, .flash, .locks, .parity]) s t)

/-- A write of FL_DATA stores its 8 bytes at the index into the page buffer, which moves on by one and wraps at 32, and
changes no other byte of the buffer; one of FL_ADDR returns the index to 0. PROGRAM of a slot that is not in use, where flash
programs, makes the slot's page the buffer's 256 bytes and changes no other byte. ERASE of a slot that is not in use, where
flash erases, makes every byte of the slot 0xFF and changes no other byte outside the boot record. Both end with result 1.
FW_SEL captures a slot's header. (R458, R463.) -/
def Obligations.BootFlash : Prop :=
  ∀ (p : Path) (val : Word) (s : State),
    let n := val.field 8 3
    let page := slotBase n + 256 * s.fld Reg.sysFlAddr 8 14
    (canWrite s p Reg.sysFlData val = true → s.sys.bufIdx < 32 →
      ∃ t : State, exec (.flData p val) s = .next t ∧ t.sys.bufIdx = (s.sys.bufIdx + 1) % 32 ∧
        (∀ i < 8, Memory.read 0#8 t.sys.pageBuf (8 * s.sys.bufIdx + i) = (val.extractLsb' (8 * i) 8)) ∧
        (∀ a : Nat, a < 8 * s.sys.bufIdx ∨ 8 * s.sys.bufIdx + 8 ≤ a →
          Memory.read 0#8 t.sys.pageBuf a = Memory.read 0#8 s.sys.pageBuf a) ∧
        Keeps [.pageBuf, .firmware, .locks, .parity] s t) ∧
    (canWrite s p Reg.sysFlAddr val = true →
      ∃ t : State, exec (.flAddr p val) s = .next t ∧ t.sys.bufIdx = 0 ∧ Keeps [.firmware, .inForce, .locks, .parity] s t) ∧
    (canWrite s p Reg.sysFwCmd val = true → val.field 0 3 = 6 → s.flag Reg.sysFlAddr 22 = false → s.slotInUse n = false →
      ∃ t : State, exec (.fwCmdProgram p val true) s = .next t ∧ t.sys.fwResult = 1 ∧
        (∀ i < 256, t.flashRead (page + i) = Memory.read 0#8 s.sys.pageBuf i) ∧
        (∀ a : Nat, a < page ∨ page + 256 ≤ a → t.flashRead a = s.flashRead a) ∧
        Keeps (andBell [.flash, .firmware, .locks, .parity]) s t) ∧
    (canWrite s p Reg.sysFwCmd val = true → val.field 0 3 = 5 → s.slotInUse n = false →
      ∃ t : State, exec (.fwCmdErase p val true) s = .next t ∧ t.sys.fwResult = 1 ∧
        (s.sys.recordAt < 4096 → ∀ a : Nat, slotAt a = some n → t.flashRead a = 0xFF#8) ∧
        (s.sys.recordAt < 4096 → ∀ a : Nat, slotAt a ≠ some n → a < 0x20000 ∨ 0x40000 ≤ a → t.flashRead a = s.flashRead a) ∧
        Keeps (andBell [.flash, .firmware, .locks, .parity]) s t) ∧
    (canWrite s p Reg.sysFwSel val = true →
      ∃ t : State, exec (.fwSel p val) s = .next t ∧
        t.sys.fwPeek = pack [(32, s.slotVersion (val.field 0 3)), (8, s.slotCompat (val.field 0 3) % 256),
          (0, b2n (s.imageValid (val.field 0 3)))] ∧
        Keeps [.firmware, .inForce, .locks, .parity] s t)

/-- The switch that is requested is made while no command executes and the loader is idle: the active role moves to the other
pair and is counted. One for an activation then awaits its confirmation, with result 1; one for a reversal has the old
management image run again, with result 6. At the end of its 10 s, a switch for an activation that was not made ends with
result 10 and the standby pair is complete again, a periodic one is given up, and one for a reversal is made. At its instant,
a confirmation of a pair that has not come requests the switch back. (R459 to R461.) -/
def Obligations.PairSwitches : Prop :=
  (∀ (c : SwitchCause) (d : Nat) (s : State), s.commandsQuiet = true → s.sys.switchReq = some (c, d) →
    ∃ t : State, exec .pairSwitch s = .next t ∧ t.sys.pair = 1 - s.sys.pair ∧ t.sys.switchReq = none ∧
      t.counter Reg.sysFwHandovers = satAdd (s.counter Reg.sysFwHandovers) 1 ∧
      (c = .activate → t.sys.confirmPend = true ∧ t.sys.runMgmt = some s.sys.actSlot ∧ t.sys.oldMgmt = s.sys.runMgmt ∧
        t.sys.fwResult = 1 ∧ t.sys.confirmAt = s.time.now + 1000000000 * s.fld Reg.sysFwCtl 0 17) ∧
      (c = .revert → t.sys.confirmPend = false ∧ t.sys.runMgmt = s.sys.oldMgmt ∧ t.sys.fwResult = 6 ∧
        t.counter Reg.sysFwReverts = satAdd (s.counter Reg.sysFwReverts) 1) ∧
      Keeps (andBell [.firmware, .flash, .tink]) s t) ∧
  (∀ (c : SwitchCause) (d : Nat) (s : State), s.sys.switchReq = some (c, d) →
    ∃ t : State, exec .switchTimeout s = .next t ∧ t.sys.switchReq = none ∧ t.time.now = max s.time.now d ∧
      (c = .activate → t.sys.standby = true ∧ t.sys.busyOp = 0 ∧ t.sys.fwResult = 10 ∧ t.sys.pair = s.sys.pair ∧
        Keeps (andBell [.clock, .firmware]) s t) ∧
      (c = .periodic → t.sys.pair = s.sys.pair ∧ t.tink.pairRetryAt = t.time.now + 3600000000000 ∧
        Keeps [.clock, .firmware, .tink] s t) ∧
      (c = .revert → t.sys.pair = 1 - s.sys.pair ∧ t.sys.confirmPend = false ∧ t.sys.runMgmt = s.sys.oldMgmt) ∧
      Keeps (andBell [.commit, .clock, .tai, .banks, .loader, .watch, .lock, .rings, .tink, .firmware, .flash]) s t) ∧
  (∀ s : State, s.sys.confirmPend = true → s.sys.confirmRoll = false → s.sys.switchReq = none →
    ∃ t : State, exec .confirmTimeout s = .next t ∧ t.time.now = max s.time.now s.sys.confirmAt ∧
      t.sys.switchReq = some (.revert, t.time.now + 10000000000) ∧ Keeps [.clock, .firmware] s t)
end

