-- ==== Sys2Proof/Laws/Keeps.lean ====
section
/-! SUPPORT. How frames compose: Keeps is reflexive and transitive, passes through choices and folds, and a record update
changes the parts of its unit at most. Every frame lemma of an operation (keeps_<operation>) is put together from these. -/

namespace Sys2Proof.Laws

open Sys2Proof.Machine Sys2Proof.Safety

theorem Part.same_refl (p : Part) (s : State) : p.same s s := by
  cases p <;> simp [Part.same]

theorem Part.same_trans {p : Part} {s t u : State} (h : p.same s t) (k : p.same t u) : p.same s u := by
  cases p <;> simp only [Part.same] at * <;> simp_all

theorem Keeps.refl (l : List Part) (s : State) : Keeps l s s := fun p _ => Part.same_refl p s

theorem Keeps.trans {l : List Part} {s t u : State} (h : Keeps l s t) (k : Keeps l t u) : Keeps l s u :=
  fun p hp => Part.same_trans (h p hp) (k p hp)

theorem Keeps.mono {l m : List Part} {s t : State} (h : Keeps l s t) (hl : (l.all fun p => m.contains p) = true) : Keeps m s t := by
  intro p hp
  refine h p (fun hm => hp ?_)
  have := List.all_eq_true.mp hl p hm
  simpa using this

/-- What a reset may change: everything but the queue of commands. -/
def allButPending : List Part :=
  [.epoch, .freeze, .commit, .snap, .clock, .tai, .inForce, .staged, .held, .counters, .snapCopies, .locks, .parity,
    .owner, .engines, .ports, .xcvr, .frames, .banks, .loader, .watch, .ops, .records, .scriv, .subs, .bitmaps,
    .crier, .halves, .keks, .lock, .epA, .epB, .rings, .bell, .routes, .cells, .storeroom, .store, .cellar, .srcs,
    .stew, .tink, .power, .fuses, .lifecycle, .debug, .firmware, .flash, .pageBuf, .temp, .free, .out]

/-- A device reset keeps the queue. -/
theorem keeps_pending {s t : State} (h : t.pending = s.pending) : Keeps allButPending s t := by
  intro p hp
  cases p
  case pending => exact h
  all_goals exact absurd (by decide) hp

/-- Being among the named parts is transitive: for operations that take another operation. -/
theorem all_trans {k l m : List Part} (h : (k.all fun p => l.contains p) = true) (hl : (l.all fun p => m.contains p) = true) :
    (k.all fun p => m.contains p) = true := by
  rw [List.all_eq_true] at *
  intro p hp
  exact hl p (by simpa using h p hp)

/-- One more operation after t: it changes the parts l at most, which are all among m. -/
theorem Keeps.step {l m : List Part} {s t u : State} (h : Keeps l t u) (hl : (l.all fun p => m.contains p) = true)
    (k : Keeps m s t) : Keeps m s u := Keeps.trans k (Keeps.mono h hl)

theorem Keeps.ite {c : Prop} [Decidable c] {l : List Part} {s t u : State} (h : Keeps l s t) (k : Keeps l s u) :
    Keeps l s (if c then t else u) := by
  split
  · exact h
  · exact k

theorem Keeps.foldl {α : Type} {l : List Part} {f : State → α → State} {s t : State} {xs : List α}
    (hf : ∀ (u : State) (x : α), Keeps l u (f u x)) (h : Keeps l s t) : Keeps l s (xs.foldl f t) := by
  induction xs generalizing t with
  | nil => exact h
  | cons x xs ih => exact ih (Keeps.trans h (hf t x))

/-- Keeps, for each kind of answer that an operation gives: a pair with the state first, a state where there is one, a
pair where there is one, and the outcome of a command. -/
def FstKeeps {α : Type} (l : List Part) (s : State) (x : State × α) : Prop := Keeps l s x.1
def OptKeeps (l : List Part) (s : State) (x : Option State) : Prop := ∀ t : State, x = some t → Keeps l s t
def OptFstKeeps {α : Type} (l : List Part) (s : State) (x : Option (State × α)) : Prop :=
  ∀ (t : State) (a : α), x = some (t, a) → Keeps l s t
def AnswerKeeps (l : List Part) (s : State) (x : Answer) : Prop := ∀ t : State, x = .next t → Keeps l s t

section
variable {α : Type} {c : Prop} [Decidable c] {l m : List Part} {s t : State}

theorem FstKeeps.mk {a : α} (h : Keeps l s t) : FstKeeps l s (t, a) := h

theorem FstKeeps.step {x : State × α} (h : FstKeeps l t x) (hl : (l.all fun p => m.contains p) = true) (k : Keeps m s t) :
    FstKeeps m s x := Keeps.step h hl k

theorem FstKeeps.ite {x y : State × α} (h : FstKeeps l s x) (k : FstKeeps l s y) : FstKeeps l s (if c then x else y) := by
  split
  · exact h
  · exact k

theorem FstKeeps.eq {x : State × α} {a : α} (h : FstKeeps l s x) (e : x = (t, a)) : Keeps l s t := by
  subst e
  exact h

theorem OptKeeps.some (h : Keeps l s t) : OptKeeps l s (some t) := fun _ e => Option.some.inj e ▸ h

theorem OptKeeps.none : OptKeeps l s none := fun _ e => by simp at e

theorem OptKeeps.step {x : Option State} (h : OptKeeps l t x) (hl : (l.all fun p => m.contains p) = true)
    (k : Keeps m s t) : OptKeeps m s x := fun u e => Keeps.step (h u e) hl k

theorem OptKeeps.ite {x y : Option State} (h : OptKeeps l s x) (k : OptKeeps l s y) : OptKeeps l s (if c then x else y) := by
  split
  · exact h
  · exact k

theorem OptKeeps.getD {x : Option State} (h : OptKeeps l s x) (k : Keeps l s t) : Keeps l s (x.getD t) := by
  cases x with
  | none => exact k
  | some u => exact h u rfl

theorem OptFstKeeps.some {a : α} (h : Keeps l s t) : OptFstKeeps l s (some (t, a)) :=
  fun _ _ e => (Prod.mk.inj (Option.some.inj e)).1 ▸ h

theorem OptFstKeeps.none : OptFstKeeps (α := α) l s none := fun _ _ e => by simp at e

theorem OptFstKeeps.step {x : Option (State × α)} (h : OptFstKeeps l t x) (hl : (l.all fun p => m.contains p) = true)
    (k : Keeps m s t) : OptFstKeeps m s x := fun u a e => Keeps.step (h u a e) hl k

theorem OptFstKeeps.ite {x y : Option (State × α)} (h : OptFstKeeps l s x) (k : OptFstKeeps l s y) :
    OptFstKeeps l s (if c then x else y) := by
  split
  · exact h
  · exact k

theorem AnswerKeeps.next (h : Keeps l s t) : AnswerKeeps l s (.next t) := fun _ e => Host.Outcome.next.inj e ▸ h

theorem AnswerKeeps.refused {r : Refusal} : AnswerKeeps l s (.refused r) := fun _ e => by simp at e

theorem AnswerKeeps.step {x : Answer} (h : AnswerKeeps l t x) (hl : (l.all fun p => m.contains p) = true)
    (k : Keeps m s t) : AnswerKeeps m s x := fun u e => Keeps.step (h u e) hl k

theorem AnswerKeeps.ite {x y : Answer} (h : AnswerKeeps l s x) (k : AnswerKeeps l s y) : AnswerKeeps l s (if c then x else y) := by
  split
  · exact h
  · exact k

end

end Sys2Proof.Laws
end

