-- ==== Sys2Proof/Laws/Fields.lean ====
section
/-! SUPPORT. What a frame says of each field: a field whose part is not among the named parts is as it was. The hypothesis
on the part is closed by rfl for a list written out. -/

namespace Sys2Proof.Laws

open Sys2Proof.Machine Sys2Proof.Safety

variable {l : List Part} {s t : State}

theorem Keeps.pending (h : Keeps l s t) (hp : l.contains .pending = false) : t.pending = s.pending :=
  (h .pending (by simpa using hp))
theorem Keeps.gen_st (h : Keeps l s t) (hp : l.contains .epoch = false) : t.gen.st = s.gen.st :=
  (h .epoch (by simpa using hp)).1
theorem Keeps.gen_startHeld (h : Keeps l s t) (hp : l.contains .epoch = false) : t.gen.startHeld = s.gen.startHeld :=
  (h .epoch (by simpa using hp)).2.1
theorem Keeps.gen_epochNum (h : Keeps l s t) (hp : l.contains .epoch = false) : t.gen.epochNum = s.gen.epochNum :=
  (h .epoch (by simpa using hp)).2.2.1
theorem Keeps.gen_boundaryTai (h : Keeps l s t) (hp : l.contains .epoch = false) : t.gen.boundaryTai = s.gen.boundaryTai :=
  (h .epoch (by simpa using hp)).2.2.2.1
theorem Keeps.gen_epochStart (h : Keeps l s t) (hp : l.contains .epoch = false) : t.gen.epochStart = s.gen.epochStart :=
  (h .epoch (by simpa using hp)).2.2.2.2.1
theorem Keeps.gen_nextAt (h : Keeps l s t) (hp : l.contains .epoch = false) : t.gen.nextAt = s.gen.nextAt :=
  (h .epoch (by simpa using hp)).2.2.2.2.2.1
theorem Keeps.gen_cutDone (h : Keeps l s t) (hp : l.contains .epoch = false) : t.gen.cutDone = s.gen.cutDone :=
  (h .epoch (by simpa using hp)).2.2.2.2.2.2.1
theorem Keeps.gen_cutTai (h : Keeps l s t) (hp : l.contains .epoch = false) : t.gen.cutTai = s.gen.cutTai :=
  (h .epoch (by simpa using hp)).2.2.2.2.2.2.2.1
theorem Keeps.gen_silentAt (h : Keeps l s t) (hp : l.contains .epoch = false) : t.gen.silentAt = s.gen.silentAt :=
  (h .epoch (by simpa using hp)).2.2.2.2.2.2.2.2
theorem Keeps.gen_freeze (h : Keeps l s t) (hp : l.contains .freeze = false) : t.gen.freeze = s.gen.freeze :=
  (h .freeze (by simpa using hp)).1
theorem Keeps.gen_thawAt (h : Keeps l s t) (hp : l.contains .freeze = false) : t.gen.thawAt = s.gen.thawAt :=
  (h .freeze (by simpa using hp)).2.1
theorem Keeps.gen_holdLate (h : Keeps l s t) (hp : l.contains .freeze = false) : t.gen.holdLate = s.gen.holdLate :=
  (h .freeze (by simpa using hp)).2.2
theorem Keeps.gen_lastCommit (h : Keeps l s t) (hp : l.contains .commit = false) : t.gen.lastCommit = s.gen.lastCommit :=
  (h .commit (by simpa using hp)).1
theorem Keeps.gen_commitBusy (h : Keeps l s t) (hp : l.contains .commit = false) : t.gen.commitBusy = s.gen.commitBusy :=
  (h .commit (by simpa using hp)).2.1
theorem Keeps.gen_commitHeld (h : Keeps l s t) (hp : l.contains .commit = false) : t.gen.commitHeld = s.gen.commitHeld :=
  (h .commit (by simpa using hp)).2.2.1
theorem Keeps.gen_swapPending (h : Keeps l s t) (hp : l.contains .commit = false) : t.gen.swapPending = s.gen.swapPending :=
  (h .commit (by simpa using hp)).2.2.2.1
theorem Keeps.gen_activeGen (h : Keeps l s t) (hp : l.contains .commit = false) : t.gen.activeGen = s.gen.activeGen :=
  (h .commit (by simpa using hp)).2.2.2.2
theorem Keeps.gen_snapBusy (h : Keeps l s t) (hp : l.contains .snap = false) : t.gen.snapBusy = s.gen.snapBusy :=
  (h .snap (by simpa using hp)).1
theorem Keeps.gen_snapAt (h : Keeps l s t) (hp : l.contains .snap = false) : t.gen.snapAt = s.gen.snapAt :=
  (h .snap (by simpa using hp)).2.1
theorem Keeps.gen_snapClear (h : Keeps l s t) (hp : l.contains .snap = false) : t.gen.snapClear = s.gen.snapClear :=
  (h .snap (by simpa using hp)).2.2.1
theorem Keeps.gen_snapHeld (h : Keeps l s t) (hp : l.contains .snap = false) : t.gen.snapHeld = s.gen.snapHeld :=
  (h .snap (by simpa using hp)).2.2.2.1
theorem Keeps.gen_snapSeq (h : Keeps l s t) (hp : l.contains .snap = false) : t.gen.snapSeq = s.gen.snapSeq :=
  (h .snap (by simpa using hp)).2.2.2.2.1
theorem Keeps.gen_snapAuto (h : Keeps l s t) (hp : l.contains .snap = false) : t.gen.snapAuto = s.gen.snapAuto :=
  (h .snap (by simpa using hp)).2.2.2.2.2.1
theorem Keeps.gen_snapWrite (h : Keeps l s t) (hp : l.contains .snap = false) : t.gen.snapWrite = s.gen.snapWrite :=
  (h .snap (by simpa using hp)).2.2.2.2.2.2
theorem Keeps.gen (h : Keeps l s t) (h1 : l.contains .epoch = false) (h2 : l.contains .freeze = false) (h3 : l.contains .commit = false) (h4 : l.contains .snap = false) : t.gen = s.gen := by
  have e : ∀ x y : Gen, x.st = y.st ∧ x.startHeld = y.startHeld ∧ x.epochNum = y.epochNum ∧ x.boundaryTai = y.boundaryTai ∧ x.lastCommit = y.lastCommit ∧ x.epochStart = y.epochStart ∧ x.nextAt = y.nextAt ∧ x.cutDone = y.cutDone ∧ x.cutTai = y.cutTai ∧ x.freeze = y.freeze ∧ x.thawAt = y.thawAt ∧ x.holdLate = y.holdLate ∧ x.commitBusy = y.commitBusy ∧ x.commitHeld = y.commitHeld ∧ x.swapPending = y.swapPending ∧ x.activeGen = y.activeGen ∧ x.silentAt = y.silentAt ∧ x.snapBusy = y.snapBusy ∧ x.snapAt = y.snapAt ∧ x.snapClear = y.snapClear ∧ x.snapAuto = y.snapAuto ∧ x.snapWrite = y.snapWrite ∧ x.snapHeld = y.snapHeld ∧ x.snapSeq = y.snapSeq → x = y := by
    rintro ⟨⟩ ⟨⟩ h
    simpa using h
  exact e _ _ ⟨Keeps.gen_st h h1, Keeps.gen_startHeld h h1, Keeps.gen_epochNum h h1, Keeps.gen_boundaryTai h h1, Keeps.gen_lastCommit h h3, Keeps.gen_epochStart h h1, Keeps.gen_nextAt h h1, Keeps.gen_cutDone h h1, Keeps.gen_cutTai h h1, Keeps.gen_freeze h h2, Keeps.gen_thawAt h h2, Keeps.gen_holdLate h h2, Keeps.gen_commitBusy h h3, Keeps.gen_commitHeld h h3, Keeps.gen_swapPending h h3, Keeps.gen_activeGen h h3, Keeps.gen_silentAt h h1, Keeps.gen_snapBusy h h4, Keeps.gen_snapAt h h4, Keeps.gen_snapClear h h4, Keeps.gen_snapAuto h h4, Keeps.gen_snapWrite h h4, Keeps.gen_snapHeld h h4, Keeps.gen_snapSeq h h4⟩
theorem Keeps.time_now (h : Keeps l s t) (hp : l.contains .clock = false) : t.time.now = s.time.now :=
  (h .clock (by simpa using hp))
theorem Keeps.time_offset (h : Keeps l s t) (hp : l.contains .tai = false) : t.time.offset = s.time.offset := by
  have e := congrArg TimeBase.offset (show { t.time with now := 0 } = { s.time with now := 0 } from h .tai (by simpa using hp))
  exact e
theorem Keeps.time_prevOffset (h : Keeps l s t) (hp : l.contains .tai = false) : t.time.prevOffset = s.time.prevOffset := by
  have e := congrArg TimeBase.prevOffset (show { t.time with now := 0 } = { s.time with now := 0 } from h .tai (by simpa using hp))
  exact e
theorem Keeps.time_stepAt (h : Keeps l s t) (hp : l.contains .tai = false) : t.time.stepAt = s.time.stepAt := by
  have e := congrArg TimeBase.stepAt (show { t.time with now := 0 } = { s.time with now := 0 } from h .tai (by simpa using hp))
  exact e
theorem Keeps.time_stepLast (h : Keeps l s t) (hp : l.contains .tai = false) : t.time.stepLast = s.time.stepLast := by
  have e := congrArg TimeBase.stepLast (show { t.time with now := 0 } = { s.time with now := 0 } from h .tai (by simpa using hp))
  exact e
theorem Keeps.time_stepTai (h : Keeps l s t) (hp : l.contains .tai = false) : t.time.stepTai = s.time.stepTai := by
  have e := congrArg TimeBase.stepTai (show { t.time with now := 0 } = { s.time with now := 0 } from h .tai (by simpa using hp))
  exact e
theorem Keeps.time_set (h : Keeps l s t) (hp : l.contains .tai = false) : t.time.set = s.time.set := by
  have e := congrArg TimeBase.set (show { t.time with now := 0 } = { s.time with now := 0 } from h .tai (by simpa using hp))
  exact e
theorem Keeps.time_ppsCapture (h : Keeps l s t) (hp : l.contains .tai = false) : t.time.ppsCapture = s.time.ppsCapture := by
  have e := congrArg TimeBase.ppsCapture (show { t.time with now := 0 } = { s.time with now := 0 } from h .tai (by simpa using hp))
  exact e
theorem Keeps.time_ppsLast (h : Keeps l s t) (hp : l.contains .tai = false) : t.time.ppsLast = s.time.ppsLast := by
  have e := congrArg TimeBase.ppsLast (show { t.time with now := 0 } = { s.time with now := 0 } from h .tai (by simpa using hp))
  exact e
theorem Keeps.time_ppsRef (h : Keeps l s t) (hp : l.contains .tai = false) : t.time.ppsRef = s.time.ppsRef := by
  have e := congrArg TimeBase.ppsRef (show { t.time with now := 0 } = { s.time with now := 0 } from h .tai (by simpa using hp))
  exact e
theorem Keeps.time_ppsUsed (h : Keeps l s t) (hp : l.contains .tai = false) : t.time.ppsUsed = s.time.ppsUsed := by
  have e := congrArg TimeBase.ppsUsed (show { t.time with now := 0 } = { s.time with now := 0 } from h .tai (by simpa using hp))
  exact e
theorem Keeps.time_ppsLost (h : Keeps l s t) (hp : l.contains .tai = false) : t.time.ppsLost = s.time.ppsLost := by
  have e := congrArg TimeBase.ppsLost (show { t.time with now := 0 } = { s.time with now := 0 } from h .tai (by simpa using hp))
  exact e
theorem Keeps.time_ppsBase (h : Keeps l s t) (hp : l.contains .tai = false) : t.time.ppsBase = s.time.ppsBase := by
  have e := congrArg TimeBase.ppsBase (show { t.time with now := 0 } = { s.time with now := 0 } from h .tai (by simpa using hp))
  exact e
theorem Keeps.time_requests (h : Keeps l s t) (hp : l.contains .tai = false) : t.time.requests = s.time.requests := by
  have e := congrArg TimeBase.requests (show { t.time with now := 0 } = { s.time with now := 0 } from h .tai (by simpa using hp))
  exact e
theorem Keeps.time (h : Keeps l s t) (h1 : l.contains .clock = false) (h2 : l.contains .tai = false) : t.time = s.time := by
  have e : ∀ x y : TimeBase, x.now = y.now ∧ x.offset = y.offset ∧ x.prevOffset = y.prevOffset ∧ x.stepAt = y.stepAt ∧ x.stepLast = y.stepLast ∧ x.stepTai = y.stepTai ∧ x.set = y.set ∧ x.ppsCapture = y.ppsCapture ∧ x.ppsLast = y.ppsLast ∧ x.ppsRef = y.ppsRef ∧ x.ppsUsed = y.ppsUsed ∧ x.ppsLost = y.ppsLost ∧ x.ppsBase = y.ppsBase ∧ x.requests = y.requests → x = y := by
    rintro ⟨⟩ ⟨⟩ h
    simpa using h
  exact e _ _ ⟨Keeps.time_now h h1, Keeps.time_offset h h2, Keeps.time_prevOffset h h2, Keeps.time_stepAt h h2, Keeps.time_stepLast h h2, Keeps.time_stepTai h h2, Keeps.time_set h h2, Keeps.time_ppsCapture h h2, Keeps.time_ppsLast h h2, Keeps.time_ppsRef h h2, Keeps.time_ppsUsed h h2, Keeps.time_ppsLost h h2, Keeps.time_ppsBase h h2, Keeps.time_requests h h2⟩
theorem Keeps.regs_inForce (h : Keeps l s t) (hp : l.contains .inForce = false) : t.regs.inForce = s.regs.inForce :=
  (h .inForce (by simpa using hp))
theorem Keeps.regs_staged (h : Keeps l s t) (hp : l.contains .staged = false) : t.regs.staged = s.regs.staged :=
  (h .staged (by simpa using hp))
theorem Keeps.regs_held (h : Keeps l s t) (hp : l.contains .held = false) : t.regs.held = s.regs.held :=
  (h .held (by simpa using hp))
theorem Keeps.regs_counters (h : Keeps l s t) (hp : l.contains .counters = false) : t.regs.counters = s.regs.counters :=
  (h .counters (by simpa using hp))
theorem Keeps.regs_holding (h : Keeps l s t) (hp : l.contains .snapCopies = false) : t.regs.holding = s.regs.holding :=
  (h .snapCopies (by simpa using hp)).1
theorem Keeps.regs_visible (h : Keeps l s t) (hp : l.contains .snapCopies = false) : t.regs.visible = s.regs.visible :=
  (h .snapCopies (by simpa using hp)).2
theorem Keeps.regs_unlockedA (h : Keeps l s t) (hp : l.contains .locks = false) : t.regs.unlockedA = s.regs.unlockedA :=
  (h .locks (by simpa using hp)).1
theorem Keeps.regs_unlockedB (h : Keeps l s t) (hp : l.contains .locks = false) : t.regs.unlockedB = s.regs.unlockedB :=
  (h .locks (by simpa using hp)).2.1
theorem Keeps.regs_unlockedM (h : Keeps l s t) (hp : l.contains .locks = false) : t.regs.unlockedM = s.regs.unlockedM :=
  (h .locks (by simpa using hp)).2.2
theorem Keeps.regs_badInForce (h : Keeps l s t) (hp : l.contains .parity = false) : t.regs.badInForce = s.regs.badInForce :=
  (h .parity (by simpa using hp)).1
theorem Keeps.regs_waiting (h : Keeps l s t) (hp : l.contains .parity = false) : t.regs.waiting = s.regs.waiting :=
  (h .parity (by simpa using hp)).2.1
theorem Keeps.regs_parityInForce (h : Keeps l s t) (hp : l.contains .parity = false) : t.regs.parityInForce = s.regs.parityInForce :=
  (h .parity (by simpa using hp)).2.2.1
theorem Keeps.regs_stagedLost (h : Keeps l s t) (hp : l.contains .parity = false) : t.regs.stagedLost = s.regs.stagedLost :=
  (h .parity (by simpa using hp)).2.2.2.1
theorem Keeps.regs_parityAddr (h : Keeps l s t) (hp : l.contains .parity = false) : t.regs.parityAddr = s.regs.parityAddr :=
  (h .parity (by simpa using hp)).2.2.2.2.1
theorem Keeps.regs_upset (h : Keeps l s t) (hp : l.contains .parity = false) : t.regs.upset = s.regs.upset :=
  (h .parity (by simpa using hp)).2.2.2.2.2.1
theorem Keeps.regs_reload (h : Keeps l s t) (hp : l.contains .parity = false) : t.regs.reload = s.regs.reload :=
  (h .parity (by simpa using hp)).2.2.2.2.2.2
theorem Keeps.regs_owner (h : Keeps l s t) (hp : l.contains .owner = false) : t.regs.owner = s.regs.owner :=
  (h .owner (by simpa using hp)).1
theorem Keeps.regs_ownCause (h : Keeps l s t) (hp : l.contains .owner = false) : t.regs.ownCause = s.regs.ownCause :=
  (h .owner (by simpa using hp)).2.1
theorem Keeps.regs_beatAt (h : Keeps l s t) (hp : l.contains .owner = false) : t.regs.beatAt = s.regs.beatAt :=
  (h .owner (by simpa using hp)).2.2
theorem Keeps.regs (h : Keeps l s t) (h1 : l.contains .inForce = false) (h2 : l.contains .staged = false) (h3 : l.contains .held = false) (h4 : l.contains .counters = false) (h5 : l.contains .snapCopies = false) (h6 : l.contains .locks = false) (h7 : l.contains .parity = false) (h8 : l.contains .owner = false) : t.regs = s.regs := by
  have e : ∀ x y : RegFile, x.inForce = y.inForce ∧ x.staged = y.staged ∧ x.held = y.held ∧ x.counters = y.counters ∧ x.holding = y.holding ∧ x.visible = y.visible ∧ x.unlockedA = y.unlockedA ∧ x.unlockedB = y.unlockedB ∧ x.unlockedM = y.unlockedM ∧ x.badInForce = y.badInForce ∧ x.waiting = y.waiting ∧ x.upset = y.upset ∧ x.reload = y.reload ∧ x.parityInForce = y.parityInForce ∧ x.stagedLost = y.stagedLost ∧ x.parityAddr = y.parityAddr ∧ x.owner = y.owner ∧ x.ownCause = y.ownCause ∧ x.beatAt = y.beatAt → x = y := by
    rintro ⟨⟩ ⟨⟩ h
    simpa using h
  exact e _ _ ⟨Keeps.regs_inForce h h1, Keeps.regs_staged h h2, Keeps.regs_held h h3, Keeps.regs_counters h h4, Keeps.regs_holding h h5, Keeps.regs_visible h h5, Keeps.regs_unlockedA h h6, Keeps.regs_unlockedB h h6, Keeps.regs_unlockedM h h6, Keeps.regs_badInForce h h7, Keeps.regs_waiting h h7, Keeps.regs_upset h h7, Keeps.regs_reload h h7, Keeps.regs_parityInForce h h7, Keeps.regs_stagedLost h h7, Keeps.regs_parityAddr h h7, Keeps.regs_owner h h8, Keeps.regs_ownCause h h8, Keeps.regs_beatAt h h8⟩
theorem Keeps.engines (h : Keeps l s t) (hp : l.contains .engines = false) : t.engines = s.engines :=
  (h .engines (by simpa using hp))
theorem Keeps.ports (h : Keeps l s t) (hp : l.contains .ports = false) : t.ports = s.ports :=
  (h .ports (by simpa using hp))
theorem Keeps.xcvr (h : Keeps l s t) (hp : l.contains .xcvr = false) : t.xcvr = s.xcvr :=
  (h .xcvr (by simpa using hp))
theorem Keeps.frames (h : Keeps l s t) (hp : l.contains .frames = false) : t.frames = s.frames :=
  (h .frames (by simpa using hp)).1
theorem Keeps.nextFrame (h : Keeps l s t) (hp : l.contains .frames = false) : t.nextFrame = s.nextFrame :=
  (h .frames (by simpa using hp)).2
theorem Keeps.watch_bank0 (h : Keeps l s t) (hp : l.contains .banks = false) : t.watch.bank0 = s.watch.bank0 :=
  (h .banks (by simpa using hp)).1
theorem Keeps.watch_bank1 (h : Keeps l s t) (hp : l.contains .banks = false) : t.watch.bank1 = s.watch.bank1 :=
  (h .banks (by simpa using hp)).2
theorem Keeps.watch_loader (h : Keeps l s t) (hp : l.contains .loader = false) : t.watch.loader = s.watch.loader :=
  (h .loader (by simpa using hp))
theorem Keeps.watch_states (h : Keeps l s t) (hp : l.contains .watch = false) : t.watch.states = s.watch.states := by
  have e := congrArg WatchUnit.states (show { t.watch with bank0 := {}, bank1 := {}, loader := {} } = { s.watch with bank0 := {}, bank1 := {}, loader := {} } from h .watch (by simpa using hp))
  exact e
theorem Keeps.watch_sweepPos (h : Keeps l s t) (hp : l.contains .watch = false) : t.watch.sweepPos = s.watch.sweepPos := by
  have e := congrArg WatchUnit.sweepPos (show { t.watch with bank0 := {}, bank1 := {}, loader := {} } = { s.watch with bank0 := {}, bank1 := {}, loader := {} } from h .watch (by simpa using hp))
  exact e
theorem Keeps.watch_sweepBegan (h : Keeps l s t) (hp : l.contains .watch = false) : t.watch.sweepBegan = s.watch.sweepBegan := by
  have e := congrArg WatchUnit.sweepBegan (show { t.watch with bank0 := {}, bank1 := {}, loader := {} } = { s.watch with bank0 := {}, bank1 := {}, loader := {} } from h .watch (by simpa using hp))
  exact e
theorem Keeps.watch_sweepAfterCut (h : Keeps l s t) (hp : l.contains .watch = false) : t.watch.sweepAfterCut = s.watch.sweepAfterCut := by
  have e := congrArg WatchUnit.sweepAfterCut (show { t.watch with bank0 := {}, bank1 := {}, loader := {} } = { s.watch with bank0 := {}, bank1 := {}, loader := {} } from h .watch (by simpa using hp))
  exact e
theorem Keeps.watch_cutSwept (h : Keeps l s t) (hp : l.contains .watch = false) : t.watch.cutSwept = s.watch.cutSwept := by
  have e := congrArg WatchUnit.cutSwept (show { t.watch with bank0 := {}, bank1 := {}, loader := {} } = { s.watch with bank0 := {}, bank1 := {}, loader := {} } from h .watch (by simpa using hp))
  exact e
theorem Keeps.watch_stalled (h : Keeps l s t) (hp : l.contains .watch = false) : t.watch.stalled = s.watch.stalled := by
  have e := congrArg WatchUnit.stalled (show { t.watch with bank0 := {}, bank1 := {}, loader := {} } = { s.watch with bank0 := {}, bank1 := {}, loader := {} } from h .watch (by simpa using hp))
  exact e
theorem Keeps.watch_fenced (h : Keeps l s t) (hp : l.contains .watch = false) : t.watch.fenced = s.watch.fenced := by
  have e := congrArg WatchUnit.fenced (show { t.watch with bank0 := {}, bank1 := {}, loader := {} } = { s.watch with bank0 := {}, bank1 := {}, loader := {} } from h .watch (by simpa using hp))
  exact e
theorem Keeps.watch_swapNo (h : Keeps l s t) (hp : l.contains .watch = false) : t.watch.swapNo = s.watch.swapNo := by
  have e := congrArg WatchUnit.swapNo (show { t.watch with bank0 := {}, bank1 := {}, loader := {} } = { s.watch with bank0 := {}, bank1 := {}, loader := {} } from h .watch (by simpa using hp))
  exact e
theorem Keeps.watch_uncheckedLeft (h : Keeps l s t) (hp : l.contains .watch = false) : t.watch.uncheckedLeft = s.watch.uncheckedLeft := by
  have e := congrArg WatchUnit.uncheckedLeft (show { t.watch with bank0 := {}, bank1 := {}, loader := {} } = { s.watch with bank0 := {}, bank1 := {}, loader := {} } from h .watch (by simpa using hp))
  exact e
theorem Keeps.watch_walks (h : Keeps l s t) (hp : l.contains .watch = false) : t.watch.walks = s.watch.walks := by
  have e := congrArg WatchUnit.walks (show { t.watch with bank0 := {}, bank1 := {}, loader := {} } = { s.watch with bank0 := {}, bank1 := {}, loader := {} } from h .watch (by simpa using hp))
  exact e
theorem Keeps.watch_captured (h : Keeps l s t) (hp : l.contains .watch = false) : t.watch.captured = s.watch.captured := by
  have e := congrArg WatchUnit.captured (show { t.watch with bank0 := {}, bank1 := {}, loader := {} } = { s.watch with bank0 := {}, bank1 := {}, loader := {} } from h .watch (by simpa using hp))
  exact e
theorem Keeps.watch (h : Keeps l s t) (h1 : l.contains .banks = false) (h2 : l.contains .loader = false) (h3 : l.contains .watch = false) : t.watch = s.watch := by
  have e : ∀ x y : WatchUnit, x.bank0 = y.bank0 ∧ x.bank1 = y.bank1 ∧ x.loader = y.loader ∧ x.states = y.states ∧ x.sweepPos = y.sweepPos ∧ x.sweepBegan = y.sweepBegan ∧ x.sweepAfterCut = y.sweepAfterCut ∧ x.cutSwept = y.cutSwept ∧ x.stalled = y.stalled ∧ x.fenced = y.fenced ∧ x.swapNo = y.swapNo ∧ x.uncheckedLeft = y.uncheckedLeft ∧ x.walks = y.walks ∧ x.captured = y.captured → x = y := by
    rintro ⟨⟩ ⟨⟩ h
    simpa using h
  exact e _ _ ⟨Keeps.watch_bank0 h h1, Keeps.watch_bank1 h h1, Keeps.watch_loader h h2, Keeps.watch_states h h3, Keeps.watch_sweepPos h h3, Keeps.watch_sweepBegan h h3, Keeps.watch_sweepAfterCut h h3, Keeps.watch_cutSwept h h3, Keeps.watch_stalled h h3, Keeps.watch_fenced h h3, Keeps.watch_swapNo h h3, Keeps.watch_uncheckedLeft h h3, Keeps.watch_walks h h3, Keeps.watch_captured h h3⟩
theorem Keeps.scriv_ops (h : Keeps l s t) (hp : l.contains .ops = false) : t.scriv.ops = s.scriv.ops :=
  (h .ops (by simpa using hp))
theorem Keeps.scriv_records (h : Keeps l s t) (hp : l.contains .records = false) : t.scriv.records = s.scriv.records :=
  (h .records (by simpa using hp))
theorem Keeps.scriv_fenced (h : Keeps l s t) (hp : l.contains .scriv = false) : t.scriv.fenced = s.scriv.fenced := by
  have e := congrArg ScrivUnit.fenced (show { t.scriv with ops := [], records := [] } = { s.scriv with ops := [], records := [] } from h .scriv (by simpa using hp))
  exact e
theorem Keeps.scriv_fencedAt (h : Keeps l s t) (hp : l.contains .scriv = false) : t.scriv.fencedAt = s.scriv.fencedAt := by
  have e := congrArg ScrivUnit.fencedAt (show { t.scriv with ops := [], records := [] } = { s.scriv with ops := [], records := [] } from h .scriv (by simpa using hp))
  exact e
theorem Keeps.scriv_testing (h : Keeps l s t) (hp : l.contains .scriv = false) : t.scriv.testing = s.scriv.testing := by
  have e := congrArg ScrivUnit.testing (show { t.scriv with ops := [], records := [] } = { s.scriv with ops := [], records := [] } from h .scriv (by simpa using hp))
  exact e
theorem Keeps.scriv_away (h : Keeps l s t) (hp : l.contains .scriv = false) : t.scriv.away = s.scriv.away := by
  have e := congrArg ScrivUnit.away (show { t.scriv with ops := [], records := [] } = { s.scriv with ops := [], records := [] } from h .scriv (by simpa using hp))
  exact e
theorem Keeps.scriv_pipeOf (h : Keeps l s t) (hp : l.contains .scriv = false) : t.scriv.pipeOf = s.scriv.pipeOf := by
  have e := congrArg ScrivUnit.pipeOf (show { t.scriv with ops := [], records := [] } = { s.scriv with ops := [], records := [] } from h .scriv (by simpa using hp))
  exact e
theorem Keeps.scriv_hashOut (h : Keeps l s t) (hp : l.contains .scriv = false) : t.scriv.hashOut = s.scriv.hashOut := by
  have e := congrArg ScrivUnit.hashOut (show { t.scriv with ops := [], records := [] } = { s.scriv with ops := [], records := [] } from h .scriv (by simpa using hp))
  exact e
theorem Keeps.scriv_recPeek (h : Keeps l s t) (hp : l.contains .scriv = false) : t.scriv.recPeek = s.scriv.recPeek := by
  have e := congrArg ScrivUnit.recPeek (show { t.scriv with ops := [], records := [] } = { s.scriv with ops := [], records := [] } from h .scriv (by simpa using hp))
  exact e
theorem Keeps.scriv_pantry (h : Keeps l s t) (hp : l.contains .scriv = false) : t.scriv.pantry = s.scriv.pantry := by
  have e := congrArg ScrivUnit.pantry (show { t.scriv with ops := [], records := [] } = { s.scriv with ops := [], records := [] } from h .scriv (by simpa using hp))
  exact e
theorem Keeps.scriv_retired (h : Keeps l s t) (hp : l.contains .scriv = false) : t.scriv.retired = s.scriv.retired := by
  have e := congrArg ScrivUnit.retired (show { t.scriv with ops := [], records := [] } = { s.scriv with ops := [], records := [] } from h .scriv (by simpa using hp))
  exact e
theorem Keeps.scriv (h : Keeps l s t) (h1 : l.contains .ops = false) (h2 : l.contains .records = false) (h3 : l.contains .scriv = false) : t.scriv = s.scriv := by
  have e : ∀ x y : ScrivUnit, x.fenced = y.fenced ∧ x.fencedAt = y.fencedAt ∧ x.testing = y.testing ∧ x.away = y.away ∧ x.pipeOf = y.pipeOf ∧ x.records = y.records ∧ x.ops = y.ops ∧ x.hashOut = y.hashOut ∧ x.recPeek = y.recPeek ∧ x.pantry = y.pantry ∧ x.retired = y.retired → x = y := by
    rintro ⟨⟩ ⟨⟩ h
    simpa using h
  exact e _ _ ⟨Keeps.scriv_fenced h h3, Keeps.scriv_fencedAt h h3, Keeps.scriv_testing h h3, Keeps.scriv_away h h3, Keeps.scriv_pipeOf h h3, Keeps.scriv_records h h2, Keeps.scriv_ops h h1, Keeps.scriv_hashOut h h3, Keeps.scriv_recPeek h h3, Keeps.scriv_pantry h h3, Keeps.scriv_retired h h3⟩
theorem Keeps.crier_subs (h : Keeps l s t) (hp : l.contains .subs = false) : t.crier.subs = s.crier.subs :=
  (h .subs (by simpa using hp))
theorem Keeps.crier_bitmaps (h : Keeps l s t) (hp : l.contains .bitmaps = false) : t.crier.bitmaps = s.crier.bitmaps :=
  (h .bitmaps (by simpa using hp)).1
theorem Keeps.crier_staged (h : Keeps l s t) (hp : l.contains .bitmaps = false) : t.crier.staged = s.crier.staged :=
  (h .bitmaps (by simpa using hp)).2
theorem Keeps.crier_fenced (h : Keeps l s t) (hp : l.contains .crier = false) : t.crier.fenced = s.crier.fenced := by
  have e := congrArg CrierUnit.fenced (show { t.crier with subs := [], bitmaps := [], staged := [] } = { s.crier with subs := [], bitmaps := [], staged := [] } from h .crier (by simpa using hp))
  exact e
theorem Keeps.crier_changed (h : Keeps l s t) (hp : l.contains .crier = false) : t.crier.changed = s.crier.changed := by
  have e := congrArg CrierUnit.changed (show { t.crier with subs := [], bitmaps := [], staged := [] } = { s.crier with subs := [], bitmaps := [], staged := [] } from h .crier (by simpa using hp))
  exact e
theorem Keeps.crier_cutSet (h : Keeps l s t) (hp : l.contains .crier = false) : t.crier.cutSet = s.crier.cutSet := by
  have e := congrArg CrierUnit.cutSet (show { t.crier with subs := [], bitmaps := [], staged := [] } = { s.crier with subs := [], bitmaps := [], staged := [] } from h .crier (by simpa using hp))
  exact e
theorem Keeps.crier_cutAt (h : Keeps l s t) (hp : l.contains .crier = false) : t.crier.cutAt = s.crier.cutAt := by
  have e := congrArg CrierUnit.cutAt (show { t.crier with subs := [], bitmaps := [], staged := [] } = { s.crier with subs := [], bitmaps := [], staged := [] } from h .crier (by simpa using hp))
  exact e
theorem Keeps.crier_cutRead (h : Keeps l s t) (hp : l.contains .crier = false) : t.crier.cutRead = s.crier.cutRead := by
  have e := congrArg CrierUnit.cutRead (show { t.crier with subs := [], bitmaps := [], staged := [] } = { s.crier with subs := [], bitmaps := [], staged := [] } from h .crier (by simpa using hp))
  exact e
theorem Keeps.crier_readRecs (h : Keeps l s t) (hp : l.contains .crier = false) : t.crier.readRecs = s.crier.readRecs := by
  have e := congrArg CrierUnit.readRecs (show { t.crier with subs := [], bitmaps := [], staged := [] } = { s.crier with subs := [], bitmaps := [], staged := [] } from h .crier (by simpa using hp))
  exact e
theorem Keeps.crier_sentA (h : Keeps l s t) (hp : l.contains .crier = false) : t.crier.sentA = s.crier.sentA := by
  have e := congrArg CrierUnit.sentA (show { t.crier with subs := [], bitmaps := [], staged := [] } = { s.crier with subs := [], bitmaps := [], staged := [] } from h .crier (by simpa using hp))
  exact e
theorem Keeps.crier_sentB (h : Keeps l s t) (hp : l.contains .crier = false) : t.crier.sentB = s.crier.sentB := by
  have e := congrArg CrierUnit.sentB (show { t.crier with subs := [], bitmaps := [], staged := [] } = { s.crier with subs := [], bitmaps := [], staged := [] } from h .crier (by simpa using hp))
  exact e
theorem Keeps.crier_initA (h : Keeps l s t) (hp : l.contains .crier = false) : t.crier.initA = s.crier.initA := by
  have e := congrArg CrierUnit.initA (show { t.crier with subs := [], bitmaps := [], staged := [] } = { s.crier with subs := [], bitmaps := [], staged := [] } from h .crier (by simpa using hp))
  exact e
theorem Keeps.crier_initB (h : Keeps l s t) (hp : l.contains .crier = false) : t.crier.initB = s.crier.initB := by
  have e := congrArg CrierUnit.initB (show { t.crier with subs := [], bitmaps := [], staged := [] } = { s.crier with subs := [], bitmaps := [], staged := [] } from h .crier (by simpa using hp))
  exact e
theorem Keeps.crier (h : Keeps l s t) (h1 : l.contains .subs = false) (h2 : l.contains .bitmaps = false) (h3 : l.contains .crier = false) : t.crier = s.crier := by
  have e : ∀ x y : CrierUnit, x.subs = y.subs ∧ x.bitmaps = y.bitmaps ∧ x.staged = y.staged ∧ x.fenced = y.fenced ∧ x.changed = y.changed ∧ x.cutSet = y.cutSet ∧ x.cutAt = y.cutAt ∧ x.cutRead = y.cutRead ∧ x.readRecs = y.readRecs ∧ x.sentA = y.sentA ∧ x.sentB = y.sentB ∧ x.initA = y.initA ∧ x.initB = y.initB → x = y := by
    rintro ⟨⟩ ⟨⟩ h
    simpa using h
  exact e _ _ ⟨Keeps.crier_subs h h1, Keeps.crier_bitmaps h h2, Keeps.crier_staged h h2, Keeps.crier_fenced h h3, Keeps.crier_changed h h3, Keeps.crier_cutSet h h3, Keeps.crier_cutAt h h3, Keeps.crier_cutRead h h3, Keeps.crier_readRecs h h3, Keeps.crier_sentA h h3, Keeps.crier_sentB h h3, Keeps.crier_initA h h3, Keeps.crier_initB h h3⟩
theorem Keeps.lock_halves (h : Keeps l s t) (hp : l.contains .halves = false) : t.lock.halves = s.lock.halves :=
  (h .halves (by simpa using hp))
theorem Keeps.lock_keks (h : Keeps l s t) (hp : l.contains .keks = false) : t.lock.keks = s.lock.keks :=
  (h .keks (by simpa using hp)).1
theorem Keeps.lock_kek0 (h : Keeps l s t) (hp : l.contains .keks = false) : t.lock.kek0 = s.lock.kek0 :=
  (h .keks (by simpa using hp)).2.1
theorem Keeps.lock_withheld (h : Keeps l s t) (hp : l.contains .keks = false) : t.lock.withheld = s.lock.withheld :=
  (h .keks (by simpa using hp)).2.2
theorem Keeps.lock_erased (h : Keeps l s t) (hp : l.contains .lock = false) : t.lock.erased = s.lock.erased := by
  have e := congrArg LockUnit.erased (show { t.lock with halves := [], keks := [], kek0 := none, withheld := false } = { s.lock with halves := [], keks := [], kek0 := none, withheld := false } from h .lock (by simpa using hp))
  exact e
theorem Keeps.lock_alarm (h : Keeps l s t) (hp : l.contains .lock = false) : t.lock.alarm = s.lock.alarm := by
  have e := congrArg LockUnit.alarm (show { t.lock with halves := [], keks := [], kek0 := none, withheld := false } = { s.lock with halves := [], keks := [], kek0 := none, withheld := false } from h .lock (by simpa using hp))
  exact e
theorem Keeps.lock_healthFail (h : Keeps l s t) (hp : l.contains .lock = false) : t.lock.healthFail = s.lock.healthFail := by
  have e := congrArg LockUnit.healthFail (show { t.lock with halves := [], keks := [], kek0 := none, withheld := false } = { s.lock with halves := [], keks := [], kek0 := none, withheld := false } from h .lock (by simpa using hp))
  exact e
theorem Keeps.lock_lanes (h : Keeps l s t) (hp : l.contains .lock = false) : t.lock.lanes = s.lock.lanes := by
  have e := congrArg LockUnit.lanes (show { t.lock with halves := [], keks := [], kek0 := none, withheld := false } = { s.lock with halves := [], keks := [], kek0 := none, withheld := false } from h .lock (by simpa using hp))
  exact e
theorem Keeps.lock_waiting (h : Keeps l s t) (hp : l.contains .lock = false) : t.lock.waiting = s.lock.waiting := by
  have e := congrArg LockUnit.waiting (show { t.lock with halves := [], keks := [], kek0 := none, withheld := false } = { s.lock with halves := [], keks := [], kek0 := none, withheld := false } from h .lock (by simpa using hp))
  exact e
theorem Keeps.lock_holder (h : Keeps l s t) (hp : l.contains .lock = false) : t.lock.holder = s.lock.holder := by
  have e := congrArg LockUnit.holder (show { t.lock with halves := [], keks := [], kek0 := none, withheld := false } = { s.lock with halves := [], keks := [], kek0 := none, withheld := false } from h .lock (by simpa using hp))
  exact e
theorem Keeps.lock_holderAt (h : Keeps l s t) (hp : l.contains .lock = false) : t.lock.holderAt = s.lock.holderAt := by
  have e := congrArg LockUnit.holderAt (show { t.lock with halves := [], keks := [], kek0 := none, withheld := false } = { s.lock with halves := [], keks := [], kek0 := none, withheld := false } from h .lock (by simpa using hp))
  exact e
theorem Keeps.lock_releaseDue (h : Keeps l s t) (hp : l.contains .lock = false) : t.lock.releaseDue = s.lock.releaseDue := by
  have e := congrArg LockUnit.releaseDue (show { t.lock with halves := [], keks := [], kek0 := none, withheld := false } = { s.lock with halves := [], keks := [], kek0 := none, withheld := false } from h .lock (by simpa using hp))
  exact e
theorem Keeps.lock_resultSlot (h : Keeps l s t) (hp : l.contains .lock = false) : t.lock.resultSlot = s.lock.resultSlot := by
  have e := congrArg LockUnit.resultSlot (show { t.lock with halves := [], keks := [], kek0 := none, withheld := false } = { s.lock with halves := [], keks := [], kek0 := none, withheld := false } from h .lock (by simpa using hp))
  exact e
theorem Keeps.lock_resultCode (h : Keeps l s t) (hp : l.contains .lock = false) : t.lock.resultCode = s.lock.resultCode := by
  have e := congrArg LockUnit.resultCode (show { t.lock with halves := [], keks := [], kek0 := none, withheld := false } = { s.lock with halves := [], keks := [], kek0 := none, withheld := false } from h .lock (by simpa using hp))
  exact e
theorem Keeps.lock_swaps (h : Keeps l s t) (hp : l.contains .lock = false) : t.lock.swaps = s.lock.swaps := by
  have e := congrArg LockUnit.swaps (show { t.lock with halves := [], keks := [], kek0 := none, withheld := false } = { s.lock with halves := [], keks := [], kek0 := none, withheld := false } from h .lock (by simpa using hp))
  exact e
theorem Keeps.lock_autoDue (h : Keeps l s t) (hp : l.contains .lock = false) : t.lock.autoDue = s.lock.autoDue := by
  have e := congrArg LockUnit.autoDue (show { t.lock with halves := [], keks := [], kek0 := none, withheld := false } = { s.lock with halves := [], keks := [], kek0 := none, withheld := false } from h .lock (by simpa using hp))
  exact e
theorem Keeps.lock_pending (h : Keeps l s t) (hp : l.contains .lock = false) : t.lock.pending = s.lock.pending := by
  have e := congrArg LockUnit.pending (show { t.lock with halves := [], keks := [], kek0 := none, withheld := false } = { s.lock with halves := [], keks := [], kek0 := none, withheld := false } from h .lock (by simpa using hp))
  exact e
theorem Keeps.lock_drbgReady (h : Keeps l s t) (hp : l.contains .lock = false) : t.lock.drbgReady = s.lock.drbgReady := by
  have e := congrArg LockUnit.drbgReady (show { t.lock with halves := [], keks := [], kek0 := none, withheld := false } = { s.lock with halves := [], keks := [], kek0 := none, withheld := false } from h .lock (by simpa using hp))
  exact e
theorem Keeps.lock_reseedAt (h : Keeps l s t) (hp : l.contains .lock = false) : t.lock.reseedAt = s.lock.reseedAt := by
  have e := congrArg LockUnit.reseedAt (show { t.lock with halves := [], keks := [], kek0 := none, withheld := false } = { s.lock with halves := [], keks := [], kek0 := none, withheld := false } from h .lock (by simpa using hp))
  exact e
theorem Keeps.lock_retryAt (h : Keeps l s t) (hp : l.contains .lock = false) : t.lock.retryAt = s.lock.retryAt := by
  have e := congrArg LockUnit.retryAt (show { t.lock with halves := [], keks := [], kek0 := none, withheld := false } = { s.lock with halves := [], keks := [], kek0 := none, withheld := false } from h .lock (by simpa using hp))
  exact e
theorem Keeps.lock_peek (h : Keeps l s t) (hp : l.contains .lock = false) : t.lock.peek = s.lock.peek := by
  have e := congrArg LockUnit.peek (show { t.lock with halves := [], keks := [], kek0 := none, withheld := false } = { s.lock with halves := [], keks := [], kek0 := none, withheld := false } from h .lock (by simpa using hp))
  exact e
theorem Keeps.lock (h : Keeps l s t) (h1 : l.contains .halves = false) (h2 : l.contains .keks = false) (h3 : l.contains .lock = false) : t.lock = s.lock := by
  have e : ∀ x y : LockUnit, x.halves = y.halves ∧ x.keks = y.keks ∧ x.kek0 = y.kek0 ∧ x.withheld = y.withheld ∧ x.erased = y.erased ∧ x.alarm = y.alarm ∧ x.healthFail = y.healthFail ∧ x.lanes = y.lanes ∧ x.waiting = y.waiting ∧ x.holder = y.holder ∧ x.holderAt = y.holderAt ∧ x.releaseDue = y.releaseDue ∧ x.resultSlot = y.resultSlot ∧ x.resultCode = y.resultCode ∧ x.swaps = y.swaps ∧ x.autoDue = y.autoDue ∧ x.pending = y.pending ∧ x.drbgReady = y.drbgReady ∧ x.reseedAt = y.reseedAt ∧ x.retryAt = y.retryAt ∧ x.peek = y.peek → x = y := by
    rintro ⟨⟩ ⟨⟩ h
    simpa using h
  exact e _ _ ⟨Keeps.lock_halves h h1, Keeps.lock_keks h h2, Keeps.lock_kek0 h h2, Keeps.lock_withheld h h2, Keeps.lock_erased h h3, Keeps.lock_alarm h h3, Keeps.lock_healthFail h h3, Keeps.lock_lanes h h3, Keeps.lock_waiting h h3, Keeps.lock_holder h h3, Keeps.lock_holderAt h h3, Keeps.lock_releaseDue h h3, Keeps.lock_resultSlot h h3, Keeps.lock_resultCode h h3, Keeps.lock_swaps h h3, Keeps.lock_autoDue h h3, Keeps.lock_pending h h3, Keeps.lock_drbgReady h h3, Keeps.lock_reseedAt h h3, Keeps.lock_retryAt h h3, Keeps.lock_peek h h3⟩
theorem Keeps.epA (h : Keeps l s t) (hp : l.contains .epA = false) : t.epA = s.epA :=
  (h .epA (by simpa using hp))
theorem Keeps.epB (h : Keeps l s t) (hp : l.contains .epB = false) : t.epB = s.epB :=
  (h .epB (by simpa using hp))
theorem Keeps.rings (h : Keeps l s t) (hp : l.contains .rings = false) : t.rings = s.rings :=
  (h .rings (by simpa using hp))
theorem Keeps.bell (h : Keeps l s t) (hp : l.contains .bell = false) : t.bell = s.bell :=
  (h .bell (by simpa using hp))
theorem Keeps.dray_routeState (h : Keeps l s t) (hp : l.contains .routes = false) : t.dray.routeState = s.dray.routeState :=
  (h .routes (by simpa using hp)).1
theorem Keeps.dray_fenced (h : Keeps l s t) (hp : l.contains .routes = false) : t.dray.fenced = s.dray.fenced :=
  (h .routes (by simpa using hp)).2
theorem Keeps.dray_cellUse (h : Keeps l s t) (hp : l.contains .cells = false) : t.dray.cellUse = s.dray.cellUse :=
  (h .cells (by simpa using hp)).1
theorem Keeps.dray_hostCells (h : Keeps l s t) (hp : l.contains .cells = false) : t.dray.hostCells = s.dray.hostCells :=
  (h .cells (by simpa using hp)).2.1
theorem Keeps.dray_retiredCells (h : Keeps l s t) (hp : l.contains .cells = false) : t.dray.retiredCells = s.dray.retiredCells :=
  (h .cells (by simpa using hp)).2.2
theorem Keeps.dray_storeroom (h : Keeps l s t) (hp : l.contains .storeroom = false) : t.dray.storeroom = s.dray.storeroom :=
  (h .storeroom (by simpa using hp))
theorem Keeps.dray (h : Keeps l s t) (h1 : l.contains .routes = false) (h2 : l.contains .cells = false) (h3 : l.contains .storeroom = false) : t.dray = s.dray := by
  have e : ∀ x y : DrayUnit, x.routeState = y.routeState ∧ x.fenced = y.fenced ∧ x.cellUse = y.cellUse ∧ x.hostCells = y.hostCells ∧ x.retiredCells = y.retiredCells ∧ x.storeroom = y.storeroom → x = y := by
    rintro ⟨⟩ ⟨⟩ h
    simpa using h
  exact e _ _ ⟨Keeps.dray_routeState h h1, Keeps.dray_fenced h h1, Keeps.dray_cellUse h h2, Keeps.dray_hostCells h h2, Keeps.dray_retiredCells h h2, Keeps.dray_storeroom h h3⟩
theorem Keeps.cellar_store (h : Keeps l s t) (hp : l.contains .store = false) : t.cellar.store = s.cellar.store :=
  (h .store (by simpa using hp))
theorem Keeps.cellar_st (h : Keeps l s t) (hp : l.contains .cellar = false) : t.cellar.st = s.cellar.st := by
  have e := congrArg CellarUnit.st (show { t.cellar with store := {} } = { s.cellar with store := {} } from h .cellar (by simpa using hp))
  exact e
theorem Keeps.cellar_startHeld (h : Keeps l s t) (hp : l.contains .cellar = false) : t.cellar.startHeld = s.cellar.startHeld := by
  have e := congrArg CellarUnit.startHeld (show { t.cellar with store := {} } = { s.cellar with store := {} } from h .cellar (by simpa using hp))
  exact e
theorem Keeps.cellar_heldMedia (h : Keeps l s t) (hp : l.contains .cellar = false) : t.cellar.heldMedia = s.cellar.heldMedia := by
  have e := congrArg CellarUnit.heldMedia (show { t.cellar with store := {} } = { s.cellar with store := {} } from h .cellar (by simpa using hp))
  exact e
theorem Keeps.cellar_stopHeld (h : Keeps l s t) (hp : l.contains .cellar = false) : t.cellar.stopHeld = s.cellar.stopHeld := by
  have e := congrArg CellarUnit.stopHeld (show { t.cellar with store := {} } = { s.cellar with store := {} } from h .cellar (by simpa using hp))
  exact e
theorem Keeps.cellar_noRestore (h : Keeps l s t) (hp : l.contains .cellar = false) : t.cellar.noRestore = s.cellar.noRestore := by
  have e := congrArg CellarUnit.noRestore (show { t.cellar with store := {} } = { s.cellar with store := {} } from h .cellar (by simpa using hp))
  exact e
theorem Keeps.cellar_pfail (h : Keeps l s t) (hp : l.contains .cellar = false) : t.cellar.pfail = s.cellar.pfail := by
  have e := congrArg CellarUnit.pfail (show { t.cellar with store := {} } = { s.cellar with store := {} } from h .cellar (by simpa using hp))
  exact e
theorem Keeps.cellar_geom (h : Keeps l s t) (hp : l.contains .cellar = false) : t.cellar.geom = s.cellar.geom := by
  have e := congrArg CellarUnit.geom (show { t.cellar with store := {} } = { s.cellar with store := {} } from h .cellar (by simpa using hp))
  exact e
theorem Keeps.cellar_seq (h : Keeps l s t) (hp : l.contains .cellar = false) : t.cellar.seq = s.cellar.seq := by
  have e := congrArg CellarUnit.seq (show { t.cellar with store := {} } = { s.cellar with store := {} } from h .cellar (by simpa using hp))
  exact e
theorem Keeps.cellar_flush (h : Keeps l s t) (hp : l.contains .cellar = false) : t.cellar.flush = s.cellar.flush := by
  have e := congrArg CellarUnit.flush (show { t.cellar with store := {} } = { s.cellar with store := {} } from h .cellar (by simpa using hp))
  exact e
theorem Keeps.cellar_heldRecs (h : Keeps l s t) (hp : l.contains .cellar = false) : t.cellar.heldRecs = s.cellar.heldRecs := by
  have e := congrArg CellarUnit.heldRecs (show { t.cellar with store := {} } = { s.cellar with store := {} } from h .cellar (by simpa using hp))
  exact e
theorem Keeps.cellar_program (h : Keeps l s t) (hp : l.contains .cellar = false) : t.cellar.program = s.cellar.program := by
  have e := congrArg CellarUnit.program (show { t.cellar with store := {} } = { s.cellar with store := {} } from h .cellar (by simpa using hp))
  exact e
theorem Keeps.cellar_nextTarget (h : Keeps l s t) (hp : l.contains .cellar = false) : t.cellar.nextTarget = s.cellar.nextTarget := by
  have e := congrArg CellarUnit.nextTarget (show { t.cellar with store := {} } = { s.cellar with store := {} } from h .cellar (by simpa using hp))
  exact e
theorem Keeps.cellar_tokens (h : Keeps l s t) (hp : l.contains .cellar = false) : t.cellar.tokens = s.cellar.tokens := by
  have e := congrArg CellarUnit.tokens (show { t.cellar with store := {} } = { s.cellar with store := {} } from h .cellar (by simpa using hp))
  exact e
theorem Keeps.cellar_tokensAt (h : Keeps l s t) (hp : l.contains .cellar = false) : t.cellar.tokensAt = s.cellar.tokensAt := by
  have e := congrArg CellarUnit.tokensAt (show { t.cellar with store := {} } = { s.cellar with store := {} } from h .cellar (by simpa using hp))
  exact e
theorem Keeps.cellar_checkpoint (h : Keeps l s t) (hp : l.contains .cellar = false) : t.cellar.checkpoint = s.cellar.checkpoint := by
  have e := congrArg CellarUnit.checkpoint (show { t.cellar with store := {} } = { s.cellar with store := {} } from h .cellar (by simpa using hp))
  exact e
theorem Keeps.cellar_ckptBase (h : Keeps l s t) (hp : l.contains .cellar = false) : t.cellar.ckptBase = s.cellar.ckptBase := by
  have e := congrArg CellarUnit.ckptBase (show { t.cellar with store := {} } = { s.cellar with store := {} } from h .cellar (by simpa using hp))
  exact e
theorem Keeps.cellar_degraded (h : Keeps l s t) (hp : l.contains .cellar = false) : t.cellar.degraded = s.cellar.degraded := by
  have e := congrArg CellarUnit.degraded (show { t.cellar with store := {} } = { s.cellar with store := {} } from h .cellar (by simpa using hp))
  exact e
theorem Keeps.cellar_drop (h : Keeps l s t) (hp : l.contains .cellar = false) : t.cellar.drop = s.cellar.drop := by
  have e := congrArg CellarUnit.drop (show { t.cellar with store := {} } = { s.cellar with store := {} } from h .cellar (by simpa using hp))
  exact e
theorem Keeps.cellar_severe (h : Keeps l s t) (hp : l.contains .cellar = false) : t.cellar.severe = s.cellar.severe := by
  have e := congrArg CellarUnit.severe (show { t.cellar with store := {} } = { s.cellar with store := {} } from h .cellar (by simpa using hp))
  exact e
theorem Keeps.cellar_formatting (h : Keeps l s t) (hp : l.contains .cellar = false) : t.cellar.formatting = s.cellar.formatting := by
  have e := congrArg CellarUnit.formatting (show { t.cellar with store := {} } = { s.cellar with store := {} } from h .cellar (by simpa using hp))
  exact e
theorem Keeps.cellar_stopPages (h : Keeps l s t) (hp : l.contains .cellar = false) : t.cellar.stopPages = s.cellar.stopPages := by
  have e := congrArg CellarUnit.stopPages (show { t.cellar with store := {} } = { s.cellar with store := {} } from h .cellar (by simpa using hp))
  exact e
theorem Keeps.cellar_startSeq (h : Keeps l s t) (hp : l.contains .cellar = false) : t.cellar.startSeq = s.cellar.startSeq := by
  have e := congrArg CellarUnit.startSeq (show { t.cellar with store := {} } = { s.cellar with store := {} } from h .cellar (by simpa using hp))
  exact e
theorem Keeps.cellar_flushFill (h : Keeps l s t) (hp : l.contains .cellar = false) : t.cellar.flushFill = s.cellar.flushFill := by
  have e := congrArg CellarUnit.flushFill (show { t.cellar with store := {} } = { s.cellar with store := {} } from h .cellar (by simpa using hp))
  exact e
theorem Keeps.cellar_flushDone (h : Keeps l s t) (hp : l.contains .cellar = false) : t.cellar.flushDone = s.cellar.flushDone := by
  have e := congrArg CellarUnit.flushDone (show { t.cellar with store := {} } = { s.cellar with store := {} } from h .cellar (by simpa using hp))
  exact e
theorem Keeps.cellar_scrubBase (h : Keeps l s t) (hp : l.contains .cellar = false) : t.cellar.scrubBase = s.cellar.scrubBase := by
  have e := congrArg CellarUnit.scrubBase (show { t.cellar with store := {} } = { s.cellar with store := {} } from h .cellar (by simpa using hp))
  exact e
theorem Keeps.cellar_scrubDone (h : Keeps l s t) (hp : l.contains .cellar = false) : t.cellar.scrubDone = s.cellar.scrubDone := by
  have e := congrArg CellarUnit.scrubDone (show { t.cellar with store := {} } = { s.cellar with store := {} } from h .cellar (by simpa using hp))
  exact e
theorem Keeps.cellar_scrubLast (h : Keeps l s t) (hp : l.contains .cellar = false) : t.cellar.scrubLast = s.cellar.scrubLast := by
  have e := congrArg CellarUnit.scrubLast (show { t.cellar with store := {} } = { s.cellar with store := {} } from h .cellar (by simpa using hp))
  exact e
theorem Keeps.cellar_failing (h : Keeps l s t) (hp : l.contains .cellar = false) : t.cellar.failing = s.cellar.failing := by
  have e := congrArg CellarUnit.failing (show { t.cellar with store := {} } = { s.cellar with store := {} } from h .cellar (by simpa using hp))
  exact e
theorem Keeps.cellar_capMib (h : Keeps l s t) (hp : l.contains .cellar = false) : t.cellar.capMib = s.cellar.capMib := by
  have e := congrArg CellarUnit.capMib (show { t.cellar with store := {} } = { s.cellar with store := {} } from h .cellar (by simpa using hp))
  exact e
theorem Keeps.cellar (h : Keeps l s t) (h1 : l.contains .store = false) (h2 : l.contains .cellar = false) : t.cellar = s.cellar := by
  have e : ∀ x y : CellarUnit, x.st = y.st ∧ x.startHeld = y.startHeld ∧ x.heldMedia = y.heldMedia ∧ x.stopHeld = y.stopHeld ∧ x.noRestore = y.noRestore ∧ x.pfail = y.pfail ∧ x.geom = y.geom ∧ x.store = y.store ∧ x.seq = y.seq ∧ x.flush = y.flush ∧ x.heldRecs = y.heldRecs ∧ x.program = y.program ∧ x.nextTarget = y.nextTarget ∧ x.tokens = y.tokens ∧ x.tokensAt = y.tokensAt ∧ x.checkpoint = y.checkpoint ∧ x.ckptBase = y.ckptBase ∧ x.degraded = y.degraded ∧ x.drop = y.drop ∧ x.severe = y.severe ∧ x.formatting = y.formatting ∧ x.stopPages = y.stopPages ∧ x.startSeq = y.startSeq ∧ x.flushFill = y.flushFill ∧ x.flushDone = y.flushDone ∧ x.scrubBase = y.scrubBase ∧ x.scrubDone = y.scrubDone ∧ x.scrubLast = y.scrubLast ∧ x.failing = y.failing ∧ x.capMib = y.capMib → x = y := by
    rintro ⟨⟩ ⟨⟩ h
    simpa using h
  exact e _ _ ⟨Keeps.cellar_st h h2, Keeps.cellar_startHeld h h2, Keeps.cellar_heldMedia h h2, Keeps.cellar_stopHeld h h2, Keeps.cellar_noRestore h h2, Keeps.cellar_pfail h h2, Keeps.cellar_geom h h2, Keeps.cellar_store h h1, Keeps.cellar_seq h h2, Keeps.cellar_flush h h2, Keeps.cellar_heldRecs h h2, Keeps.cellar_program h h2, Keeps.cellar_nextTarget h h2, Keeps.cellar_tokens h h2, Keeps.cellar_tokensAt h h2, Keeps.cellar_checkpoint h h2, Keeps.cellar_ckptBase h h2, Keeps.cellar_degraded h h2, Keeps.cellar_drop h h2, Keeps.cellar_severe h h2, Keeps.cellar_formatting h h2, Keeps.cellar_stopPages h h2, Keeps.cellar_startSeq h h2, Keeps.cellar_flushFill h h2, Keeps.cellar_flushDone h h2, Keeps.cellar_scrubBase h h2, Keeps.cellar_scrubDone h h2, Keeps.cellar_scrubLast h h2, Keeps.cellar_failing h h2, Keeps.cellar_capMib h h2⟩
theorem Keeps.stew_srcs (h : Keeps l s t) (hp : l.contains .srcs = false) : t.stew.srcs = s.stew.srcs :=
  (h .srcs (by simpa using hp))
theorem Keeps.stew_flt (h : Keeps l s t) (hp : l.contains .stew = false) : t.stew.flt = s.stew.flt := by
  have e := congrArg StewUnit.flt (show { t.stew with srcs := [] } = { s.stew with srcs := [] } from h .stew (by simpa using hp))
  exact e
theorem Keeps.stew_alert (h : Keeps l s t) (hp : l.contains .stew = false) : t.stew.alert = s.stew.alert := by
  have e := congrArg StewUnit.alert (show { t.stew with srcs := [] } = { s.stew with srcs := [] } from h .stew (by simpa using hp))
  exact e
theorem Keeps.stew_fltAt (h : Keeps l s t) (hp : l.contains .stew = false) : t.stew.fltAt = s.stew.fltAt := by
  have e := congrArg StewUnit.fltAt (show { t.stew with srcs := [] } = { s.stew with srcs := [] } from h .stew (by simpa using hp))
  exact e
theorem Keeps.stew_alertAt (h : Keeps l s t) (hp : l.contains .stew = false) : t.stew.alertAt = s.stew.alertAt := by
  have e := congrArg StewUnit.alertAt (show { t.stew with srcs := [] } = { s.stew with srcs := [] } from h .stew (by simpa using hp))
  exact e
theorem Keeps.stew_wdog (h : Keeps l s t) (hp : l.contains .stew = false) : t.stew.wdog = s.stew.wdog := by
  have e := congrArg StewUnit.wdog (show { t.stew with srcs := [] } = { s.stew with srcs := [] } from h .stew (by simpa using hp))
  exact e
theorem Keeps.stew_coreSevere (h : Keeps l s t) (hp : l.contains .stew = false) : t.stew.coreSevere = s.stew.coreSevere := by
  have e := congrArg StewUnit.coreSevere (show { t.stew with srcs := [] } = { s.stew with srcs := [] } from h .stew (by simpa using hp))
  exact e
theorem Keeps.stew_coreFenced (h : Keeps l s t) (hp : l.contains .stew = false) : t.stew.coreFenced = s.stew.coreFenced := by
  have e := congrArg StewUnit.coreFenced (show { t.stew with srcs := [] } = { s.stew with srcs := [] } from h .stew (by simpa using hp))
  exact e
theorem Keeps.stew_tinkFenced (h : Keeps l s t) (hp : l.contains .stew = false) : t.stew.tinkFenced = s.stew.tinkFenced := by
  have e := congrArg StewUnit.tinkFenced (show { t.stew with srcs := [] } = { s.stew with srcs := [] } from h .stew (by simpa using hp))
  exact e
theorem Keeps.stew_ringFenced (h : Keeps l s t) (hp : l.contains .stew = false) : t.stew.ringFenced = s.stew.ringFenced := by
  have e := congrArg StewUnit.ringFenced (show { t.stew with srcs := [] } = { s.stew with srcs := [] } from h .stew (by simpa using hp))
  exact e
theorem Keeps.stew_started (h : Keeps l s t) (hp : l.contains .stew = false) : t.stew.started = s.stew.started := by
  have e := congrArg StewUnit.started (show { t.stew with srcs := [] } = { s.stew with srcs := [] } from h .stew (by simpa using hp))
  exact e
theorem Keeps.stew (h : Keeps l s t) (h1 : l.contains .srcs = false) (h2 : l.contains .stew = false) : t.stew = s.stew := by
  have e : ∀ x y : StewUnit, x.srcs = y.srcs ∧ x.flt = y.flt ∧ x.alert = y.alert ∧ x.fltAt = y.fltAt ∧ x.alertAt = y.alertAt ∧ x.wdog = y.wdog ∧ x.coreSevere = y.coreSevere ∧ x.coreFenced = y.coreFenced ∧ x.tinkFenced = y.tinkFenced ∧ x.ringFenced = y.ringFenced ∧ x.started = y.started → x = y := by
    rintro ⟨⟩ ⟨⟩ h
    simpa using h
  exact e _ _ ⟨Keeps.stew_srcs h h1, Keeps.stew_flt h h2, Keeps.stew_alert h h2, Keeps.stew_fltAt h h2, Keeps.stew_alertAt h h2, Keeps.stew_wdog h h2, Keeps.stew_coreSevere h h2, Keeps.stew_coreFenced h h2, Keeps.stew_tinkFenced h h2, Keeps.stew_ringFenced h h2, Keeps.stew_started h h2⟩
theorem Keeps.tink (h : Keeps l s t) (hp : l.contains .tink = false) : t.tink = s.tink :=
  (h .tink (by simpa using hp))
theorem Keeps.sys_pwr (h : Keeps l s t) (hp : l.contains .power = false) : t.sys.pwr = s.sys.pwr :=
  (h .power (by simpa using hp)).1
theorem Keeps.sys_moving (h : Keeps l s t) (hp : l.contains .power = false) : t.sys.moving = s.sys.moving :=
  (h .power (by simpa using hp)).2.1
theorem Keeps.sys_targetHeld (h : Keeps l s t) (hp : l.contains .power = false) : t.sys.targetHeld = s.sys.targetHeld :=
  (h .power (by simpa using hp)).2.2.1
theorem Keeps.sys_powered (h : Keeps l s t) (hp : l.contains .power = false) : t.sys.powered = s.sys.powered :=
  (h .power (by simpa using hp)).2.2.2.1
theorem Keeps.sys_locks (h : Keeps l s t) (hp : l.contains .power = false) : t.sys.locks = s.sys.locks :=
  (h .power (by simpa using hp)).2.2.2.2.1
theorem Keeps.sys_osc25 (h : Keeps l s t) (hp : l.contains .power = false) : t.sys.osc25 = s.sys.osc25 :=
  (h .power (by simpa using hp)).2.2.2.2.2
theorem Keeps.sys_fuseState (h : Keeps l s t) (hp : l.contains .fuses = false) : t.sys.fuseState = s.sys.fuseState :=
  (h .fuses (by simpa using hp)).1
theorem Keeps.sys_fuseHash (h : Keeps l s t) (hp : l.contains .fuses = false) : t.sys.fuseHash = s.sys.fuseHash :=
  (h .fuses (by simpa using hp)).2.1
theorem Keeps.sys_fuseBroken (h : Keeps l s t) (hp : l.contains .fuses = false) : t.sys.fuseBroken = s.sys.fuseBroken :=
  (h .fuses (by simpa using hp)).2.2.1
theorem Keeps.sys_secretNo (h : Keeps l s t) (hp : l.contains .fuses = false) : t.sys.secretNo = s.sys.secretNo :=
  (h .fuses (by simpa using hp)).2.2.2.1
theorem Keeps.sys_secretGone (h : Keeps l s t) (hp : l.contains .fuses = false) : t.sys.secretGone = s.sys.secretGone :=
  (h .fuses (by simpa using hp)).2.2.2.2
theorem Keeps.sys_lifecycle (h : Keeps l s t) (hp : l.contains .lifecycle = false) : t.sys.lifecycle = s.sys.lifecycle :=
  (h .lifecycle (by simpa using hp)).1
theorem Keeps.sys_lcBusy (h : Keeps l s t) (hp : l.contains .lifecycle = false) : t.sys.lcBusy = s.sys.lcBusy :=
  (h .lifecycle (by simpa using hp)).2.1
theorem Keeps.sys_lcPending (h : Keeps l s t) (hp : l.contains .lifecycle = false) : t.sys.lcPending = s.sys.lcPending :=
  (h .lifecycle (by simpa using hp)).2.2.1
theorem Keeps.sys_lcResult (h : Keeps l s t) (hp : l.contains .lifecycle = false) : t.sys.lcResult = s.sys.lcResult :=
  (h .lifecycle (by simpa using hp)).2.2.2
theorem Keeps.sys_ir (h : Keeps l s t) (hp : l.contains .debug = false) : t.sys.ir = s.sys.ir :=
  (h .debug (by simpa using hp)).1
theorem Keeps.sys_boundary (h : Keeps l s t) (hp : l.contains .debug = false) : t.sys.boundary = s.sys.boundary :=
  (h .debug (by simpa using hp)).2.1
theorem Keeps.sys_level (h : Keeps l s t) (hp : l.contains .debug = false) : t.sys.level = s.sys.level :=
  (h .debug (by simpa using hp)).2.2.1
theorem Keeps.sys_auth (h : Keeps l s t) (hp : l.contains .debug = false) : t.sys.auth = s.sys.auth :=
  (h .debug (by simpa using hp)).2.2.2.1
theorem Keeps.sys_keysel (h : Keeps l s t) (hp : l.contains .debug = false) : t.sys.keysel = s.sys.keysel :=
  (h .debug (by simpa using hp)).2.2.2.2.1
theorem Keeps.sys_fails (h : Keeps l s t) (hp : l.contains .debug = false) : t.sys.fails = s.sys.fails :=
  (h .debug (by simpa using hp)).2.2.2.2.2.1
theorem Keeps.sys_lockout (h : Keeps l s t) (hp : l.contains .debug = false) : t.sys.lockout = s.sys.lockout :=
  (h .debug (by simpa using hp)).2.2.2.2.2.2.1
theorem Keeps.sys_challenge (h : Keeps l s t) (hp : l.contains .debug = false) : t.sys.challenge = s.sys.challenge :=
  (h .debug (by simpa using hp)).2.2.2.2.2.2.2.1
theorem Keeps.sys_response (h : Keeps l s t) (hp : l.contains .debug = false) : t.sys.response = s.sys.response :=
  (h .debug (by simpa using hp)).2.2.2.2.2.2.2.2.1
theorem Keeps.sys_nonceNo (h : Keeps l s t) (hp : l.contains .debug = false) : t.sys.nonceNo = s.sys.nonceNo :=
  (h .debug (by simpa using hp)).2.2.2.2.2.2.2.2.2.1
theorem Keeps.sys_halted (h : Keeps l s t) (hp : l.contains .debug = false) : t.sys.halted = s.sys.halted :=
  (h .debug (by simpa using hp)).2.2.2.2.2.2.2.2.2.2
theorem Keeps.sys_bootCause (h : Keeps l s t) (hp : l.contains .firmware = false) : t.sys.bootCause = s.sys.bootCause :=
  (h .firmware (by simpa using hp)).1
theorem Keeps.sys_bootFails (h : Keeps l s t) (hp : l.contains .firmware = false) : t.sys.bootFails = s.sys.bootFails :=
  (h .firmware (by simpa using hp)).2.1
theorem Keeps.sys_bootSel (h : Keeps l s t) (hp : l.contains .firmware = false) : t.sys.bootSel = s.sys.bootSel :=
  (h .firmware (by simpa using hp)).2.2.1
theorem Keeps.sys_phase (h : Keeps l s t) (hp : l.contains .firmware = false) : t.sys.phase = s.sys.phase :=
  (h .firmware (by simpa using hp)).2.2.2.1
theorem Keeps.sys_trial (h : Keeps l s t) (hp : l.contains .firmware = false) : t.sys.trial = s.sys.trial :=
  (h .firmware (by simpa using hp)).2.2.2.2.1
theorem Keeps.sys_lkgBoot (h : Keeps l s t) (hp : l.contains .firmware = false) : t.sys.lkgBoot = s.sys.lkgBoot :=
  (h .firmware (by simpa using hp)).2.2.2.2.2.1
theorem Keeps.sys_safe (h : Keeps l s t) (hp : l.contains .firmware = false) : t.sys.safe = s.sys.safe :=
  (h .firmware (by simpa using hp)).2.2.2.2.2.2.1
theorem Keeps.sys_pair (h : Keeps l s t) (hp : l.contains .firmware = false) : t.sys.pair = s.sys.pair :=
  (h .firmware (by simpa using hp)).2.2.2.2.2.2.2.1
theorem Keeps.sys_standby (h : Keeps l s t) (hp : l.contains .firmware = false) : t.sys.standby = s.sys.standby :=
  (h .firmware (by simpa using hp)).2.2.2.2.2.2.2.2.1
theorem Keeps.sys_fwStart (h : Keeps l s t) (hp : l.contains .firmware = false) : t.sys.fwStart = s.sys.fwStart :=
  (h .firmware (by simpa using hp)).2.2.2.2.2.2.2.2.2.1
theorem Keeps.sys_record (h : Keeps l s t) (hp : l.contains .firmware = false) : t.sys.record = s.sys.record :=
  (h .firmware (by simpa using hp)).2.2.2.2.2.2.2.2.2.2.1
theorem Keeps.sys_bufIdx (h : Keeps l s t) (hp : l.contains .firmware = false) : t.sys.bufIdx = s.sys.bufIdx :=
  (h .firmware (by simpa using hp)).2.2.2.2.2.2.2.2.2.2.2.1
theorem Keeps.sys_fwPeek (h : Keeps l s t) (hp : l.contains .firmware = false) : t.sys.fwPeek = s.sys.fwPeek :=
  (h .firmware (by simpa using hp)).2.2.2.2.2.2.2.2.2.2.2.2.1
theorem Keeps.sys_slotsValid (h : Keeps l s t) (hp : l.contains .firmware = false) : t.sys.slotsValid = s.sys.slotsValid :=
  (h .firmware (by simpa using hp)).2.2.2.2.2.2.2.2.2.2.2.2.2.1
theorem Keeps.sys_runMgmt (h : Keeps l s t) (hp : l.contains .firmware = false) : t.sys.runMgmt = s.sys.runMgmt :=
  (h .firmware (by simpa using hp)).2.2.2.2.2.2.2.2.2.2.2.2.2.2.1
theorem Keeps.sys_runMicro (h : Keeps l s t) (hp : l.contains .firmware = false) : t.sys.runMicro = s.sys.runMicro :=
  (h .firmware (by simpa using hp)).2.2.2.2.2.2.2.2.2.2.2.2.2.2.2.1
theorem Keeps.sys_fwResult (h : Keeps l s t) (hp : l.contains .firmware = false) : t.sys.fwResult = s.sys.fwResult :=
  (h .firmware (by simpa using hp)).2.2.2.2.2.2.2.2.2.2.2.2.2.2.2.2.1
theorem Keeps.sys_confirmPend (h : Keeps l s t) (hp : l.contains .firmware = false) : t.sys.confirmPend = s.sys.confirmPend :=
  (h .firmware (by simpa using hp)).2.2.2.2.2.2.2.2.2.2.2.2.2.2.2.2.2.1
theorem Keeps.sys_confirmAt (h : Keeps l s t) (hp : l.contains .firmware = false) : t.sys.confirmAt = s.sys.confirmAt :=
  (h .firmware (by simpa using hp)).2.2.2.2.2.2.2.2.2.2.2.2.2.2.2.2.2.2.1
theorem Keeps.sys_confirmRoll (h : Keeps l s t) (hp : l.contains .firmware = false) : t.sys.confirmRoll = s.sys.confirmRoll :=
  (h .firmware (by simpa using hp)).2.2.2.2.2.2.2.2.2.2.2.2.2.2.2.2.2.2.2.1
theorem Keeps.sys_oldMgmt (h : Keeps l s t) (hp : l.contains .firmware = false) : t.sys.oldMgmt = s.sys.oldMgmt :=
  (h .firmware (by simpa using hp)).2.2.2.2.2.2.2.2.2.2.2.2.2.2.2.2.2.2.2.2.1
theorem Keeps.sys_oldMicro (h : Keeps l s t) (hp : l.contains .firmware = false) : t.sys.oldMicro = s.sys.oldMicro :=
  (h .firmware (by simpa using hp)).2.2.2.2.2.2.2.2.2.2.2.2.2.2.2.2.2.2.2.2.2.1
theorem Keeps.sys_roll (h : Keeps l s t) (hp : l.contains .firmware = false) : t.sys.roll = s.sys.roll :=
  (h .firmware (by simpa using hp)).2.2.2.2.2.2.2.2.2.2.2.2.2.2.2.2.2.2.2.2.2.2.1
theorem Keeps.sys_rollNew (h : Keeps l s t) (hp : l.contains .firmware = false) : t.sys.rollNew = s.sys.rollNew :=
  (h .firmware (by simpa using hp)).2.2.2.2.2.2.2.2.2.2.2.2.2.2.2.2.2.2.2.2.2.2.2.1
theorem Keeps.sys_rollSlot (h : Keeps l s t) (hp : l.contains .firmware = false) : t.sys.rollSlot = s.sys.rollSlot :=
  (h .firmware (by simpa using hp)).2.2.2.2.2.2.2.2.2.2.2.2.2.2.2.2.2.2.2.2.2.2.2.2.1
theorem Keeps.sys_rollFails (h : Keeps l s t) (hp : l.contains .firmware = false) : t.sys.rollFails = s.sys.rollFails :=
  (h .firmware (by simpa using hp)).2.2.2.2.2.2.2.2.2.2.2.2.2.2.2.2.2.2.2.2.2.2.2.2.2.1
theorem Keeps.sys_rollBack (h : Keeps l s t) (hp : l.contains .firmware = false) : t.sys.rollBack = s.sys.rollBack :=
  (h .firmware (by simpa using hp)).2.2.2.2.2.2.2.2.2.2.2.2.2.2.2.2.2.2.2.2.2.2.2.2.2.2.1
theorem Keeps.sys_busyOp (h : Keeps l s t) (hp : l.contains .firmware = false) : t.sys.busyOp = s.sys.busyOp :=
  (h .firmware (by simpa using hp)).2.2.2.2.2.2.2.2.2.2.2.2.2.2.2.2.2.2.2.2.2.2.2.2.2.2.2.1
theorem Keeps.sys_actSlot (h : Keeps l s t) (hp : l.contains .firmware = false) : t.sys.actSlot = s.sys.actSlot :=
  (h .firmware (by simpa using hp)).2.2.2.2.2.2.2.2.2.2.2.2.2.2.2.2.2.2.2.2.2.2.2.2.2.2.2.2.1
theorem Keeps.sys_switchReq (h : Keeps l s t) (hp : l.contains .firmware = false) : t.sys.switchReq = s.sys.switchReq :=
  (h .firmware (by simpa using hp)).2.2.2.2.2.2.2.2.2.2.2.2.2.2.2.2.2.2.2.2.2.2.2.2.2.2.2.2.2.1
theorem Keeps.sys_bootCur (h : Keeps l s t) (hp : l.contains .firmware = false) : t.sys.bootCur = s.sys.bootCur :=
  (h .firmware (by simpa using hp)).2.2.2.2.2.2.2.2.2.2.2.2.2.2.2.2.2.2.2.2.2.2.2.2.2.2.2.2.2.2.1
theorem Keeps.sys_recordSeq (h : Keeps l s t) (hp : l.contains .firmware = false) : t.sys.recordSeq = s.sys.recordSeq :=
  (h .firmware (by simpa using hp)).2.2.2.2.2.2.2.2.2.2.2.2.2.2.2.2.2.2.2.2.2.2.2.2.2.2.2.2.2.2.2.1
theorem Keeps.sys_recordAt (h : Keeps l s t) (hp : l.contains .firmware = false) : t.sys.recordAt = s.sys.recordAt :=
  (h .firmware (by simpa using hp)).2.2.2.2.2.2.2.2.2.2.2.2.2.2.2.2.2.2.2.2.2.2.2.2.2.2.2.2.2.2.2.2.1
theorem Keeps.sys_config (h : Keeps l s t) (hp : l.contains .firmware = false) : t.sys.config = s.sys.config :=
  (h .firmware (by simpa using hp)).2.2.2.2.2.2.2.2.2.2.2.2.2.2.2.2.2.2.2.2.2.2.2.2.2.2.2.2.2.2.2.2.2
theorem Keeps.sys_flash (h : Keeps l s t) (hp : l.contains .flash = false) : t.sys.flash = s.sys.flash :=
  (h .flash (by simpa using hp)).1
theorem Keeps.sys_flashLost (h : Keeps l s t) (hp : l.contains .flash = false) : t.sys.flashLost = s.sys.flashLost :=
  (h .flash (by simpa using hp)).2
theorem Keeps.sys_pageBuf (h : Keeps l s t) (hp : l.contains .pageBuf = false) : t.sys.pageBuf = s.sys.pageBuf :=
  (h .pageBuf (by simpa using hp))
theorem Keeps.sys_tj (h : Keeps l s t) (hp : l.contains .temp = false) : t.sys.tj = s.sys.tj :=
  (h .temp (by simpa using hp)).1
theorem Keeps.sys_tjMax (h : Keeps l s t) (hp : l.contains .temp = false) : t.sys.tjMax = s.sys.tjMax :=
  (h .temp (by simpa using hp)).2
theorem Keeps.sys (h : Keeps l s t) (h1 : l.contains .power = false) (h2 : l.contains .fuses = false) (h3 : l.contains .lifecycle = false) (h4 : l.contains .debug = false) (h5 : l.contains .firmware = false) (h6 : l.contains .flash = false) (h7 : l.contains .pageBuf = false) (h8 : l.contains .temp = false) : t.sys = s.sys := by
  have e : ∀ x y : SysUnit, x.pwr = y.pwr ∧ x.moving = y.moving ∧ x.targetHeld = y.targetHeld ∧ x.powered = y.powered ∧ x.locks = y.locks ∧ x.osc25 = y.osc25 ∧ x.fuseState = y.fuseState ∧ x.fuseHash = y.fuseHash ∧ x.fuseBroken = y.fuseBroken ∧ x.secretNo = y.secretNo ∧ x.secretGone = y.secretGone ∧ x.bootCur = y.bootCur ∧ x.lifecycle = y.lifecycle ∧ x.lcBusy = y.lcBusy ∧ x.lcPending = y.lcPending ∧ x.lcResult = y.lcResult ∧ x.ir = y.ir ∧ x.boundary = y.boundary ∧ x.level = y.level ∧ x.auth = y.auth ∧ x.keysel = y.keysel ∧ x.fails = y.fails ∧ x.lockout = y.lockout ∧ x.challenge = y.challenge ∧ x.response = y.response ∧ x.nonceNo = y.nonceNo ∧ x.halted = y.halted ∧ x.bootCause = y.bootCause ∧ x.bootFails = y.bootFails ∧ x.bootSel = y.bootSel ∧ x.phase = y.phase ∧ x.trial = y.trial ∧ x.lkgBoot = y.lkgBoot ∧ x.safe = y.safe ∧ x.pair = y.pair ∧ x.standby = y.standby ∧ x.fwStart = y.fwStart ∧ x.record = y.record ∧ x.recordSeq = y.recordSeq ∧ x.recordAt = y.recordAt ∧ x.config = y.config ∧ x.flash = y.flash ∧ x.flashLost = y.flashLost ∧ x.pageBuf = y.pageBuf ∧ x.bufIdx = y.bufIdx ∧ x.fwPeek = y.fwPeek ∧ x.slotsValid = y.slotsValid ∧ x.runMgmt = y.runMgmt ∧ x.runMicro = y.runMicro ∧ x.fwResult = y.fwResult ∧ x.confirmPend = y.confirmPend ∧ x.confirmAt = y.confirmAt ∧ x.confirmRoll = y.confirmRoll ∧ x.oldMgmt = y.oldMgmt ∧ x.oldMicro = y.oldMicro ∧ x.roll = y.roll ∧ x.rollNew = y.rollNew ∧ x.rollSlot = y.rollSlot ∧ x.rollFails = y.rollFails ∧ x.rollBack = y.rollBack ∧ x.busyOp = y.busyOp ∧ x.actSlot = y.actSlot ∧ x.switchReq = y.switchReq ∧ x.tj = y.tj ∧ x.tjMax = y.tjMax → x = y := by
    rintro ⟨⟩ ⟨⟩ h
    simpa using h
  exact e _ _ ⟨Keeps.sys_pwr h h1, Keeps.sys_moving h h1, Keeps.sys_targetHeld h h1, Keeps.sys_powered h h1, Keeps.sys_locks h h1, Keeps.sys_osc25 h h1, Keeps.sys_fuseState h h2, Keeps.sys_fuseHash h h2, Keeps.sys_fuseBroken h h2, Keeps.sys_secretNo h h2, Keeps.sys_secretGone h h2, Keeps.sys_bootCur h h5, Keeps.sys_lifecycle h h3, Keeps.sys_lcBusy h h3, Keeps.sys_lcPending h h3, Keeps.sys_lcResult h h3, Keeps.sys_ir h h4, Keeps.sys_boundary h h4, Keeps.sys_level h h4, Keeps.sys_auth h h4, Keeps.sys_keysel h h4, Keeps.sys_fails h h4, Keeps.sys_lockout h h4, Keeps.sys_challenge h h4, Keeps.sys_response h h4, Keeps.sys_nonceNo h h4, Keeps.sys_halted h h4, Keeps.sys_bootCause h h5, Keeps.sys_bootFails h h5, Keeps.sys_bootSel h h5, Keeps.sys_phase h h5, Keeps.sys_trial h h5, Keeps.sys_lkgBoot h h5, Keeps.sys_safe h h5, Keeps.sys_pair h h5, Keeps.sys_standby h h5, Keeps.sys_fwStart h h5, Keeps.sys_record h h5, Keeps.sys_recordSeq h h5, Keeps.sys_recordAt h h5, Keeps.sys_config h h5, Keeps.sys_flash h h6, Keeps.sys_flashLost h h6, Keeps.sys_pageBuf h h7, Keeps.sys_bufIdx h h5, Keeps.sys_fwPeek h h5, Keeps.sys_slotsValid h h5, Keeps.sys_runMgmt h h5, Keeps.sys_runMicro h h5, Keeps.sys_fwResult h h5, Keeps.sys_confirmPend h h5, Keeps.sys_confirmAt h h5, Keeps.sys_confirmRoll h h5, Keeps.sys_oldMgmt h h5, Keeps.sys_oldMicro h h5, Keeps.sys_roll h h5, Keeps.sys_rollNew h h5, Keeps.sys_rollSlot h h5, Keeps.sys_rollFails h h5, Keeps.sys_rollBack h h5, Keeps.sys_busyOp h h5, Keeps.sys_actSlot h h5, Keeps.sys_switchReq h h5, Keeps.sys_tj h h8, Keeps.sys_tjMax h h8⟩
theorem Keeps.free (h : Keeps l s t) (hp : l.contains .free = false) : t.free = s.free :=
  (h .free (by simpa using hp))
theorem Keeps.out (h : Keeps l s t) (hp : l.contains .out = false) : t.out = s.out :=
  (h .out (by simpa using hp))

theorem Keeps.engine (h : Keeps l s t) (hp : l.contains .engines = false) (n : Nat) : t.engine n = s.engine n := by
  simp only [State.engine, Keeps.engines h hp]
theorem Keeps.port (h : Keeps l s t) (hp : l.contains .ports = false) (p : Nat) : t.port p = s.port p := by
  simp only [State.port, Keeps.ports h hp]
theorem Keeps.ip (h : Keeps l s t) (hp : l.contains .xcvr = false) (p : Nat) : t.ip p = s.ip p := by
  simp only [State.ip, Keeps.xcvr h hp]
theorem Keeps.frame? (h : Keeps l s t) (hp : l.contains .frames = false) (n : Nat) : t.frame? n = s.frame? n := by
  simp only [State.frame?, Keeps.frames h hp]
theorem Keeps.ring (h : Keeps l s t) (hp : l.contains .rings = false) (e : Ep) (k : Nat) : t.ring e k = s.ring e k := by
  simp only [State.ring, Keeps.rings h hp]
theorem Keeps.reg (h : Keeps l s t) (hp : l.contains .inForce = false) (o : Nat) : t.reg o = s.reg o := by
  simp only [State.reg, Keeps.regs_inForce h hp]
theorem Keeps.counter (h : Keeps l s t) (hp : l.contains .counters = false) (o : Nat) : t.counter o = s.counter o := by
  simp only [State.counter, Keeps.regs_counters h hp]
theorem Keeps.src (h : Keeps l s t) (hp : l.contains .srcs = false) (f : Nat) : t.src f = s.src f := by
  simp only [State.src, Keeps.stew_srcs h hp]
theorem Keeps.watchOf (h : Keeps l s t) (hp : l.contains .watch = false) (w : Nat) : t.watchOf w = s.watchOf w := by
  simp only [State.watchOf, Keeps.watch_states h hp]
theorem Keeps.recOf (h : Keeps l s t) (hp : l.contains .records = false) (i : Nat) : t.recOf i = s.recOf i := by
  simp only [State.recOf, Keeps.scriv_records h hp]
theorem Keeps.half (h : Keeps l s t) (hp : l.contains .halves = false) (n w : Nat) : t.half n w = s.half n w := by
  simp only [State.half, Keeps.lock_halves h hp]
theorem Keeps.bank (h : Keeps l s t) (hp : l.contains .banks = false) (g : Bool) : t.bank g = s.bank g := by
  simp only [State.bank, Keeps.watch_bank0 h hp, Keeps.watch_bank1 h hp]
theorem Keeps.ep (h : Keeps l s t) (hp : l.contains .epA = false) (hq : l.contains .epB = false) (e : Ep) : t.ep e = s.ep e := by
  cases e
  · exact Keeps.epA h hp
  · exact Keeps.epB h hq
theorem Keeps.fld (h : Keeps l s t) (hp : l.contains .inForce = false) (o a b : Nat) : t.fld o a b = s.fld o a b := by
  simp only [State.fld, Keeps.reg h hp]
theorem Keeps.flag (h : Keeps l s t) (hp : l.contains .inForce = false) (o a : Nat) : t.flag o a = s.flag o a := by
  simp only [State.flag, Keeps.reg h hp]
theorem Keeps.usable (h : Keeps l s t) (hp : l.contains .epA = false) (hq : l.contains .epB = false) (e : Ep) :
    t.usable e = s.usable e := by
  simp only [State.usable, Keeps.ep h hp hq]
theorem Keeps.tai (h : Keeps l s t) (hp : l.contains .clock = false) (hq : l.contains .tai = false) : t.tai = s.tai := by
  simp only [State.tai, State.taiAt, Keeps.time h hp hq]
theorem Keeps.unlocked (h : Keeps l s t) (hp : l.contains .locks = false) (p : Path) : t.unlocked p = s.unlocked p := by
  rcases p with ⟨⟨⟩⟩ | _ <;>
    simp only [State.unlocked, Keeps.regs_unlockedA h hp, Keeps.regs_unlockedB h hp, Keeps.regs_unlockedM h hp]
theorem Keeps.isOwner (h : Keeps l s t) (hp : l.contains .owner = false) (p : Path) : t.isOwner p = s.isOwner p := by
  cases p <;> simp only [State.isOwner, Keeps.regs_owner h hp]
theorem Keeps.serving (h : Keeps l s t) (hp : l.contains .ports = false) (p : Nat) : t.serving p = s.serving p := by
  simp only [State.serving, Keeps.port h hp]
theorem Keeps.portOf (h : Keeps l s t) (hp : l.contains .ports = false) (n : Nat) : t.portOf n = s.portOf n := by
  simp only [State.portOf, Keeps.serving h hp]
theorem Keeps.shadowedPort (h : Keeps l s t) (hp : l.contains .ports = false) (n : Nat) :
    t.shadowedPort n = s.shadowedPort n := by
  simp only [State.shadowedPort, Keeps.port h hp]
theorem Keeps.bellStack (h : Keeps l s t) (hp : l.contains .bell = false) (n : Nat) : t.bellStack n = s.bellStack n := by
  simp only [State.bellStack, Keeps.bell h hp]
theorem Keeps.sub (h : Keeps l s t) (hp : l.contains .subs = false) (n : Nat) : t.sub n = s.sub n := by
  simp only [State.sub, Keeps.crier_subs h hp]

end Sys2Proof.Laws
end

