-- ==== Sys2Proof/Laws/Units.lean ====
section
/-! SUPPORT. A record update of the state changes at most the parts of the units it replaces: for each part of such a unit
either it is among the named parts or its fields are as they were. -/

namespace Sys2Proof.Laws

open Sys2Proof.Machine Sys2Proof.Safety

theorem Keeps.with_gen {l : List Part} {s t : State} {x1 : Gen}
    (h1 : l.contains .epoch = true ∨ x1.st = t.gen.st ∧ x1.startHeld = t.gen.startHeld ∧ x1.epochNum = t.gen.epochNum ∧ x1.boundaryTai = t.gen.boundaryTai ∧ x1.epochStart = t.gen.epochStart ∧ x1.nextAt = t.gen.nextAt ∧ x1.cutDone = t.gen.cutDone ∧ x1.cutTai = t.gen.cutTai ∧ x1.silentAt = t.gen.silentAt)
    (h2 : l.contains .freeze = true ∨ x1.freeze = t.gen.freeze ∧ x1.thawAt = t.gen.thawAt ∧ x1.holdLate = t.gen.holdLate)
    (h3 : l.contains .commit = true ∨ x1.lastCommit = t.gen.lastCommit ∧ x1.commitBusy = t.gen.commitBusy ∧ x1.commitHeld = t.gen.commitHeld ∧ x1.swapPending = t.gen.swapPending ∧ x1.activeGen = t.gen.activeGen)
    (h4 : l.contains .snap = true ∨ x1.snapBusy = t.gen.snapBusy ∧ x1.snapAt = t.gen.snapAt ∧ x1.snapClear = t.gen.snapClear ∧ x1.snapHeld = t.gen.snapHeld ∧ x1.snapSeq = t.gen.snapSeq ∧ x1.snapAuto = t.gen.snapAuto ∧ x1.snapWrite = t.gen.snapWrite)
    (h : Keeps l s t) : Keeps l s { t with gen := x1 } := by
  refine Keeps.trans h (fun p hp => ?_)
  cases p
  case epoch => exact h1.resolve_left (by simpa using hp)
  case freeze => exact h2.resolve_left (by simpa using hp)
  case commit => exact h3.resolve_left (by simpa using hp)
  case snap => exact h4.resolve_left (by simpa using hp)
  all_goals simp [Part.same]

theorem Keeps.with_time {l : List Part} {s t : State} {x1 : TimeBase}
    (h1 : l.contains .clock = true ∨ x1.now = t.time.now)
    (h2 : l.contains .tai = true ∨ { x1 with now := 0 } = { t.time with now := 0 })
    (h : Keeps l s t) : Keeps l s { t with time := x1 } := by
  refine Keeps.trans h (fun p hp => ?_)
  cases p
  case clock => exact h1.resolve_left (by simpa using hp)
  case tai => exact h2.resolve_left (by simpa using hp)
  all_goals simp [Part.same]

theorem Keeps.with_regs {l : List Part} {s t : State} {x1 : RegFile}
    (h1 : l.contains .inForce = true ∨ x1.inForce = t.regs.inForce)
    (h2 : l.contains .staged = true ∨ x1.staged = t.regs.staged)
    (h3 : l.contains .held = true ∨ x1.held = t.regs.held)
    (h4 : l.contains .counters = true ∨ x1.counters = t.regs.counters)
    (h5 : l.contains .snapCopies = true ∨ x1.holding = t.regs.holding ∧ x1.visible = t.regs.visible)
    (h6 : l.contains .locks = true ∨ x1.unlockedA = t.regs.unlockedA ∧ x1.unlockedB = t.regs.unlockedB ∧ x1.unlockedM = t.regs.unlockedM)
    (h7 : l.contains .parity = true ∨ x1.badInForce = t.regs.badInForce ∧ x1.waiting = t.regs.waiting ∧ x1.parityInForce = t.regs.parityInForce ∧ x1.stagedLost = t.regs.stagedLost ∧ x1.parityAddr = t.regs.parityAddr ∧ x1.upset = t.regs.upset ∧ x1.reload = t.regs.reload)
    (h8 : l.contains .owner = true ∨ x1.owner = t.regs.owner ∧ x1.ownCause = t.regs.ownCause ∧ x1.beatAt = t.regs.beatAt)
    (h : Keeps l s t) : Keeps l s { t with regs := x1 } := by
  refine Keeps.trans h (fun p hp => ?_)
  cases p
  case inForce => exact h1.resolve_left (by simpa using hp)
  case staged => exact h2.resolve_left (by simpa using hp)
  case held => exact h3.resolve_left (by simpa using hp)
  case counters => exact h4.resolve_left (by simpa using hp)
  case snapCopies => exact h5.resolve_left (by simpa using hp)
  case locks => exact h6.resolve_left (by simpa using hp)
  case parity => exact h7.resolve_left (by simpa using hp)
  case owner => exact h8.resolve_left (by simpa using hp)
  all_goals simp [Part.same]

theorem Keeps.with_engines {l : List Part} {s t : State} {x1 : Table Engine}
    (h1 : l.contains .engines = true)
    (h : Keeps l s t) : Keeps l s { t with engines := x1 } := by
  refine Keeps.trans h (fun p hp => ?_)
  cases p
  case engines => exact absurd h1 (by simpa using hp)
  all_goals simp [Part.same]

theorem Keeps.with_ports {l : List Part} {s t : State} {x1 : Table Port}
    (h1 : l.contains .ports = true)
    (h : Keeps l s t) : Keeps l s { t with ports := x1 } := by
  refine Keeps.trans h (fun p hp => ?_)
  cases p
  case ports => exact absurd h1 (by simpa using hp)
  all_goals simp [Part.same]

theorem Keeps.with_xcvr {l : List Part} {s t : State} {x1 : Xcvr}
    (h1 : l.contains .xcvr = true)
    (h : Keeps l s t) : Keeps l s { t with xcvr := x1 } := by
  refine Keeps.trans h (fun p hp => ?_)
  cases p
  case xcvr => exact absurd h1 (by simpa using hp)
  all_goals simp [Part.same]

theorem Keeps.with_frames {l : List Part} {s t : State} {x1 : Table Frame}
    (h1 : l.contains .frames = true)
    (h : Keeps l s t) : Keeps l s { t with frames := x1 } := by
  refine Keeps.trans h (fun p hp => ?_)
  cases p
  case frames => exact absurd h1 (by simpa using hp)
  all_goals simp [Part.same]

theorem Keeps.with_nextFrame {l : List Part} {s t : State} {x1 : Nat}
    (h1 : l.contains .frames = true)
    (h : Keeps l s t) : Keeps l s { t with nextFrame := x1 } := by
  refine Keeps.trans h (fun p hp => ?_)
  cases p
  case frames => exact absurd h1 (by simpa using hp)
  all_goals simp [Part.same]

theorem Keeps.with_watch {l : List Part} {s t : State} {x1 : WatchUnit}
    (h1 : l.contains .banks = true ∨ x1.bank0 = t.watch.bank0 ∧ x1.bank1 = t.watch.bank1)
    (h2 : l.contains .loader = true ∨ x1.loader = t.watch.loader)
    (h3 : l.contains .watch = true ∨ { x1 with bank0 := {}, bank1 := {}, loader := {} } = { t.watch with bank0 := {}, bank1 := {}, loader := {} })
    (h : Keeps l s t) : Keeps l s { t with watch := x1 } := by
  refine Keeps.trans h (fun p hp => ?_)
  cases p
  case banks => exact h1.resolve_left (by simpa using hp)
  case loader => exact h2.resolve_left (by simpa using hp)
  case watch => exact h3.resolve_left (by simpa using hp)
  all_goals simp [Part.same]

theorem Keeps.with_scriv {l : List Part} {s t : State} {x1 : ScrivUnit}
    (h1 : l.contains .ops = true ∨ x1.ops = t.scriv.ops)
    (h2 : l.contains .records = true ∨ x1.records = t.scriv.records)
    (h3 : l.contains .scriv = true ∨ { x1 with ops := [], records := [] } = { t.scriv with ops := [], records := [] })
    (h : Keeps l s t) : Keeps l s { t with scriv := x1 } := by
  refine Keeps.trans h (fun p hp => ?_)
  cases p
  case ops => exact h1.resolve_left (by simpa using hp)
  case records => exact h2.resolve_left (by simpa using hp)
  case scriv => exact h3.resolve_left (by simpa using hp)
  all_goals simp [Part.same]

theorem Keeps.with_crier {l : List Part} {s t : State} {x1 : CrierUnit}
    (h1 : l.contains .subs = true ∨ x1.subs = t.crier.subs)
    (h2 : l.contains .bitmaps = true ∨ x1.bitmaps = t.crier.bitmaps ∧ x1.staged = t.crier.staged)
    (h3 : l.contains .crier = true ∨ { x1 with subs := [], bitmaps := [], staged := [] } = { t.crier with subs := [], bitmaps := [], staged := [] })
    (h : Keeps l s t) : Keeps l s { t with crier := x1 } := by
  refine Keeps.trans h (fun p hp => ?_)
  cases p
  case subs => exact h1.resolve_left (by simpa using hp)
  case bitmaps => exact h2.resolve_left (by simpa using hp)
  case crier => exact h3.resolve_left (by simpa using hp)
  all_goals simp [Part.same]

theorem Keeps.with_lock {l : List Part} {s t : State} {x1 : LockUnit}
    (h1 : l.contains .halves = true ∨ x1.halves = t.lock.halves)
    (h2 : l.contains .keks = true ∨ x1.keks = t.lock.keks ∧ x1.kek0 = t.lock.kek0 ∧ x1.withheld = t.lock.withheld)
    (h3 : l.contains .lock = true ∨ { x1 with halves := [], keks := [], kek0 := none, withheld := false } = { t.lock with halves := [], keks := [], kek0 := none, withheld := false })
    (h : Keeps l s t) : Keeps l s { t with lock := x1 } := by
  refine Keeps.trans h (fun p hp => ?_)
  cases p
  case halves => exact h1.resolve_left (by simpa using hp)
  case keks => exact h2.resolve_left (by simpa using hp)
  case lock => exact h3.resolve_left (by simpa using hp)
  all_goals simp [Part.same]

theorem Keeps.with_epA {l : List Part} {s t : State} {x1 : Endpoint}
    (h1 : l.contains .epA = true)
    (h : Keeps l s t) : Keeps l s { t with epA := x1 } := by
  refine Keeps.trans h (fun p hp => ?_)
  cases p
  case epA => exact absurd h1 (by simpa using hp)
  all_goals simp [Part.same]

theorem Keeps.with_epB {l : List Part} {s t : State} {x1 : Endpoint}
    (h1 : l.contains .epB = true)
    (h : Keeps l s t) : Keeps l s { t with epB := x1 } := by
  refine Keeps.trans h (fun p hp => ?_)
  cases p
  case epB => exact absurd h1 (by simpa using hp)
  all_goals simp [Part.same]

theorem Keeps.with_rings {l : List Part} {s t : State} {x1 : Table Ring}
    (h1 : l.contains .rings = true)
    (h : Keeps l s t) : Keeps l s { t with rings := x1 } := by
  refine Keeps.trans h (fun p hp => ?_)
  cases p
  case rings => exact absurd h1 (by simpa using hp)
  all_goals simp [Part.same]

theorem Keeps.with_bell {l : List Part} {s t : State} {x1 : BellUnit}
    (h1 : l.contains .bell = true)
    (h : Keeps l s t) : Keeps l s { t with bell := x1 } := by
  refine Keeps.trans h (fun p hp => ?_)
  cases p
  case bell => exact absurd h1 (by simpa using hp)
  all_goals simp [Part.same]

theorem Keeps.with_dray {l : List Part} {s t : State} {x1 : DrayUnit}
    (h1 : l.contains .routes = true ∨ x1.routeState = t.dray.routeState ∧ x1.fenced = t.dray.fenced)
    (h2 : l.contains .cells = true ∨ x1.cellUse = t.dray.cellUse ∧ x1.hostCells = t.dray.hostCells ∧ x1.retiredCells = t.dray.retiredCells)
    (h3 : l.contains .storeroom = true ∨ x1.storeroom = t.dray.storeroom)
    (h : Keeps l s t) : Keeps l s { t with dray := x1 } := by
  refine Keeps.trans h (fun p hp => ?_)
  cases p
  case routes => exact h1.resolve_left (by simpa using hp)
  case cells => exact h2.resolve_left (by simpa using hp)
  case storeroom => exact h3.resolve_left (by simpa using hp)
  all_goals simp [Part.same]

theorem Keeps.with_cellar {l : List Part} {s t : State} {x1 : CellarUnit}
    (h1 : l.contains .store = true ∨ x1.store = t.cellar.store)
    (h2 : l.contains .cellar = true ∨ { x1 with store := {} } = { t.cellar with store := {} })
    (h : Keeps l s t) : Keeps l s { t with cellar := x1 } := by
  refine Keeps.trans h (fun p hp => ?_)
  cases p
  case store => exact h1.resolve_left (by simpa using hp)
  case cellar => exact h2.resolve_left (by simpa using hp)
  all_goals simp [Part.same]

theorem Keeps.with_stew {l : List Part} {s t : State} {x1 : StewUnit}
    (h1 : l.contains .srcs = true ∨ x1.srcs = t.stew.srcs)
    (h2 : l.contains .stew = true ∨ { x1 with srcs := [] } = { t.stew with srcs := [] })
    (h : Keeps l s t) : Keeps l s { t with stew := x1 } := by
  refine Keeps.trans h (fun p hp => ?_)
  cases p
  case srcs => exact h1.resolve_left (by simpa using hp)
  case stew => exact h2.resolve_left (by simpa using hp)
  all_goals simp [Part.same]

theorem Keeps.with_tink {l : List Part} {s t : State} {x1 : TinkUnit}
    (h1 : l.contains .tink = true)
    (h : Keeps l s t) : Keeps l s { t with tink := x1 } := by
  refine Keeps.trans h (fun p hp => ?_)
  cases p
  case tink => exact absurd h1 (by simpa using hp)
  all_goals simp [Part.same]

theorem Keeps.with_sys {l : List Part} {s t : State} {x1 : SysUnit}
    (h1 : l.contains .power = true ∨ x1.pwr = t.sys.pwr ∧ x1.moving = t.sys.moving ∧ x1.targetHeld = t.sys.targetHeld ∧ x1.powered = t.sys.powered ∧ x1.locks = t.sys.locks ∧ x1.osc25 = t.sys.osc25)
    (h2 : l.contains .fuses = true ∨ x1.fuseState = t.sys.fuseState ∧ x1.fuseHash = t.sys.fuseHash ∧ x1.fuseBroken = t.sys.fuseBroken ∧ x1.secretNo = t.sys.secretNo ∧ x1.secretGone = t.sys.secretGone)
    (h3 : l.contains .lifecycle = true ∨ x1.lifecycle = t.sys.lifecycle ∧ x1.lcBusy = t.sys.lcBusy ∧ x1.lcPending = t.sys.lcPending ∧ x1.lcResult = t.sys.lcResult)
    (h4 : l.contains .debug = true ∨ x1.ir = t.sys.ir ∧ x1.boundary = t.sys.boundary ∧ x1.level = t.sys.level ∧ x1.auth = t.sys.auth ∧ x1.keysel = t.sys.keysel ∧ x1.fails = t.sys.fails ∧ x1.lockout = t.sys.lockout ∧ x1.challenge = t.sys.challenge ∧ x1.response = t.sys.response ∧ x1.nonceNo = t.sys.nonceNo ∧ x1.halted = t.sys.halted)
    (h5 : l.contains .firmware = true ∨ x1.bootCause = t.sys.bootCause ∧ x1.bootFails = t.sys.bootFails ∧ x1.bootSel = t.sys.bootSel ∧ x1.phase = t.sys.phase ∧ x1.trial = t.sys.trial ∧ x1.lkgBoot = t.sys.lkgBoot ∧ x1.safe = t.sys.safe ∧ x1.pair = t.sys.pair ∧ x1.standby = t.sys.standby ∧ x1.fwStart = t.sys.fwStart ∧ x1.record = t.sys.record ∧ x1.bufIdx = t.sys.bufIdx ∧ x1.fwPeek = t.sys.fwPeek ∧ x1.slotsValid = t.sys.slotsValid ∧ x1.runMgmt = t.sys.runMgmt ∧ x1.runMicro = t.sys.runMicro ∧ x1.fwResult = t.sys.fwResult ∧ x1.confirmPend = t.sys.confirmPend ∧ x1.confirmAt = t.sys.confirmAt ∧ x1.confirmRoll = t.sys.confirmRoll ∧ x1.oldMgmt = t.sys.oldMgmt ∧ x1.oldMicro = t.sys.oldMicro ∧ x1.roll = t.sys.roll ∧ x1.rollNew = t.sys.rollNew ∧ x1.rollSlot = t.sys.rollSlot ∧ x1.rollFails = t.sys.rollFails ∧ x1.rollBack = t.sys.rollBack ∧ x1.busyOp = t.sys.busyOp ∧ x1.actSlot = t.sys.actSlot ∧ x1.switchReq = t.sys.switchReq ∧ x1.bootCur = t.sys.bootCur ∧ x1.recordSeq = t.sys.recordSeq ∧ x1.recordAt = t.sys.recordAt ∧ x1.config = t.sys.config)
    (h6 : l.contains .flash = true ∨ x1.flash = t.sys.flash ∧ x1.flashLost = t.sys.flashLost)
    (h7 : l.contains .pageBuf = true ∨ x1.pageBuf = t.sys.pageBuf)
    (h8 : l.contains .temp = true ∨ x1.tj = t.sys.tj ∧ x1.tjMax = t.sys.tjMax)
    (h : Keeps l s t) : Keeps l s { t with sys := x1 } := by
  refine Keeps.trans h (fun p hp => ?_)
  cases p
  case power => exact h1.resolve_left (by simpa using hp)
  case fuses => exact h2.resolve_left (by simpa using hp)
  case lifecycle => exact h3.resolve_left (by simpa using hp)
  case debug => exact h4.resolve_left (by simpa using hp)
  case firmware => exact h5.resolve_left (by simpa using hp)
  case flash => exact h6.resolve_left (by simpa using hp)
  case pageBuf => exact h7.resolve_left (by simpa using hp)
  case temp => exact h8.resolve_left (by simpa using hp)
  all_goals simp [Part.same]

theorem Keeps.with_free {l : List Part} {s t : State} {x1 : Nat}
    (h1 : l.contains .free = true)
    (h : Keeps l s t) : Keeps l s { t with free := x1 } := by
  refine Keeps.trans h (fun p hp => ?_)
  cases p
  case free => exact absurd h1 (by simpa using hp)
  all_goals simp [Part.same]

theorem Keeps.with_out {l : List Part} {s t : State} {x1 : List Out}
    (h1 : l.contains .out = true)
    (h : Keeps l s t) : Keeps l s { t with out := x1 } := by
  refine Keeps.trans h (fun p hp => ?_)
  cases p
  case out => exact absurd h1 (by simpa using hp)
  all_goals simp [Part.same]

theorem Keeps.with_gen_regs {l : List Part} {s t : State} {x1 : Gen} {x2 : RegFile}
    (h1 : l.contains .epoch = true ∨ x1.st = t.gen.st ∧ x1.startHeld = t.gen.startHeld ∧ x1.epochNum = t.gen.epochNum ∧ x1.boundaryTai = t.gen.boundaryTai ∧ x1.epochStart = t.gen.epochStart ∧ x1.nextAt = t.gen.nextAt ∧ x1.cutDone = t.gen.cutDone ∧ x1.cutTai = t.gen.cutTai ∧ x1.silentAt = t.gen.silentAt)
    (h2 : l.contains .freeze = true ∨ x1.freeze = t.gen.freeze ∧ x1.thawAt = t.gen.thawAt ∧ x1.holdLate = t.gen.holdLate)
    (h3 : l.contains .commit = true ∨ x1.lastCommit = t.gen.lastCommit ∧ x1.commitBusy = t.gen.commitBusy ∧ x1.commitHeld = t.gen.commitHeld ∧ x1.swapPending = t.gen.swapPending ∧ x1.activeGen = t.gen.activeGen)
    (h4 : l.contains .snap = true ∨ x1.snapBusy = t.gen.snapBusy ∧ x1.snapAt = t.gen.snapAt ∧ x1.snapClear = t.gen.snapClear ∧ x1.snapHeld = t.gen.snapHeld ∧ x1.snapSeq = t.gen.snapSeq ∧ x1.snapAuto = t.gen.snapAuto ∧ x1.snapWrite = t.gen.snapWrite)
    (h5 : l.contains .inForce = true ∨ x2.inForce = t.regs.inForce)
    (h6 : l.contains .staged = true ∨ x2.staged = t.regs.staged)
    (h7 : l.contains .held = true ∨ x2.held = t.regs.held)
    (h8 : l.contains .counters = true ∨ x2.counters = t.regs.counters)
    (h9 : l.contains .snapCopies = true ∨ x2.holding = t.regs.holding ∧ x2.visible = t.regs.visible)
    (h10 : l.contains .locks = true ∨ x2.unlockedA = t.regs.unlockedA ∧ x2.unlockedB = t.regs.unlockedB ∧ x2.unlockedM = t.regs.unlockedM)
    (h11 : l.contains .parity = true ∨ x2.badInForce = t.regs.badInForce ∧ x2.waiting = t.regs.waiting ∧ x2.parityInForce = t.regs.parityInForce ∧ x2.stagedLost = t.regs.stagedLost ∧ x2.parityAddr = t.regs.parityAddr ∧ x2.upset = t.regs.upset ∧ x2.reload = t.regs.reload)
    (h12 : l.contains .owner = true ∨ x2.owner = t.regs.owner ∧ x2.ownCause = t.regs.ownCause ∧ x2.beatAt = t.regs.beatAt)
    (h : Keeps l s t) : Keeps l s { t with gen := x1, regs := x2 } := by
  refine Keeps.trans h (fun p hp => ?_)
  cases p
  case epoch => exact h1.resolve_left (by simpa using hp)
  case freeze => exact h2.resolve_left (by simpa using hp)
  case commit => exact h3.resolve_left (by simpa using hp)
  case snap => exact h4.resolve_left (by simpa using hp)
  case inForce => exact h5.resolve_left (by simpa using hp)
  case staged => exact h6.resolve_left (by simpa using hp)
  case held => exact h7.resolve_left (by simpa using hp)
  case counters => exact h8.resolve_left (by simpa using hp)
  case snapCopies => exact h9.resolve_left (by simpa using hp)
  case locks => exact h10.resolve_left (by simpa using hp)
  case parity => exact h11.resolve_left (by simpa using hp)
  case owner => exact h12.resolve_left (by simpa using hp)
  all_goals simp [Part.same]

theorem Keeps.with_gen_watch {l : List Part} {s t : State} {x1 : Gen} {x2 : WatchUnit}
    (h1 : l.contains .epoch = true ∨ x1.st = t.gen.st ∧ x1.startHeld = t.gen.startHeld ∧ x1.epochNum = t.gen.epochNum ∧ x1.boundaryTai = t.gen.boundaryTai ∧ x1.epochStart = t.gen.epochStart ∧ x1.nextAt = t.gen.nextAt ∧ x1.cutDone = t.gen.cutDone ∧ x1.cutTai = t.gen.cutTai ∧ x1.silentAt = t.gen.silentAt)
    (h2 : l.contains .freeze = true ∨ x1.freeze = t.gen.freeze ∧ x1.thawAt = t.gen.thawAt ∧ x1.holdLate = t.gen.holdLate)
    (h3 : l.contains .commit = true ∨ x1.lastCommit = t.gen.lastCommit ∧ x1.commitBusy = t.gen.commitBusy ∧ x1.commitHeld = t.gen.commitHeld ∧ x1.swapPending = t.gen.swapPending ∧ x1.activeGen = t.gen.activeGen)
    (h4 : l.contains .snap = true ∨ x1.snapBusy = t.gen.snapBusy ∧ x1.snapAt = t.gen.snapAt ∧ x1.snapClear = t.gen.snapClear ∧ x1.snapHeld = t.gen.snapHeld ∧ x1.snapSeq = t.gen.snapSeq ∧ x1.snapAuto = t.gen.snapAuto ∧ x1.snapWrite = t.gen.snapWrite)
    (h5 : l.contains .banks = true ∨ x2.bank0 = t.watch.bank0 ∧ x2.bank1 = t.watch.bank1)
    (h6 : l.contains .loader = true ∨ x2.loader = t.watch.loader)
    (h7 : l.contains .watch = true ∨ { x2 with bank0 := {}, bank1 := {}, loader := {} } = { t.watch with bank0 := {}, bank1 := {}, loader := {} })
    (h : Keeps l s t) : Keeps l s { t with gen := x1, watch := x2 } := by
  refine Keeps.trans h (fun p hp => ?_)
  cases p
  case epoch => exact h1.resolve_left (by simpa using hp)
  case freeze => exact h2.resolve_left (by simpa using hp)
  case commit => exact h3.resolve_left (by simpa using hp)
  case snap => exact h4.resolve_left (by simpa using hp)
  case banks => exact h5.resolve_left (by simpa using hp)
  case loader => exact h6.resolve_left (by simpa using hp)
  case watch => exact h7.resolve_left (by simpa using hp)
  all_goals simp [Part.same]

theorem Keeps.with_time_lock {l : List Part} {s t : State} {x1 : TimeBase} {x2 : LockUnit}
    (h1 : l.contains .clock = true ∨ x1.now = t.time.now)
    (h2 : l.contains .tai = true ∨ { x1 with now := 0 } = { t.time with now := 0 })
    (h3 : l.contains .halves = true ∨ x2.halves = t.lock.halves)
    (h4 : l.contains .keks = true ∨ x2.keks = t.lock.keks ∧ x2.kek0 = t.lock.kek0 ∧ x2.withheld = t.lock.withheld)
    (h5 : l.contains .lock = true ∨ { x2 with halves := [], keks := [], kek0 := none, withheld := false } = { t.lock with halves := [], keks := [], kek0 := none, withheld := false })
    (h : Keeps l s t) : Keeps l s { t with time := x1, lock := x2 } := by
  refine Keeps.trans h (fun p hp => ?_)
  cases p
  case clock => exact h1.resolve_left (by simpa using hp)
  case tai => exact h2.resolve_left (by simpa using hp)
  case halves => exact h3.resolve_left (by simpa using hp)
  case keks => exact h4.resolve_left (by simpa using hp)
  case lock => exact h5.resolve_left (by simpa using hp)
  all_goals simp [Part.same]

theorem Keeps.with_time_sys {l : List Part} {s t : State} {x1 : TimeBase} {x2 : SysUnit}
    (h1 : l.contains .clock = true ∨ x1.now = t.time.now)
    (h2 : l.contains .tai = true ∨ { x1 with now := 0 } = { t.time with now := 0 })
    (h3 : l.contains .power = true ∨ x2.pwr = t.sys.pwr ∧ x2.moving = t.sys.moving ∧ x2.targetHeld = t.sys.targetHeld ∧ x2.powered = t.sys.powered ∧ x2.locks = t.sys.locks ∧ x2.osc25 = t.sys.osc25)
    (h4 : l.contains .fuses = true ∨ x2.fuseState = t.sys.fuseState ∧ x2.fuseHash = t.sys.fuseHash ∧ x2.fuseBroken = t.sys.fuseBroken ∧ x2.secretNo = t.sys.secretNo ∧ x2.secretGone = t.sys.secretGone)
    (h5 : l.contains .lifecycle = true ∨ x2.lifecycle = t.sys.lifecycle ∧ x2.lcBusy = t.sys.lcBusy ∧ x2.lcPending = t.sys.lcPending ∧ x2.lcResult = t.sys.lcResult)
    (h6 : l.contains .debug = true ∨ x2.ir = t.sys.ir ∧ x2.boundary = t.sys.boundary ∧ x2.level = t.sys.level ∧ x2.auth = t.sys.auth ∧ x2.keysel = t.sys.keysel ∧ x2.fails = t.sys.fails ∧ x2.lockout = t.sys.lockout ∧ x2.challenge = t.sys.challenge ∧ x2.response = t.sys.response ∧ x2.nonceNo = t.sys.nonceNo ∧ x2.halted = t.sys.halted)
    (h7 : l.contains .firmware = true ∨ x2.bootCause = t.sys.bootCause ∧ x2.bootFails = t.sys.bootFails ∧ x2.bootSel = t.sys.bootSel ∧ x2.phase = t.sys.phase ∧ x2.trial = t.sys.trial ∧ x2.lkgBoot = t.sys.lkgBoot ∧ x2.safe = t.sys.safe ∧ x2.pair = t.sys.pair ∧ x2.standby = t.sys.standby ∧ x2.fwStart = t.sys.fwStart ∧ x2.record = t.sys.record ∧ x2.bufIdx = t.sys.bufIdx ∧ x2.fwPeek = t.sys.fwPeek ∧ x2.slotsValid = t.sys.slotsValid ∧ x2.runMgmt = t.sys.runMgmt ∧ x2.runMicro = t.sys.runMicro ∧ x2.fwResult = t.sys.fwResult ∧ x2.confirmPend = t.sys.confirmPend ∧ x2.confirmAt = t.sys.confirmAt ∧ x2.confirmRoll = t.sys.confirmRoll ∧ x2.oldMgmt = t.sys.oldMgmt ∧ x2.oldMicro = t.sys.oldMicro ∧ x2.roll = t.sys.roll ∧ x2.rollNew = t.sys.rollNew ∧ x2.rollSlot = t.sys.rollSlot ∧ x2.rollFails = t.sys.rollFails ∧ x2.rollBack = t.sys.rollBack ∧ x2.busyOp = t.sys.busyOp ∧ x2.actSlot = t.sys.actSlot ∧ x2.switchReq = t.sys.switchReq ∧ x2.bootCur = t.sys.bootCur ∧ x2.recordSeq = t.sys.recordSeq ∧ x2.recordAt = t.sys.recordAt ∧ x2.config = t.sys.config)
    (h8 : l.contains .flash = true ∨ x2.flash = t.sys.flash ∧ x2.flashLost = t.sys.flashLost)
    (h9 : l.contains .pageBuf = true ∨ x2.pageBuf = t.sys.pageBuf)
    (h10 : l.contains .temp = true ∨ x2.tj = t.sys.tj ∧ x2.tjMax = t.sys.tjMax)
    (h : Keeps l s t) : Keeps l s { t with time := x1, sys := x2 } := by
  refine Keeps.trans h (fun p hp => ?_)
  cases p
  case clock => exact h1.resolve_left (by simpa using hp)
  case tai => exact h2.resolve_left (by simpa using hp)
  case power => exact h3.resolve_left (by simpa using hp)
  case fuses => exact h4.resolve_left (by simpa using hp)
  case lifecycle => exact h5.resolve_left (by simpa using hp)
  case debug => exact h6.resolve_left (by simpa using hp)
  case firmware => exact h7.resolve_left (by simpa using hp)
  case flash => exact h8.resolve_left (by simpa using hp)
  case pageBuf => exact h9.resolve_left (by simpa using hp)
  case temp => exact h10.resolve_left (by simpa using hp)
  all_goals simp [Part.same]

theorem Keeps.with_frames_scriv {l : List Part} {s t : State} {x1 : Table Frame} {x2 : ScrivUnit}
    (h1 : l.contains .frames = true)
    (h2 : l.contains .ops = true ∨ x2.ops = t.scriv.ops)
    (h3 : l.contains .records = true ∨ x2.records = t.scriv.records)
    (h4 : l.contains .scriv = true ∨ { x2 with ops := [], records := [] } = { t.scriv with ops := [], records := [] })
    (h : Keeps l s t) : Keeps l s { t with frames := x1, scriv := x2 } := by
  refine Keeps.trans h (fun p hp => ?_)
  cases p
  case frames => exact absurd h1 (by simpa using hp)
  case ops => exact h2.resolve_left (by simpa using hp)
  case records => exact h3.resolve_left (by simpa using hp)
  case scriv => exact h4.resolve_left (by simpa using hp)
  all_goals simp [Part.same]

theorem Keeps.with_frames_lock {l : List Part} {s t : State} {x1 : Table Frame} {x2 : LockUnit}
    (h1 : l.contains .frames = true)
    (h2 : l.contains .halves = true ∨ x2.halves = t.lock.halves)
    (h3 : l.contains .keks = true ∨ x2.keks = t.lock.keks ∧ x2.kek0 = t.lock.kek0 ∧ x2.withheld = t.lock.withheld)
    (h4 : l.contains .lock = true ∨ { x2 with halves := [], keks := [], kek0 := none, withheld := false } = { t.lock with halves := [], keks := [], kek0 := none, withheld := false })
    (h : Keeps l s t) : Keeps l s { t with frames := x1, lock := x2 } := by
  refine Keeps.trans h (fun p hp => ?_)
  cases p
  case frames => exact absurd h1 (by simpa using hp)
  case halves => exact h2.resolve_left (by simpa using hp)
  case keks => exact h3.resolve_left (by simpa using hp)
  case lock => exact h4.resolve_left (by simpa using hp)
  all_goals simp [Part.same]

theorem Keeps.with_watch_crier {l : List Part} {s t : State} {x1 : WatchUnit} {x2 : CrierUnit}
    (h1 : l.contains .banks = true ∨ x1.bank0 = t.watch.bank0 ∧ x1.bank1 = t.watch.bank1)
    (h2 : l.contains .loader = true ∨ x1.loader = t.watch.loader)
    (h3 : l.contains .watch = true ∨ { x1 with bank0 := {}, bank1 := {}, loader := {} } = { t.watch with bank0 := {}, bank1 := {}, loader := {} })
    (h4 : l.contains .subs = true ∨ x2.subs = t.crier.subs)
    (h5 : l.contains .bitmaps = true ∨ x2.bitmaps = t.crier.bitmaps ∧ x2.staged = t.crier.staged)
    (h6 : l.contains .crier = true ∨ { x2 with subs := [], bitmaps := [], staged := [] } = { t.crier with subs := [], bitmaps := [], staged := [] })
    (h : Keeps l s t) : Keeps l s { t with watch := x1, crier := x2 } := by
  refine Keeps.trans h (fun p hp => ?_)
  cases p
  case banks => exact h1.resolve_left (by simpa using hp)
  case loader => exact h2.resolve_left (by simpa using hp)
  case watch => exact h3.resolve_left (by simpa using hp)
  case subs => exact h4.resolve_left (by simpa using hp)
  case bitmaps => exact h5.resolve_left (by simpa using hp)
  case crier => exact h6.resolve_left (by simpa using hp)
  all_goals simp [Part.same]

theorem Keeps.with_lock_sys {l : List Part} {s t : State} {x1 : LockUnit} {x2 : SysUnit}
    (h1 : l.contains .halves = true ∨ x1.halves = t.lock.halves)
    (h2 : l.contains .keks = true ∨ x1.keks = t.lock.keks ∧ x1.kek0 = t.lock.kek0 ∧ x1.withheld = t.lock.withheld)
    (h3 : l.contains .lock = true ∨ { x1 with halves := [], keks := [], kek0 := none, withheld := false } = { t.lock with halves := [], keks := [], kek0 := none, withheld := false })
    (h4 : l.contains .power = true ∨ x2.pwr = t.sys.pwr ∧ x2.moving = t.sys.moving ∧ x2.targetHeld = t.sys.targetHeld ∧ x2.powered = t.sys.powered ∧ x2.locks = t.sys.locks ∧ x2.osc25 = t.sys.osc25)
    (h5 : l.contains .fuses = true ∨ x2.fuseState = t.sys.fuseState ∧ x2.fuseHash = t.sys.fuseHash ∧ x2.fuseBroken = t.sys.fuseBroken ∧ x2.secretNo = t.sys.secretNo ∧ x2.secretGone = t.sys.secretGone)
    (h6 : l.contains .lifecycle = true ∨ x2.lifecycle = t.sys.lifecycle ∧ x2.lcBusy = t.sys.lcBusy ∧ x2.lcPending = t.sys.lcPending ∧ x2.lcResult = t.sys.lcResult)
    (h7 : l.contains .debug = true ∨ x2.ir = t.sys.ir ∧ x2.boundary = t.sys.boundary ∧ x2.level = t.sys.level ∧ x2.auth = t.sys.auth ∧ x2.keysel = t.sys.keysel ∧ x2.fails = t.sys.fails ∧ x2.lockout = t.sys.lockout ∧ x2.challenge = t.sys.challenge ∧ x2.response = t.sys.response ∧ x2.nonceNo = t.sys.nonceNo ∧ x2.halted = t.sys.halted)
    (h8 : l.contains .firmware = true ∨ x2.bootCause = t.sys.bootCause ∧ x2.bootFails = t.sys.bootFails ∧ x2.bootSel = t.sys.bootSel ∧ x2.phase = t.sys.phase ∧ x2.trial = t.sys.trial ∧ x2.lkgBoot = t.sys.lkgBoot ∧ x2.safe = t.sys.safe ∧ x2.pair = t.sys.pair ∧ x2.standby = t.sys.standby ∧ x2.fwStart = t.sys.fwStart ∧ x2.record = t.sys.record ∧ x2.bufIdx = t.sys.bufIdx ∧ x2.fwPeek = t.sys.fwPeek ∧ x2.slotsValid = t.sys.slotsValid ∧ x2.runMgmt = t.sys.runMgmt ∧ x2.runMicro = t.sys.runMicro ∧ x2.fwResult = t.sys.fwResult ∧ x2.confirmPend = t.sys.confirmPend ∧ x2.confirmAt = t.sys.confirmAt ∧ x2.confirmRoll = t.sys.confirmRoll ∧ x2.oldMgmt = t.sys.oldMgmt ∧ x2.oldMicro = t.sys.oldMicro ∧ x2.roll = t.sys.roll ∧ x2.rollNew = t.sys.rollNew ∧ x2.rollSlot = t.sys.rollSlot ∧ x2.rollFails = t.sys.rollFails ∧ x2.rollBack = t.sys.rollBack ∧ x2.busyOp = t.sys.busyOp ∧ x2.actSlot = t.sys.actSlot ∧ x2.switchReq = t.sys.switchReq ∧ x2.bootCur = t.sys.bootCur ∧ x2.recordSeq = t.sys.recordSeq ∧ x2.recordAt = t.sys.recordAt ∧ x2.config = t.sys.config)
    (h9 : l.contains .flash = true ∨ x2.flash = t.sys.flash ∧ x2.flashLost = t.sys.flashLost)
    (h10 : l.contains .pageBuf = true ∨ x2.pageBuf = t.sys.pageBuf)
    (h11 : l.contains .temp = true ∨ x2.tj = t.sys.tj ∧ x2.tjMax = t.sys.tjMax)
    (h : Keeps l s t) : Keeps l s { t with lock := x1, sys := x2 } := by
  refine Keeps.trans h (fun p hp => ?_)
  cases p
  case halves => exact h1.resolve_left (by simpa using hp)
  case keks => exact h2.resolve_left (by simpa using hp)
  case lock => exact h3.resolve_left (by simpa using hp)
  case power => exact h4.resolve_left (by simpa using hp)
  case fuses => exact h5.resolve_left (by simpa using hp)
  case lifecycle => exact h6.resolve_left (by simpa using hp)
  case debug => exact h7.resolve_left (by simpa using hp)
  case firmware => exact h8.resolve_left (by simpa using hp)
  case flash => exact h9.resolve_left (by simpa using hp)
  case pageBuf => exact h10.resolve_left (by simpa using hp)
  case temp => exact h11.resolve_left (by simpa using hp)
  all_goals simp [Part.same]

theorem Keeps.with_cellar_tink {l : List Part} {s t : State} {x1 : CellarUnit} {x2 : TinkUnit}
    (h1 : l.contains .store = true ∨ x1.store = t.cellar.store)
    (h2 : l.contains .cellar = true ∨ { x1 with store := {} } = { t.cellar with store := {} })
    (h3 : l.contains .tink = true)
    (h : Keeps l s t) : Keeps l s { t with cellar := x1, tink := x2 } := by
  refine Keeps.trans h (fun p hp => ?_)
  cases p
  case store => exact h1.resolve_left (by simpa using hp)
  case cellar => exact h2.resolve_left (by simpa using hp)
  case tink => exact absurd h3 (by simpa using hp)
  all_goals simp [Part.same]

theorem Keeps.with_stew_tink {l : List Part} {s t : State} {x1 : StewUnit} {x2 : TinkUnit}
    (h1 : l.contains .srcs = true ∨ x1.srcs = t.stew.srcs)
    (h2 : l.contains .stew = true ∨ { x1 with srcs := [] } = { t.stew with srcs := [] })
    (h3 : l.contains .tink = true)
    (h : Keeps l s t) : Keeps l s { t with stew := x1, tink := x2 } := by
  refine Keeps.trans h (fun p hp => ?_)
  cases p
  case srcs => exact h1.resolve_left (by simpa using hp)
  case stew => exact h2.resolve_left (by simpa using hp)
  case tink => exact absurd h3 (by simpa using hp)
  all_goals simp [Part.same]

theorem Keeps.with_stew_sys {l : List Part} {s t : State} {x1 : StewUnit} {x2 : SysUnit}
    (h1 : l.contains .srcs = true ∨ x1.srcs = t.stew.srcs)
    (h2 : l.contains .stew = true ∨ { x1 with srcs := [] } = { t.stew with srcs := [] })
    (h3 : l.contains .power = true ∨ x2.pwr = t.sys.pwr ∧ x2.moving = t.sys.moving ∧ x2.targetHeld = t.sys.targetHeld ∧ x2.powered = t.sys.powered ∧ x2.locks = t.sys.locks ∧ x2.osc25 = t.sys.osc25)
    (h4 : l.contains .fuses = true ∨ x2.fuseState = t.sys.fuseState ∧ x2.fuseHash = t.sys.fuseHash ∧ x2.fuseBroken = t.sys.fuseBroken ∧ x2.secretNo = t.sys.secretNo ∧ x2.secretGone = t.sys.secretGone)
    (h5 : l.contains .lifecycle = true ∨ x2.lifecycle = t.sys.lifecycle ∧ x2.lcBusy = t.sys.lcBusy ∧ x2.lcPending = t.sys.lcPending ∧ x2.lcResult = t.sys.lcResult)
    (h6 : l.contains .debug = true ∨ x2.ir = t.sys.ir ∧ x2.boundary = t.sys.boundary ∧ x2.level = t.sys.level ∧ x2.auth = t.sys.auth ∧ x2.keysel = t.sys.keysel ∧ x2.fails = t.sys.fails ∧ x2.lockout = t.sys.lockout ∧ x2.challenge = t.sys.challenge ∧ x2.response = t.sys.response ∧ x2.nonceNo = t.sys.nonceNo ∧ x2.halted = t.sys.halted)
    (h7 : l.contains .firmware = true ∨ x2.bootCause = t.sys.bootCause ∧ x2.bootFails = t.sys.bootFails ∧ x2.bootSel = t.sys.bootSel ∧ x2.phase = t.sys.phase ∧ x2.trial = t.sys.trial ∧ x2.lkgBoot = t.sys.lkgBoot ∧ x2.safe = t.sys.safe ∧ x2.pair = t.sys.pair ∧ x2.standby = t.sys.standby ∧ x2.fwStart = t.sys.fwStart ∧ x2.record = t.sys.record ∧ x2.bufIdx = t.sys.bufIdx ∧ x2.fwPeek = t.sys.fwPeek ∧ x2.slotsValid = t.sys.slotsValid ∧ x2.runMgmt = t.sys.runMgmt ∧ x2.runMicro = t.sys.runMicro ∧ x2.fwResult = t.sys.fwResult ∧ x2.confirmPend = t.sys.confirmPend ∧ x2.confirmAt = t.sys.confirmAt ∧ x2.confirmRoll = t.sys.confirmRoll ∧ x2.oldMgmt = t.sys.oldMgmt ∧ x2.oldMicro = t.sys.oldMicro ∧ x2.roll = t.sys.roll ∧ x2.rollNew = t.sys.rollNew ∧ x2.rollSlot = t.sys.rollSlot ∧ x2.rollFails = t.sys.rollFails ∧ x2.rollBack = t.sys.rollBack ∧ x2.busyOp = t.sys.busyOp ∧ x2.actSlot = t.sys.actSlot ∧ x2.switchReq = t.sys.switchReq ∧ x2.bootCur = t.sys.bootCur ∧ x2.recordSeq = t.sys.recordSeq ∧ x2.recordAt = t.sys.recordAt ∧ x2.config = t.sys.config)
    (h8 : l.contains .flash = true ∨ x2.flash = t.sys.flash ∧ x2.flashLost = t.sys.flashLost)
    (h9 : l.contains .pageBuf = true ∨ x2.pageBuf = t.sys.pageBuf)
    (h10 : l.contains .temp = true ∨ x2.tj = t.sys.tj ∧ x2.tjMax = t.sys.tjMax)
    (h : Keeps l s t) : Keeps l s { t with stew := x1, sys := x2 } := by
  refine Keeps.trans h (fun p hp => ?_)
  cases p
  case srcs => exact h1.resolve_left (by simpa using hp)
  case stew => exact h2.resolve_left (by simpa using hp)
  case power => exact h3.resolve_left (by simpa using hp)
  case fuses => exact h4.resolve_left (by simpa using hp)
  case lifecycle => exact h5.resolve_left (by simpa using hp)
  case debug => exact h6.resolve_left (by simpa using hp)
  case firmware => exact h7.resolve_left (by simpa using hp)
  case flash => exact h8.resolve_left (by simpa using hp)
  case pageBuf => exact h9.resolve_left (by simpa using hp)
  case temp => exact h10.resolve_left (by simpa using hp)
  all_goals simp [Part.same]

theorem Keeps.with_tink_sys {l : List Part} {s t : State} {x1 : TinkUnit} {x2 : SysUnit}
    (h1 : l.contains .tink = true)
    (h2 : l.contains .power = true ∨ x2.pwr = t.sys.pwr ∧ x2.moving = t.sys.moving ∧ x2.targetHeld = t.sys.targetHeld ∧ x2.powered = t.sys.powered ∧ x2.locks = t.sys.locks ∧ x2.osc25 = t.sys.osc25)
    (h3 : l.contains .fuses = true ∨ x2.fuseState = t.sys.fuseState ∧ x2.fuseHash = t.sys.fuseHash ∧ x2.fuseBroken = t.sys.fuseBroken ∧ x2.secretNo = t.sys.secretNo ∧ x2.secretGone = t.sys.secretGone)
    (h4 : l.contains .lifecycle = true ∨ x2.lifecycle = t.sys.lifecycle ∧ x2.lcBusy = t.sys.lcBusy ∧ x2.lcPending = t.sys.lcPending ∧ x2.lcResult = t.sys.lcResult)
    (h5 : l.contains .debug = true ∨ x2.ir = t.sys.ir ∧ x2.boundary = t.sys.boundary ∧ x2.level = t.sys.level ∧ x2.auth = t.sys.auth ∧ x2.keysel = t.sys.keysel ∧ x2.fails = t.sys.fails ∧ x2.lockout = t.sys.lockout ∧ x2.challenge = t.sys.challenge ∧ x2.response = t.sys.response ∧ x2.nonceNo = t.sys.nonceNo ∧ x2.halted = t.sys.halted)
    (h6 : l.contains .firmware = true ∨ x2.bootCause = t.sys.bootCause ∧ x2.bootFails = t.sys.bootFails ∧ x2.bootSel = t.sys.bootSel ∧ x2.phase = t.sys.phase ∧ x2.trial = t.sys.trial ∧ x2.lkgBoot = t.sys.lkgBoot ∧ x2.safe = t.sys.safe ∧ x2.pair = t.sys.pair ∧ x2.standby = t.sys.standby ∧ x2.fwStart = t.sys.fwStart ∧ x2.record = t.sys.record ∧ x2.bufIdx = t.sys.bufIdx ∧ x2.fwPeek = t.sys.fwPeek ∧ x2.slotsValid = t.sys.slotsValid ∧ x2.runMgmt = t.sys.runMgmt ∧ x2.runMicro = t.sys.runMicro ∧ x2.fwResult = t.sys.fwResult ∧ x2.confirmPend = t.sys.confirmPend ∧ x2.confirmAt = t.sys.confirmAt ∧ x2.confirmRoll = t.sys.confirmRoll ∧ x2.oldMgmt = t.sys.oldMgmt ∧ x2.oldMicro = t.sys.oldMicro ∧ x2.roll = t.sys.roll ∧ x2.rollNew = t.sys.rollNew ∧ x2.rollSlot = t.sys.rollSlot ∧ x2.rollFails = t.sys.rollFails ∧ x2.rollBack = t.sys.rollBack ∧ x2.busyOp = t.sys.busyOp ∧ x2.actSlot = t.sys.actSlot ∧ x2.switchReq = t.sys.switchReq ∧ x2.bootCur = t.sys.bootCur ∧ x2.recordSeq = t.sys.recordSeq ∧ x2.recordAt = t.sys.recordAt ∧ x2.config = t.sys.config)
    (h7 : l.contains .flash = true ∨ x2.flash = t.sys.flash ∧ x2.flashLost = t.sys.flashLost)
    (h8 : l.contains .pageBuf = true ∨ x2.pageBuf = t.sys.pageBuf)
    (h9 : l.contains .temp = true ∨ x2.tj = t.sys.tj ∧ x2.tjMax = t.sys.tjMax)
    (h : Keeps l s t) : Keeps l s { t with tink := x1, sys := x2 } := by
  refine Keeps.trans h (fun p hp => ?_)
  cases p
  case tink => exact absurd h1 (by simpa using hp)
  case power => exact h2.resolve_left (by simpa using hp)
  case fuses => exact h3.resolve_left (by simpa using hp)
  case lifecycle => exact h4.resolve_left (by simpa using hp)
  case debug => exact h5.resolve_left (by simpa using hp)
  case firmware => exact h6.resolve_left (by simpa using hp)
  case flash => exact h7.resolve_left (by simpa using hp)
  case pageBuf => exact h8.resolve_left (by simpa using hp)
  case temp => exact h9.resolve_left (by simpa using hp)
  all_goals simp [Part.same]

theorem Keeps.with_sys_free {l : List Part} {s t : State} {x1 : SysUnit} {x2 : Nat}
    (h1 : l.contains .power = true ∨ x1.pwr = t.sys.pwr ∧ x1.moving = t.sys.moving ∧ x1.targetHeld = t.sys.targetHeld ∧ x1.powered = t.sys.powered ∧ x1.locks = t.sys.locks ∧ x1.osc25 = t.sys.osc25)
    (h2 : l.contains .fuses = true ∨ x1.fuseState = t.sys.fuseState ∧ x1.fuseHash = t.sys.fuseHash ∧ x1.fuseBroken = t.sys.fuseBroken ∧ x1.secretNo = t.sys.secretNo ∧ x1.secretGone = t.sys.secretGone)
    (h3 : l.contains .lifecycle = true ∨ x1.lifecycle = t.sys.lifecycle ∧ x1.lcBusy = t.sys.lcBusy ∧ x1.lcPending = t.sys.lcPending ∧ x1.lcResult = t.sys.lcResult)
    (h4 : l.contains .debug = true ∨ x1.ir = t.sys.ir ∧ x1.boundary = t.sys.boundary ∧ x1.level = t.sys.level ∧ x1.auth = t.sys.auth ∧ x1.keysel = t.sys.keysel ∧ x1.fails = t.sys.fails ∧ x1.lockout = t.sys.lockout ∧ x1.challenge = t.sys.challenge ∧ x1.response = t.sys.response ∧ x1.nonceNo = t.sys.nonceNo ∧ x1.halted = t.sys.halted)
    (h5 : l.contains .firmware = true ∨ x1.bootCause = t.sys.bootCause ∧ x1.bootFails = t.sys.bootFails ∧ x1.bootSel = t.sys.bootSel ∧ x1.phase = t.sys.phase ∧ x1.trial = t.sys.trial ∧ x1.lkgBoot = t.sys.lkgBoot ∧ x1.safe = t.sys.safe ∧ x1.pair = t.sys.pair ∧ x1.standby = t.sys.standby ∧ x1.fwStart = t.sys.fwStart ∧ x1.record = t.sys.record ∧ x1.bufIdx = t.sys.bufIdx ∧ x1.fwPeek = t.sys.fwPeek ∧ x1.slotsValid = t.sys.slotsValid ∧ x1.runMgmt = t.sys.runMgmt ∧ x1.runMicro = t.sys.runMicro ∧ x1.fwResult = t.sys.fwResult ∧ x1.confirmPend = t.sys.confirmPend ∧ x1.confirmAt = t.sys.confirmAt ∧ x1.confirmRoll = t.sys.confirmRoll ∧ x1.oldMgmt = t.sys.oldMgmt ∧ x1.oldMicro = t.sys.oldMicro ∧ x1.roll = t.sys.roll ∧ x1.rollNew = t.sys.rollNew ∧ x1.rollSlot = t.sys.rollSlot ∧ x1.rollFails = t.sys.rollFails ∧ x1.rollBack = t.sys.rollBack ∧ x1.busyOp = t.sys.busyOp ∧ x1.actSlot = t.sys.actSlot ∧ x1.switchReq = t.sys.switchReq ∧ x1.bootCur = t.sys.bootCur ∧ x1.recordSeq = t.sys.recordSeq ∧ x1.recordAt = t.sys.recordAt ∧ x1.config = t.sys.config)
    (h6 : l.contains .flash = true ∨ x1.flash = t.sys.flash ∧ x1.flashLost = t.sys.flashLost)
    (h7 : l.contains .pageBuf = true ∨ x1.pageBuf = t.sys.pageBuf)
    (h8 : l.contains .temp = true ∨ x1.tj = t.sys.tj ∧ x1.tjMax = t.sys.tjMax)
    (h9 : l.contains .free = true)
    (h : Keeps l s t) : Keeps l s { t with sys := x1, free := x2 } := by
  refine Keeps.trans h (fun p hp => ?_)
  cases p
  case power => exact h1.resolve_left (by simpa using hp)
  case fuses => exact h2.resolve_left (by simpa using hp)
  case lifecycle => exact h3.resolve_left (by simpa using hp)
  case debug => exact h4.resolve_left (by simpa using hp)
  case firmware => exact h5.resolve_left (by simpa using hp)
  case flash => exact h6.resolve_left (by simpa using hp)
  case pageBuf => exact h7.resolve_left (by simpa using hp)
  case temp => exact h8.resolve_left (by simpa using hp)
  case free => exact absurd h9 (by simpa using hp)
  all_goals simp [Part.same]

end Sys2Proof.Laws
end

