-- ==== Sys2Proof/Laws/FramesOps.lean ====
section
/-! SUPPORT. Frames of the shared operations, the Bell Board, the host rings, the Drayman, the boot flash, the engines and the Steward:
the parts of the state that each operation may change. -/

namespace Sys2Proof.Laws

open Sys2Proof.Machine Sys2Proof.Safety

/-! ## Machine/Ops.lean -/

theorem keeps_setEngine (s : State) (n : Nat) (e : Engine) :
    Keeps [.engines] s (State.setEngine s n e) := by
  unfold State.setEngine
  refine Keeps.with_engines ?_ ?_
  · exact rfl
  · exact Keeps.refl _ _

theorem keeps_modEngine (s : State) (n : Nat) (f : Engine → Engine) :
    Keeps [.engines] s (State.modEngine s n f) := by
  unfold State.modEngine
  refine Keeps.step (keeps_setEngine _ _ _) rfl ?_
  exact Keeps.refl _ _

theorem keeps_countN (s : State) (off : Nat) (n : Nat) :
    Keeps [.counters] s (State.countN s off n) := by
  unfold State.countN
  lift_lets -underBinder
  intro x1
  refine Keeps.with_regs ?_ ?_ ?_ ?_ ?_ ?_ ?_ ?_ ?_
  · exact .inr rfl
  · exact .inr rfl
  · exact .inr rfl
  · exact .inl rfl
  · exact .inr ⟨rfl, rfl⟩
  · exact .inr ⟨rfl, rfl, rfl⟩
  · (refine .inr ?_; and_intros <;> rfl)
  · exact .inr ⟨rfl, rfl, rfl⟩
  · exact Keeps.refl _ _

theorem keeps_count (s : State) (off : Nat) :
    Keeps [.counters] s (State.count s off) := by
  unfold State.count
  refine Keeps.step (keeps_countN _ _ _) rfl ?_
  exact Keeps.refl _ _

theorem keeps_countIf (s : State) (c : Bool) (off : Nat) :
    Keeps [.counters] s (State.countIf s c off) := by
  unfold State.countIf
  refine Keeps.ite ?_ ?_
  · refine Keeps.step (keeps_count _ _) rfl ?_
    exact Keeps.refl _ _
  · exact Keeps.refl _ _

theorem keeps_emit (s : State) (o : Out) :
    Keeps [.out] s (State.emit s o) := by
  unfold State.emit
  refine Keeps.with_out ?_ ?_
  · exact rfl
  · exact Keeps.refl _ _

theorem keeps_modEp (s : State) (e : Ep) (f : Endpoint → Endpoint) :
    Keeps [.epA, .epB] s (State.modEp s e f) := by
  unfold State.modEp
  split
  · refine Keeps.with_epA ?_ ?_
    · exact rfl
    · exact Keeps.refl _ _
  · refine Keeps.with_epB ?_ ?_
    · exact rfl
    · exact Keeps.refl _ _

theorem keeps_modRing (s : State) (e : Ep) (k : Nat) (f : Ring → Ring) :
    Keeps [.rings] s (State.modRing s e k f) := by
  unfold State.modRing
  refine Keeps.with_rings ?_ ?_
  · exact rfl
  · exact Keeps.refl _ _

theorem keeps_setPort (s : State) (p : Nat) (v : Port) :
    Keeps [.ports] s (State.setPort s p v) := by
  unfold State.setPort
  refine Keeps.with_ports ?_ ?_
  · exact rfl
  · exact Keeps.refl _ _

theorem keeps_modPort (s : State) (p : Nat) (f : Port → Port) :
    Keeps [.ports] s (State.modPort s p f) := by
  unfold State.modPort
  refine Keeps.step (keeps_setPort _ _ _) rfl ?_
  exact Keeps.refl _ _

theorem keeps_modIp (s : State) (p : Nat) (f : Transceiver → Transceiver) :
    Keeps [.xcvr] s (State.modIp s p f) := by
  unfold State.modIp
  lift_lets -underBinder
  intro x1
  refine Keeps.with_xcvr ?_ ?_
  · exact rfl
  · exact Keeps.refl _ _

theorem keeps_setReg (s : State) (off : Nat) (v : Word) :
    Keeps [.inForce] s (State.setReg s off v) := by
  unfold State.setReg
  lift_lets -underBinder
  intro x1
  refine Keeps.with_regs ?_ ?_ ?_ ?_ ?_ ?_ ?_ ?_ ?_
  · exact .inl rfl
  · exact .inr rfl
  · exact .inr rfl
  · exact .inr rfl
  · exact .inr ⟨rfl, rfl⟩
  · exact .inr ⟨rfl, rfl, rfl⟩
  · (refine .inr ?_; and_intros <;> rfl)
  · exact .inr ⟨rfl, rfl, rfl⟩
  · exact Keeps.refl _ _

theorem keeps_setFrame (s : State) (fid : Nat) (f : Machine.Frame) :
    Keeps [.frames] s (State.setFrame s fid f) := by
  unfold State.setFrame
  refine Keeps.with_frames ?_ ?_
  · exact rfl
  · exact Keeps.refl _ _

theorem keeps_modFrame (s : State) (fid : Nat) (g : Machine.Frame → Machine.Frame) :
    Keeps [.frames] s (State.modFrame s fid g) := by
  unfold State.modFrame
  split
  · refine Keeps.step (keeps_setFrame _ _ _) rfl ?_
    exact Keeps.refl _ _
  · exact Keeps.refl _ _

theorem keeps_setFld (s : State) (off : Nat) (lo : Nat) (len : Nat) (v : Nat) :
    Keeps [.inForce] s (State.setFld s off lo len v) := by
  unfold State.setFld
  refine Keeps.step (keeps_setReg _ _ _) rfl ?_
  exact Keeps.refl _ _

theorem keeps_takeFree (s : State) :
    FstKeeps [.free] s (State.takeFree s) := by
  unfold State.takeFree
  refine FstKeeps.mk ?_
  refine Keeps.with_free ?_ ?_
  · exact rfl
  · exact Keeps.refl _ _

theorem keeps_advanceTo (s : State) (t : Nat) :
    Keeps [.clock] s (State.advanceTo s t) := by
  unfold State.advanceTo
  lift_lets -underBinder
  intro x1
  refine Keeps.with_time ?_ ?_ ?_
  · exact .inl rfl
  · exact .inr rfl
  · exact Keeps.refl _ _

/-! ## Machine/Bell.lean -/

theorem keeps_sendVector (s : State) (e : Ep) (v : Nat) :
    Keeps [.out] s (State.sendVector s e v) := by
  unfold State.sendVector
  lift_lets -underBinder
  intro x1
  refine Keeps.step (keeps_emit _ _) rfl ?_
  exact Keeps.refl _ _

theorem keeps_requestVector (s : State) (e : Ep) (v : Nat) :
    Keeps [.epA, .epB, .out] s (State.requestVector s e v) := by
  unfold State.requestVector
  refine Keeps.ite ?_ ?_
  · refine Keeps.step (keeps_modEp _ _ _) rfl ?_
    exact Keeps.refl _ _
  · refine Keeps.step (keeps_sendVector _ _ _) rfl ?_
    exact Keeps.refl _ _

theorem keeps_bellMessage (s : State) (t : Nat) :
    Keeps bellParts s (State.bellMessage s t) := by
  unfold State.bellMessage
  refine Keeps.ite ?_ ?_
  · lift_lets -underBinder
    intro x1
    have h1 : Keeps (bellParts) s x1 := by
      refine Keeps.step (keeps_requestVector _ _ _) rfl ?_
      refine Keeps.step (keeps_count _ _) rfl ?_
      exact Keeps.refl _ _
    clear_value x1
    intro x2
    refine Keeps.with_bell ?_ ?_
    · exact rfl
    · exact h1
  · exact Keeps.refl _ _

theorem keeps_bellService (s : State) :
    Keeps bellParts s (State.bellService s) := by
  unfold State.bellService
  refine Keeps.foldl (fun u1 y2 => ?_) ?_
  · refine Keeps.step (keeps_bellMessage _ _) rfl ?_
    exact Keeps.refl _ _
  · exact Keeps.refl _ _

theorem keeps_raise (s : State) (n : Nat) :
    Keeps bellParts s (State.raise s n) := by
  unfold State.raise
  refine Keeps.ite ?_ ?_
  · exact Keeps.refl _ _
  · refine Keeps.ite ?_ ?_
    · refine Keeps.step (keeps_count _ _) rfl ?_
      exact Keeps.refl _ _
    · lift_lets -underBinder
      intro x1
      refine Keeps.step (keeps_bellService _) rfl ?_
      refine Keeps.with_bell ?_ ?_
      · exact rfl
      · exact Keeps.refl _ _

theorem keeps_bellClaim (s : State) (t : Nat) :
    FstKeeps [.counters, .bell] s (State.bellClaim s t) := by
  unfold State.bellClaim
  lift_lets -underBinder
  intro x1
  split
  · lift_lets -underBinder
    intro x2
    have h2 : Keeps [.counters, .bell] s x2 := by
      refine Keeps.step (keeps_countIf _ _ _) rfl ?_
      refine Keeps.step (keeps_count _ _) rfl ?_
      exact Keeps.refl _ _
    clear_value x2
    intro x3
    refine FstKeeps.mk ?_
    refine Keeps.with_bell ?_ ?_
    · exact rfl
    · exact h2
  · lift_lets -underBinder
    intro x4
    have h4 : Keeps [.counters, .bell] s x4 := by
      refine Keeps.step (keeps_count _ _) rfl ?_
      exact Keeps.refl _ _
    clear_value x4
    intro x5
    refine FstKeeps.mk ?_
    refine Keeps.with_bell ?_ ?_
    · exact rfl
    · exact h4

theorem keeps_bellEoi (s : State) (t : Nat) (n : Nat) :
    Keeps bellParts s (State.bellEoi s t n) := by
  unfold State.bellEoi
  split
  · lift_lets -underBinder
    intro x1
    refine Keeps.step (keeps_bellService _) rfl ?_
    refine Keeps.with_bell ?_ ?_
    · exact rfl
    · exact Keeps.refl _ _
  · refine Keeps.step (keeps_count _ _) rfl ?_
    exact Keeps.refl _ _

theorem keeps_msixFlush (s : State) (e : Ep) (v : Nat) :
    Keeps [.epA, .epB, .out] s (State.msixFlush s e v) := by
  unfold State.msixFlush
  refine Keeps.ite ?_ ?_
  · refine Keeps.step (keeps_sendVector _ _ _) rfl ?_
    refine Keeps.step (keeps_modEp _ _ _) rfl ?_
    exact Keeps.refl _ _
  · exact Keeps.refl _ _

theorem keeps_msixWord (s : State) (e : Ep) (i : Nat) (w : BitVec 32) :
    Keeps [.epA, .epB, .out] s (State.msixWord s e i w) := by
  unfold State.msixWord
  refine Keeps.step (keeps_msixFlush _ _ _) rfl ?_
  refine Keeps.step (keeps_modEp _ _ _) rfl ?_
  exact Keeps.refl _ _

theorem keeps_msixFlushAll (s : State) (e : Ep) :
    Keeps [.epA, .epB, .out] s (State.msixFlushAll s e) := by
  unfold State.msixFlushAll
  refine Keeps.foldl (fun u1 y2 => ?_) ?_
  · refine Keeps.step (keeps_msixFlush _ _ _) rfl ?_
    exact Keeps.refl _ _
  · exact Keeps.refl _ _

theorem keeps_msixWrite (s : State) (e : Ep) (w : MsixPlace) (size : Nat) (val : Word) :
    Keeps [.counters, .epA, .epB, .out] s (State.msixWrite s e w size val) := by
  unfold State.msixWrite
  split
  · refine Keeps.ite ?_ ?_
    · lift_lets -underBinder
      intro x1
      have h1 : Keeps [.counters, .epA, .epB, .out] s x1 := by
        refine Keeps.step (keeps_msixWord _ _ _ _) rfl ?_
        exact Keeps.refl _ _
      clear_value x1
      refine Keeps.ite ?_ ?_
      · refine Keeps.step (keeps_msixWord _ _ _ _) rfl ?_
        exact h1
      · exact h1
    · refine Keeps.step (keeps_count _ _) rfl ?_
      exact Keeps.refl _ _
  · refine Keeps.step (keeps_msixFlushAll _ _) rfl ?_
    refine Keeps.step (keeps_modEp _ _ _) rfl ?_
    exact Keeps.refl _ _

theorem keeps_bellSetMask (s : State) (t : Nat) (m : Bool) :
    Keeps bellParts s (State.bellSetMask s t m) := by
  unfold State.bellSetMask
  lift_lets -underBinder
  intro x1
  refine Keeps.step (keeps_bellService _) rfl ?_
  refine Keeps.with_bell ?_ ?_
  · exact rfl
  · exact Keeps.refl _ _

theorem keeps_raiseIf (s : State) (c : Bool) (n : Nat) :
    Keeps bellParts s (State.raiseIf s c n) := by
  unfold State.raiseIf
  refine Keeps.ite ?_ ?_
  · refine Keeps.step (keeps_raise _ _) rfl ?_
    exact Keeps.refl _ _
  · exact Keeps.refl _ _

theorem keeps_bellPendClr (s : State) (n : Nat) :
    Keeps [.bell] s (State.bellPendClr s n) := by
  unfold State.bellPendClr
  lift_lets -underBinder
  intro x1
  refine Keeps.with_bell ?_ ?_
  · exact rfl
  · exact Keeps.refl _ _

theorem keeps_bellEndpointLost (s : State) (e : Ep) :
    Keeps [.bell] s (State.bellEndpointLost s e) := by
  unfold State.bellEndpointLost
  lift_lets -underBinder
  intro x1
  refine Keeps.with_bell ?_ ?_
  · exact rfl
  · exact Keeps.refl _ _

theorem keeps_execSourceRaise (src : Nat) (s : State) :
    AnswerKeeps bellParts s (execSourceRaise src s) := by
  unfold execSourceRaise
  refine AnswerKeeps.next ?_
  refine Keeps.step (keeps_raise _ _) rfl ?_
  exact Keeps.refl _ _

/-! ## Machine/Host.lean -/

theorem keeps_ringNotify (s : State) (e : Ep) (k : Nat) :
    Keeps (andBell [.rings]) s (State.ringNotify s e k) := by
  unfold State.ringNotify
  lift_lets -underBinder
  intro x1
  refine Keeps.ite ?_ ?_
  · refine Keeps.step (keeps_raise _ _) rfl ?_
    refine Keeps.step (keeps_modRing _ _ _ _) rfl ?_
    exact Keeps.refl _ _
  · exact Keeps.refl _ _

theorem keeps_doorbell (s : State) (e : Ep) (ring : Nat) (off : Nat) (val : Word) :
    Keeps (andBell [.rings]) s (State.doorbell s e ring off val) := by
  unfold State.doorbell
  lift_lets -underBinder
  intro x1 x2
  have h2 : Keeps (andBell [.rings]) s x2 := by
    refine Keeps.step (keeps_modRing _ _ _ _) rfl ?_
    exact Keeps.refl _ _
  clear_value x2
  refine Keeps.ite ?_ ?_
  · refine Keeps.step (keeps_count _ _) rfl ?_
    exact Keeps.refl _ _
  · refine Keeps.ite ?_ ?_
    · refine Keeps.step (keeps_raise _ _) rfl ?_
      refine Keeps.step (keeps_count _ _) rfl ?_
      exact Keeps.refl _ _
    · refine Keeps.ite ?_ ?_
      · refine Keeps.ite ?_ ?_
        · exact h2
        · refine Keeps.step (keeps_ringNotify _ _ _) rfl ?_
          exact h2
      · refine Keeps.step (keeps_modRing _ _ _ _) rfl ?_
        exact Keeps.refl _ _

theorem keeps_ringWrite (s : State) (e : Ep) (k : Nat) (w0 : Word) (rest : List Word) :
    Keeps (andBell [.rings]) s (State.ringWrite s e k w0 rest) := by
  unfold State.ringWrite
  lift_lets -underBinder
  intro x1 x2
  have h2 : Keeps (andBell [.rings]) s x2 := by
    refine Keeps.step (keeps_emit _ _) rfl ?_
    exact Keeps.refl _ _
  clear_value x2
  intro x3
  have h3 : Keeps (andBell [.rings]) s x3 := by
    refine Keeps.step (keeps_count _ _) rfl ?_
    refine Keeps.step (keeps_modRing _ _ _ _) rfl ?_
    exact h2
  clear_value x3
  refine Keeps.step (keeps_ringNotify _ _ _) rfl ?_
  exact h3

theorem keeps_postCompletion (s : State) (e : Ep) (cq : Nat) (c : Completion) :
    Keeps (andBell [.rings]) s (State.postCompletion s e cq c) := by
  unfold State.postCompletion
  lift_lets -underBinder
  intro x1
  refine Keeps.ite ?_ ?_
  · refine Keeps.step (keeps_ringWrite _ _ _ _ _) rfl ?_
    exact Keeps.refl _ _
  · refine Keeps.step (keeps_modRing _ _ _ _) rfl ?_
    exact Keeps.refl _ _

theorem keeps_txCompletion (s : State) (h : HostTx) (status : Nat) (detail : Nat) (result : Word) :
    Keeps (andBell [.rings]) s (State.txCompletion s h status detail result) := by
  unfold State.txCompletion
  refine Keeps.step (keeps_postCompletion _ _ _ _) rfl ?_
  exact Keeps.refl _ _

theorem keeps_kmRelease (s : State) :
    Keeps [.lock] s (State.kmRelease s) := by
  unfold State.kmRelease
  lift_lets -underBinder
  intro x1 x2
  refine Keeps.ite ?_ ?_
  · refine Keeps.with_lock ?_ ?_ ?_ ?_
    · exact .inr rfl
    · exact .inr ⟨rfl, rfl, rfl⟩
    · exact .inl rfl
    · exact Keeps.refl _ _
  · refine Keeps.with_lock ?_ ?_ ?_ ?_
    · exact .inr rfl
    · exact .inr ⟨rfl, rfl, rfl⟩
    · exact .inl rfl
    · exact Keeps.refl _ _

theorem keeps_endCommand (s : State) (e : Ep) (k : Nat) (status : Nat) (detail : Nat) (result : Word) :
    Keeps (andBell [.lock, .rings]) s (State.endCommand s e k status detail result) := by
  unfold State.endCommand
  split
  · exact Keeps.refl _ _
  · lift_lets -underBinder
    intro x1
    have h1 : Keeps (andBell [.lock, .rings]) s x1 := by
      refine Keeps.step (keeps_modRing _ _ _ _) rfl ?_
      exact Keeps.refl _ _
    clear_value x1
    intro x2
    have h2 : Keeps (andBell [.lock, .rings]) s x2 := by
      refine Keeps.step (keeps_postCompletion _ _ _ _) rfl ?_
      exact h1
    clear_value x2
    refine Keeps.ite ?_ ?_
    · refine Keeps.step (keeps_kmRelease _) rfl ?_
      exact h2
    · exact h2

theorem keeps_postEvent (s : State) (e : Ep) (code : Nat) (arg : Nat) :
    Keeps (andBell [.rings]) s (State.postEvent s e code arg) := by
  unfold State.postEvent
  refine Keeps.ite ?_ ?_
  · lift_lets -underBinder
    intro x1 x2
    refine Keeps.ite ?_ ?_
    · refine Keeps.step (keeps_ringWrite _ _ _ _ _) rfl ?_
      refine Keeps.step (keeps_modRing _ _ _ _) rfl ?_
      exact Keeps.refl _ _
    · refine Keeps.step (keeps_modRing _ _ _ _) rfl ?_
      refine Keeps.step (keeps_count _ _) rfl ?_
      exact Keeps.refl _ _
  · exact Keeps.refl _ _

theorem keeps_ringStart (s : State) (e : Ep) (k : Nat) :
    Keeps (andBell [.rings]) s (State.ringStart s e k) := by
  unfold State.ringStart
  lift_lets -underBinder
  intro x1 x2 x3
  refine Keeps.ite ?_ ?_
  · refine Keeps.step (keeps_postEvent _ _ _ _) rfl ?_
    refine Keeps.step (keeps_modRing _ _ _ _) rfl ?_
    exact Keeps.refl _ _
  · refine Keeps.ite ?_ ?_
    · refine Keeps.step (keeps_modRing _ _ _ _) rfl ?_
      exact Keeps.refl _ _
    · refine Keeps.step (keeps_modRing _ _ _ _) rfl ?_
      exact Keeps.refl _ _

theorem keeps_ringCommit (s : State) (e : Ep) (k : Nat) :
    Keeps (andBell [.rings]) s (State.ringCommit s e k) := by
  unfold State.ringCommit
  lift_lets -underBinder
  intro x1
  split
  · refine Keeps.ite ?_ ?_
    · refine Keeps.step (keeps_ringStart _ _ _) rfl ?_
      exact Keeps.refl _ _
    · exact Keeps.refl _ _
  · refine Keeps.step (keeps_modRing _ _ _ _) rfl ?_
    exact Keeps.refl _ _
  · refine Keeps.ite ?_ ?_
    · exact Keeps.refl _ _
    · refine Keeps.step (keeps_modRing _ _ _ _) rfl ?_
      exact Keeps.refl _ _
  · refine Keeps.ite ?_ ?_
    · exact Keeps.refl _ _
    · refine Keeps.step (keeps_modRing _ _ _ _) rfl ?_
      exact Keeps.refl _ _

theorem keeps_ringFail (s : State) (e : Ep) (k : Nat) (err : Nat) :
    Keeps [.rings] s (State.ringFail s e k err) := by
  unfold State.ringFail
  refine Keeps.step (keeps_modRing _ _ _ _) rfl ?_
  exact Keeps.refl _ _

theorem keeps_ownerMove (s : State) (next : Ep) (cause : Nat) :
    Keeps (andBell [.inForce, .locks, .owner, .lock, .rings]) s (State.ownerMove s next cause) := by
  unfold State.ownerMove
  lift_lets -underBinder
  intro x1 x2
  have h2 : Keeps (andBell [.inForce, .locks, .owner, .lock, .rings]) s x2 := by
    refine Keeps.step (keeps_setFld _ _ _ _ _) rfl ?_
    exact Keeps.refl _ _
  clear_value x2
  intro x3 x4
  have h4 : Keeps (andBell [.inForce, .locks, .owner, .lock, .rings]) s x4 := by
    refine Keeps.with_regs ?_ ?_ ?_ ?_ ?_ ?_ ?_ ?_ ?_
    · exact .inl rfl
    · exact .inr rfl
    · exact .inr rfl
    · exact .inl rfl
    · exact .inr ⟨rfl, rfl⟩
    · exact .inl rfl
    · (refine .inr ?_; and_intros <;> rfl)
    · exact .inl rfl
    · exact h2
  clear_value x4
  intro x5
  have h5 : Keeps (andBell [.inForce, .locks, .owner, .lock, .rings]) s x5 := by
    refine Keeps.ite ?_ ?_
    · refine Keeps.step (keeps_kmRelease _) rfl ?_
      exact h4
    · exact h4
  clear_value x5
  intro x6
  have h6 : Keeps (andBell [.inForce, .locks, .owner, .lock, .rings]) s x6 := by
    refine Keeps.step (keeps_count _ _) rfl ?_
    exact h5
  clear_value x6
  intro x7
  have h7 : Keeps (andBell [.inForce, .locks, .owner, .lock, .rings]) s x7 := by
    refine Keeps.step (keeps_postEvent _ _ _ _) rfl ?_
    refine Keeps.step (keeps_postEvent _ _ _ _) rfl ?_
    exact h6
  clear_value x7
  refine Keeps.step (keeps_raise _ _) rfl ?_
  exact h7

theorem keeps_execOwnerJudge (s : State) :
    AnswerKeeps (andBell [.inForce, .locks, .owner, .lock, .rings]) s (execOwnerJudge s) := by
  unfold execOwnerJudge
  lift_lets -underBinder
  intro x1 x2 x3
  refine AnswerKeeps.next ?_
  refine Keeps.ite ?_ ?_
  · exact Keeps.refl _ _
  · refine Keeps.ite ?_ ?_
    · refine Keeps.step (keeps_ownerMove _ _ _) rfl ?_
      exact Keeps.refl _ _
    · refine Keeps.ite ?_ ?_
      · refine Keeps.step (keeps_ownerMove _ _ _) rfl ?_
        exact Keeps.refl _ _
      · exact Keeps.refl _ _

theorem keeps_captureVoid (s : State) (e : Ep) :
    Keeps [.counters, .frames, .rings] s (State.captureVoid s e) := by
  unfold State.captureVoid
  lift_lets -underBinder
  intro x1 x2
  have h2 : Keeps [.counters, .frames, .rings] s x2 := by
    refine Keeps.step (keeps_countN _ _ _) rfl ?_
    exact Keeps.refl _ _
  clear_value x2
  intro x3
  have h3 : Keeps [.counters, .frames, .rings] s x3 := by
    refine Keeps.with_frames ?_ ?_
    · exact rfl
    · exact h2
  clear_value x3
  refine Keeps.foldl (fun u4 y5 => ?_) ?_
  · lift_lets -underBinder
    intro x6
    refine Keeps.ite ?_ ?_
    · exact Keeps.refl _ _
    · refine Keeps.step (keeps_modRing _ _ _ _) rfl ?_
      refine Keeps.step (keeps_countN _ _ _) rfl ?_
      exact Keeps.refl _ _
  · exact h3

theorem keeps_endpointLost (s : State) (e : Ep) :
    Keeps (andBell [.frames, .rings]) s (State.endpointLost s e) := by
  unfold State.endpointLost
  lift_lets -underBinder
  intro x1
  have h1 : Keeps (andBell [.frames, .rings]) s x1 := by
    refine Keeps.step (keeps_modEp _ _ _) rfl ?_
    exact Keeps.refl _ _
  clear_value x1
  intro x2
  have h2 : Keeps (andBell [.frames, .rings]) s x2 := by
    refine Keeps.foldl (fun u3 y4 => ?_) ?_
    · refine Keeps.step (keeps_ringFail _ _ _ _) rfl ?_
      exact Keeps.refl _ _
    · exact h1
  clear_value x2
  refine Keeps.step (keeps_postEvent _ _ _ _) rfl ?_
  refine Keeps.step (keeps_bellEndpointLost _ _) rfl ?_
  refine Keeps.step (keeps_captureVoid _ _) rfl ?_
  exact h2

theorem keeps_endpointChange (s : State) (e : Ep) (f : Endpoint → Endpoint) :
    Keeps (andBell [.frames, .rings]) s (State.endpointChange s e f) := by
  unfold State.endpointChange
  lift_lets -underBinder
  intro x1 x2
  have h2 : Keeps (andBell [.frames, .rings]) s x2 := by
    refine Keeps.step (keeps_modEp _ _ _) rfl ?_
    exact Keeps.refl _ _
  clear_value x2
  refine Keeps.ite ?_ ?_
  · refine Keeps.step (keeps_endpointLost _ _) rfl ?_
    exact h2
  · refine Keeps.ite ?_ ?_
    · refine Keeps.step (keeps_bellService _) rfl ?_
      refine Keeps.step (keeps_msixFlushAll _ _) rfl ?_
      refine Keeps.step (keeps_postEvent _ _ _ _) rfl ?_
      exact h2
    · exact h2

theorem keeps_execEndpointUsableChange (e : Ep) (link mse bme d3 : Bool) (width speed : Nat) (s : State) (bars : Bars) :
    AnswerKeeps (andBell [.frames, .rings]) s (execEndpointUsableChange e link mse bme d3 width speed s bars) := by
  unfold execEndpointUsableChange
  lift_lets -underBinder
  intro x1
  refine AnswerKeeps.next ?_
  refine Keeps.step (keeps_endpointChange _ _ _) rfl ?_
  exact Keeps.refl _ _

theorem keeps_execRingStopComplete (e : Ep) (ring : Nat) (s : State) :
    AnswerKeeps (andBell [.rings]) s (execRingStopComplete e ring s) := by
  unfold execRingStopComplete
  lift_lets -underBinder
  intro x1 x2
  have h2 : Keeps (andBell [.rings]) s x2 := by
    refine Keeps.step (keeps_modRing _ _ _ _) rfl ?_
    exact Keeps.refl _ _
  clear_value x2
  intro x3
  have h3 : Keeps (andBell [.rings]) s x3 := by
    refine Keeps.ite ?_ ?_
    · refine Keeps.step (keeps_postEvent _ _ _ _) rfl ?_
      exact h2
    · exact h2
  clear_value x3
  refine AnswerKeeps.next ?_
  refine Keeps.ite ?_ ?_
  · refine Keeps.ite ?_ ?_
    · refine Keeps.step (keeps_ringStart _ _ _) rfl ?_
      exact h3
    · exact h3
  · exact Keeps.refl _ _

theorem keeps_execCompletionWrite (e : Ep) (ring : Nat) (s : State) :
    AnswerKeeps (andBell [.rings]) s (execCompletionWrite e ring s) := by
  unfold execCompletionWrite
  lift_lets -underBinder
  intro x1
  refine AnswerKeeps.next ?_
  split
  · exact Keeps.refl _ _
  · refine Keeps.ite ?_ ?_
    · refine Keeps.step (keeps_ringWrite _ _ _ _ _) rfl ?_
      refine Keeps.step (keeps_modRing _ _ _ _) rfl ?_
      exact Keeps.refl _ _
    · exact Keeps.refl _ _

theorem keeps_execRingRunning (e : Ep) (ring : Nat) (s : State) :
    AnswerKeeps [.rings] s (execRingRunning e ring s) := by
  unfold execRingRunning
  lift_lets -underBinder
  intro x1
  have h1 : Keeps [.rings] s x1 := by
    refine Keeps.step (keeps_modRing _ _ _ _) rfl ?_
    exact Keeps.refl _ _
  clear_value x1
  refine AnswerKeeps.next ?_
  refine Keeps.ite ?_ ?_
  · refine Keeps.ite ?_ ?_
    · exact h1
    · refine Keeps.step (keeps_ringFail _ _ _ _) rfl ?_
      exact h1
  · exact Keeps.refl _ _

theorem keeps_execD3hotEntry (e : Ep) (s : State) :
    AnswerKeeps (andBell [.frames, .rings]) s (execD3hotEntry e s) := by
  unfold execD3hotEntry
  refine AnswerKeeps.next ?_
  refine Keeps.step (keeps_endpointChange _ _ _) rfl ?_
  exact Keeps.refl _ _

theorem keeps_execEndpointReset (e : Ep) (active : Bool) (s : State) (fundamental : Bool) :
    AnswerKeeps (andBell [.frames, .rings]) s (execEndpointReset e active s fundamental) := by
  unfold execEndpointReset
  refine AnswerKeeps.next ?_
  refine Keeps.ite ?_ ?_
  · refine Keeps.step (keeps_endpointChange _ _ _) rfl ?_
    exact Keeps.refl _ _
  · refine Keeps.step (keeps_endpointChange _ _ _) rfl ?_
    exact Keeps.refl _ _

theorem keeps_execRingReadFailure (e : Ep) (ring : Nat) (s : State) :
    AnswerKeeps [.counters, .rings] s (execRingReadFailure e ring s) := by
  unfold execRingReadFailure
  lift_lets -underBinder
  intro x1
  refine AnswerKeeps.next ?_
  refine Keeps.ite ?_ ?_
  · refine Keeps.step (keeps_ringFail _ _ _ _) rfl ?_
    refine Keeps.step (keeps_count _ _) rfl ?_
    exact Keeps.refl _ _
  · exact Keeps.refl _ _

/-! ## Machine/Operands.lean -/

theorem keeps_modBank (s : State) (g : Bool) (f : Bank → Bank) :
    Keeps [.banks, .loader, .watch] s (State.modBank s g f) := by
  unfold State.modBank
  lift_lets -underBinder
  intro x1
  refine Keeps.with_watch ?_ ?_ ?_ ?_
  · exact .inl rfl
  · exact .inl rfl
  · exact .inl rfl
  · exact Keeps.refl _ _

/-! ## Machine/Drayman.lean -/

theorem keeps_countOpt (s : State) (xs : Option Nat) :
    Keeps [.counters] s (State.countOpt s xs) := by
  unfold State.countOpt
  split
  · refine Keeps.step (keeps_count _ _) rfl ?_
    exact Keeps.refl _ _
  · exact Keeps.refl _ _

theorem keeps_countOutcome (s : State) (cset : Nat) (port : Option Nat) (o : CopyOutcome) :
    Keeps [.counters] s (State.countOutcome s cset port o) := by
  unfold State.countOutcome
  lift_lets -underBinder
  intro x1
  have h1 : Keeps [.counters] s x1 := by
    refine Keeps.ite ?_ ?_
    · exact Keeps.refl _ _
    · refine Keeps.step (keeps_countOpt _ _) rfl ?_
      exact Keeps.refl _ _
  clear_value x1
  split
  · refine Keeps.step (keeps_countOpt _ _) rfl ?_
    exact h1
  · exact h1

theorem keeps_releaseCells (s : State) (cells : List Nat) :
    Keeps [.cells] s (State.releaseCells s cells) := by
  unfold State.releaseCells
  lift_lets -underBinder
  intro x1
  refine Keeps.with_dray ?_ ?_ ?_ ?_
  · exact .inr ⟨rfl, rfl⟩
  · exact .inl rfl
  · exact .inr rfl
  · exact Keeps.refl _ _

theorem keeps_packetGone (s : State) (p : Nat) (c : Nat) (k : Packet) (o : CopyOutcome) (status : Nat) (detail : Nat) (result : Word) :
    Keeps (andBell [.ports, .rings, .cells]) s (State.packetGone s p c k o status detail result) := by
  unfold State.packetGone
  lift_lets -underBinder
  intro x1
  have h1 : Keeps (andBell [.ports, .rings, .cells]) s x1 := by
    refine Keeps.step (keeps_releaseCells _ _) rfl ?_
    exact Keeps.refl _ _
  clear_value x1
  split
  · refine Keeps.step (keeps_countOutcome _ _ _ _) rfl ?_
    exact h1
  · lift_lets -underBinder
    intro x2 x3
    have h3 : Keeps (andBell [.ports, .rings, .cells]) s x3 := by
      refine Keeps.with_dray ?_ ?_ ?_ ?_
      · exact .inr ⟨rfl, rfl⟩
      · exact .inl rfl
      · exact .inr rfl
      · exact h1
    clear_value x3
    intro x4
    have h4 : Keeps (andBell [.ports, .rings, .cells]) s x4 := by
      refine Keeps.ite ?_ ?_
      · exact h3
      · refine Keeps.step (keeps_modPort _ _ _) rfl ?_
        exact h3
    clear_value x4
    refine Keeps.step (keeps_txCompletion _ _ _ _ _) rfl ?_
    exact h4

theorem keeps_retireHead (s : State) (p : Nat) (c : Nat) (o : CopyOutcome) (status : Nat) (detail : Nat) (result : Word) :
    Keeps (andBell [.ports, .rings, .cells]) s (State.retireHead s p c o status detail result) := by
  unfold State.retireHead
  split
  · exact Keeps.refl _ _
  · lift_lets -underBinder
    intro x1
    have h1 : Keeps (andBell [.ports, .rings, .cells]) s x1 := by
      refine Keeps.step (keeps_modPort _ _ _) rfl ?_
      exact Keeps.refl _ _
    clear_value x1
    refine Keeps.step (keeps_packetGone _ _ _ _ _ _ _ _) rfl ?_
    exact h1

theorem keeps_levelCheck (s : State) (p : Nat) (before : Nat) :
    Keeps (andBell [.ports]) s (State.levelCheck s p before) := by
  unfold State.levelCheck
  lift_lets -underBinder
  intro x1 x2 x3 x4
  refine Keeps.ite ?_ ?_
  · refine Keeps.step (keeps_raise _ _) rfl ?_
    refine Keeps.step (keeps_count _ _) rfl ?_
    refine Keeps.step (keeps_modPort _ _ _) rfl ?_
    exact Keeps.refl _ _
  · refine Keeps.ite ?_ ?_
    · refine Keeps.step (keeps_modPort _ _ _) rfl ?_
      exact Keeps.refl _ _
    · exact Keeps.refl _ _

theorem keeps_withLevel {l : List Part} (s : State) (p : Nat) (f : State → State)
    (hf : ∀ u : State, Keeps l u (f u)) (hl : ((andBell [.ports]).all fun p => l.contains p) = true) :
    Keeps l s (State.withLevel s p f) := by
  exact Keeps.step (keeps_levelCheck _ _ _) hl (hf s)

theorem keeps_modHead (s : State) (p : Nat) (c : Nat) (f : Packet → Packet) :
    Keeps [.ports] s (State.modHead s p c f) := by
  unfold State.modHead
  refine Keeps.step (keeps_modPort _ _ _) rfl ?_
  exact Keeps.refl _ _

theorem keeps_flushClass (s : State) (p : Nat) (c : Nat) :
    Keeps (andBell [.ports, .rings, .cells]) s (State.flushClass s p c) := by
  unfold State.flushClass
  refine Keeps.foldl (fun u1 y2 => ?_) ?_
  · refine Keeps.step (keeps_retireHead _ _ _ _ _ _ _) rfl ?_
    exact Keeps.refl _ _
  · exact Keeps.refl _ _

theorem keeps_flushPort (s : State) (p : Nat) :
    Keeps (andBell [.ports, .rings, .cells]) s (State.flushPort s p) := by
  unfold State.flushPort
  lift_lets -underBinder
  intro x1 x2
  have h2 : Keeps (andBell [.ports, .rings, .cells]) s x2 := by
    refine Keeps.foldl (fun u3 y4 => ?_) ?_
    · refine Keeps.step (keeps_flushClass _ _ _) rfl ?_
      exact Keeps.refl _ _
    · exact Keeps.refl _ _
  clear_value x2
  refine Keeps.step (keeps_modPort _ _ _) rfl ?_
  exact h2

theorem keeps_modCopy (s : State) (fid : Nat) (i : Nat) (g : Copy → Copy) :
    Keeps [.frames] s (State.modCopy s fid i g) := by
  unfold State.modCopy
  refine Keeps.step (keeps_modFrame _ _ _) rfl ?_
  exact Keeps.refl _ _

theorem keeps_dropNextCheck (s : State) (p : Nat) (c : Nat) :
    Keeps (andBell [.ports, .rings, .cells]) s (State.dropNextCheck s p c) := by
  unfold State.dropNextCheck
  split
  · refine Keeps.ite ?_ ?_
    · refine Keeps.step (keeps_count _ _) rfl ?_
      refine Keeps.step (keeps_retireHead _ _ _ _ _ _ _) rfl ?_
      exact Keeps.refl _ _
    · exact Keeps.refl _ _
  · exact Keeps.refl _ _

theorem keeps_cutAttempt (s : State) (p : Nat) :
    Keeps (andBell [.ports, .rings, .cells]) s (State.cutAttempt s p) := by
  unfold State.cutAttempt
  split
  · refine Keeps.trans ?_ (keeps_withLevel _ _ _ (fun u1 => ?_) rfl)
    · refine Keeps.step (keeps_modPort _ _ _) rfl ?_
      exact Keeps.refl _ _
    · refine Keeps.step (keeps_dropNextCheck _ _ _) rfl ?_
      exact Keeps.refl _ _
  · exact Keeps.refl _ _
  · exact Keeps.refl _ _

theorem keeps_settleFrame (s : State) (fid : Nat) :
    Keeps [.frames] s (State.settleFrame s fid) := by
  unfold State.settleFrame
  split
  · refine Keeps.ite ?_ ?_
    · refine Keeps.with_frames ?_ ?_
      · exact rfl
      · exact Keeps.refl _ _
    · exact Keeps.refl _ _
  · exact Keeps.refl _ _

theorem keeps_freeLane (s : State) (fid : Nat) :
    Keeps [.lock] s (State.freeLane s fid) := by
  unfold State.freeLane
  lift_lets -underBinder
  intro x1
  refine Keeps.with_lock ?_ ?_ ?_ ?_
  · exact .inr rfl
  · exact .inr ⟨rfl, rfl, rfl⟩
  · exact .inl rfl
  · exact Keeps.refl _ _

theorem keeps_countSet (s : State) (cset : Nat) (r : Nat → Nat) :
    Keeps [.counters] s (State.countSet s cset r) := by
  unfold State.countSet
  refine Keeps.ite ?_ ?_
  · exact Keeps.refl _ _
  · refine Keeps.step (keeps_count _ _) rfl ?_
    exact Keeps.refl _ _

theorem keeps_withdrawCopies (s : State) (fid : Nat) :
    Keeps [.counters, .ports, .frames] s (State.withdrawCopies s fid) := by
  unfold State.withdrawCopies
  split
  · exact Keeps.refl _ _
  · refine Keeps.foldl (fun u1 y2 => ?_) ?_
    · split
      · exact Keeps.refl _ _
      · split
        · split
          · refine Keeps.ite ?_ ?_
            · exact Keeps.refl _ _
            · refine Keeps.step (keeps_countSet _ _ _) rfl ?_
              refine Keeps.step (keeps_count _ _) rfl ?_
              refine Keeps.step (keeps_modCopy _ _ _ _) rfl ?_
              refine Keeps.step (keeps_modPort _ _ _) rfl ?_
              exact Keeps.refl _ _
          · exact Keeps.refl _ _
        · refine Keeps.ite ?_ ?_
          · refine Keeps.step (keeps_countSet _ _ _) rfl ?_
            refine Keeps.step (keeps_count _ _) rfl ?_
            refine Keeps.step (keeps_modCopy _ _ _ _) rfl ?_
            exact Keeps.refl _ _
          · exact Keeps.refl _ _
        · exact Keeps.refl _ _
    · exact Keeps.refl _ _

theorem keeps_endCopy (s : State) (fid : Nat) (i : Nat) (o : CopyOutcome) :
    Keeps [.counters, .frames, .cells] s (State.endCopy s fid i o) := by
  unfold State.endCopy
  split
  · lift_lets -underBinder
    intro x1
    have h1 : Keeps [.counters, .frames, .cells] s x1 := by
      refine Keeps.step (keeps_countOutcome _ _ _ _) rfl ?_
      exact Keeps.refl _ _
    clear_value x1
    intro x2
    have h2 : Keeps [.counters, .frames, .cells] s x2 := by
      refine Keeps.ite ?_ ?_
      · refine Keeps.step (keeps_releaseCells _ _) rfl ?_
        exact h1
      · exact h1
    clear_value x2
    refine Keeps.step (keeps_modCopy _ _ _ _) rfl ?_
    exact h2
  · exact Keeps.refl _ _

theorem keeps_writeData (s : State) (e : Ep) (k : Nat) (pos : Nat) (d : List Word) :
    Keeps [.out] s (State.writeData s e k pos d) := by
  unfold State.writeData
  refine Keeps.ite ?_ ?_
  · exact Keeps.refl _ _
  · refine Keeps.step (keeps_emit _ _) rfl ?_
    exact Keeps.refl _ _

theorem keeps_captureVoidRecord (s : State) (f : Machine.Frame) (c : Copy) (e : Ep) (k : Nat) (sp : Nat × Nat × Bool) :
    Keeps (andBell [.rings, .free]) s (State.captureVoidRecord s f c e k sp) := by
  unfold State.captureVoidRecord
  lift_lets -underBinder
  intro x1
  have h1 : FstKeeps (andBell [.rings, .free]) s x1 := by
    refine FstKeeps.step (keeps_takeFree _) rfl ?_
    exact Keeps.refl _ _
  clear_value x1
  intro x2
  have h2 : FstKeeps (andBell [.rings, .free]) s x2 := by
    refine FstKeeps.step (keeps_takeFree _) rfl ?_
    exact h1
  clear_value x2
  intro x3 x4
  have h4 : Keeps (andBell [.rings, .free]) s x4 := by
    refine Keeps.step (keeps_emit _ _) rfl ?_
    refine Keeps.step (keeps_writeData _ _ _ _ _) rfl ?_
    exact h2
  clear_value x4
  intro x5
  have h5 : Keeps (andBell [.rings, .free]) s x5 := by
    refine Keeps.step (keeps_modRing _ _ _ _) rfl ?_
    exact h4
  clear_value x5
  refine Keeps.step (keeps_ringNotify _ _ _) rfl ?_
  refine Keeps.step (keeps_count _ _) rfl ?_
  refine Keeps.step (keeps_count _ _) rfl ?_
  exact h5

theorem keeps_discardCopies (s : State) (fid : Nat) :
    Keeps (andBell [.ports, .frames, .rings, .cells, .free]) s (State.discardCopies s fid) := by
  unfold State.discardCopies
  split
  · exact Keeps.refl _ _
  · refine Keeps.foldl (fun u1 y2 => ?_) ?_
    · split
      · exact Keeps.refl _ _
      · split
        · refine Keeps.step (keeps_endCopy _ _ _ _) rfl ?_
          exact Keeps.refl _ _
        · refine Keeps.step (keeps_endCopy _ _ _ _) rfl ?_
          exact Keeps.refl _ _
        · split
          · refine Keeps.ite ?_ ?_
            · exact Keeps.refl _ _
            · refine Keeps.step (keeps_endCopy _ _ _ _) rfl ?_
              refine Keeps.step (keeps_modPort _ _ _) rfl ?_
              exact Keeps.refl _ _
          · refine Keeps.step (keeps_endCopy _ _ _ _) rfl ?_
            exact Keeps.refl _ _
        · exact Keeps.refl _ _
        · split
          · refine Keeps.step (keeps_modCopy _ _ _ _) rfl ?_
            refine Keeps.step (keeps_captureVoidRecord _ _ _ _ _ _) rfl ?_
            exact Keeps.refl _ _
          · refine Keeps.step (keeps_modCopy _ _ _ _) rfl ?_
            exact Keeps.refl _ _
    · exact Keeps.refl _ _

theorem keeps_modRoute (s : State) (g : Bool) (r : Nat) (f : RouteState → RouteState) :
    Keeps [.routes] s (State.modRoute s g r f) := by
  unfold State.modRoute
  lift_lets -underBinder
  intro x1
  refine Keeps.with_dray ?_ ?_ ?_ ?_
  · exact .inl rfl
  · exact .inr ⟨rfl, rfl, rfl⟩
  · exact .inr rfl
  · exact Keeps.refl _ _

theorem keeps_captureLost (s : State) (e : Ep) (k : Nat) :
    Keeps [.counters, .rings] s (State.captureLost s e k) := by
  unfold State.captureLost
  refine Keeps.step (keeps_modRing _ _ _ _) rfl ?_
  refine Keeps.step (keeps_count _ _) rfl ?_
  exact Keeps.refl _ _

theorem keeps_shortRecord (s : State) (e : Ep) (k : Nat) (w : Nat) (kind : Nat) (rest : List Word) :
    Keeps (andBell [.rings]) s (State.shortRecord s e k w kind rest) := by
  unfold State.shortRecord
  lift_lets -underBinder
  intro x1 x2
  have h2 : Keeps (andBell [.rings]) s x2 := by
    refine Keeps.ite ?_ ?_
    · exact Keeps.refl _ _
    · refine Keeps.step (keeps_emit _ _) rfl ?_
      exact Keeps.refl _ _
  clear_value x2
  intro x3
  have h3 : Keeps (andBell [.rings]) s x3 := by
    refine Keeps.step (keeps_emit _ _) rfl ?_
    exact h2
  clear_value x3
  refine Keeps.step (keeps_ringNotify _ _ _) rfl ?_
  refine Keeps.step (keeps_count _ _) rfl ?_
  refine Keeps.step (keeps_modRing _ _ _ _) rfl ?_
  exact h3

theorem keeps_capturePad (s : State) (e : Ep) (k : Nat) (w : Nat) :
    Keeps (andBell [.rings]) s (State.capturePad s e k w) := by
  unfold State.capturePad
  lift_lets -underBinder
  intro x1
  refine Keeps.ite ?_ ?_
  · exact Keeps.refl _ _
  · refine Keeps.step (keeps_shortRecord _ _ _ _ _ _) rfl ?_
    exact Keeps.refl _ _

theorem keeps_captureLoss (s : State) (e : Ep) (k : Nat) :
    Keeps (andBell [.rings]) s (State.captureLoss s e k) := by
  unfold State.captureLoss
  refine Keeps.ite ?_ ?_
  · exact Keeps.refl _ _
  · lift_lets -underBinder
    intro x1
    have h1 : Keeps (andBell [.rings]) s x1 := by
      refine Keeps.step (keeps_capturePad _ _ _ _) rfl ?_
      exact Keeps.refl _ _
    clear_value x1
    refine Keeps.step (keeps_modRing _ _ _ _) rfl ?_
    refine Keeps.step (keeps_shortRecord _ _ _ _ _ _) rfl ?_
    exact h1

theorem keeps_captureReserve (s : State) (e : Ep) (k : Nat) (w : Nat) :
    FstKeeps (andBell [.rings]) s (State.captureReserve s e k w) := by
  unfold State.captureReserve
  lift_lets -underBinder
  intro x1 x2 x3 x4
  have h4 : Keeps (andBell [.rings]) s x4 := by
    refine Keeps.step (keeps_capturePad _ _ _ _) rfl ?_
    refine Keeps.step (keeps_captureLoss _ _ _) rfl ?_
    exact Keeps.refl _ _
  clear_value x4
  intro x5
  refine FstKeeps.ite ?_ ?_
  · refine FstKeeps.mk ?_
    refine Keeps.step (keeps_modRing _ _ _ _) rfl ?_
    exact h4
  · refine FstKeeps.mk ?_
    exact Keeps.refl _ _

theorem keeps_openRecord (s : State) (f : Machine.Frame) (c : Copy) :
    Keeps [.out] s (State.openRecord s f c) := by
  unfold State.openRecord
  split
  · refine Keeps.step (keeps_emit _ _) rfl ?_
    exact Keeps.refl _ _
  · exact Keeps.refl _ _

theorem keeps_mirrorOne (s : State) (fid : Nat) (f : Machine.Frame) (r : Nat) :
    Keeps (andBell [.frames, .rings, .routes]) s (State.mirrorOne s fid f r) := by
  unfold State.mirrorOne
  lift_lets -underBinder
  intro x1 x2 x3
  have h3 : Keeps (andBell [.frames, .rings, .routes]) s x3 := by
    refine Keeps.step (keeps_modRoute _ _ _ _) rfl ?_
    exact Keeps.refl _ _
  clear_value x3
  intro x4 x5
  have h5 : FstKeeps (andBell [.frames, .rings, .routes]) s x5 := by
    refine FstKeeps.step (keeps_captureReserve _ _ _ _) rfl ?_
    exact h3
  clear_value x5
  refine Keeps.ite ?_ ?_
  · exact Keeps.refl _ _
  · refine Keeps.ite ?_ ?_
    · refine Keeps.step (keeps_modRoute _ _ _ _) rfl ?_
      exact Keeps.refl _ _
    · split
      · lift_lets -underBinder
        intro x6
        have h6 : Keeps (andBell [.frames, .rings, .routes]) s x6 := by
          exact h5
        refine Keeps.step (keeps_count _ _) rfl ?_
        refine Keeps.ite ?_ ?_
        · refine Keeps.step (keeps_captureLost _ _ _) rfl ?_
          exact h6
        · exact h6
      · lift_lets -underBinder
        intro x7
        refine Keeps.step (keeps_modFrame _ _ _) rfl ?_
        refine Keeps.step (keeps_openRecord _ _ _) rfl ?_
        exact h5

theorem keeps_countUnknown (s : State) (f : Machine.Frame) :
    Keeps [.counters] s (State.countUnknown s f) := by
  unfold State.countUnknown
  refine Keeps.ite ?_ ?_
  · exact Keeps.refl _ _
  · split
    · refine Keeps.step (keeps_count _ _) rfl ?_
      exact Keeps.refl _ _
    · refine Keeps.step (keeps_count _ _) rfl ?_
      exact Keeps.refl _ _
    · refine Keeps.step (keeps_count _ _) rfl ?_
      exact Keeps.refl _ _

theorem keeps_afterVerdict (s : State) (fid : Nat) :
    Keeps (andBell [.ports, .frames, .lock, .rings, .routes, .cells, .free]) s (State.afterVerdict s fid) := by
  unfold State.afterVerdict
  split
  · exact Keeps.refl _ _
  · refine Keeps.ite ?_ ?_
    · exact Keeps.refl _ _
    · refine Keeps.ite ?_ ?_
      · lift_lets -underBinder
        intro x1
        have h1 : Keeps (andBell [.ports, .frames, .lock, .rings, .routes, .cells, .free]) s x1 := by
          refine Keeps.step (keeps_discardCopies _ _) rfl ?_
          refine Keeps.step (keeps_freeLane _ _) rfl ?_
          exact Keeps.refl _ _
        clear_value x1
        intro x2
        have h2 : Keeps (andBell [.ports, .frames, .lock, .rings, .routes, .cells, .free]) s x2 := by
          refine Keeps.ite ?_ ?_
          · refine Keeps.step (keeps_count _ _) rfl ?_
            exact h1
          · exact h1
        clear_value x2
        refine Keeps.step (keeps_settleFrame _ _) rfl ?_
        refine Keeps.step (keeps_modFrame _ _ _) rfl ?_
        exact h2
      · lift_lets -underBinder
        intro x3
        have h3 : Keeps (andBell [.ports, .frames, .lock, .rings, .routes, .cells, .free]) s x3 := by
          refine Keeps.foldl (fun u4 y5 => ?_) ?_
          · refine Keeps.step (keeps_mirrorOne _ _ _ _) rfl ?_
            exact Keeps.refl _ _
          · refine Keeps.step (keeps_withdrawCopies _ _) rfl ?_
            exact Keeps.refl _ _
        clear_value x3
        intro x6
        have h6 : Keeps (andBell [.ports, .frames, .lock, .rings, .routes, .cells, .free]) s x6 := by
          refine Keeps.step (keeps_countUnknown _ _) rfl ?_
          exact h3
        clear_value x6
        intro x7
        have h7 : Keeps (andBell [.ports, .frames, .lock, .rings, .routes, .cells, .free]) s x7 := by
          refine Keeps.ite ?_ ?_
          · refine Keeps.step (keeps_modFrame _ _ _) rfl ?_
            exact h6
          · exact h6
        clear_value x7
        refine Keeps.step (keeps_settleFrame _ _) rfl ?_
        exact h7

theorem keeps_storeData (s : State) (cells : List Nat) (d : List Byte) :
    Keeps [.storeroom] s (State.storeData s cells d) := by
  unfold State.storeData
  lift_lets -underBinder
  intro x1
  refine Keeps.with_dray ?_ ?_ ?_ ?_
  · exact .inr ⟨rfl, rfl⟩
  · exact .inr ⟨rfl, rfl, rfl⟩
  · exact .inl rfl
  · exact Keeps.refl _ _

theorem keeps_allocCells (s : State) (n : Nat) (uses : Nat) :
    OptFstKeeps [.cells] s (State.allocCells s n uses) := by
  unfold State.allocCells
  lift_lets -underBinder
  intro x1 x2
  refine OptFstKeeps.ite ?_ ?_
  · refine OptFstKeeps.some ?_
    refine Keeps.with_dray ?_ ?_ ?_ ?_
    · exact .inr ⟨rfl, rfl⟩
    · exact .inl rfl
    · exact .inr rfl
    · exact Keeps.refl _ _
  · refine OptFstKeeps.ite ?_ ?_
    · refine OptFstKeeps.some ?_
      exact Keeps.refl _ _
    · exact OptFstKeeps.none

theorem keeps_pushPacket (s : State) (p : Nat) (c : Nat) (k : Packet) :
    Keeps [.ports] s (State.pushPacket s p c k) := by
  unfold State.pushPacket
  refine Keeps.step (keeps_modPort _ _ _) rfl ?_
  exact Keeps.refl _ _

/-! ## Machine/Watches.lean -/

theorem keeps_modWatch (s : State) (w : Nat) (f : WState → WState) :
    Keeps [.watch] s (State.modWatch s w f) := by
  unfold State.modWatch
  lift_lets -underBinder
  intro x1
  refine Keeps.with_watch ?_ ?_ ?_ ?_
  · exact .inr ⟨rfl, rfl⟩
  · exact .inr rfl
  · exact .inl rfl
  · exact Keeps.refl _ _

theorem keeps_startWalk (s : State) (kind : WalkKind) (w : Nat) (gen : Bool) (e : WatchEntry) (cutoff : Word) :
    Keeps [.watch] s (State.startWalk s kind w gen e cutoff) := by
  unfold State.startWalk
  lift_lets -underBinder
  intro x1 x2
  refine Keeps.with_watch ?_ ?_ ?_ ?_
  · exact .inr ⟨rfl, rfl⟩
  · exact .inr rfl
  · exact .inl rfl
  · exact Keeps.refl _ _

theorem keeps_retireWatch (s : State) (w : Nat) (gen : Bool) :
    Keeps [.watch] s (State.retireWatch s w gen) := by
  unfold State.retireWatch
  lift_lets -underBinder
  intro x1 x2
  have h2 : Keeps [.watch] s x2 := by
    refine Keeps.step (keeps_modWatch _ _ _) rfl ?_
    exact Keeps.refl _ _
  clear_value x2
  refine Keeps.ite ?_ ?_
  · exact h2
  · refine Keeps.step (keeps_startWalk _ _ _ _ _ _) rfl ?_
    refine Keeps.step (keeps_modWatch _ _ _) rfl ?_
    exact h2

theorem keeps_checkIndex (s : State) (w : Nat) :
    Keeps [.counters, .watch] s (State.checkIndex s w) := by
  unfold State.checkIndex
  refine Keeps.ite ?_ ?_
  · exact Keeps.refl _ _
  · refine Keeps.step (keeps_countIf _ _ _) rfl ?_
    refine Keeps.step (keeps_retireWatch _ _ _) rfl ?_
    exact Keeps.refl _ _

theorem keeps_retireAll (s : State) :
    Keeps [.counters, .watch] s (State.retireAll s) := by
  unfold State.retireAll
  refine Keeps.foldl (fun u1 y2 => ?_) ?_
  · refine Keeps.step (keeps_retireWatch _ _ _) rfl ?_
    refine Keeps.step (keeps_checkIndex _ _) rfl ?_
    exact Keeps.refl _ _
  · exact Keeps.refl _ _

theorem keeps_turnStale (s : State) (w : Nat) (at' : Int) :
    Keeps [.counters, .watch] s (State.turnStale s w at') := by
  unfold State.turnStale
  lift_lets -underBinder
  intro x1 x2 x3
  have h3 : Keeps [.counters, .watch] s x3 := by
    refine Keeps.step (keeps_count _ _) rfl ?_
    refine Keeps.step (keeps_modWatch _ _ _) rfl ?_
    exact Keeps.refl _ _
  clear_value x3
  refine Keeps.ite ?_ ?_
  · exact h3
  · refine Keeps.step (keeps_startWalk _ _ _ _ _ _) rfl ?_
    exact h3

/-! ## Machine/Flash.lean -/

theorem keeps_flashErase (s : State) (a : Nat) (n : Nat) :
    Keeps [.flash] s (State.flashErase s a n) := by
  unfold State.flashErase
  lift_lets -underBinder
  intro x1
  refine Keeps.with_sys ?_ ?_ ?_ ?_ ?_ ?_ ?_ ?_ ?_
  · (refine .inr ?_; and_intros <;> rfl)
  · (refine .inr ?_; and_intros <;> rfl)
  · (refine .inr ?_; and_intros <;> rfl)
  · (refine .inr ?_; and_intros <;> rfl)
  · (refine .inr ?_; and_intros <;> rfl)
  · exact .inl rfl
  · exact .inr rfl
  · exact .inr ⟨rfl, rfl⟩
  · exact Keeps.refl _ _

theorem keeps_flashPut (s : State) (a : Nat) (bs : List Byte) :
    Keeps [.flash] s (State.flashPut s a bs) := by
  induction bs generalizing s a with
  | nil => exact Keeps.refl _ _
  | cons b bs ih =>
    refine Keeps.step (ih _ _) rfl (Keeps.with_sys ?_ ?_ ?_ ?_ ?_ (.inl rfl) ?_ ?_ (Keeps.refl _ _))
    all_goals exact .inr (by and_intros <;> rfl)

theorem keeps_setRecord (s : State) (r : BootRecord) :
    Keeps [.firmware, .flash] s (State.setRecord s r) := by
  unfold State.setRecord
  refine Keeps.ite ?_ ?_
  · exact Keeps.refl _ _
  · lift_lets -underBinder
    intro x1 x2
    have h2 : Keeps [.firmware, .flash] s x2 := by
      refine Keeps.ite ?_ ?_
      · refine Keeps.step (keeps_flashErase _ _ _) rfl ?_
        exact Keeps.refl _ _
      · exact Keeps.refl _ _
    clear_value x2
    intro x3
    have h3 : Keeps [.firmware, .flash] s x3 := by
      refine Keeps.step (keeps_flashPut _ _ _) rfl ?_
      exact h2
    clear_value x3
    intro x4
    refine Keeps.with_sys ?_ ?_ ?_ ?_ ?_ ?_ ?_ ?_ ?_
    · (refine .inr ?_; and_intros <;> rfl)
    · (refine .inr ?_; and_intros <;> rfl)
    · (refine .inr ?_; and_intros <;> rfl)
    · (refine .inr ?_; and_intros <;> rfl)
    · exact .inl rfl
    · exact .inl rfl
    · exact .inr rfl
    · exact .inr ⟨rfl, rfl⟩
    · exact h3

/-! ## Machine/Cores.lean -/

theorem keeps_setFwResult (s : State) (r : Nat) :
    Keeps (andBell [.firmware]) s (State.setFwResult s r) := by
  unfold State.setFwResult
  lift_lets -underBinder
  intro x1
  refine Keeps.step (keeps_raiseIf _ _ _) rfl ?_
  refine Keeps.with_sys ?_ ?_ ?_ ?_ ?_ ?_ ?_ ?_ ?_
  · (refine .inr ?_; and_intros <;> rfl)
  · (refine .inr ?_; and_intros <;> rfl)
  · (refine .inr ?_; and_intros <;> rfl)
  · (refine .inr ?_; and_intros <;> rfl)
  · exact .inl rfl
  · exact .inr ⟨rfl, rfl⟩
  · exact .inr rfl
  · exact .inr ⟨rfl, rfl⟩
  · exact Keeps.refl _ _

theorem keeps_endSwapCommands (s : State) (status : Nat) (result : Word) :
    Keeps (andBell [.lock, .rings]) s (State.endSwapCommands s status result) := by
  unfold State.endSwapCommands
  refine Keeps.foldl (fun u1 y2 => ?_) ?_
  · split
    · refine Keeps.ite ?_ ?_
      · refine Keeps.step (keeps_endCommand _ _ _ _ _ _) rfl ?_
        exact Keeps.refl _ _
      · exact Keeps.refl _ _
    · exact Keeps.refl _ _
  · exact Keeps.refl _ _

theorem keeps_switchPair (s : State) (standby : Bool) :
    Keeps (andBell [.firmware]) s (State.switchPair s standby) := by
  unfold State.switchPair
  lift_lets -underBinder
  intro x1 x2
  have h2 : Keeps (andBell [.firmware]) s x2 := by
    refine Keeps.with_sys ?_ ?_ ?_ ?_ ?_ ?_ ?_ ?_ ?_
    · (refine .inr ?_; and_intros <;> rfl)
    · (refine .inr ?_; and_intros <;> rfl)
    · (refine .inr ?_; and_intros <;> rfl)
    · (refine .inr ?_; and_intros <;> rfl)
    · exact .inl rfl
    · exact .inr ⟨rfl, rfl⟩
    · exact .inr rfl
    · exact .inr ⟨rfl, rfl⟩
    · exact Keeps.refl _ _
  clear_value x2
  refine Keeps.step (keeps_raise _ _) rfl ?_
  refine Keeps.step (keeps_count _ _) rfl ?_
  exact h2

theorem keeps_withdrawSwap (s : State) :
    Keeps (andBell [.commit, .lock, .rings]) s (State.withdrawSwap s) := by
  unfold State.withdrawSwap
  refine Keeps.ite ?_ ?_
  · lift_lets -underBinder
    intro x1
    refine Keeps.step (keeps_endSwapCommands _ _ _) rfl ?_
    refine Keeps.with_gen ?_ ?_ ?_ ?_ ?_
    · (refine .inr ?_; and_intros <;> rfl)
    · exact .inr ⟨rfl, rfl, rfl⟩
    · exact .inl rfl
    · (refine .inr ?_; and_intros <;> rfl)
    · exact Keeps.refl _ _
  · exact Keeps.refl _ _

theorem keeps_markBad (s : State) :
    Keeps (andBell [.commit, .banks, .loader, .watch, .lock, .rings]) s (State.markBad s) := by
  unfold State.markBad
  lift_lets -underBinder
  intro x1
  have h1 : Keeps (andBell [.commit, .banks, .loader, .watch, .lock, .rings]) s x1 := by
    refine Keeps.step (keeps_modBank _ _ _) rfl ?_
    exact Keeps.refl _ _
  clear_value x1
  refine Keeps.ite ?_ ?_
  · refine Keeps.step (keeps_count _ _) rfl ?_
    refine Keeps.step (keeps_withdrawSwap _) rfl ?_
    exact h1
  · exact h1

theorem keeps_failCommands (s : State) :
    Keeps (andBell [.commit, .tai, .banks, .loader, .watch, .lock, .rings]) s (State.failCommands s) := by
  unfold State.failCommands
  lift_lets -underBinder
  intro x1 x2 x3
  have h3 : Keeps (andBell [.commit, .tai, .banks, .loader, .watch, .lock, .rings]) s x3 := by
    refine Keeps.ite ?_ ?_
    · exact Keeps.refl _ _
    · refine Keeps.step (keeps_markBad _) rfl ?_
      refine Keeps.with_watch ?_ ?_ ?_ ?_
      · exact .inl rfl
      · exact .inl rfl
      · exact .inl rfl
      · exact Keeps.refl _ _
  clear_value x3
  intro x4
  have h4 : Keeps (andBell [.commit, .tai, .banks, .loader, .watch, .lock, .rings]) s x4 := by
    refine Keeps.foldl (fun u5 y6 => ?_) ?_
    · refine Keeps.ite ?_ ?_
      · refine Keeps.step (keeps_endCommand _ _ _ _ _ _) rfl ?_
        exact Keeps.refl _ _
      · exact Keeps.refl _ _
    · exact h3
  clear_value x4
  intro x7 x8
  refine Keeps.with_time_lock ?_ ?_ ?_ ?_ ?_ ?_
  · exact .inr rfl
  · exact .inl rfl
  · exact .inr rfl
  · exact .inr ⟨rfl, rfl, rfl⟩
  · exact .inl rfl
  · exact h4

theorem keeps_revertPair (s : State) (standby : Bool) :
    Keeps (andBell [.firmware, .flash]) s (State.revertPair s standby) := by
  unfold State.revertPair
  lift_lets -underBinder
  intro x1
  have h1 : Keeps (andBell [.firmware, .flash]) s x1 := by
    refine Keeps.step (keeps_switchPair _ _) rfl ?_
    exact Keeps.refl _ _
  clear_value x1
  intro x2 x3 x4
  have h4 : Keeps (andBell [.firmware, .flash]) s x4 := by
    refine Keeps.step (keeps_setRecord _ _) rfl ?_
    refine Keeps.with_sys ?_ ?_ ?_ ?_ ?_ ?_ ?_ ?_ ?_
    · (refine .inr ?_; and_intros <;> rfl)
    · (refine .inr ?_; and_intros <;> rfl)
    · (refine .inr ?_; and_intros <;> rfl)
    · (refine .inr ?_; and_intros <;> rfl)
    · exact .inl rfl
    · exact .inl rfl
    · exact .inr rfl
    · exact .inr ⟨rfl, rfl⟩
    · exact h1
  clear_value x4
  refine Keeps.step (keeps_setFwResult _ _) rfl ?_
  refine Keeps.step (keeps_count _ _) rfl ?_
  exact h4

theorem keeps_fencePair (s : State) :
    Keeps (andBell [.commit, .tai, .banks, .loader, .watch, .lock, .rings, .firmware, .flash]) s (State.fencePair s) := by
  unfold State.fencePair
  lift_lets -underBinder
  intro x1
  have h1 : Keeps (andBell [.commit, .tai, .banks, .loader, .watch, .lock, .rings, .firmware, .flash]) s x1 := by
    refine Keeps.step (keeps_failCommands _) rfl ?_
    exact Keeps.refl _ _
  clear_value x1
  refine Keeps.ite ?_ ?_
  · refine Keeps.step (keeps_revertPair _ _) rfl ?_
    exact h1
  · refine Keeps.step (keeps_switchPair _ _) rfl ?_
    exact h1

/-! ## Machine/Ports.lean -/

theorem keeps_engineStarting (s : State) (n : Nat) :
    Keeps (andBell [.engines]) s (State.engineStarting s n) := by
  unfold State.engineStarting
  lift_lets -underBinder
  intro x1 x2
  have h2 : Keeps (andBell [.engines]) s x2 := by
    refine Keeps.step (keeps_setEngine _ _ _) rfl ?_
    exact Keeps.refl _ _
  clear_value x2
  split
  · refine Keeps.step (keeps_raiseIf _ _ _) rfl ?_
    exact h2
  · exact h2

theorem keeps_engineTryStart (s : State) (n : Nat) :
    Keeps (andBell [.engines]) s (State.engineTryStart s n) := by
  unfold State.engineTryStart
  split
  · exact Keeps.refl _ _
  · lift_lets -underBinder
    intro x1
    refine Keeps.ite ?_ ?_
    · exact Keeps.refl _ _
    · refine Keeps.ite ?_ ?_
      · refine Keeps.step (keeps_engineStarting _ _) rfl ?_
        exact Keeps.refl _ _
      · refine Keeps.step (keeps_raise _ _) rfl ?_
        refine Keeps.step (keeps_modEngine _ _ _) rfl ?_
        exact Keeps.refl _ _

theorem keeps_recover (s : State) (n : Nat) :
    Keeps [.engines] s (State.recover s n) := by
  unfold State.recover
  refine Keeps.step (keeps_modEngine _ _ _) rfl ?_
  exact Keeps.refl _ _

theorem keeps_copyBlock (s : State) (a : Nat) (b : Nat) :
    Keeps [.inForce, .staged, .held] s (State.copyBlock s a b) := by
  unfold State.copyBlock
  refine Keeps.foldl (fun u1 y2 => ?_) ?_
  · lift_lets -underBinder
    intro x3 x4 x5
    have h5 : Keeps [.inForce, .staged, .held] u1 x5 := by
      refine Keeps.step (keeps_setReg _ _ _) rfl ?_
      exact Keeps.refl _ _
    clear_value x5
    intro x6
    refine Keeps.with_regs ?_ ?_ ?_ ?_ ?_ ?_ ?_ ?_ ?_
    · exact .inl rfl
    · exact .inl rfl
    · exact .inl rfl
    · exact .inr rfl
    · exact .inr ⟨rfl, rfl⟩
    · exact .inr ⟨rfl, rfl, rfl⟩
    · (refine .inr ?_; and_intros <;> rfl)
    · exact .inr ⟨rfl, rfl, rfl⟩
    · exact h5
  · exact Keeps.refl _ _

theorem keeps_switchEngine (s : State) (p : Nat) (n : Nat) (result : Nat) :
    Keeps (andBell [.engines, .ports]) s (State.switchEngine s p n result) := by
  unfold State.switchEngine
  lift_lets -underBinder
  intro x1 x2 x3 x4
  have h4 : Keeps (andBell [.engines, .ports]) s x4 := by
    refine Keeps.step (keeps_setEngine _ _ _) rfl ?_
    exact Keeps.refl _ _
  clear_value x4
  intro x5
  have h5 : Keeps (andBell [.engines, .ports]) s x5 := by
    refine Keeps.step (keeps_modEngine _ _ _) rfl ?_
    exact h4
  clear_value x5
  intro x6
  have h6 : Keeps (andBell [.engines, .ports]) s x6 := by
    refine Keeps.step (keeps_modPort _ _ _) rfl ?_
    exact h5
  clear_value x6
  refine Keeps.step (keeps_raise _ _) rfl ?_
  refine Keeps.step (keeps_count _ _) rfl ?_
  exact h6

theorem keeps_zeroBlock (s : State) (n : Nat) :
    Keeps [.counters] s (State.zeroBlock s n) := by
  unfold State.zeroBlock
  lift_lets -underBinder
  intro x1
  refine Keeps.with_regs ?_ ?_ ?_ ?_ ?_ ?_ ?_ ?_ ?_
  · exact .inr rfl
  · exact .inr rfl
  · exact .inr rfl
  · exact .inl rfl
  · exact .inr ⟨rfl, rfl⟩
  · exact .inr ⟨rfl, rfl, rfl⟩
  · (refine .inr ?_; and_intros <;> rfl)
  · exact .inr ⟨rfl, rfl, rfl⟩
  · exact Keeps.refl _ _

theorem keeps_offlineHandover (s : State) (p : Nat) (n : Nat) :
    Keeps (andBell [.inForce, .staged, .held, .engines, .ports]) s (State.offlineHandover s p n) := by
  unfold State.offlineHandover
  refine Keeps.step (keeps_switchEngine _ _ _ _) rfl ?_
  refine Keeps.step (keeps_zeroBlock _ _) rfl ?_
  refine Keeps.step (keeps_copyBlock _ _ _) rfl ?_
  exact Keeps.refl _ _

theorem keeps_releaseShadow (s : State) (p : Nat) :
    Keeps [.engines, .ports] s (State.releaseShadow s p) := by
  unfold State.releaseShadow
  lift_lets -underBinder
  intro x1
  have h1 : Keeps [.engines, .ports] s x1 := by
    unfold x1
    split
    · refine Keeps.step (keeps_modEngine _ _ _) rfl ?_
      exact Keeps.refl _ _
    · exact Keeps.refl _ _
  clear_value x1
  refine Keeps.step (keeps_modPort _ _ _) rfl ?_
  exact h1

theorem keeps_rollFailed (s : State) (p : Nat) :
    Keeps [.firmware] s (State.rollFailed s p) := by
  unfold State.rollFailed
  lift_lets -underBinder
  intro x1 x2
  refine Keeps.with_sys ?_ ?_ ?_ ?_ ?_ ?_ ?_ ?_ ?_
  · (refine .inr ?_; and_intros <;> rfl)
  · (refine .inr ?_; and_intros <;> rfl)
  · (refine .inr ?_; and_intros <;> rfl)
  · (refine .inr ?_; and_intros <;> rfl)
  · exact .inl rfl
  · exact .inr ⟨rfl, rfl⟩
  · exact .inr rfl
  · exact .inr ⟨rfl, rfl⟩
  · exact Keeps.refl _ _

theorem keeps_handoverFail (s : State) (p : Nat) (result : Nat) :
    Keeps (andBell [.engines, .ports, .firmware]) s (State.handoverFail s p result) := by
  unfold State.handoverFail
  lift_lets -underBinder
  intro x1
  have h1 : Keeps (andBell [.engines, .ports, .firmware]) s x1 := by
    refine Keeps.ite ?_ ?_
    · refine Keeps.step (keeps_rollFailed _ _) rfl ?_
      exact Keeps.refl _ _
    · exact Keeps.refl _ _
  clear_value x1
  refine Keeps.step (keeps_raise _ _) rfl ?_
  refine Keeps.step (keeps_count _ _) rfl ?_
  refine Keeps.step (keeps_modPort _ _ _) rfl ?_
  refine Keeps.step (keeps_releaseShadow _ _) rfl ?_
  exact h1

theorem keeps_raisePort (s : State) (n : Nat) :
    Keeps bellParts s (State.raisePort s n) := by
  unfold State.raisePort
  split
  · refine Keeps.step (keeps_raise _ _) rfl ?_
    exact Keeps.refl _ _
  · exact Keeps.refl _ _

theorem keeps_engineStopped (s : State) (n : Nat) :
    Keeps (andBell [.engines, .ports, .rings, .cells]) s (State.engineStopped s n) := by
  unfold State.engineStopped
  lift_lets -underBinder
  intro x1 x2
  have h2 : Keeps (andBell [.engines, .ports, .rings, .cells]) s x2 := by
    refine Keeps.step (keeps_modEngine _ _ _) rfl ?_
    exact Keeps.refl _ _
  clear_value x2
  split
  · exact h2
  · lift_lets -underBinder
    intro x3
    have h3 : Keeps (andBell [.engines, .ports, .rings, .cells]) s x3 := by
      refine Keeps.step (keeps_flushPort _ _) rfl ?_
      exact h2
    clear_value x3
    intro x4
    have h4 : Keeps (andBell [.engines, .ports, .rings, .cells]) s x4 := by
      unfold x4
      split
      · refine Keeps.step (keeps_switchEngine _ _ _ _) rfl ?_
        exact h3
      · exact h3
    clear_value x4
    refine Keeps.ite ?_ ?_
    · refine Keeps.step (keeps_engineTryStart _ _) rfl ?_
      exact h4
    · exact h4

theorem keeps_setErrors (s : State) (n : Nat) (tec : Nat) (rxErr : Nat) :
    Keeps (andBell [.engines, .ports, .rings, .cells]) s (State.setErrors s n tec rxErr) := by
  unfold State.setErrors
  lift_lets -underBinder
  intro x1 x2 x3 x4 x5
  have h5 : Keeps (andBell [.engines, .ports, .rings, .cells]) s x5 := by
    refine Keeps.step (keeps_countIf _ _ _) rfl ?_
    refine Keeps.step (keeps_setEngine _ _ _) rfl ?_
    exact Keeps.refl _ _
  clear_value x5
  intro x6
  have h6 : Keeps (andBell [.engines, .ports, .rings, .cells]) s x6 := by
    refine Keeps.ite ?_ ?_
    · refine Keeps.step (keeps_raisePort _ _) rfl ?_
      exact h5
    · exact h5
  clear_value x6
  refine Keeps.ite ?_ ?_
  · refine Keeps.step (keeps_engineStopped _ _) rfl ?_
    exact h6
  · exact h6

theorem keeps_holdPort (s : State) (p : Nat) :
    Keeps [.ports] s (State.holdPort s p) := by
  unfold State.holdPort
  refine Keeps.step (keeps_modPort _ _ _) rfl ?_
  exact Keeps.refl _ _

theorem keeps_portDown (s : State) (p : Nat) :
    Keeps (andBell [.ports, .rings, .cells]) s (State.portDown s p) := by
  unfold State.portDown
  refine Keeps.ite ?_ ?_
  · refine Keeps.step (keeps_holdPort _ _) rfl ?_
    exact Keeps.refl _ _
  · lift_lets -underBinder
    intro x1
    have h1 : Keeps (andBell [.ports, .rings, .cells]) s x1 := by
      refine Keeps.step (keeps_cutAttempt _ _) rfl ?_
      exact Keeps.refl _ _
    clear_value x1
    refine Keeps.ite ?_ ?_
    · refine Keeps.step (keeps_flushPort _ _) rfl ?_
      exact h1
    · refine Keeps.step (keeps_holdPort _ _) rfl ?_
      exact h1

theorem keeps_portStep {l : List Part} (s : State) (p : Nat) (f : State → State)
    (hf : ∀ u : State, Keeps l u (f u)) (hl : ((andBell [.ports, .rings, .cells]).all fun p => l.contains p) = true) :
    Keeps l s (State.portStep s p f) := by
  unfold State.portStep
  exact Keeps.ite (Keeps.step (keeps_portDown _ _) hl (hf s)) (hf s)

theorem keeps_engineCommit (s : State) (n : Nat) :
    Keeps (andBell [.engines, .ports, .rings, .cells]) s (State.engineCommit s n) := by
  unfold State.engineCommit
  split
  · exact Keeps.refl _ _
  · refine Keeps.trans ?_ (keeps_portStep _ _ _ (fun u1 => ?_) rfl)
    · exact Keeps.refl _ _
    · refine Keeps.ite ?_ ?_
      · split
        · refine Keeps.step (keeps_engineTryStart _ _) rfl ?_
          exact Keeps.refl _ _
        · refine Keeps.step (keeps_modEngine _ _ _) rfl ?_
          exact Keeps.refl _ _
        · exact Keeps.refl _ _
        · exact Keeps.refl _ _
      · lift_lets -underBinder
        intro x2 x3
        have h3 : Keeps (andBell [.engines, .ports, .rings, .cells]) u1 x3 := by
          refine Keeps.step (keeps_modEngine _ _ _) rfl ?_
          exact Keeps.refl _ _
        clear_value x3
        refine Keeps.ite ?_ ?_
        · refine Keeps.step (keeps_engineStopped _ _) rfl ?_
          exact h3
        · exact h3

theorem keeps_portsStep {l : List Part} (s : State) (ps : List Nat) (f : State → State)
    (hf : ∀ u : State, Keeps l u (f u)) (hl : ((andBell [.ports, .rings, .cells]).all fun p => l.contains p) = true) :
    Keeps l s (State.portsStep s ps f) := by
  unfold State.portsStep
  exact Keeps.foldl (fun _ _ => Keeps.ite (Keeps.step (keeps_portDown _ _) hl (Keeps.refl _ _)) (Keeps.refl _ _)) (hf s)

theorem keeps_setPmap (s : State) (p : Nat) (n : Nat) :
    Keeps [.inForce, .staged, .held] s (State.setPmap s p n) := by
  unfold State.setPmap
  lift_lets -underBinder
  intro x1 x2
  have h2 : Keeps [.inForce, .staged, .held] s x2 := by
    refine Keeps.step (keeps_setFld _ _ _ _ _) rfl ?_
    exact Keeps.refl _ _
  clear_value x2
  intro x3 x4
  refine Keeps.with_regs ?_ ?_ ?_ ?_ ?_ ?_ ?_ ?_ ?_
  · exact .inl rfl
  · exact .inl rfl
  · exact .inl rfl
  · exact .inr rfl
  · exact .inr ⟨rfl, rfl⟩
  · exact .inr ⟨rfl, rfl, rfl⟩
  · (refine .inr ?_; and_intros <;> rfl)
  · exact .inr ⟨rfl, rfl, rfl⟩
  · exact h2

theorem keeps_coldReplace (s : State) (p : Nat) (n : Nat) :
    Keeps (andBell [.inForce, .staged, .held, .engines, .ports]) s (State.coldReplace s p n) := by
  unfold State.coldReplace
  lift_lets -underBinder
  intro x1
  have h1 : Keeps (andBell [.inForce, .staged, .held, .engines, .ports]) s x1 := by
    refine Keeps.step (keeps_setPmap _ _ _) rfl ?_
    refine Keeps.step (keeps_copyBlock _ _ _) rfl ?_
    exact Keeps.refl _ _
  clear_value x1
  intro x2
  have h2 : Keeps (andBell [.inForce, .staged, .held, .engines, .ports]) s x2 := by
    refine Keeps.step (keeps_modEngine _ _ _) rfl ?_
    exact h1
  clear_value x2
  intro x3
  have h3 : Keeps (andBell [.inForce, .staged, .held, .engines, .ports]) s x3 := by
    refine Keeps.step (keeps_modPort _ _ _) rfl ?_
    exact h2
  clear_value x3
  refine Keeps.step (keeps_engineTryStart _ _) rfl ?_
  refine Keeps.step (keeps_raise _ _) rfl ?_
  refine Keeps.step (keeps_count _ _) rfl ?_
  refine Keeps.step (keeps_count _ _) rfl ?_
  exact h3

theorem keeps_dropReception (s : State) (p : Nat) :
    Keeps (andBell [.ports, .frames, .lock, .rings, .routes, .cells, .free]) s (State.dropReception s p) := by
  unfold State.dropReception
  split
  · exact Keeps.refl _ _
  · lift_lets -underBinder
    intro x1
    have h1 : Keeps (andBell [.ports, .frames, .lock, .rings, .routes, .cells, .free]) s x1 := by
      refine Keeps.step (keeps_modPort _ _ _) rfl ?_
      exact Keeps.refl _ _
    clear_value x1
    refine Keeps.step (keeps_afterVerdict _ _) rfl ?_
    refine Keeps.step (keeps_modFrame _ _ _) rfl ?_
    exact h1

theorem keeps_laneReturn (s : State) (p : Nat) :
    Keeps [.counters, .ports, .frames, .cells] s (State.laneReturn s p) := by
  unfold State.laneReturn
  split
  · exact Keeps.refl _ _
  · lift_lets -underBinder
    intro x1
    have h1 : Keeps [.counters, .ports, .frames, .cells] s x1 := by
      refine Keeps.step (keeps_modPort _ _ _) rfl ?_
      exact Keeps.refl _ _
    clear_value x1
    split
    · exact h1
    · refine Keeps.ite ?_ ?_
      · refine Keeps.step (keeps_settleFrame _ _) rfl ?_
        refine Keeps.step (keeps_endCopy _ _ _ _) rfl ?_
        exact h1
      · refine Keeps.step (keeps_modCopy _ _ _ _) rfl ?_
        exact h1

theorem keeps_fenceEngine (s : State) (n : Nat) (spare : Bool) :
    Keeps (andBell [.inForce, .staged, .held, .engines, .ports, .frames, .lock, .rings, .routes, .cells, .firmware, .free]) s (State.fenceEngine s n spare) := by
  unfold State.fenceEngine
  split
  · refine Keeps.step (keeps_modEngine _ _ _) rfl ?_
    refine Keeps.step (keeps_handoverFail _ _ _) rfl ?_
    exact Keeps.refl _ _
  · split
    · refine Keeps.step (keeps_modEngine _ _ _) rfl ?_
      exact Keeps.refl _ _
    · lift_lets -underBinder
      intro x1
      have h1 : Keeps (andBell   [.inForce, .staged, .held, .engines, .ports, .frames, .lock, .rings, .routes,     .cells, .firmware, .free]) s x1 := by
        refine Keeps.step (keeps_laneReturn _ _) rfl ?_
        refine Keeps.step (keeps_dropReception _ _) rfl ?_
        exact Keeps.refl _ _
      clear_value x1
      intro x2 x3
      have h3 : Keeps (andBell   [.inForce, .staged, .held, .engines, .ports, .frames, .lock, .rings, .routes,     .cells, .firmware, .free]) s x3 := by
        refine Keeps.step (keeps_modEngine _ _ _) rfl ?_
        exact h1
      clear_value x3
      intro x4
      have h4 : Keeps (andBell   [.inForce, .staged, .held, .engines, .ports, .frames, .lock, .rings, .routes,     .cells, .firmware, .free]) s x4 := by
        refine Keeps.ite ?_ ?_
        · split
          · refine Keeps.step (keeps_coldReplace _ _ _) rfl ?_
            exact h3
          · split
            · refine Keeps.step (keeps_coldReplace _ _ _) rfl ?_
              exact h3
            · exact h3
        · exact h3
      clear_value x4
      refine Keeps.ite ?_ ?_
      · refine Keeps.step (keeps_portDown _ _) rfl ?_
        exact h4
      · refine Keeps.ite ?_ ?_
        · refine Keeps.step (keeps_flushPort _ _) rfl ?_
          exact h4
        · exact h4

theorem keeps_endBusFrame (s : State) (n : Nat) :
    Keeps (andBell [.engines, .ports, .rings, .cells]) s (State.endBusFrame s n) := by
  unfold State.endBusFrame
  lift_lets -underBinder
  intro x1 x2
  have h2 : Keeps (andBell [.engines, .ports, .rings, .cells]) s x2 := by
    refine Keeps.step (keeps_modEngine _ _ _) rfl ?_
    exact Keeps.refl _ _
  clear_value x2
  refine Keeps.ite ?_ ?_
  · refine Keeps.step (keeps_setErrors _ _ _ _) rfl ?_
    exact h2
  · exact h2

theorem keeps_lastErr (s : State) (n : Nat) (code : Nat) (transmitter : Bool) (ph : BitPhase) :
    Keeps [.engines] s (State.lastErr s n code transmitter ph) := by
  unfold State.lastErr
  refine Keeps.step (keeps_modEngine _ _ _) rfl ?_
  exact Keeps.refl _ _

theorem keeps_busFrameOver (s : State) (p : Nat) :
    Keeps (andBell [.engines, .ports, .xcvr, .rings, .cells]) s (State.busFrameOver s p) := by
  unfold State.busFrameOver
  refine Keeps.trans ?_ (keeps_portStep _ _ _ (fun u1 => ?_) rfl)
  · exact Keeps.refl _ _
  · lift_lets -underBinder
    intro x2
    have h2 : Keeps (andBell [.engines, .ports, .xcvr, .rings, .cells]) u1 x2 := by
      refine Keeps.step (keeps_endBusFrame _ _) rfl ?_
      exact Keeps.refl _ _
    clear_value x2
    refine Keeps.ite ?_ ?_
    · refine Keeps.step (keeps_modIp _ _ _) rfl ?_
      exact h2
    · exact h2

theorem keeps_execPortHoldExpire (port : Nat) (s : State) :
    AnswerKeeps (andBell [.clock, .ports, .rings, .cells]) s (execPortHoldExpire port s) := by
  unfold execPortHoldExpire
  refine AnswerKeeps.next ?_
  refine Keeps.ite ?_ ?_
  · refine Keeps.step (keeps_flushPort _ _) rfl ?_
    refine Keeps.step (keeps_advanceTo _ _) rfl ?_
    exact Keeps.refl _ _
  · exact Keeps.refl _ _

theorem keeps_noteError (s : State) (n : Nat) (e : BusErr) (transmitter : Bool) (ph : BitPhase) :
    Keeps [.counters, .engines] s (State.noteError s n e transmitter ph) := by
  unfold State.noteError
  split
  · refine Keeps.step (keeps_lastErr _ _ _ _ _) rfl ?_
    refine Keeps.step (keeps_count _ _) rfl ?_
    exact Keeps.refl _ _
  · exact Keeps.refl _ _

theorem keeps_execPortIntegrated (eng : Nat) (s : State) :
    AnswerKeeps [.engines, .ports] s (execPortIntegrated eng s) := by
  unfold execPortIntegrated
  refine AnswerKeeps.next ?_
  split
  · refine Keeps.step (keeps_modPort _ _ _) rfl ?_
    exact Keeps.refl _ _
  · refine Keeps.ite ?_ ?_
    · refine Keeps.step (keeps_modEngine _ _ _) rfl ?_
      exact Keeps.refl _ _
    · refine Keeps.step (keeps_modEngine _ _ _) rfl ?_
      exact Keeps.refl _ _

theorem keeps_execBoDelayExpire (port : Nat) (s : State) :
    AnswerKeeps [.clock, .engines] s (execBoDelayExpire port s) := by
  unfold execBoDelayExpire
  lift_lets -underBinder
  intro x1 x2
  refine AnswerKeeps.next ?_
  refine Keeps.ite ?_ ?_
  · refine Keeps.step (keeps_modEngine _ _ _) rfl ?_
    refine Keeps.step (keeps_advanceTo _ _) rfl ?_
    exact Keeps.refl _ _
  · exact Keeps.refl _ _

theorem keeps_execPortStopComplete (eng : Nat) (s : State) :
    AnswerKeeps (andBell [.engines, .ports, .rings, .cells]) s (execPortStopComplete eng s) := by
  unfold execPortStopComplete
  refine AnswerKeeps.next ?_
  split
  · exact Keeps.refl _ _
  · refine Keeps.ite ?_ ?_
    · refine Keeps.step (keeps_engineStopped _ _) rfl ?_
      exact Keeps.refl _ _
    · exact Keeps.refl _ _

theorem keeps_execBusOffRecovery (port : Nat) (occurrences : Nat) (s : State) :
    AnswerKeeps (andBell [.engines]) s (execBusOffRecovery port occurrences s) := by
  unfold execBusOffRecovery
  lift_lets -underBinder
  intro x1 x2
  refine AnswerKeeps.next ?_
  refine Keeps.ite ?_ ?_
  · refine Keeps.ite ?_ ?_
    · refine Keeps.step (keeps_modEngine _ _ _) rfl ?_
      exact Keeps.refl _ _
    · refine Keeps.step (keeps_raisePort _ _) rfl ?_
      refine Keeps.step (keeps_modEngine _ _ _) rfl ?_
      exact Keeps.refl _ _
  · exact Keeps.refl _ _

theorem keeps_execProtocolExceptionExit (eng : Nat) (s : State) :
    AnswerKeeps [.engines] s (execProtocolExceptionExit eng s) := by
  unfold execProtocolExceptionExit
  refine AnswerKeeps.next ?_
  refine Keeps.step (keeps_modEngine _ _ _) rfl ?_
  exact Keeps.refl _ _

/-! ## Machine/Steward.lean -/

theorem keeps_stewPins (s : State) :
    Keeps [.stew] s (State.stewPins s) := by
  unfold State.stewPins
  lift_lets -underBinder
  intro x1 x2
  have h2 : Keeps [.stew] s x2 := by
    refine Keeps.with_stew ?_ ?_ ?_
    · exact .inr rfl
    · exact .inl rfl
    · exact Keeps.refl _ _
  intro x3 x4 x5
  refine Keeps.ite ?_ ?_
  · exact h2
  · refine Keeps.ite ?_ ?_
    · refine Keeps.with_stew ?_ ?_ ?_
      · exact .inr rfl
      · exact .inl rfl
      · exact h2
    · refine Keeps.with_stew ?_ ?_ ?_
      · exact .inr rfl
      · exact .inl rfl
      · exact h2

theorem keeps_modSrc (s : State) (f : Nat) (g : FaultSrc → FaultSrc) :
    Keeps [.srcs] s (State.modSrc s f g) := by
  unfold State.modSrc
  lift_lets -underBinder
  intro x1
  refine Keeps.with_stew ?_ ?_ ?_
  · exact .inl rfl
  · exact .inr rfl
  · exact Keeps.refl _ _

theorem keeps_openWindows (s : State) (fs : List Nat) :
    Keeps [.counters, .srcs] s (State.openWindows s fs) := by
  unfold State.openWindows
  lift_lets -underBinder
  intro x1
  refine Keeps.foldl (fun u2 y3 => ?_) ?_
  · refine Keeps.step (keeps_count _ _) rfl ?_
    refine Keeps.step (keeps_modSrc _ _ _) rfl ?_
    exact Keeps.refl _ _
  · exact Keeps.refl _ _

theorem keeps_unitRejoin (s : State) (f : Nat) :
    Keeps (andBell [.engines, .watch, .scriv, .subs, .crier, .lock, .routes, .stew, .tink, .firmware]) s (State.unitRejoin s f) := by
  unfold State.unitRejoin
  refine Keeps.ite ?_ ?_
  · lift_lets -underBinder
    intro x1
    have h1 : Keeps (andBell   [.engines, .watch, .scriv, .subs, .crier, .lock, .routes, .stew, .tink,     .firmware]) s x1 := by
      refine Keeps.step (keeps_modEngine _ _ _) rfl ?_
      exact Keeps.refl _ _
    clear_value x1
    refine Keeps.step (keeps_engineTryStart _ _) rfl ?_
    exact h1
  · refine Keeps.ite ?_ ?_
    · lift_lets -underBinder
      intro x2
      refine Keeps.with_scriv ?_ ?_ ?_ ?_
      · exact .inr rfl
      · exact .inr rfl
      · exact .inl rfl
      · exact Keeps.refl _ _
    · refine Keeps.ite ?_ ?_
      · lift_lets -underBinder
        intro x3
        refine Keeps.with_lock ?_ ?_ ?_ ?_
        · exact .inr rfl
        · exact .inr ⟨rfl, rfl, rfl⟩
        · exact .inl rfl
        · exact Keeps.refl _ _
      · refine Keeps.ite ?_ ?_
        · lift_lets -underBinder
          intro x4
          have h4 : Keeps (andBell   [.engines, .watch, .scriv, .subs, .crier, .lock, .routes, .stew, .tink,     .firmware]) s x4 := by
            refine Keeps.step (keeps_retireAll _) rfl ?_
            exact Keeps.refl _ _
          clear_value x4
          intro x5
          refine Keeps.with_watch ?_ ?_ ?_ ?_
          · exact .inr ⟨rfl, rfl⟩
          · exact .inr rfl
          · exact .inl rfl
          · exact h4
        · refine Keeps.ite ?_ ?_
          · lift_lets -underBinder
            intro x6 x7
            refine Keeps.with_crier ?_ ?_ ?_ ?_
            · exact .inl rfl
            · exact .inr ⟨rfl, rfl⟩
            · exact .inl rfl
            · exact Keeps.refl _ _
          · refine Keeps.ite ?_ ?_
            · lift_lets -underBinder
              intro x8
              refine Keeps.with_dray ?_ ?_ ?_ ?_
              · exact .inl rfl
              · exact .inr ⟨rfl, rfl, rfl⟩
              · exact .inr rfl
              · exact Keeps.refl _ _
            · refine Keeps.ite ?_ ?_
              · lift_lets -underBinder
                intro x9
                refine Keeps.with_stew ?_ ?_ ?_
                · exact .inr rfl
                · exact .inl rfl
                · exact Keeps.refl _ _
              · refine Keeps.ite ?_ ?_
                · refine Keeps.ite ?_ ?_
                  · exact Keeps.refl _ _
                  · lift_lets -underBinder
                    intro x10 x11
                    have h11 : Keeps (andBell   [.engines, .watch, .scriv, .subs, .crier, .lock, .routes, .stew, .tink,     .firmware]) s x11 := by
                      refine Keeps.with_stew ?_ ?_ ?_
                      · exact .inr rfl
                      · exact .inl rfl
                      · exact Keeps.refl _ _
                    clear_value x11
                    intro x12
                    refine Keeps.with_sys ?_ ?_ ?_ ?_ ?_ ?_ ?_ ?_ ?_
                    · (refine .inr ?_; and_intros <;> rfl)
                    · (refine .inr ?_; and_intros <;> rfl)
                    · (refine .inr ?_; and_intros <;> rfl)
                    · (refine .inr ?_; and_intros <;> rfl)
                    · exact .inl rfl
                    · exact .inr ⟨rfl, rfl⟩
                    · exact .inr rfl
                    · exact .inr ⟨rfl, rfl⟩
                    · exact h11
                · refine Keeps.ite ?_ ?_
                  · lift_lets -underBinder
                    intro x13 x14
                    refine Keeps.with_stew_tink ?_ ?_ ?_ ?_
                    · exact .inr rfl
                    · exact .inl rfl
                    · exact rfl
                    · exact Keeps.refl _ _
                  · exact Keeps.refl _ _

theorem keeps_recoverSrc (s : State) (f : Nat) (commanded : Bool) :
    Keeps (andBell [.engines, .ports, .watch, .scriv, .subs, .crier, .lock, .routes, .srcs, .stew, .tink, .firmware]) s (State.recoverSrc s f commanded) := by
  unfold State.recoverSrc
  lift_lets -underBinder
  intro x1 x2 x3
  have h3 : Keeps (andBell   [.engines, .ports, .watch, .scriv, .subs, .crier, .lock, .routes, .srcs,     .stew, .tink, .firmware]) s x3 := by
    refine Keeps.ite ?_ ?_
    · refine Keeps.step (keeps_modPort _ _ _) rfl ?_
      exact Keeps.refl _ _
    · refine Keeps.step (keeps_openWindows _ _) rfl ?_
      refine Keeps.step (keeps_unitRejoin _ _) rfl ?_
      exact Keeps.refl _ _
  clear_value x3
  intro x4
  have h4 : Keeps (andBell   [.engines, .ports, .watch, .scriv, .subs, .crier, .lock, .routes, .srcs,     .stew, .tink, .firmware]) s x4 := by
    refine Keeps.step (keeps_modSrc _ _ _) rfl ?_
    exact h3
  clear_value x4
  refine Keeps.step (keeps_stewPins _) rfl ?_
  refine Keeps.step (keeps_raise _ _) rfl ?_
  refine Keeps.step (keeps_count _ _) rfl ?_
  exact h4

theorem keeps_stewCmd (s : State) (val : Word) :
    Keeps (andBell [.engines, .ports, .watch, .scriv, .subs, .crier, .lock, .routes, .srcs, .stew, .tink, .firmware]) s (State.stewCmd s val) := by
  unfold State.stewCmd
  lift_lets -underBinder
  intro x1 x2 x3
  have h3 : Keeps (andBell   [.engines, .ports, .watch, .scriv, .subs, .crier, .lock, .routes, .srcs,     .stew, .tink, .firmware]) s x3 := by
    refine Keeps.ite ?_ ?_
    · refine Keeps.ite ?_ ?_
      · refine Keeps.with_stew ?_ ?_ ?_
        · exact .inl rfl
        · exact .inl rfl
        · exact Keeps.refl _ _
      · refine Keeps.step (keeps_modSrc _ _ _) rfl ?_
        exact Keeps.refl _ _
    · exact Keeps.refl _ _
  clear_value x3
  intro x4
  have h4 : Keeps (andBell   [.engines, .ports, .watch, .scriv, .subs, .crier, .lock, .routes, .srcs,     .stew, .tink, .firmware]) s x4 := by
    refine Keeps.ite ?_ ?_
    · refine Keeps.step (keeps_modSrc _ _ _) rfl ?_
      exact h3
    · exact h3
  clear_value x4
  intro x5
  have h5 : Keeps (andBell   [.engines, .ports, .watch, .scriv, .subs, .crier, .lock, .routes, .srcs,     .stew, .tink, .firmware]) s x5 := by
    refine Keeps.ite ?_ ?_
    · refine Keeps.step (keeps_recoverSrc _ _ _) rfl ?_
      exact h4
    · exact h4
  clear_value x5
  refine Keeps.step (keeps_stewPins _) rfl ?_
  exact h5

theorem keeps_sliceOutcome (s : State) (n : Nat) (f : SliceOutcome → SliceOutcome) :
    Keeps [.tink] s (State.sliceOutcome s n f) := by
  unfold State.sliceOutcome
  lift_lets -underBinder
  intro x1 x2
  refine Keeps.with_tink ?_ ?_
  · exact rfl
  · exact Keeps.refl _ _

theorem keeps_releaseSlice (s : State) (n : Nat) :
    Keeps [.engines, .scriv, .lock] s (State.releaseSlice s n) := by
  unfold State.releaseSlice
  refine Keeps.ite ?_ ?_
  · refine Keeps.step (keeps_modEngine _ _ _) rfl ?_
    exact Keeps.refl _ _
  · refine Keeps.ite ?_ ?_
    · lift_lets -underBinder
      intro x1
      refine Keeps.with_scriv ?_ ?_ ?_ ?_
      · exact .inr rfl
      · exact .inr rfl
      · exact .inl rfl
      · exact Keeps.refl _ _
    · refine Keeps.ite ?_ ?_
      · lift_lets -underBinder
        intro x2
        refine Keeps.with_lock ?_ ?_ ?_ ?_
        · exact .inr rfl
        · exact .inr ⟨rfl, rfl, rfl⟩
        · exact .inl rfl
        · exact Keeps.refl _ _
      · exact Keeps.refl _ _

theorem keeps_maskBegin (s : State) (fs : List Nat) :
    Keeps [.srcs] s (State.maskBegin s fs) := by
  unfold State.maskBegin
  refine Keeps.foldl (fun u1 y2 => ?_) ?_
  · refine Keeps.step (keeps_modSrc _ _ _) rfl ?_
    exact Keeps.refl _ _
  · exact Keeps.refl _ _

theorem keeps_fenceLane (s : State) (l : Nat) :
    Keeps [.counters, .frames, .lock, .cells] s (State.fenceLane s l) := by
  unfold State.fenceLane
  lift_lets -underBinder
  intro x1 x2 x3
  have h3 : Keeps [.counters, .frames, .lock, .cells] s x3 := by
    refine Keeps.with_lock ?_ ?_ ?_ ?_
    · exact .inr rfl
    · exact .inr ⟨rfl, rfl, rfl⟩
    · exact .inl rfl
    · exact Keeps.refl _ _
  clear_value x3
  intro x4
  have h4 : Keeps [.counters, .frames, .lock, .cells] s x4 := by
    unfold x4
    split
    · lift_lets -underBinder
      intro x5 x6
      have h6 : Keeps [.counters, .frames, .lock, .cells] s x6 := by
        refine Keeps.step (keeps_modFrame _ _ _) rfl ?_
        exact h3
      clear_value x6
      refine Keeps.step (keeps_settleFrame _ _) rfl ?_
      refine Keeps.step (keeps_countIf _ _ _) rfl ?_
      exact h6
    · exact h3
  clear_value x4
  split
  · lift_lets -underBinder
    intro x7
    have h7 : Keeps [.counters, .frames, .lock, .cells] s x7 := by
      refine Keeps.step (keeps_releaseCells _ _) rfl ?_
      exact h4
    clear_value x7
    intro x8
    refine Keeps.step (keeps_count _ _) rfl ?_
    refine Keeps.with_lock ?_ ?_ ?_ ?_
    · exact .inr rfl
    · exact .inr ⟨rfl, rfl, rfl⟩
    · exact .inl rfl
    · exact h7
  · exact h4

theorem keeps_maskEnd (s : State) (fs : List Nat) (served : Option Nat) :
    Keeps [.counters, .srcs] s (State.maskEnd s fs served) := by
  unfold State.maskEnd
  refine Keeps.foldl (fun u1 y2 => ?_) ?_
  · refine Keeps.step (keeps_openWindows _ _) rfl ?_
    refine Keeps.step (keeps_modSrc _ _ _) rfl ?_
    exact Keeps.refl _ _
  · exact Keeps.refl _ _

theorem keeps_fenceTinker (s : State) :
    Keeps (andBell [.engines, .ports, .scriv, .lock, .srcs, .stew, .tink]) s (State.fenceTinker s) := by
  unfold State.fenceTinker
  lift_lets -underBinder
  intro x1 x2 x3 x4
  have h4 : Keeps (andBell [.engines, .ports, .scriv, .lock, .srcs, .stew, .tink]) s x4 := by
    refine Keeps.with_stew_tink ?_ ?_ ?_ ?_
    · exact .inl rfl
    · exact .inl rfl
    · exact rfl
    · exact Keeps.refl _ _
  clear_value x4
  refine Keeps.foldl (fun u5 y6 => ?_) ?_
  · lift_lets -underBinder
    intro x7
    have h7 : Keeps (andBell [.engines, .ports, .scriv, .lock, .srcs, .stew, .tink]) u5 x7 := by
      refine Keeps.step (keeps_releaseSlice _ _) rfl ?_
      exact Keeps.refl _ _
    clear_value x7
    intro x8
    have h8 : Keeps (andBell [.engines, .ports, .scriv, .lock, .srcs, .stew, .tink]) u5 x8 := by
      unfold x8
      split
      · refine Keeps.step (keeps_modPort _ _ _) rfl ?_
        exact h7
      · exact h7
    clear_value x8
    intro x9
    have h9 : Keeps (andBell [.engines, .ports, .scriv, .lock, .srcs, .stew, .tink]) u5 x9 := by
      refine Keeps.step (keeps_maskEnd _ _ _) rfl ?_
      exact h8
    clear_value x9
    intro x10
    have h10 : Keeps (andBell [.engines, .ports, .scriv, .lock, .srcs, .stew, .tink]) u5 x10 := by
      refine Keeps.step (keeps_sliceOutcome _ _ _) rfl ?_
      exact h9
    clear_value x10
    refine Keeps.ite ?_ ?_
    · refine Keeps.step (keeps_raise _ _) rfl ?_
      refine Keeps.step (keeps_count _ _) rfl ?_
      exact h10
    · exact h8
  · exact h4

theorem keeps_fencePipeline (s : State) (q : Nat) :
    Keeps [.counters, .frames, .scriv] s (State.fencePipeline s q) := by
  unfold State.fencePipeline
  lift_lets -underBinder
  intro x1 x2 x3 x4 x5 x6
  have h6 : Keeps [.counters, .frames, .scriv] s x6 := by
    refine Keeps.with_frames_scriv ?_ ?_ ?_ ?_ ?_
    · exact rfl
    · exact .inr rfl
    · exact .inr rfl
    · exact .inl rfl
    · exact Keeps.refl _ _
  clear_value x6
  refine Keeps.foldl (fun u7 y8 => ?_) ?_
  · refine Keeps.step (keeps_settleFrame _ _) rfl ?_
    exact Keeps.refl _ _
  · refine Keeps.step (keeps_countN _ _ _) rfl ?_
    exact h6

theorem keeps_fenceCore (s : State) (f : Nat) :
    Keeps (andBell [.commit, .tai, .banks, .loader, .watch, .lock, .rings, .stew, .firmware, .flash]) s (State.fenceCore s f) := by
  unfold State.fenceCore
  lift_lets -underBinder
  intro x1 x2 x3 x4
  refine Keeps.ite ?_ ?_
  · refine Keeps.ite ?_ ?_
    · refine Keeps.step (keeps_fencePair _) rfl ?_
      unfold x2
      lift_lets -underBinder
      refine Keeps.with_stew ?_ ?_ ?_
      · exact .inr rfl
      · exact .inl rfl
      · exact Keeps.refl _ _
    · refine Keeps.with_stew ?_ ?_ ?_
      · exact .inr rfl
      · exact .inl rfl
      · exact Keeps.refl _ _
  · unfold x2
    lift_lets -underBinder
    intro x5
    refine Keeps.with_stew ?_ ?_ ?_
    · exact .inr rfl
    · exact .inl rfl
    · refine Keeps.with_sys ?_ ?_ ?_ ?_ ?_ ?_ ?_ ?_ ?_
      · (refine .inr ?_; and_intros <;> rfl)
      · (refine .inr ?_; and_intros <;> rfl)
      · (refine .inr ?_; and_intros <;> rfl)
      · (refine .inr ?_; and_intros <;> rfl)
      · exact .inl rfl
      · exact .inl rfl
      · exact .inr rfl
      · exact .inr ⟨rfl, rfl⟩
      · exact Keeps.refl _ _

theorem keeps_fenceUnit (s : State) (f : Nat) (spare : Bool) :
    Keeps (andBell [.commit, .tai, .inForce, .staged, .held, .engines, .ports, .frames, .banks, .loader, .watch, .scriv, .crier, .lock, .rings, .routes, .cells, .srcs, .stew, .tink, .firmware, .flash, .free]) s (State.fenceUnit s f spare) := by
  unfold State.fenceUnit
  refine Keeps.ite ?_ ?_
  · refine Keeps.step (keeps_fenceEngine _ _ _) rfl ?_
    exact Keeps.refl _ _
  · refine Keeps.ite ?_ ?_
    · refine Keeps.step (keeps_fencePipeline _ _) rfl ?_
      exact Keeps.refl _ _
    · refine Keeps.ite ?_ ?_
      · refine Keeps.step (keeps_fenceLane _ _) rfl ?_
        exact Keeps.refl _ _
      · refine Keeps.ite ?_ ?_
        · lift_lets -underBinder
          intro x1
          refine Keeps.with_watch ?_ ?_ ?_ ?_
          · exact .inl rfl
          · exact .inl rfl
          · exact .inl rfl
          · exact Keeps.refl _ _
        · refine Keeps.ite ?_ ?_
          · lift_lets -underBinder
            intro x2
            refine Keeps.with_crier ?_ ?_ ?_ ?_
            · exact .inr rfl
            · exact .inr ⟨rfl, rfl⟩
            · exact .inl rfl
            · exact Keeps.refl _ _
          · refine Keeps.ite ?_ ?_
            · lift_lets -underBinder
              intro x3
              refine Keeps.with_dray ?_ ?_ ?_ ?_
              · exact .inl rfl
              · exact .inl rfl
              · exact .inr rfl
              · exact Keeps.refl _ _
            · refine Keeps.ite ?_ ?_
              · lift_lets -underBinder
                intro x4 x5
                refine Keeps.foldl (fun u6 y7 => ?_) ?_
                · refine Keeps.step (keeps_ringFail _ _ _ _) rfl ?_
                  exact Keeps.refl _ _
                · refine Keeps.with_stew ?_ ?_ ?_
                  · exact .inl rfl
                  · exact .inl rfl
                  · exact Keeps.refl _ _
              · refine Keeps.ite ?_ ?_
                · refine Keeps.step (keeps_fenceCore _ _) rfl ?_
                  exact Keeps.refl _ _
                · refine Keeps.ite ?_ ?_
                  · refine Keeps.step (keeps_fenceTinker _) rfl ?_
                    exact Keeps.refl _ _
                  · exact Keeps.refl _ _

theorem keeps_degrade (s : State) (f : Nat) (syn : Nat) :
    Keeps [.counters, .scriv, .cells] s (State.degrade s f syn) := by
  unfold State.degrade
  refine Keeps.ite ?_ ?_
  · lift_lets -underBinder
    intro x1 x2
    refine Keeps.ite ?_ ?_
    · exact Keeps.refl _ _
    · refine Keeps.step (keeps_count _ _) rfl ?_
      refine Keeps.with_scriv ?_ ?_ ?_ ?_
      · exact .inr rfl
      · exact .inr rfl
      · exact .inl rfl
      · exact Keeps.refl _ _
  · refine Keeps.ite ?_ ?_
    · exact Keeps.refl _ _
    · lift_lets -underBinder
      intro x3
      refine Keeps.step (keeps_count _ _) rfl ?_
      refine Keeps.with_dray ?_ ?_ ?_ ?_
      · exact .inr ⟨rfl, rfl⟩
      · exact .inl rfl
      · exact .inr rfl
      · exact Keeps.refl _ _

theorem keeps_suspendCt (s : State) (p : Nat) :
    Keeps [.ports, .frames] s (State.suspendCt s p) := by
  unfold State.suspendCt
  lift_lets -underBinder
  intro x1
  have h1 : Keeps [.ports, .frames] s x1 := by
    refine Keeps.step (keeps_modPort _ _ _) rfl ?_
    exact Keeps.refl _ _
  clear_value x1
  split
  · refine Keeps.ite ?_ ?_
    · exact h1
    · refine Keeps.step (keeps_modCopy _ _ _ _) rfl ?_
      refine Keeps.step (keeps_modPort _ _ _) rfl ?_
      exact h1
  · exact h1

theorem keeps_react (s : State) (f : Nat) (r : Nat) (syn : Nat) :
    Keeps faultParts s (State.react s f r syn) := by
  unfold State.react
  split
  · refine Keeps.step (keeps_fenceUnit _ _ _) rfl ?_
    exact Keeps.refl _ _
  · refine Keeps.step (keeps_fenceUnit _ _ _) rfl ?_
    exact Keeps.refl _ _
  · lift_lets -underBinder
    intro x1
    refine Keeps.with_regs ?_ ?_ ?_ ?_ ?_ ?_ ?_ ?_ ?_
    · exact .inl rfl
    · exact .inl rfl
    · exact .inl rfl
    · exact .inl rfl
    · exact .inr ⟨rfl, rfl⟩
    · exact .inr ⟨rfl, rfl, rfl⟩
    · exact .inl rfl
    · exact .inr ⟨rfl, rfl, rfl⟩
    · exact Keeps.refl _ _
  · refine Keeps.step (keeps_suspendCt _ _) rfl ?_
    exact Keeps.refl _ _
  · refine Keeps.step (keeps_degrade _ _ _) rfl ?_
    exact Keeps.refl _ _
  · exact Keeps.refl _ _

theorem keeps_classify (s : State) (f : Nat) (syn : Nat) :
    Keeps faultParts s (State.classify s f syn) := by
  unfold State.classify
  lift_lets -underBinder
  intro x1 x2 x3 x4 x5 x6
  have h6 : Keeps (faultParts) s x6 := by
    refine Keeps.step (keeps_modSrc _ _ _) rfl ?_
    exact Keeps.refl _ _
  clear_value x6
  intro x7
  have h7 : Keeps (faultParts) s x7 := by
    refine Keeps.step (keeps_react _ _ _ _) rfl ?_
    exact h6
  clear_value x7
  intro x8
  have h8 : Keeps (faultParts) s x8 := by
    refine Keeps.ite ?_ ?_
    · refine Keeps.step (keeps_openWindows _ _) rfl ?_
      exact h7
    · exact h7
  clear_value x8
  refine Keeps.step (keeps_stewPins _) rfl ?_
  refine Keeps.step (keeps_raise _ _) rfl ?_
  refine Keeps.step (keeps_count _ _) rfl ?_
  exact h8

theorem keeps_stewEvent (s : State) (f : Nat) (syn : Nat) :
    Keeps faultParts s (State.stewEvent s f syn) := by
  unfold State.stewEvent
  lift_lets -underBinder
  intro x1 x2
  have h2 : Keeps (faultParts) s x2 := by
    refine Keeps.step (keeps_count _ _) rfl ?_
    exact Keeps.refl _ _
  clear_value x2
  intro x3
  have h3 : Keeps (faultParts) s x3 := by
    refine Keeps.step (keeps_modSrc _ _ _) rfl ?_
    exact h2
  clear_value x3
  refine Keeps.ite ?_ ?_
  · exact Keeps.refl _ _
  · refine Keeps.ite ?_ ?_
    · refine Keeps.step (keeps_count _ _) rfl ?_
      refine Keeps.step (keeps_modSrc _ _ _) rfl ?_
      exact Keeps.refl _ _
    · refine Keeps.ite ?_ ?_
      · refine Keeps.step (keeps_modSrc _ _ _) rfl ?_
        exact h2
      · refine Keeps.ite ?_ ?_
        · refine Keeps.step (keeps_classify _ _ _) rfl ?_
          exact h3
        · exact h3

theorem keeps_unitFault (s : State) (f : Nat) (syn : Nat) :
    Keeps faultParts s (State.unitFault s f syn) := by
  unfold State.unitFault
  refine Keeps.ite ?_ ?_
  · refine Keeps.step (keeps_stewEvent _ _ _) rfl ?_
    exact Keeps.refl _ _
  · exact Keeps.refl _ _

theorem keeps_setRails (s : State) (f : Nat) (rails : Nat) :
    Keeps [.srcs] s (State.setRails s f rails) := by
  unfold State.setRails
  refine Keeps.step (keeps_modSrc _ _ _) rfl ?_
  exact Keeps.refl _ _

theorem keeps_freeSyndrome (s : State) (f : Nat) :
    FstKeeps [.free] s (State.freeSyndrome s f) := by
  unfold State.freeSyndrome
  split
  refine FstKeeps.mk ?_
  refine Keeps.step (FstKeeps.eq (keeps_takeFree _) (by assumption)) rfl ?_
  exact Keeps.refl _ _

theorem keeps_anySyndrome (s : State) (f : Nat) :
    FstKeeps [.free] s (State.anySyndrome s f) := by
  unfold State.anySyndrome
  refine FstKeeps.ite ?_ ?_
  · refine FstKeeps.step (keeps_freeSyndrome _ _) rfl ?_
    exact Keeps.refl _ _
  · refine FstKeeps.mk ?_
    exact Keeps.refl _ _

theorem keeps_execFaultEvent (f : Nat) (s : State) :
    AnswerKeeps faultParts s (execFaultEvent f s) := by
  unfold execFaultEvent
  lift_lets -underBinder
  intro x1
  have h1 : Keeps (faultParts) s x1 := by
    refine Keeps.step (keeps_setRails _ _ _) rfl ?_
    exact Keeps.refl _ _
  clear_value x1
  refine AnswerKeeps.next ?_
  refine Keeps.ite ?_ ?_
  · refine Keeps.step (keeps_stewEvent _ _ _) rfl ?_
    refine Keeps.step (l := _) (keeps_anySyndrome _ _) rfl ?_
    exact h1
  · exact Keeps.refl _ _

theorem keeps_execRecovery (f : Nat) (s : State) :
    AnswerKeeps (andBell [.clock, .engines, .ports, .watch, .scriv, .subs, .crier, .lock, .routes, .srcs, .stew, .tink, .firmware]) s (execRecovery f s) := by
  unfold execRecovery
  lift_lets -underBinder
  intro x1
  refine AnswerKeeps.next ?_
  refine Keeps.ite ?_ ?_
  · refine Keeps.step (keeps_recoverSrc _ _ _) rfl ?_
    refine Keeps.step (keeps_advanceTo _ _) rfl ?_
    exact Keeps.refl _ _
  · exact Keeps.refl _ _

theorem keeps_execBrokenWire (f : Nat) (s : State) (high : Bool) :
    AnswerKeeps faultParts s (execBrokenWire f s high) := by
  unfold execBrokenWire
  lift_lets -underBinder
  intro x1 x2
  have h2 : Keeps (faultParts) s x2 := by
    refine Keeps.step (keeps_count _ _) rfl ?_
    refine Keeps.step (keeps_modSrc _ _ _) rfl ?_
    refine Keeps.step (keeps_setRails _ _ _) rfl ?_
    exact Keeps.refl _ _
  clear_value x2
  refine AnswerKeeps.next ?_
  refine Keeps.ite ?_ ?_
  · exact Keeps.refl _ _
  · refine Keeps.ite ?_ ?_
    · refine Keeps.step (keeps_classify _ _ _) rfl ?_
      refine Keeps.step (l := _) (keeps_anySyndrome _ _) rfl ?_
      exact h2
    · refine Keeps.step (keeps_stewPins _) rfl ?_
      exact h2

theorem keeps_execWatchdogTrip (s : State) :
    AnswerKeeps [.stew] s (execWatchdogTrip s) := by
  unfold execWatchdogTrip
  lift_lets -underBinder
  intro x1
  refine AnswerKeeps.next ?_
  refine Keeps.step (keeps_stewPins _) rfl ?_
  refine Keeps.with_stew ?_ ?_ ?_
  · exact .inr rfl
  · exact .inl rfl
  · exact Keeps.refl _ _

theorem keeps_execSubBucketAdvance (f : Nat) (s : State) :
    AnswerKeeps [.clock, .srcs] s (execSubBucketAdvance f s) := by
  unfold execSubBucketAdvance
  lift_lets -underBinder
  intro x1
  refine AnswerKeeps.next ?_
  refine Keeps.ite ?_ ?_
  · refine Keeps.step (keeps_modSrc _ _ _) rfl ?_
    refine Keeps.step (keeps_advanceTo _ _) rfl ?_
    exact Keeps.refl _ _
  · exact Keeps.refl _ _

theorem keeps_execWindowClose (f : Nat) (s : State) :
    AnswerKeeps (faultParts ++ [.clock]) s (execWindowClose f s) := by
  unfold execWindowClose
  refine AnswerKeeps.next ?_
  split
  · lift_lets -underBinder
    intro x1
    have h1 : Keeps (faultParts ++ [.clock]) s x1 := by
      refine Keeps.step (keeps_modSrc _ _ _) rfl ?_
      refine Keeps.step (keeps_advanceTo _ _) rfl ?_
      exact Keeps.refl _ _
    clear_value x1
    refine Keeps.ite ?_ ?_
    · refine Keeps.step (keeps_stewEvent _ _ _) rfl ?_
      refine Keeps.step (l := _) (keeps_anySyndrome _ _) rfl ?_
      exact h1
    · exact h1
  · exact Keeps.refl _ _

theorem keeps_execLevelRestored (f : Nat) (fault : Bool) (s : State) :
    AnswerKeeps [.srcs] s (execLevelRestored f fault s) := by
  unfold execLevelRestored
  lift_lets -underBinder
  intro x1
  refine AnswerKeeps.next ?_
  refine Keeps.ite ?_ ?_
  · refine Keeps.step (keeps_modSrc _ _ _) rfl ?_
    refine Keeps.step (keeps_setRails _ _ _) rfl ?_
    exact Keeps.refl _ _
  · exact Keeps.refl _ _

theorem keeps_execRcntDecay (f : Nat) (s : State) :
    AnswerKeeps [.clock, .srcs] s (execRcntDecay f s) := by
  unfold execRcntDecay
  lift_lets -underBinder
  intro x1
  refine AnswerKeeps.next ?_
  refine Keeps.ite ?_ ?_
  · refine Keeps.step (keeps_modSrc _ _ _) rfl ?_
    refine Keeps.step (keeps_advanceTo _ _) rfl ?_
    exact Keeps.refl _ _
  · exact Keeps.refl _ _

theorem keeps_execMinimumLowTime (s : State) :
    AnswerKeeps [.clock, .stew] s (execMinimumLowTime s) := by
  unfold execMinimumLowTime
  lift_lets -underBinder
  intro x1 x2 x3 x4
  refine AnswerKeeps.next ?_
  refine Keeps.step (keeps_stewPins _) rfl ?_
  refine Keeps.ite ?_ ?_
  · refine Keeps.step (keeps_advanceTo _ _) rfl ?_
    exact Keeps.refl _ _
  · refine Keeps.ite ?_ ?_
    · refine Keeps.step (keeps_advanceTo _ _) rfl ?_
      exact Keeps.refl _ _
    · refine Keeps.ite ?_ ?_
      · refine Keeps.step (keeps_advanceTo _ _) rfl ?_
        exact Keeps.refl _ _
      · exact Keeps.refl _ _

end Sys2Proof.Laws
end

