-- ==== Sys2Proof/Laws/Tables.lean ====
section
/-! SUPPORT. The laws of sparse tables and byte memories: a read after a write of the same key gives what was written, a
write leaves every other key alone, and every write keeps the canonical form; and the laws of lists used as sets. -/

namespace Sys2Proof.Laws

open Sys2Proof.Machine

variable {α : Type}

/-! ## Reads after writes -/

@[simp] theorem find?_insert (k : Nat) (v : α) (t : Table α) (j : Nat) :
    Table.find? j (Table.insert k v t) = if j = k then some v else Table.find? j t := by
  induction t with
  | nil =>
    by_cases h : j = k
    · simp [Table.insert, Table.find?, h]
    · simp [Table.insert, Table.find?, h, Ne.symm h]
  | cons e t ih =>
    obtain ⟨i, w⟩ := e
    simp only [Table.insert]
    split
    · by_cases h : j = k
      · simp [Table.find?, h]
      · simp [Table.find?, h, Ne.symm h]
    · split
      · rename_i h
        subst h
        by_cases h : j = i
        · simp [Table.find?, h]
        · simp [Table.find?, h, Ne.symm h]
      · rename_i h
        simp only [Table.find?]
        rw [ih]
        by_cases hj : j = k
        · subst hj
          simp [h]
        · simp [hj]

@[simp] theorem find?_erase (k : Nat) (t : Table α) (j : Nat) :
    Table.find? j (Table.erase k t) = if j = k then none else Table.find? j t := by
  induction t with
  | nil => simp [Table.erase, Table.find?]
  | cons e t ih =>
    obtain ⟨i, w⟩ := e
    simp only [Table.erase]
    split
    · rename_i h
      rw [ih]
      by_cases hj : j = k
      · simp [hj]
      · have : ¬ i = j := fun e => hj (by omega)
        simp [hj, Table.find?, this]
    · rename_i h
      simp only [Table.find?]
      rw [ih]
      by_cases hj : j = k
      · subst hj
        simp [h]
      · simp [hj]

@[simp] theorem get_insert (d : Nat → α) (k : Nat) (v : α) (t : Table α) (j : Nat) :
    Table.get d (Table.insert k v t) j = if j = k then v else Table.get d t j := by
  simp only [Table.get, find?_insert]
  split <;> rfl

@[simp] theorem get_set [DecidableEq α] (d : Nat → α) (k : Nat) (v : α) (t : Table α) (j : Nat) :
    Table.get d (Table.set d t k v) j = if j = k then v else Table.get d t j := by
  unfold Table.set
  split
  · rename_i h
    simp only [Table.get, find?_erase]
    by_cases hj : j = k
    · simp [hj, h]
    · simp [hj]
  · simp

@[simp] theorem read_write (b : Byte) (m : Memory) (a : Nat) (v : Byte) (c : Nat) :
    Memory.read b (Memory.write b m a v) c = if c = a then v else Memory.read b m c := by
  simp [Memory.read, Memory.write]

/-- A run of bytes is read back as written; every byte outside it is as it was. -/
theorem read_writeRun (b : Byte) (m : Memory) (a : Nat) (vs : List Byte) (c : Nat) :
    Memory.read b (Memory.writeRun b m a vs) c =
      if a ≤ c ∧ c < a + vs.length then (vs[c - a]?).getD b else Memory.read b m c := by
  induction vs generalizing m a with
  | nil =>
    have : ¬ (a ≤ c ∧ c < a + ([] : List Byte).length) := by simp
    rw [if_neg this]
    rfl
  | cons v vs ih =>
    simp only [Memory.writeRun, ih, read_write, List.length_cons]
    by_cases h : a + 1 ≤ c ∧ c < a + 1 + vs.length
    · rw [if_pos h, if_pos (by omega)]
      rw [show c - a = (c - (a + 1)) + 1 by omega]
      simp
    · rw [if_neg h]
      by_cases hc : c = a
      · subst hc
        simp
      · rw [if_neg hc, if_neg (by omega)]

/-! ## The canonical form -/

theorem sortedFrom_mono {lo hi : Nat} {t : Table α} (h : Table.sortedFrom hi t = true) (hl : lo ≤ hi) :
    Table.sortedFrom lo t = true := by
  cases t with
  | nil => rfl
  | cons e t =>
    simp only [Table.sortedFrom, Bool.and_eq_true, decide_eq_true_eq] at h ⊢
    exact ⟨by omega, h.2⟩

theorem sortedFrom_insert {lo k : Nat} {v : α} {t : Table α} (h : Table.sortedFrom lo t = true) (hk : lo ≤ k) :
    Table.sortedFrom lo (Table.insert k v t) = true := by
  induction t generalizing lo with
  | nil => simp [Table.insert, Table.sortedFrom, hk]
  | cons e t ih =>
    obtain ⟨i, w⟩ := e
    simp only [Table.sortedFrom, Bool.and_eq_true, decide_eq_true_eq] at h
    simp only [Table.insert]
    split
    · simp only [Table.sortedFrom, Bool.and_eq_true, decide_eq_true_eq]
      exact ⟨hk, by omega, h.2⟩
    · split
      · rename_i hi
        subst hi
        simp only [Table.sortedFrom, Bool.and_eq_true, decide_eq_true_eq]
        exact ⟨hk, h.2⟩
      · simp only [Table.sortedFrom, Bool.and_eq_true, decide_eq_true_eq]
        exact ⟨h.1, ih h.2 (by omega)⟩

theorem sortedFrom_erase {lo k : Nat} {t : Table α} (h : Table.sortedFrom lo t = true) :
    Table.sortedFrom lo (Table.erase k t) = true := by
  induction t generalizing lo with
  | nil => rfl
  | cons e t ih =>
    obtain ⟨i, w⟩ := e
    simp only [Table.sortedFrom, Bool.and_eq_true, decide_eq_true_eq] at h
    simp only [Table.erase]
    split
    · exact ih (sortedFrom_mono h.2 (by omega))
    · simp only [Table.sortedFrom, Bool.and_eq_true, decide_eq_true_eq]
      exact ⟨h.1, ih h.2⟩

theorem mem_insert {k : Nat} {v : α} {t : Table α} {e : Nat × α} (h : e ∈ Table.insert k v t) : e = (k, v) ∨ e ∈ t := by
  induction t with
  | nil => simpa [Table.insert] using h
  | cons x t ih =>
    obtain ⟨i, w⟩ := x
    simp only [Table.insert] at h
    split at h
    · simpa using h
    · split at h
      · rcases List.mem_cons.1 h with h | h
        · exact .inl h
        · exact .inr (List.mem_cons_of_mem _ h)
      · rcases List.mem_cons.1 h with h | h
        · exact .inr (by simp [h])
        · rcases ih h with h | h
          · exact .inl h
          · exact .inr (List.mem_cons_of_mem _ h)

theorem mem_erase {k : Nat} {t : Table α} {e : Nat × α} (h : e ∈ Table.erase k t) : e ∈ t := by
  induction t with
  | nil => simp [Table.erase] at h
  | cons x t ih =>
    obtain ⟨i, w⟩ := x
    simp only [Table.erase] at h
    split at h
    · exact List.mem_cons_of_mem _ (ih h)
    · rcases List.mem_cons.1 h with h | h
      · simp [h]
      · exact List.mem_cons_of_mem _ (ih h)

/-- Every write of a table keeps its canonical form. -/
theorem wf_set [DecidableEq α] {d : Nat → α} {t : Table α} (k : Nat) (v : α) (h : Table.wf d t = true) :
    Table.wf d (Table.set d t k v) = true := by
  simp only [Table.wf, Bool.and_eq_true, List.all_eq_true, decide_eq_true_eq] at h ⊢
  unfold Table.set
  split
  · exact ⟨sortedFrom_erase h.1, fun e he => h.2 e (mem_erase he)⟩
  · refine ⟨sortedFrom_insert h.1 (Nat.zero_le _), fun e he => ?_⟩
    rcases mem_insert he with rfl | he
    · assumption
    · exact h.2 e he

theorem wf_write {b : Byte} {m : Memory} (a : Nat) (v : Byte) (h : Memory.wf b m = true) :
    Memory.wf b (Memory.write b m a v) = true := wf_set a v h

theorem wf_writeRun {b : Byte} {m : Memory} (a : Nat) (vs : List Byte) (h : Memory.wf b m = true) :
    Memory.wf b (Memory.writeRun b m a vs) = true := by
  induction vs generalizing m a with
  | nil => exact h
  | cons v vs ih => exact ih (a + 1) (wf_write a v h)

theorem wf_writeChain {m : Memory} (cells : List Nat) (d : List Byte) (h : Memory.wf storeDefault m = true) :
    Memory.wf storeDefault (writeChain m cells d) = true := by
  induction cells generalizing m d with
  | nil => exact h
  | cons c cs ih => exact ih (d.drop 256) (wf_writeRun (256 * c) (d.take 256) h)

/-- A write along a chain changes no byte outside the chain's cells. -/
theorem read_writeChain_other (m : Memory) (cells : List Nat) (d : List Byte) (a : Nat) (h : a / 256 ∉ cells) :
    Memory.read storeDefault (writeChain m cells d) a = Memory.read storeDefault m a := by
  induction cells generalizing m d with
  | nil => rfl
  | cons c cs ih =>
    simp only [List.mem_cons, not_or] at h
    rw [writeChain, ih _ _ h.2, read_writeRun, if_neg]
    rintro ⟨h1, h2⟩
    have := List.length_take_le 256 d
    exact h.1 (by omega)

/-! ## Lists as sets -/

@[simp] theorem mem_setInsert (n m : Nat) (l : List Nat) : m ∈ setInsert n l ↔ m = n ∨ m ∈ l := by
  induction l with
  | nil => simp [setInsert]
  | cons x t ih =>
    simp only [setInsert]
    split
    · simp
    · split
      · rename_i h
        subst h
        simp
      · simp only [List.mem_cons, ih]
        tauto

@[simp] theorem mem_setErase (n m : Nat) (l : List Nat) : m ∈ setErase n l ↔ m ∈ l ∧ m ≠ n := by
  simp [setErase]

theorem length_listMod (f : α → α) (n : Nat) (l : List α) : (listMod f n l).length = l.length := by
  induction l generalizing n with
  | nil => cases n <;> rfl
  | cons a t ih => cases n <;> simp [listMod, ih]

/-- Changing the i-th element changes no other. -/
@[simp] theorem getElem?_listMod (f : α → α) (n : Nat) (l : List α) (i : Nat) :
    (listMod f n l)[i]? = if i = n then (l[i]?).map f else l[i]? := by
  induction l generalizing n i with
  | nil => cases n <;> simp [listMod]
  | cons a t ih =>
    cases n with
    | zero => cases i <;> simp [listMod]
    | succ n =>
      cases i with
      | zero => simp [listMod]
      | succ i => simp [listMod, ih]

/-! ## Counters -/

/-- Counting is exact below the limit and stays at the limit (R13). -/
theorem satAdd_toNat (w : Word) (n : Nat) : (satAdd w n).toNat = min (w.toNat + n) (2 ^ 64 - 1) := by
  have hm : (Word.max).toNat = 2 ^ 64 - 1 := by decide
  unfold satAdd
  split
  · rename_i h
    rw [hm] at h
    rw [BitVec.toNat_ofNat, Nat.mod_eq_of_lt (by omega)]
    omega
  · rename_i h
    rw [hm] at h ⊢
    omega

theorem satAdd_zero (w : Word) : satAdd w 0 = w := by
  apply BitVec.eq_of_toNat_eq
  rw [satAdd_toNat]
  have := w.isLt
  omega

end Sys2Proof.Laws
end

