-- ==== Sys2Proof/Laws/State.lean ====
section
/-! SUPPORT. One lemma per field per named update of the state, so that no proof unfolds a record update: what an update
leaves as it was, field by field and reader by reader; and what it writes. -/

namespace Sys2Proof.Laws

open Sys2Proof.Machine

variable (s : State)

/-! ### State.advanceTo -/

@[simp] theorem advanceTo_pending (n : Nat) : (s.advanceTo n).pending = s.pending := rfl
@[simp] theorem advanceTo_gen (n : Nat) : (s.advanceTo n).gen = s.gen := rfl
@[simp] theorem advanceTo_regs (n : Nat) : (s.advanceTo n).regs = s.regs := rfl
@[simp] theorem advanceTo_engines (n : Nat) : (s.advanceTo n).engines = s.engines := rfl
@[simp] theorem advanceTo_ports (n : Nat) : (s.advanceTo n).ports = s.ports := rfl
@[simp] theorem advanceTo_xcvr (n : Nat) : (s.advanceTo n).xcvr = s.xcvr := rfl
@[simp] theorem advanceTo_frames (n : Nat) : (s.advanceTo n).frames = s.frames := rfl
@[simp] theorem advanceTo_nextFrame (n : Nat) : (s.advanceTo n).nextFrame = s.nextFrame := rfl
@[simp] theorem advanceTo_watch (n : Nat) : (s.advanceTo n).watch = s.watch := rfl
@[simp] theorem advanceTo_scriv (n : Nat) : (s.advanceTo n).scriv = s.scriv := rfl
@[simp] theorem advanceTo_crier (n : Nat) : (s.advanceTo n).crier = s.crier := rfl
@[simp] theorem advanceTo_lock (n : Nat) : (s.advanceTo n).lock = s.lock := rfl
@[simp] theorem advanceTo_epA (n : Nat) : (s.advanceTo n).epA = s.epA := rfl
@[simp] theorem advanceTo_epB (n : Nat) : (s.advanceTo n).epB = s.epB := rfl
@[simp] theorem advanceTo_rings (n : Nat) : (s.advanceTo n).rings = s.rings := rfl
@[simp] theorem advanceTo_bell (n : Nat) : (s.advanceTo n).bell = s.bell := rfl
@[simp] theorem advanceTo_dray (n : Nat) : (s.advanceTo n).dray = s.dray := rfl
@[simp] theorem advanceTo_cellar (n : Nat) : (s.advanceTo n).cellar = s.cellar := rfl
@[simp] theorem advanceTo_stew (n : Nat) : (s.advanceTo n).stew = s.stew := rfl
@[simp] theorem advanceTo_tink (n : Nat) : (s.advanceTo n).tink = s.tink := rfl
@[simp] theorem advanceTo_sys (n : Nat) : (s.advanceTo n).sys = s.sys := rfl
@[simp] theorem advanceTo_free (n : Nat) : (s.advanceTo n).free = s.free := rfl
@[simp] theorem advanceTo_out (n : Nat) : (s.advanceTo n).out = s.out := rfl
@[simp] theorem advanceTo_time_offset (n : Nat) : (s.advanceTo n).time.offset = s.time.offset := rfl
@[simp] theorem advanceTo_time_prevOffset (n : Nat) : (s.advanceTo n).time.prevOffset = s.time.prevOffset := rfl
@[simp] theorem advanceTo_time_stepAt (n : Nat) : (s.advanceTo n).time.stepAt = s.time.stepAt := rfl
@[simp] theorem advanceTo_time_stepLast (n : Nat) : (s.advanceTo n).time.stepLast = s.time.stepLast := rfl
@[simp] theorem advanceTo_time_stepTai (n : Nat) : (s.advanceTo n).time.stepTai = s.time.stepTai := rfl
@[simp] theorem advanceTo_time_set (n : Nat) : (s.advanceTo n).time.set = s.time.set := rfl
@[simp] theorem advanceTo_time_ppsCapture (n : Nat) : (s.advanceTo n).time.ppsCapture = s.time.ppsCapture := rfl
@[simp] theorem advanceTo_time_ppsLast (n : Nat) : (s.advanceTo n).time.ppsLast = s.time.ppsLast := rfl
@[simp] theorem advanceTo_time_ppsRef (n : Nat) : (s.advanceTo n).time.ppsRef = s.time.ppsRef := rfl
@[simp] theorem advanceTo_time_ppsUsed (n : Nat) : (s.advanceTo n).time.ppsUsed = s.time.ppsUsed := rfl
@[simp] theorem advanceTo_time_ppsLost (n : Nat) : (s.advanceTo n).time.ppsLost = s.time.ppsLost := rfl
@[simp] theorem advanceTo_time_ppsBase (n : Nat) : (s.advanceTo n).time.ppsBase = s.time.ppsBase := rfl
@[simp] theorem advanceTo_time_requests (n : Nat) : (s.advanceTo n).time.requests = s.time.requests := rfl
@[simp] theorem advanceTo_reg_eq (n : Nat) (a' : Nat) : (s.advanceTo n).reg a' = s.reg a' := rfl
@[simp] theorem advanceTo_fld_eq (n : Nat) (a' b' c' : Nat) : (s.advanceTo n).fld a' b' c' = s.fld a' b' c' := rfl
@[simp] theorem advanceTo_flag_eq (n : Nat) (a' b' : Nat) : (s.advanceTo n).flag a' b' = s.flag a' b' := rfl
@[simp] theorem advanceTo_counter_eq (n : Nat) (a' : Nat) : (s.advanceTo n).counter a' = s.counter a' := rfl
@[simp] theorem advanceTo_engine_eq (n : Nat) (a' : Nat) : (s.advanceTo n).engine a' = s.engine a' := rfl
@[simp] theorem advanceTo_port_eq (n : Nat) (a' : Nat) : (s.advanceTo n).port a' = s.port a' := rfl
@[simp] theorem advanceTo_serving_eq (n : Nat) (a' : Nat) : (s.advanceTo n).serving a' = s.serving a' := rfl
@[simp] theorem advanceTo_ip_eq (n : Nat) (a' : Nat) : (s.advanceTo n).ip a' = s.ip a' := rfl
@[simp] theorem advanceTo_frameOpt_eq (n : Nat) (a' : Nat) : (s.advanceTo n).frame? a' = s.frame? a' := rfl
@[simp] theorem advanceTo_ep_eq (n : Nat) (d' : Ep) : (s.advanceTo n).ep d' = s.ep d' := rfl
@[simp] theorem advanceTo_usable_eq (n : Nat) (d' : Ep) : (s.advanceTo n).usable d' = s.usable d' := rfl
@[simp] theorem advanceTo_ring_eq (n : Nat) (d' : Ep) (a' : Nat) : (s.advanceTo n).ring d' a' = s.ring d' a' := rfl
@[simp] theorem advanceTo_src_eq (n : Nat) (a' : Nat) : (s.advanceTo n).src a' = s.src a' := rfl
@[simp] theorem advanceTo_watchOf_eq (n : Nat) (a' : Nat) : (s.advanceTo n).watchOf a' = s.watchOf a' := rfl
@[simp] theorem advanceTo_recOf_eq (n : Nat) (a' : Nat) : (s.advanceTo n).recOf a' = s.recOf a' := rfl
@[simp] theorem advanceTo_half_eq (n : Nat) (a' b' : Nat) : (s.advanceTo n).half a' b' = s.half a' b' := rfl
@[simp] theorem advanceTo_bank_eq (n : Nat) (c' : Bool) : (s.advanceTo n).bank c' = s.bank c' := rfl

/-! ### State.setReg -/

@[simp] theorem setReg_pending (o : Nat) (v : Word) : (s.setReg o v).pending = s.pending := rfl
@[simp] theorem setReg_gen (o : Nat) (v : Word) : (s.setReg o v).gen = s.gen := rfl
@[simp] theorem setReg_time (o : Nat) (v : Word) : (s.setReg o v).time = s.time := rfl
@[simp] theorem setReg_engines (o : Nat) (v : Word) : (s.setReg o v).engines = s.engines := rfl
@[simp] theorem setReg_ports (o : Nat) (v : Word) : (s.setReg o v).ports = s.ports := rfl
@[simp] theorem setReg_xcvr (o : Nat) (v : Word) : (s.setReg o v).xcvr = s.xcvr := rfl
@[simp] theorem setReg_frames (o : Nat) (v : Word) : (s.setReg o v).frames = s.frames := rfl
@[simp] theorem setReg_nextFrame (o : Nat) (v : Word) : (s.setReg o v).nextFrame = s.nextFrame := rfl
@[simp] theorem setReg_watch (o : Nat) (v : Word) : (s.setReg o v).watch = s.watch := rfl
@[simp] theorem setReg_scriv (o : Nat) (v : Word) : (s.setReg o v).scriv = s.scriv := rfl
@[simp] theorem setReg_crier (o : Nat) (v : Word) : (s.setReg o v).crier = s.crier := rfl
@[simp] theorem setReg_lock (o : Nat) (v : Word) : (s.setReg o v).lock = s.lock := rfl
@[simp] theorem setReg_epA (o : Nat) (v : Word) : (s.setReg o v).epA = s.epA := rfl
@[simp] theorem setReg_epB (o : Nat) (v : Word) : (s.setReg o v).epB = s.epB := rfl
@[simp] theorem setReg_rings (o : Nat) (v : Word) : (s.setReg o v).rings = s.rings := rfl
@[simp] theorem setReg_bell (o : Nat) (v : Word) : (s.setReg o v).bell = s.bell := rfl
@[simp] theorem setReg_dray (o : Nat) (v : Word) : (s.setReg o v).dray = s.dray := rfl
@[simp] theorem setReg_cellar (o : Nat) (v : Word) : (s.setReg o v).cellar = s.cellar := rfl
@[simp] theorem setReg_stew (o : Nat) (v : Word) : (s.setReg o v).stew = s.stew := rfl
@[simp] theorem setReg_tink (o : Nat) (v : Word) : (s.setReg o v).tink = s.tink := rfl
@[simp] theorem setReg_sys (o : Nat) (v : Word) : (s.setReg o v).sys = s.sys := rfl
@[simp] theorem setReg_free (o : Nat) (v : Word) : (s.setReg o v).free = s.free := rfl
@[simp] theorem setReg_out (o : Nat) (v : Word) : (s.setReg o v).out = s.out := rfl
@[simp] theorem setReg_regs_staged (o : Nat) (v : Word) : (s.setReg o v).regs.staged = s.regs.staged := rfl
@[simp] theorem setReg_regs_held (o : Nat) (v : Word) : (s.setReg o v).regs.held = s.regs.held := rfl
@[simp] theorem setReg_regs_counters (o : Nat) (v : Word) : (s.setReg o v).regs.counters = s.regs.counters := rfl
@[simp] theorem setReg_regs_holding (o : Nat) (v : Word) : (s.setReg o v).regs.holding = s.regs.holding := rfl
@[simp] theorem setReg_regs_visible (o : Nat) (v : Word) : (s.setReg o v).regs.visible = s.regs.visible := rfl
@[simp] theorem setReg_regs_unlockedA (o : Nat) (v : Word) : (s.setReg o v).regs.unlockedA = s.regs.unlockedA := rfl
@[simp] theorem setReg_regs_unlockedB (o : Nat) (v : Word) : (s.setReg o v).regs.unlockedB = s.regs.unlockedB := rfl
@[simp] theorem setReg_regs_unlockedM (o : Nat) (v : Word) : (s.setReg o v).regs.unlockedM = s.regs.unlockedM := rfl
@[simp] theorem setReg_regs_badInForce (o : Nat) (v : Word) : (s.setReg o v).regs.badInForce = s.regs.badInForce := rfl
@[simp] theorem setReg_regs_waiting (o : Nat) (v : Word) : (s.setReg o v).regs.waiting = s.regs.waiting := rfl
@[simp] theorem setReg_regs_upset (o : Nat) (v : Word) : (s.setReg o v).regs.upset = s.regs.upset := rfl
@[simp] theorem setReg_regs_reload (o : Nat) (v : Word) : (s.setReg o v).regs.reload = s.regs.reload := rfl
@[simp] theorem setReg_regs_parityInForce (o : Nat) (v : Word) : (s.setReg o v).regs.parityInForce = s.regs.parityInForce := rfl
@[simp] theorem setReg_regs_stagedLost (o : Nat) (v : Word) : (s.setReg o v).regs.stagedLost = s.regs.stagedLost := rfl
@[simp] theorem setReg_regs_parityAddr (o : Nat) (v : Word) : (s.setReg o v).regs.parityAddr = s.regs.parityAddr := rfl
@[simp] theorem setReg_regs_owner (o : Nat) (v : Word) : (s.setReg o v).regs.owner = s.regs.owner := rfl
@[simp] theorem setReg_regs_ownCause (o : Nat) (v : Word) : (s.setReg o v).regs.ownCause = s.regs.ownCause := rfl
@[simp] theorem setReg_regs_beatAt (o : Nat) (v : Word) : (s.setReg o v).regs.beatAt = s.regs.beatAt := rfl
@[simp] theorem setReg_tai_eq (o : Nat) (v : Word)  : (s.setReg o v).tai  = s.tai := rfl
@[simp] theorem setReg_counter_eq (o : Nat) (v : Word) (a' : Nat) : (s.setReg o v).counter a' = s.counter a' := rfl
@[simp] theorem setReg_engine_eq (o : Nat) (v : Word) (a' : Nat) : (s.setReg o v).engine a' = s.engine a' := rfl
@[simp] theorem setReg_port_eq (o : Nat) (v : Word) (a' : Nat) : (s.setReg o v).port a' = s.port a' := rfl
@[simp] theorem setReg_serving_eq (o : Nat) (v : Word) (a' : Nat) : (s.setReg o v).serving a' = s.serving a' := rfl
@[simp] theorem setReg_ip_eq (o : Nat) (v : Word) (a' : Nat) : (s.setReg o v).ip a' = s.ip a' := rfl
@[simp] theorem setReg_frameOpt_eq (o : Nat) (v : Word) (a' : Nat) : (s.setReg o v).frame? a' = s.frame? a' := rfl
@[simp] theorem setReg_ep_eq (o : Nat) (v : Word) (d' : Ep) : (s.setReg o v).ep d' = s.ep d' := rfl
@[simp] theorem setReg_usable_eq (o : Nat) (v : Word) (d' : Ep) : (s.setReg o v).usable d' = s.usable d' := rfl
@[simp] theorem setReg_ring_eq (o : Nat) (v : Word) (d' : Ep) (a' : Nat) : (s.setReg o v).ring d' a' = s.ring d' a' := rfl
@[simp] theorem setReg_src_eq (o : Nat) (v : Word) (a' : Nat) : (s.setReg o v).src a' = s.src a' := rfl
@[simp] theorem setReg_watchOf_eq (o : Nat) (v : Word) (a' : Nat) : (s.setReg o v).watchOf a' = s.watchOf a' := rfl
@[simp] theorem setReg_recOf_eq (o : Nat) (v : Word) (a' : Nat) : (s.setReg o v).recOf a' = s.recOf a' := rfl
@[simp] theorem setReg_half_eq (o : Nat) (v : Word) (a' b' : Nat) : (s.setReg o v).half a' b' = s.half a' b' := rfl
@[simp] theorem setReg_bank_eq (o : Nat) (v : Word) (c' : Bool) : (s.setReg o v).bank c' = s.bank c' := rfl

/-! ### State.setFld -/

@[simp] theorem setFld_pending (o lo len v : Nat) : (s.setFld o lo len v).pending = s.pending := rfl
@[simp] theorem setFld_gen (o lo len v : Nat) : (s.setFld o lo len v).gen = s.gen := rfl
@[simp] theorem setFld_time (o lo len v : Nat) : (s.setFld o lo len v).time = s.time := rfl
@[simp] theorem setFld_engines (o lo len v : Nat) : (s.setFld o lo len v).engines = s.engines := rfl
@[simp] theorem setFld_ports (o lo len v : Nat) : (s.setFld o lo len v).ports = s.ports := rfl
@[simp] theorem setFld_xcvr (o lo len v : Nat) : (s.setFld o lo len v).xcvr = s.xcvr := rfl
@[simp] theorem setFld_frames (o lo len v : Nat) : (s.setFld o lo len v).frames = s.frames := rfl
@[simp] theorem setFld_nextFrame (o lo len v : Nat) : (s.setFld o lo len v).nextFrame = s.nextFrame := rfl
@[simp] theorem setFld_watch (o lo len v : Nat) : (s.setFld o lo len v).watch = s.watch := rfl
@[simp] theorem setFld_scriv (o lo len v : Nat) : (s.setFld o lo len v).scriv = s.scriv := rfl
@[simp] theorem setFld_crier (o lo len v : Nat) : (s.setFld o lo len v).crier = s.crier := rfl
@[simp] theorem setFld_lock (o lo len v : Nat) : (s.setFld o lo len v).lock = s.lock := rfl
@[simp] theorem setFld_epA (o lo len v : Nat) : (s.setFld o lo len v).epA = s.epA := rfl
@[simp] theorem setFld_epB (o lo len v : Nat) : (s.setFld o lo len v).epB = s.epB := rfl
@[simp] theorem setFld_rings (o lo len v : Nat) : (s.setFld o lo len v).rings = s.rings := rfl
@[simp] theorem setFld_bell (o lo len v : Nat) : (s.setFld o lo len v).bell = s.bell := rfl
@[simp] theorem setFld_dray (o lo len v : Nat) : (s.setFld o lo len v).dray = s.dray := rfl
@[simp] theorem setFld_cellar (o lo len v : Nat) : (s.setFld o lo len v).cellar = s.cellar := rfl
@[simp] theorem setFld_stew (o lo len v : Nat) : (s.setFld o lo len v).stew = s.stew := rfl
@[simp] theorem setFld_tink (o lo len v : Nat) : (s.setFld o lo len v).tink = s.tink := rfl
@[simp] theorem setFld_sys (o lo len v : Nat) : (s.setFld o lo len v).sys = s.sys := rfl
@[simp] theorem setFld_free (o lo len v : Nat) : (s.setFld o lo len v).free = s.free := rfl
@[simp] theorem setFld_out (o lo len v : Nat) : (s.setFld o lo len v).out = s.out := rfl
@[simp] theorem setFld_regs_staged (o lo len v : Nat) : (s.setFld o lo len v).regs.staged = s.regs.staged := rfl
@[simp] theorem setFld_regs_held (o lo len v : Nat) : (s.setFld o lo len v).regs.held = s.regs.held := rfl
@[simp] theorem setFld_regs_counters (o lo len v : Nat) : (s.setFld o lo len v).regs.counters = s.regs.counters := rfl
@[simp] theorem setFld_regs_holding (o lo len v : Nat) : (s.setFld o lo len v).regs.holding = s.regs.holding := rfl
@[simp] theorem setFld_regs_visible (o lo len v : Nat) : (s.setFld o lo len v).regs.visible = s.regs.visible := rfl
@[simp] theorem setFld_regs_unlockedA (o lo len v : Nat) : (s.setFld o lo len v).regs.unlockedA = s.regs.unlockedA := rfl
@[simp] theorem setFld_regs_unlockedB (o lo len v : Nat) : (s.setFld o lo len v).regs.unlockedB = s.regs.unlockedB := rfl
@[simp] theorem setFld_regs_unlockedM (o lo len v : Nat) : (s.setFld o lo len v).regs.unlockedM = s.regs.unlockedM := rfl
@[simp] theorem setFld_regs_badInForce (o lo len v : Nat) : (s.setFld o lo len v).regs.badInForce = s.regs.badInForce := rfl
@[simp] theorem setFld_regs_waiting (o lo len v : Nat) : (s.setFld o lo len v).regs.waiting = s.regs.waiting := rfl
@[simp] theorem setFld_regs_upset (o lo len v : Nat) : (s.setFld o lo len v).regs.upset = s.regs.upset := rfl
@[simp] theorem setFld_regs_reload (o lo len v : Nat) : (s.setFld o lo len v).regs.reload = s.regs.reload := rfl
@[simp] theorem setFld_regs_parityInForce (o lo len v : Nat) : (s.setFld o lo len v).regs.parityInForce = s.regs.parityInForce := rfl
@[simp] theorem setFld_regs_stagedLost (o lo len v : Nat) : (s.setFld o lo len v).regs.stagedLost = s.regs.stagedLost := rfl
@[simp] theorem setFld_regs_parityAddr (o lo len v : Nat) : (s.setFld o lo len v).regs.parityAddr = s.regs.parityAddr := rfl
@[simp] theorem setFld_regs_owner (o lo len v : Nat) : (s.setFld o lo len v).regs.owner = s.regs.owner := rfl
@[simp] theorem setFld_regs_ownCause (o lo len v : Nat) : (s.setFld o lo len v).regs.ownCause = s.regs.ownCause := rfl
@[simp] theorem setFld_regs_beatAt (o lo len v : Nat) : (s.setFld o lo len v).regs.beatAt = s.regs.beatAt := rfl
@[simp] theorem setFld_tai_eq (o lo len v : Nat)  : (s.setFld o lo len v).tai  = s.tai := rfl
@[simp] theorem setFld_counter_eq (o lo len v : Nat) (a' : Nat) : (s.setFld o lo len v).counter a' = s.counter a' := rfl
@[simp] theorem setFld_engine_eq (o lo len v : Nat) (a' : Nat) : (s.setFld o lo len v).engine a' = s.engine a' := rfl
@[simp] theorem setFld_port_eq (o lo len v : Nat) (a' : Nat) : (s.setFld o lo len v).port a' = s.port a' := rfl
@[simp] theorem setFld_serving_eq (o lo len v : Nat) (a' : Nat) : (s.setFld o lo len v).serving a' = s.serving a' := rfl
@[simp] theorem setFld_ip_eq (o lo len v : Nat) (a' : Nat) : (s.setFld o lo len v).ip a' = s.ip a' := rfl
@[simp] theorem setFld_frameOpt_eq (o lo len v : Nat) (a' : Nat) : (s.setFld o lo len v).frame? a' = s.frame? a' := rfl
@[simp] theorem setFld_ep_eq (o lo len v : Nat) (d' : Ep) : (s.setFld o lo len v).ep d' = s.ep d' := rfl
@[simp] theorem setFld_usable_eq (o lo len v : Nat) (d' : Ep) : (s.setFld o lo len v).usable d' = s.usable d' := rfl
@[simp] theorem setFld_ring_eq (o lo len v : Nat) (d' : Ep) (a' : Nat) : (s.setFld o lo len v).ring d' a' = s.ring d' a' := rfl
@[simp] theorem setFld_src_eq (o lo len v : Nat) (a' : Nat) : (s.setFld o lo len v).src a' = s.src a' := rfl
@[simp] theorem setFld_watchOf_eq (o lo len v : Nat) (a' : Nat) : (s.setFld o lo len v).watchOf a' = s.watchOf a' := rfl
@[simp] theorem setFld_recOf_eq (o lo len v : Nat) (a' : Nat) : (s.setFld o lo len v).recOf a' = s.recOf a' := rfl
@[simp] theorem setFld_half_eq (o lo len v : Nat) (a' b' : Nat) : (s.setFld o lo len v).half a' b' = s.half a' b' := rfl
@[simp] theorem setFld_bank_eq (o lo len v : Nat) (c' : Bool) : (s.setFld o lo len v).bank c' = s.bank c' := rfl

/-! ### State.countN -/

@[simp] theorem countN_pending (o n : Nat) : (s.countN o n).pending = s.pending := rfl
@[simp] theorem countN_gen (o n : Nat) : (s.countN o n).gen = s.gen := rfl
@[simp] theorem countN_time (o n : Nat) : (s.countN o n).time = s.time := rfl
@[simp] theorem countN_engines (o n : Nat) : (s.countN o n).engines = s.engines := rfl
@[simp] theorem countN_ports (o n : Nat) : (s.countN o n).ports = s.ports := rfl
@[simp] theorem countN_xcvr (o n : Nat) : (s.countN o n).xcvr = s.xcvr := rfl
@[simp] theorem countN_frames (o n : Nat) : (s.countN o n).frames = s.frames := rfl
@[simp] theorem countN_nextFrame (o n : Nat) : (s.countN o n).nextFrame = s.nextFrame := rfl
@[simp] theorem countN_watch (o n : Nat) : (s.countN o n).watch = s.watch := rfl
@[simp] theorem countN_scriv (o n : Nat) : (s.countN o n).scriv = s.scriv := rfl
@[simp] theorem countN_crier (o n : Nat) : (s.countN o n).crier = s.crier := rfl
@[simp] theorem countN_lock (o n : Nat) : (s.countN o n).lock = s.lock := rfl
@[simp] theorem countN_epA (o n : Nat) : (s.countN o n).epA = s.epA := rfl
@[simp] theorem countN_epB (o n : Nat) : (s.countN o n).epB = s.epB := rfl
@[simp] theorem countN_rings (o n : Nat) : (s.countN o n).rings = s.rings := rfl
@[simp] theorem countN_bell (o n : Nat) : (s.countN o n).bell = s.bell := rfl
@[simp] theorem countN_dray (o n : Nat) : (s.countN o n).dray = s.dray := rfl
@[simp] theorem countN_cellar (o n : Nat) : (s.countN o n).cellar = s.cellar := rfl
@[simp] theorem countN_stew (o n : Nat) : (s.countN o n).stew = s.stew := rfl
@[simp] theorem countN_tink (o n : Nat) : (s.countN o n).tink = s.tink := rfl
@[simp] theorem countN_sys (o n : Nat) : (s.countN o n).sys = s.sys := rfl
@[simp] theorem countN_free (o n : Nat) : (s.countN o n).free = s.free := rfl
@[simp] theorem countN_out (o n : Nat) : (s.countN o n).out = s.out := rfl
@[simp] theorem countN_regs_inForce (o n : Nat) : (s.countN o n).regs.inForce = s.regs.inForce := rfl
@[simp] theorem countN_regs_staged (o n : Nat) : (s.countN o n).regs.staged = s.regs.staged := rfl
@[simp] theorem countN_regs_held (o n : Nat) : (s.countN o n).regs.held = s.regs.held := rfl
@[simp] theorem countN_regs_holding (o n : Nat) : (s.countN o n).regs.holding = s.regs.holding := rfl
@[simp] theorem countN_regs_visible (o n : Nat) : (s.countN o n).regs.visible = s.regs.visible := rfl
@[simp] theorem countN_regs_unlockedA (o n : Nat) : (s.countN o n).regs.unlockedA = s.regs.unlockedA := rfl
@[simp] theorem countN_regs_unlockedB (o n : Nat) : (s.countN o n).regs.unlockedB = s.regs.unlockedB := rfl
@[simp] theorem countN_regs_unlockedM (o n : Nat) : (s.countN o n).regs.unlockedM = s.regs.unlockedM := rfl
@[simp] theorem countN_regs_badInForce (o n : Nat) : (s.countN o n).regs.badInForce = s.regs.badInForce := rfl
@[simp] theorem countN_regs_waiting (o n : Nat) : (s.countN o n).regs.waiting = s.regs.waiting := rfl
@[simp] theorem countN_regs_upset (o n : Nat) : (s.countN o n).regs.upset = s.regs.upset := rfl
@[simp] theorem countN_regs_reload (o n : Nat) : (s.countN o n).regs.reload = s.regs.reload := rfl
@[simp] theorem countN_regs_parityInForce (o n : Nat) : (s.countN o n).regs.parityInForce = s.regs.parityInForce := rfl
@[simp] theorem countN_regs_stagedLost (o n : Nat) : (s.countN o n).regs.stagedLost = s.regs.stagedLost := rfl
@[simp] theorem countN_regs_parityAddr (o n : Nat) : (s.countN o n).regs.parityAddr = s.regs.parityAddr := rfl
@[simp] theorem countN_regs_owner (o n : Nat) : (s.countN o n).regs.owner = s.regs.owner := rfl
@[simp] theorem countN_regs_ownCause (o n : Nat) : (s.countN o n).regs.ownCause = s.regs.ownCause := rfl
@[simp] theorem countN_regs_beatAt (o n : Nat) : (s.countN o n).regs.beatAt = s.regs.beatAt := rfl
@[simp] theorem countN_tai_eq (o n : Nat)  : (s.countN o n).tai  = s.tai := rfl
@[simp] theorem countN_reg_eq (o n : Nat) (a' : Nat) : (s.countN o n).reg a' = s.reg a' := rfl
@[simp] theorem countN_fld_eq (o n : Nat) (a' b' c' : Nat) : (s.countN o n).fld a' b' c' = s.fld a' b' c' := rfl
@[simp] theorem countN_flag_eq (o n : Nat) (a' b' : Nat) : (s.countN o n).flag a' b' = s.flag a' b' := rfl
@[simp] theorem countN_engine_eq (o n : Nat) (a' : Nat) : (s.countN o n).engine a' = s.engine a' := rfl
@[simp] theorem countN_port_eq (o n : Nat) (a' : Nat) : (s.countN o n).port a' = s.port a' := rfl
@[simp] theorem countN_serving_eq (o n : Nat) (a' : Nat) : (s.countN o n).serving a' = s.serving a' := rfl
@[simp] theorem countN_ip_eq (o n : Nat) (a' : Nat) : (s.countN o n).ip a' = s.ip a' := rfl
@[simp] theorem countN_frameOpt_eq (o n : Nat) (a' : Nat) : (s.countN o n).frame? a' = s.frame? a' := rfl
@[simp] theorem countN_ep_eq (o n : Nat) (d' : Ep) : (s.countN o n).ep d' = s.ep d' := rfl
@[simp] theorem countN_usable_eq (o n : Nat) (d' : Ep) : (s.countN o n).usable d' = s.usable d' := rfl
@[simp] theorem countN_ring_eq (o n : Nat) (d' : Ep) (a' : Nat) : (s.countN o n).ring d' a' = s.ring d' a' := rfl
@[simp] theorem countN_src_eq (o n : Nat) (a' : Nat) : (s.countN o n).src a' = s.src a' := rfl
@[simp] theorem countN_watchOf_eq (o n : Nat) (a' : Nat) : (s.countN o n).watchOf a' = s.watchOf a' := rfl
@[simp] theorem countN_recOf_eq (o n : Nat) (a' : Nat) : (s.countN o n).recOf a' = s.recOf a' := rfl
@[simp] theorem countN_half_eq (o n : Nat) (a' b' : Nat) : (s.countN o n).half a' b' = s.half a' b' := rfl
@[simp] theorem countN_bank_eq (o n : Nat) (c' : Bool) : (s.countN o n).bank c' = s.bank c' := rfl

/-! ### State.count -/

@[simp] theorem count_pending (o : Nat) : (s.count o).pending = s.pending := rfl
@[simp] theorem count_gen (o : Nat) : (s.count o).gen = s.gen := rfl
@[simp] theorem count_time (o : Nat) : (s.count o).time = s.time := rfl
@[simp] theorem count_engines (o : Nat) : (s.count o).engines = s.engines := rfl
@[simp] theorem count_ports (o : Nat) : (s.count o).ports = s.ports := rfl
@[simp] theorem count_xcvr (o : Nat) : (s.count o).xcvr = s.xcvr := rfl
@[simp] theorem count_frames (o : Nat) : (s.count o).frames = s.frames := rfl
@[simp] theorem count_nextFrame (o : Nat) : (s.count o).nextFrame = s.nextFrame := rfl
@[simp] theorem count_watch (o : Nat) : (s.count o).watch = s.watch := rfl
@[simp] theorem count_scriv (o : Nat) : (s.count o).scriv = s.scriv := rfl
@[simp] theorem count_crier (o : Nat) : (s.count o).crier = s.crier := rfl
@[simp] theorem count_lock (o : Nat) : (s.count o).lock = s.lock := rfl
@[simp] theorem count_epA (o : Nat) : (s.count o).epA = s.epA := rfl
@[simp] theorem count_epB (o : Nat) : (s.count o).epB = s.epB := rfl
@[simp] theorem count_rings (o : Nat) : (s.count o).rings = s.rings := rfl
@[simp] theorem count_bell (o : Nat) : (s.count o).bell = s.bell := rfl
@[simp] theorem count_dray (o : Nat) : (s.count o).dray = s.dray := rfl
@[simp] theorem count_cellar (o : Nat) : (s.count o).cellar = s.cellar := rfl
@[simp] theorem count_stew (o : Nat) : (s.count o).stew = s.stew := rfl
@[simp] theorem count_tink (o : Nat) : (s.count o).tink = s.tink := rfl
@[simp] theorem count_sys (o : Nat) : (s.count o).sys = s.sys := rfl
@[simp] theorem count_free (o : Nat) : (s.count o).free = s.free := rfl
@[simp] theorem count_out (o : Nat) : (s.count o).out = s.out := rfl
@[simp] theorem count_regs_inForce (o : Nat) : (s.count o).regs.inForce = s.regs.inForce := rfl
@[simp] theorem count_regs_staged (o : Nat) : (s.count o).regs.staged = s.regs.staged := rfl
@[simp] theorem count_regs_held (o : Nat) : (s.count o).regs.held = s.regs.held := rfl
@[simp] theorem count_regs_holding (o : Nat) : (s.count o).regs.holding = s.regs.holding := rfl
@[simp] theorem count_regs_visible (o : Nat) : (s.count o).regs.visible = s.regs.visible := rfl
@[simp] theorem count_regs_unlockedA (o : Nat) : (s.count o).regs.unlockedA = s.regs.unlockedA := rfl
@[simp] theorem count_regs_unlockedB (o : Nat) : (s.count o).regs.unlockedB = s.regs.unlockedB := rfl
@[simp] theorem count_regs_unlockedM (o : Nat) : (s.count o).regs.unlockedM = s.regs.unlockedM := rfl
@[simp] theorem count_regs_badInForce (o : Nat) : (s.count o).regs.badInForce = s.regs.badInForce := rfl
@[simp] theorem count_regs_waiting (o : Nat) : (s.count o).regs.waiting = s.regs.waiting := rfl
@[simp] theorem count_regs_upset (o : Nat) : (s.count o).regs.upset = s.regs.upset := rfl
@[simp] theorem count_regs_reload (o : Nat) : (s.count o).regs.reload = s.regs.reload := rfl
@[simp] theorem count_regs_parityInForce (o : Nat) : (s.count o).regs.parityInForce = s.regs.parityInForce := rfl
@[simp] theorem count_regs_stagedLost (o : Nat) : (s.count o).regs.stagedLost = s.regs.stagedLost := rfl
@[simp] theorem count_regs_parityAddr (o : Nat) : (s.count o).regs.parityAddr = s.regs.parityAddr := rfl
@[simp] theorem count_regs_owner (o : Nat) : (s.count o).regs.owner = s.regs.owner := rfl
@[simp] theorem count_regs_ownCause (o : Nat) : (s.count o).regs.ownCause = s.regs.ownCause := rfl
@[simp] theorem count_regs_beatAt (o : Nat) : (s.count o).regs.beatAt = s.regs.beatAt := rfl
@[simp] theorem count_tai_eq (o : Nat)  : (s.count o).tai  = s.tai := rfl
@[simp] theorem count_reg_eq (o : Nat) (a' : Nat) : (s.count o).reg a' = s.reg a' := rfl
@[simp] theorem count_fld_eq (o : Nat) (a' b' c' : Nat) : (s.count o).fld a' b' c' = s.fld a' b' c' := rfl
@[simp] theorem count_flag_eq (o : Nat) (a' b' : Nat) : (s.count o).flag a' b' = s.flag a' b' := rfl
@[simp] theorem count_engine_eq (o : Nat) (a' : Nat) : (s.count o).engine a' = s.engine a' := rfl
@[simp] theorem count_port_eq (o : Nat) (a' : Nat) : (s.count o).port a' = s.port a' := rfl
@[simp] theorem count_serving_eq (o : Nat) (a' : Nat) : (s.count o).serving a' = s.serving a' := rfl
@[simp] theorem count_ip_eq (o : Nat) (a' : Nat) : (s.count o).ip a' = s.ip a' := rfl
@[simp] theorem count_frameOpt_eq (o : Nat) (a' : Nat) : (s.count o).frame? a' = s.frame? a' := rfl
@[simp] theorem count_ep_eq (o : Nat) (d' : Ep) : (s.count o).ep d' = s.ep d' := rfl
@[simp] theorem count_usable_eq (o : Nat) (d' : Ep) : (s.count o).usable d' = s.usable d' := rfl
@[simp] theorem count_ring_eq (o : Nat) (d' : Ep) (a' : Nat) : (s.count o).ring d' a' = s.ring d' a' := rfl
@[simp] theorem count_src_eq (o : Nat) (a' : Nat) : (s.count o).src a' = s.src a' := rfl
@[simp] theorem count_watchOf_eq (o : Nat) (a' : Nat) : (s.count o).watchOf a' = s.watchOf a' := rfl
@[simp] theorem count_recOf_eq (o : Nat) (a' : Nat) : (s.count o).recOf a' = s.recOf a' := rfl
@[simp] theorem count_half_eq (o : Nat) (a' b' : Nat) : (s.count o).half a' b' = s.half a' b' := rfl
@[simp] theorem count_bank_eq (o : Nat) (c' : Bool) : (s.count o).bank c' = s.bank c' := rfl

/-! ### State.setEngine -/

@[simp] theorem setEngine_pending (n : Nat) (x : Engine) : (s.setEngine n x).pending = s.pending := rfl
@[simp] theorem setEngine_gen (n : Nat) (x : Engine) : (s.setEngine n x).gen = s.gen := rfl
@[simp] theorem setEngine_time (n : Nat) (x : Engine) : (s.setEngine n x).time = s.time := rfl
@[simp] theorem setEngine_regs (n : Nat) (x : Engine) : (s.setEngine n x).regs = s.regs := rfl
@[simp] theorem setEngine_ports (n : Nat) (x : Engine) : (s.setEngine n x).ports = s.ports := rfl
@[simp] theorem setEngine_xcvr (n : Nat) (x : Engine) : (s.setEngine n x).xcvr = s.xcvr := rfl
@[simp] theorem setEngine_frames (n : Nat) (x : Engine) : (s.setEngine n x).frames = s.frames := rfl
@[simp] theorem setEngine_nextFrame (n : Nat) (x : Engine) : (s.setEngine n x).nextFrame = s.nextFrame := rfl
@[simp] theorem setEngine_watch (n : Nat) (x : Engine) : (s.setEngine n x).watch = s.watch := rfl
@[simp] theorem setEngine_scriv (n : Nat) (x : Engine) : (s.setEngine n x).scriv = s.scriv := rfl
@[simp] theorem setEngine_crier (n : Nat) (x : Engine) : (s.setEngine n x).crier = s.crier := rfl
@[simp] theorem setEngine_lock (n : Nat) (x : Engine) : (s.setEngine n x).lock = s.lock := rfl
@[simp] theorem setEngine_epA (n : Nat) (x : Engine) : (s.setEngine n x).epA = s.epA := rfl
@[simp] theorem setEngine_epB (n : Nat) (x : Engine) : (s.setEngine n x).epB = s.epB := rfl
@[simp] theorem setEngine_rings (n : Nat) (x : Engine) : (s.setEngine n x).rings = s.rings := rfl
@[simp] theorem setEngine_bell (n : Nat) (x : Engine) : (s.setEngine n x).bell = s.bell := rfl
@[simp] theorem setEngine_dray (n : Nat) (x : Engine) : (s.setEngine n x).dray = s.dray := rfl
@[simp] theorem setEngine_cellar (n : Nat) (x : Engine) : (s.setEngine n x).cellar = s.cellar := rfl
@[simp] theorem setEngine_stew (n : Nat) (x : Engine) : (s.setEngine n x).stew = s.stew := rfl
@[simp] theorem setEngine_tink (n : Nat) (x : Engine) : (s.setEngine n x).tink = s.tink := rfl
@[simp] theorem setEngine_sys (n : Nat) (x : Engine) : (s.setEngine n x).sys = s.sys := rfl
@[simp] theorem setEngine_free (n : Nat) (x : Engine) : (s.setEngine n x).free = s.free := rfl
@[simp] theorem setEngine_out (n : Nat) (x : Engine) : (s.setEngine n x).out = s.out := rfl
@[simp] theorem setEngine_tai_eq (n : Nat) (x : Engine)  : (s.setEngine n x).tai  = s.tai := rfl
@[simp] theorem setEngine_reg_eq (n : Nat) (x : Engine) (a' : Nat) : (s.setEngine n x).reg a' = s.reg a' := rfl
@[simp] theorem setEngine_fld_eq (n : Nat) (x : Engine) (a' b' c' : Nat) : (s.setEngine n x).fld a' b' c' = s.fld a' b' c' := rfl
@[simp] theorem setEngine_flag_eq (n : Nat) (x : Engine) (a' b' : Nat) : (s.setEngine n x).flag a' b' = s.flag a' b' := rfl
@[simp] theorem setEngine_counter_eq (n : Nat) (x : Engine) (a' : Nat) : (s.setEngine n x).counter a' = s.counter a' := rfl
@[simp] theorem setEngine_port_eq (n : Nat) (x : Engine) (a' : Nat) : (s.setEngine n x).port a' = s.port a' := rfl
@[simp] theorem setEngine_serving_eq (n : Nat) (x : Engine) (a' : Nat) : (s.setEngine n x).serving a' = s.serving a' := rfl
@[simp] theorem setEngine_ip_eq (n : Nat) (x : Engine) (a' : Nat) : (s.setEngine n x).ip a' = s.ip a' := rfl
@[simp] theorem setEngine_frameOpt_eq (n : Nat) (x : Engine) (a' : Nat) : (s.setEngine n x).frame? a' = s.frame? a' := rfl
@[simp] theorem setEngine_ep_eq (n : Nat) (x : Engine) (d' : Ep) : (s.setEngine n x).ep d' = s.ep d' := rfl
@[simp] theorem setEngine_usable_eq (n : Nat) (x : Engine) (d' : Ep) : (s.setEngine n x).usable d' = s.usable d' := rfl
@[simp] theorem setEngine_ring_eq (n : Nat) (x : Engine) (d' : Ep) (a' : Nat) : (s.setEngine n x).ring d' a' = s.ring d' a' := rfl
@[simp] theorem setEngine_src_eq (n : Nat) (x : Engine) (a' : Nat) : (s.setEngine n x).src a' = s.src a' := rfl
@[simp] theorem setEngine_watchOf_eq (n : Nat) (x : Engine) (a' : Nat) : (s.setEngine n x).watchOf a' = s.watchOf a' := rfl
@[simp] theorem setEngine_recOf_eq (n : Nat) (x : Engine) (a' : Nat) : (s.setEngine n x).recOf a' = s.recOf a' := rfl
@[simp] theorem setEngine_half_eq (n : Nat) (x : Engine) (a' b' : Nat) : (s.setEngine n x).half a' b' = s.half a' b' := rfl
@[simp] theorem setEngine_bank_eq (n : Nat) (x : Engine) (c' : Bool) : (s.setEngine n x).bank c' = s.bank c' := rfl

/-! ### State.modEngine -/

@[simp] theorem modEngine_pending (n : Nat) (f : Engine → Engine) : (s.modEngine n f).pending = s.pending := rfl
@[simp] theorem modEngine_gen (n : Nat) (f : Engine → Engine) : (s.modEngine n f).gen = s.gen := rfl
@[simp] theorem modEngine_time (n : Nat) (f : Engine → Engine) : (s.modEngine n f).time = s.time := rfl
@[simp] theorem modEngine_regs (n : Nat) (f : Engine → Engine) : (s.modEngine n f).regs = s.regs := rfl
@[simp] theorem modEngine_ports (n : Nat) (f : Engine → Engine) : (s.modEngine n f).ports = s.ports := rfl
@[simp] theorem modEngine_xcvr (n : Nat) (f : Engine → Engine) : (s.modEngine n f).xcvr = s.xcvr := rfl
@[simp] theorem modEngine_frames (n : Nat) (f : Engine → Engine) : (s.modEngine n f).frames = s.frames := rfl
@[simp] theorem modEngine_nextFrame (n : Nat) (f : Engine → Engine) : (s.modEngine n f).nextFrame = s.nextFrame := rfl
@[simp] theorem modEngine_watch (n : Nat) (f : Engine → Engine) : (s.modEngine n f).watch = s.watch := rfl
@[simp] theorem modEngine_scriv (n : Nat) (f : Engine → Engine) : (s.modEngine n f).scriv = s.scriv := rfl
@[simp] theorem modEngine_crier (n : Nat) (f : Engine → Engine) : (s.modEngine n f).crier = s.crier := rfl
@[simp] theorem modEngine_lock (n : Nat) (f : Engine → Engine) : (s.modEngine n f).lock = s.lock := rfl
@[simp] theorem modEngine_epA (n : Nat) (f : Engine → Engine) : (s.modEngine n f).epA = s.epA := rfl
@[simp] theorem modEngine_epB (n : Nat) (f : Engine → Engine) : (s.modEngine n f).epB = s.epB := rfl
@[simp] theorem modEngine_rings (n : Nat) (f : Engine → Engine) : (s.modEngine n f).rings = s.rings := rfl
@[simp] theorem modEngine_bell (n : Nat) (f : Engine → Engine) : (s.modEngine n f).bell = s.bell := rfl
@[simp] theorem modEngine_dray (n : Nat) (f : Engine → Engine) : (s.modEngine n f).dray = s.dray := rfl
@[simp] theorem modEngine_cellar (n : Nat) (f : Engine → Engine) : (s.modEngine n f).cellar = s.cellar := rfl
@[simp] theorem modEngine_stew (n : Nat) (f : Engine → Engine) : (s.modEngine n f).stew = s.stew := rfl
@[simp] theorem modEngine_tink (n : Nat) (f : Engine → Engine) : (s.modEngine n f).tink = s.tink := rfl
@[simp] theorem modEngine_sys (n : Nat) (f : Engine → Engine) : (s.modEngine n f).sys = s.sys := rfl
@[simp] theorem modEngine_free (n : Nat) (f : Engine → Engine) : (s.modEngine n f).free = s.free := rfl
@[simp] theorem modEngine_out (n : Nat) (f : Engine → Engine) : (s.modEngine n f).out = s.out := rfl
@[simp] theorem modEngine_tai_eq (n : Nat) (f : Engine → Engine)  : (s.modEngine n f).tai  = s.tai := rfl
@[simp] theorem modEngine_reg_eq (n : Nat) (f : Engine → Engine) (a' : Nat) : (s.modEngine n f).reg a' = s.reg a' := rfl
@[simp] theorem modEngine_fld_eq (n : Nat) (f : Engine → Engine) (a' b' c' : Nat) : (s.modEngine n f).fld a' b' c' = s.fld a' b' c' := rfl
@[simp] theorem modEngine_flag_eq (n : Nat) (f : Engine → Engine) (a' b' : Nat) : (s.modEngine n f).flag a' b' = s.flag a' b' := rfl
@[simp] theorem modEngine_counter_eq (n : Nat) (f : Engine → Engine) (a' : Nat) : (s.modEngine n f).counter a' = s.counter a' := rfl
@[simp] theorem modEngine_port_eq (n : Nat) (f : Engine → Engine) (a' : Nat) : (s.modEngine n f).port a' = s.port a' := rfl
@[simp] theorem modEngine_serving_eq (n : Nat) (f : Engine → Engine) (a' : Nat) : (s.modEngine n f).serving a' = s.serving a' := rfl
@[simp] theorem modEngine_ip_eq (n : Nat) (f : Engine → Engine) (a' : Nat) : (s.modEngine n f).ip a' = s.ip a' := rfl
@[simp] theorem modEngine_frameOpt_eq (n : Nat) (f : Engine → Engine) (a' : Nat) : (s.modEngine n f).frame? a' = s.frame? a' := rfl
@[simp] theorem modEngine_ep_eq (n : Nat) (f : Engine → Engine) (d' : Ep) : (s.modEngine n f).ep d' = s.ep d' := rfl
@[simp] theorem modEngine_usable_eq (n : Nat) (f : Engine → Engine) (d' : Ep) : (s.modEngine n f).usable d' = s.usable d' := rfl
@[simp] theorem modEngine_ring_eq (n : Nat) (f : Engine → Engine) (d' : Ep) (a' : Nat) : (s.modEngine n f).ring d' a' = s.ring d' a' := rfl
@[simp] theorem modEngine_src_eq (n : Nat) (f : Engine → Engine) (a' : Nat) : (s.modEngine n f).src a' = s.src a' := rfl
@[simp] theorem modEngine_watchOf_eq (n : Nat) (f : Engine → Engine) (a' : Nat) : (s.modEngine n f).watchOf a' = s.watchOf a' := rfl
@[simp] theorem modEngine_recOf_eq (n : Nat) (f : Engine → Engine) (a' : Nat) : (s.modEngine n f).recOf a' = s.recOf a' := rfl
@[simp] theorem modEngine_half_eq (n : Nat) (f : Engine → Engine) (a' b' : Nat) : (s.modEngine n f).half a' b' = s.half a' b' := rfl
@[simp] theorem modEngine_bank_eq (n : Nat) (f : Engine → Engine) (c' : Bool) : (s.modEngine n f).bank c' = s.bank c' := rfl

/-! ### State.setPort -/

@[simp] theorem setPort_pending (n : Nat) (x : Port) : (s.setPort n x).pending = s.pending := rfl
@[simp] theorem setPort_gen (n : Nat) (x : Port) : (s.setPort n x).gen = s.gen := rfl
@[simp] theorem setPort_time (n : Nat) (x : Port) : (s.setPort n x).time = s.time := rfl
@[simp] theorem setPort_regs (n : Nat) (x : Port) : (s.setPort n x).regs = s.regs := rfl
@[simp] theorem setPort_engines (n : Nat) (x : Port) : (s.setPort n x).engines = s.engines := rfl
@[simp] theorem setPort_xcvr (n : Nat) (x : Port) : (s.setPort n x).xcvr = s.xcvr := rfl
@[simp] theorem setPort_frames (n : Nat) (x : Port) : (s.setPort n x).frames = s.frames := rfl
@[simp] theorem setPort_nextFrame (n : Nat) (x : Port) : (s.setPort n x).nextFrame = s.nextFrame := rfl
@[simp] theorem setPort_watch (n : Nat) (x : Port) : (s.setPort n x).watch = s.watch := rfl
@[simp] theorem setPort_scriv (n : Nat) (x : Port) : (s.setPort n x).scriv = s.scriv := rfl
@[simp] theorem setPort_crier (n : Nat) (x : Port) : (s.setPort n x).crier = s.crier := rfl
@[simp] theorem setPort_lock (n : Nat) (x : Port) : (s.setPort n x).lock = s.lock := rfl
@[simp] theorem setPort_epA (n : Nat) (x : Port) : (s.setPort n x).epA = s.epA := rfl
@[simp] theorem setPort_epB (n : Nat) (x : Port) : (s.setPort n x).epB = s.epB := rfl
@[simp] theorem setPort_rings (n : Nat) (x : Port) : (s.setPort n x).rings = s.rings := rfl
@[simp] theorem setPort_bell (n : Nat) (x : Port) : (s.setPort n x).bell = s.bell := rfl
@[simp] theorem setPort_dray (n : Nat) (x : Port) : (s.setPort n x).dray = s.dray := rfl
@[simp] theorem setPort_cellar (n : Nat) (x : Port) : (s.setPort n x).cellar = s.cellar := rfl
@[simp] theorem setPort_stew (n : Nat) (x : Port) : (s.setPort n x).stew = s.stew := rfl
@[simp] theorem setPort_tink (n : Nat) (x : Port) : (s.setPort n x).tink = s.tink := rfl
@[simp] theorem setPort_sys (n : Nat) (x : Port) : (s.setPort n x).sys = s.sys := rfl
@[simp] theorem setPort_free (n : Nat) (x : Port) : (s.setPort n x).free = s.free := rfl
@[simp] theorem setPort_out (n : Nat) (x : Port) : (s.setPort n x).out = s.out := rfl
@[simp] theorem setPort_tai_eq (n : Nat) (x : Port)  : (s.setPort n x).tai  = s.tai := rfl
@[simp] theorem setPort_reg_eq (n : Nat) (x : Port) (a' : Nat) : (s.setPort n x).reg a' = s.reg a' := rfl
@[simp] theorem setPort_fld_eq (n : Nat) (x : Port) (a' b' c' : Nat) : (s.setPort n x).fld a' b' c' = s.fld a' b' c' := rfl
@[simp] theorem setPort_flag_eq (n : Nat) (x : Port) (a' b' : Nat) : (s.setPort n x).flag a' b' = s.flag a' b' := rfl
@[simp] theorem setPort_counter_eq (n : Nat) (x : Port) (a' : Nat) : (s.setPort n x).counter a' = s.counter a' := rfl
@[simp] theorem setPort_engine_eq (n : Nat) (x : Port) (a' : Nat) : (s.setPort n x).engine a' = s.engine a' := rfl
@[simp] theorem setPort_ip_eq (n : Nat) (x : Port) (a' : Nat) : (s.setPort n x).ip a' = s.ip a' := rfl
@[simp] theorem setPort_frameOpt_eq (n : Nat) (x : Port) (a' : Nat) : (s.setPort n x).frame? a' = s.frame? a' := rfl
@[simp] theorem setPort_ep_eq (n : Nat) (x : Port) (d' : Ep) : (s.setPort n x).ep d' = s.ep d' := rfl
@[simp] theorem setPort_usable_eq (n : Nat) (x : Port) (d' : Ep) : (s.setPort n x).usable d' = s.usable d' := rfl
@[simp] theorem setPort_ring_eq (n : Nat) (x : Port) (d' : Ep) (a' : Nat) : (s.setPort n x).ring d' a' = s.ring d' a' := rfl
@[simp] theorem setPort_src_eq (n : Nat) (x : Port) (a' : Nat) : (s.setPort n x).src a' = s.src a' := rfl
@[simp] theorem setPort_watchOf_eq (n : Nat) (x : Port) (a' : Nat) : (s.setPort n x).watchOf a' = s.watchOf a' := rfl
@[simp] theorem setPort_recOf_eq (n : Nat) (x : Port) (a' : Nat) : (s.setPort n x).recOf a' = s.recOf a' := rfl
@[simp] theorem setPort_half_eq (n : Nat) (x : Port) (a' b' : Nat) : (s.setPort n x).half a' b' = s.half a' b' := rfl
@[simp] theorem setPort_bank_eq (n : Nat) (x : Port) (c' : Bool) : (s.setPort n x).bank c' = s.bank c' := rfl

/-! ### State.modPort -/

@[simp] theorem modPort_pending (n : Nat) (f : Port → Port) : (s.modPort n f).pending = s.pending := rfl
@[simp] theorem modPort_gen (n : Nat) (f : Port → Port) : (s.modPort n f).gen = s.gen := rfl
@[simp] theorem modPort_time (n : Nat) (f : Port → Port) : (s.modPort n f).time = s.time := rfl
@[simp] theorem modPort_regs (n : Nat) (f : Port → Port) : (s.modPort n f).regs = s.regs := rfl
@[simp] theorem modPort_engines (n : Nat) (f : Port → Port) : (s.modPort n f).engines = s.engines := rfl
@[simp] theorem modPort_xcvr (n : Nat) (f : Port → Port) : (s.modPort n f).xcvr = s.xcvr := rfl
@[simp] theorem modPort_frames (n : Nat) (f : Port → Port) : (s.modPort n f).frames = s.frames := rfl
@[simp] theorem modPort_nextFrame (n : Nat) (f : Port → Port) : (s.modPort n f).nextFrame = s.nextFrame := rfl
@[simp] theorem modPort_watch (n : Nat) (f : Port → Port) : (s.modPort n f).watch = s.watch := rfl
@[simp] theorem modPort_scriv (n : Nat) (f : Port → Port) : (s.modPort n f).scriv = s.scriv := rfl
@[simp] theorem modPort_crier (n : Nat) (f : Port → Port) : (s.modPort n f).crier = s.crier := rfl
@[simp] theorem modPort_lock (n : Nat) (f : Port → Port) : (s.modPort n f).lock = s.lock := rfl
@[simp] theorem modPort_epA (n : Nat) (f : Port → Port) : (s.modPort n f).epA = s.epA := rfl
@[simp] theorem modPort_epB (n : Nat) (f : Port → Port) : (s.modPort n f).epB = s.epB := rfl
@[simp] theorem modPort_rings (n : Nat) (f : Port → Port) : (s.modPort n f).rings = s.rings := rfl
@[simp] theorem modPort_bell (n : Nat) (f : Port → Port) : (s.modPort n f).bell = s.bell := rfl
@[simp] theorem modPort_dray (n : Nat) (f : Port → Port) : (s.modPort n f).dray = s.dray := rfl
@[simp] theorem modPort_cellar (n : Nat) (f : Port → Port) : (s.modPort n f).cellar = s.cellar := rfl
@[simp] theorem modPort_stew (n : Nat) (f : Port → Port) : (s.modPort n f).stew = s.stew := rfl
@[simp] theorem modPort_tink (n : Nat) (f : Port → Port) : (s.modPort n f).tink = s.tink := rfl
@[simp] theorem modPort_sys (n : Nat) (f : Port → Port) : (s.modPort n f).sys = s.sys := rfl
@[simp] theorem modPort_free (n : Nat) (f : Port → Port) : (s.modPort n f).free = s.free := rfl
@[simp] theorem modPort_out (n : Nat) (f : Port → Port) : (s.modPort n f).out = s.out := rfl
@[simp] theorem modPort_tai_eq (n : Nat) (f : Port → Port)  : (s.modPort n f).tai  = s.tai := rfl
@[simp] theorem modPort_reg_eq (n : Nat) (f : Port → Port) (a' : Nat) : (s.modPort n f).reg a' = s.reg a' := rfl
@[simp] theorem modPort_fld_eq (n : Nat) (f : Port → Port) (a' b' c' : Nat) : (s.modPort n f).fld a' b' c' = s.fld a' b' c' := rfl
@[simp] theorem modPort_flag_eq (n : Nat) (f : Port → Port) (a' b' : Nat) : (s.modPort n f).flag a' b' = s.flag a' b' := rfl
@[simp] theorem modPort_counter_eq (n : Nat) (f : Port → Port) (a' : Nat) : (s.modPort n f).counter a' = s.counter a' := rfl
@[simp] theorem modPort_engine_eq (n : Nat) (f : Port → Port) (a' : Nat) : (s.modPort n f).engine a' = s.engine a' := rfl
@[simp] theorem modPort_ip_eq (n : Nat) (f : Port → Port) (a' : Nat) : (s.modPort n f).ip a' = s.ip a' := rfl
@[simp] theorem modPort_frameOpt_eq (n : Nat) (f : Port → Port) (a' : Nat) : (s.modPort n f).frame? a' = s.frame? a' := rfl
@[simp] theorem modPort_ep_eq (n : Nat) (f : Port → Port) (d' : Ep) : (s.modPort n f).ep d' = s.ep d' := rfl
@[simp] theorem modPort_usable_eq (n : Nat) (f : Port → Port) (d' : Ep) : (s.modPort n f).usable d' = s.usable d' := rfl
@[simp] theorem modPort_ring_eq (n : Nat) (f : Port → Port) (d' : Ep) (a' : Nat) : (s.modPort n f).ring d' a' = s.ring d' a' := rfl
@[simp] theorem modPort_src_eq (n : Nat) (f : Port → Port) (a' : Nat) : (s.modPort n f).src a' = s.src a' := rfl
@[simp] theorem modPort_watchOf_eq (n : Nat) (f : Port → Port) (a' : Nat) : (s.modPort n f).watchOf a' = s.watchOf a' := rfl
@[simp] theorem modPort_recOf_eq (n : Nat) (f : Port → Port) (a' : Nat) : (s.modPort n f).recOf a' = s.recOf a' := rfl
@[simp] theorem modPort_half_eq (n : Nat) (f : Port → Port) (a' b' : Nat) : (s.modPort n f).half a' b' = s.half a' b' := rfl
@[simp] theorem modPort_bank_eq (n : Nat) (f : Port → Port) (c' : Bool) : (s.modPort n f).bank c' = s.bank c' := rfl

/-! ### State.modIp -/

@[simp] theorem modIp_pending (n : Nat) (f : Transceiver → Transceiver) : (s.modIp n f).pending = s.pending := rfl
@[simp] theorem modIp_gen (n : Nat) (f : Transceiver → Transceiver) : (s.modIp n f).gen = s.gen := rfl
@[simp] theorem modIp_time (n : Nat) (f : Transceiver → Transceiver) : (s.modIp n f).time = s.time := rfl
@[simp] theorem modIp_regs (n : Nat) (f : Transceiver → Transceiver) : (s.modIp n f).regs = s.regs := rfl
@[simp] theorem modIp_engines (n : Nat) (f : Transceiver → Transceiver) : (s.modIp n f).engines = s.engines := rfl
@[simp] theorem modIp_ports (n : Nat) (f : Transceiver → Transceiver) : (s.modIp n f).ports = s.ports := rfl
@[simp] theorem modIp_frames (n : Nat) (f : Transceiver → Transceiver) : (s.modIp n f).frames = s.frames := rfl
@[simp] theorem modIp_nextFrame (n : Nat) (f : Transceiver → Transceiver) : (s.modIp n f).nextFrame = s.nextFrame := rfl
@[simp] theorem modIp_watch (n : Nat) (f : Transceiver → Transceiver) : (s.modIp n f).watch = s.watch := rfl
@[simp] theorem modIp_scriv (n : Nat) (f : Transceiver → Transceiver) : (s.modIp n f).scriv = s.scriv := rfl
@[simp] theorem modIp_crier (n : Nat) (f : Transceiver → Transceiver) : (s.modIp n f).crier = s.crier := rfl
@[simp] theorem modIp_lock (n : Nat) (f : Transceiver → Transceiver) : (s.modIp n f).lock = s.lock := rfl
@[simp] theorem modIp_epA (n : Nat) (f : Transceiver → Transceiver) : (s.modIp n f).epA = s.epA := rfl
@[simp] theorem modIp_epB (n : Nat) (f : Transceiver → Transceiver) : (s.modIp n f).epB = s.epB := rfl
@[simp] theorem modIp_rings (n : Nat) (f : Transceiver → Transceiver) : (s.modIp n f).rings = s.rings := rfl
@[simp] theorem modIp_bell (n : Nat) (f : Transceiver → Transceiver) : (s.modIp n f).bell = s.bell := rfl
@[simp] theorem modIp_dray (n : Nat) (f : Transceiver → Transceiver) : (s.modIp n f).dray = s.dray := rfl
@[simp] theorem modIp_cellar (n : Nat) (f : Transceiver → Transceiver) : (s.modIp n f).cellar = s.cellar := rfl
@[simp] theorem modIp_stew (n : Nat) (f : Transceiver → Transceiver) : (s.modIp n f).stew = s.stew := rfl
@[simp] theorem modIp_tink (n : Nat) (f : Transceiver → Transceiver) : (s.modIp n f).tink = s.tink := rfl
@[simp] theorem modIp_sys (n : Nat) (f : Transceiver → Transceiver) : (s.modIp n f).sys = s.sys := rfl
@[simp] theorem modIp_free (n : Nat) (f : Transceiver → Transceiver) : (s.modIp n f).free = s.free := rfl
@[simp] theorem modIp_out (n : Nat) (f : Transceiver → Transceiver) : (s.modIp n f).out = s.out := rfl
@[simp] theorem modIp_xcvr_uv (n : Nat) (f : Transceiver → Transceiver) : (s.modIp n f).xcvr.uv = s.xcvr.uv := rfl
@[simp] theorem modIp_xcvr_unpowered (n : Nat) (f : Transceiver → Transceiver) : (s.modIp n f).xcvr.unpowered = s.xcvr.unpowered := rfl
@[simp] theorem modIp_xcvr_lUnpowered (n : Nat) (f : Transceiver → Transceiver) : (s.modIp n f).xcvr.lUnpowered = s.xcvr.lUnpowered := rfl
@[simp] theorem modIp_xcvr_stbLow (n : Nat) (f : Transceiver → Transceiver) : (s.modIp n f).xcvr.stbLow = s.xcvr.stbLow := rfl
@[simp] theorem modIp_xcvr_wakePort (n : Nat) (f : Transceiver → Transceiver) : (s.modIp n f).xcvr.wakePort = s.xcvr.wakePort := rfl
@[simp] theorem modIp_xcvr_wakeCause (n : Nat) (f : Transceiver → Transceiver) : (s.modIp n f).xcvr.wakeCause = s.xcvr.wakeCause := rfl
@[simp] theorem modIp_xcvr_wakeHeld (n : Nat) (f : Transceiver → Transceiver) : (s.modIp n f).xcvr.wakeHeld = s.xcvr.wakeHeld := rfl
@[simp] theorem modIp_tai_eq (n : Nat) (f : Transceiver → Transceiver)  : (s.modIp n f).tai  = s.tai := rfl
@[simp] theorem modIp_reg_eq (n : Nat) (f : Transceiver → Transceiver) (a' : Nat) : (s.modIp n f).reg a' = s.reg a' := rfl
@[simp] theorem modIp_fld_eq (n : Nat) (f : Transceiver → Transceiver) (a' b' c' : Nat) : (s.modIp n f).fld a' b' c' = s.fld a' b' c' := rfl
@[simp] theorem modIp_flag_eq (n : Nat) (f : Transceiver → Transceiver) (a' b' : Nat) : (s.modIp n f).flag a' b' = s.flag a' b' := rfl
@[simp] theorem modIp_counter_eq (n : Nat) (f : Transceiver → Transceiver) (a' : Nat) : (s.modIp n f).counter a' = s.counter a' := rfl
@[simp] theorem modIp_engine_eq (n : Nat) (f : Transceiver → Transceiver) (a' : Nat) : (s.modIp n f).engine a' = s.engine a' := rfl
@[simp] theorem modIp_port_eq (n : Nat) (f : Transceiver → Transceiver) (a' : Nat) : (s.modIp n f).port a' = s.port a' := rfl
@[simp] theorem modIp_serving_eq (n : Nat) (f : Transceiver → Transceiver) (a' : Nat) : (s.modIp n f).serving a' = s.serving a' := rfl
@[simp] theorem modIp_frameOpt_eq (n : Nat) (f : Transceiver → Transceiver) (a' : Nat) : (s.modIp n f).frame? a' = s.frame? a' := rfl
@[simp] theorem modIp_ep_eq (n : Nat) (f : Transceiver → Transceiver) (d' : Ep) : (s.modIp n f).ep d' = s.ep d' := rfl
@[simp] theorem modIp_usable_eq (n : Nat) (f : Transceiver → Transceiver) (d' : Ep) : (s.modIp n f).usable d' = s.usable d' := rfl
@[simp] theorem modIp_ring_eq (n : Nat) (f : Transceiver → Transceiver) (d' : Ep) (a' : Nat) : (s.modIp n f).ring d' a' = s.ring d' a' := rfl
@[simp] theorem modIp_src_eq (n : Nat) (f : Transceiver → Transceiver) (a' : Nat) : (s.modIp n f).src a' = s.src a' := rfl
@[simp] theorem modIp_watchOf_eq (n : Nat) (f : Transceiver → Transceiver) (a' : Nat) : (s.modIp n f).watchOf a' = s.watchOf a' := rfl
@[simp] theorem modIp_recOf_eq (n : Nat) (f : Transceiver → Transceiver) (a' : Nat) : (s.modIp n f).recOf a' = s.recOf a' := rfl
@[simp] theorem modIp_half_eq (n : Nat) (f : Transceiver → Transceiver) (a' b' : Nat) : (s.modIp n f).half a' b' = s.half a' b' := rfl
@[simp] theorem modIp_bank_eq (n : Nat) (f : Transceiver → Transceiver) (c' : Bool) : (s.modIp n f).bank c' = s.bank c' := rfl

/-! ### State.setFrame -/

@[simp] theorem setFrame_pending (n : Nat) (x : Machine.Frame) : (s.setFrame n x).pending = s.pending := rfl
@[simp] theorem setFrame_gen (n : Nat) (x : Machine.Frame) : (s.setFrame n x).gen = s.gen := rfl
@[simp] theorem setFrame_time (n : Nat) (x : Machine.Frame) : (s.setFrame n x).time = s.time := rfl
@[simp] theorem setFrame_regs (n : Nat) (x : Machine.Frame) : (s.setFrame n x).regs = s.regs := rfl
@[simp] theorem setFrame_engines (n : Nat) (x : Machine.Frame) : (s.setFrame n x).engines = s.engines := rfl
@[simp] theorem setFrame_ports (n : Nat) (x : Machine.Frame) : (s.setFrame n x).ports = s.ports := rfl
@[simp] theorem setFrame_xcvr (n : Nat) (x : Machine.Frame) : (s.setFrame n x).xcvr = s.xcvr := rfl
@[simp] theorem setFrame_nextFrame (n : Nat) (x : Machine.Frame) : (s.setFrame n x).nextFrame = s.nextFrame := rfl
@[simp] theorem setFrame_watch (n : Nat) (x : Machine.Frame) : (s.setFrame n x).watch = s.watch := rfl
@[simp] theorem setFrame_scriv (n : Nat) (x : Machine.Frame) : (s.setFrame n x).scriv = s.scriv := rfl
@[simp] theorem setFrame_crier (n : Nat) (x : Machine.Frame) : (s.setFrame n x).crier = s.crier := rfl
@[simp] theorem setFrame_lock (n : Nat) (x : Machine.Frame) : (s.setFrame n x).lock = s.lock := rfl
@[simp] theorem setFrame_epA (n : Nat) (x : Machine.Frame) : (s.setFrame n x).epA = s.epA := rfl
@[simp] theorem setFrame_epB (n : Nat) (x : Machine.Frame) : (s.setFrame n x).epB = s.epB := rfl
@[simp] theorem setFrame_rings (n : Nat) (x : Machine.Frame) : (s.setFrame n x).rings = s.rings := rfl
@[simp] theorem setFrame_bell (n : Nat) (x : Machine.Frame) : (s.setFrame n x).bell = s.bell := rfl
@[simp] theorem setFrame_dray (n : Nat) (x : Machine.Frame) : (s.setFrame n x).dray = s.dray := rfl
@[simp] theorem setFrame_cellar (n : Nat) (x : Machine.Frame) : (s.setFrame n x).cellar = s.cellar := rfl
@[simp] theorem setFrame_stew (n : Nat) (x : Machine.Frame) : (s.setFrame n x).stew = s.stew := rfl
@[simp] theorem setFrame_tink (n : Nat) (x : Machine.Frame) : (s.setFrame n x).tink = s.tink := rfl
@[simp] theorem setFrame_sys (n : Nat) (x : Machine.Frame) : (s.setFrame n x).sys = s.sys := rfl
@[simp] theorem setFrame_free (n : Nat) (x : Machine.Frame) : (s.setFrame n x).free = s.free := rfl
@[simp] theorem setFrame_out (n : Nat) (x : Machine.Frame) : (s.setFrame n x).out = s.out := rfl
@[simp] theorem setFrame_tai_eq (n : Nat) (x : Machine.Frame)  : (s.setFrame n x).tai  = s.tai := rfl
@[simp] theorem setFrame_reg_eq (n : Nat) (x : Machine.Frame) (a' : Nat) : (s.setFrame n x).reg a' = s.reg a' := rfl
@[simp] theorem setFrame_fld_eq (n : Nat) (x : Machine.Frame) (a' b' c' : Nat) : (s.setFrame n x).fld a' b' c' = s.fld a' b' c' := rfl
@[simp] theorem setFrame_flag_eq (n : Nat) (x : Machine.Frame) (a' b' : Nat) : (s.setFrame n x).flag a' b' = s.flag a' b' := rfl
@[simp] theorem setFrame_counter_eq (n : Nat) (x : Machine.Frame) (a' : Nat) : (s.setFrame n x).counter a' = s.counter a' := rfl
@[simp] theorem setFrame_engine_eq (n : Nat) (x : Machine.Frame) (a' : Nat) : (s.setFrame n x).engine a' = s.engine a' := rfl
@[simp] theorem setFrame_port_eq (n : Nat) (x : Machine.Frame) (a' : Nat) : (s.setFrame n x).port a' = s.port a' := rfl
@[simp] theorem setFrame_serving_eq (n : Nat) (x : Machine.Frame) (a' : Nat) : (s.setFrame n x).serving a' = s.serving a' := rfl
@[simp] theorem setFrame_ip_eq (n : Nat) (x : Machine.Frame) (a' : Nat) : (s.setFrame n x).ip a' = s.ip a' := rfl
@[simp] theorem setFrame_ep_eq (n : Nat) (x : Machine.Frame) (d' : Ep) : (s.setFrame n x).ep d' = s.ep d' := rfl
@[simp] theorem setFrame_usable_eq (n : Nat) (x : Machine.Frame) (d' : Ep) : (s.setFrame n x).usable d' = s.usable d' := rfl
@[simp] theorem setFrame_ring_eq (n : Nat) (x : Machine.Frame) (d' : Ep) (a' : Nat) : (s.setFrame n x).ring d' a' = s.ring d' a' := rfl
@[simp] theorem setFrame_src_eq (n : Nat) (x : Machine.Frame) (a' : Nat) : (s.setFrame n x).src a' = s.src a' := rfl
@[simp] theorem setFrame_watchOf_eq (n : Nat) (x : Machine.Frame) (a' : Nat) : (s.setFrame n x).watchOf a' = s.watchOf a' := rfl
@[simp] theorem setFrame_recOf_eq (n : Nat) (x : Machine.Frame) (a' : Nat) : (s.setFrame n x).recOf a' = s.recOf a' := rfl
@[simp] theorem setFrame_half_eq (n : Nat) (x : Machine.Frame) (a' b' : Nat) : (s.setFrame n x).half a' b' = s.half a' b' := rfl
@[simp] theorem setFrame_bank_eq (n : Nat) (x : Machine.Frame) (c' : Bool) : (s.setFrame n x).bank c' = s.bank c' := rfl

/-! ### State.modRing -/

@[simp] theorem modRing_pending (e : Ep) (k : Nat) (f : Ring → Ring) : (s.modRing e k f).pending = s.pending := rfl
@[simp] theorem modRing_gen (e : Ep) (k : Nat) (f : Ring → Ring) : (s.modRing e k f).gen = s.gen := rfl
@[simp] theorem modRing_time (e : Ep) (k : Nat) (f : Ring → Ring) : (s.modRing e k f).time = s.time := rfl
@[simp] theorem modRing_regs (e : Ep) (k : Nat) (f : Ring → Ring) : (s.modRing e k f).regs = s.regs := rfl
@[simp] theorem modRing_engines (e : Ep) (k : Nat) (f : Ring → Ring) : (s.modRing e k f).engines = s.engines := rfl
@[simp] theorem modRing_ports (e : Ep) (k : Nat) (f : Ring → Ring) : (s.modRing e k f).ports = s.ports := rfl
@[simp] theorem modRing_xcvr (e : Ep) (k : Nat) (f : Ring → Ring) : (s.modRing e k f).xcvr = s.xcvr := rfl
@[simp] theorem modRing_frames (e : Ep) (k : Nat) (f : Ring → Ring) : (s.modRing e k f).frames = s.frames := rfl
@[simp] theorem modRing_nextFrame (e : Ep) (k : Nat) (f : Ring → Ring) : (s.modRing e k f).nextFrame = s.nextFrame := rfl
@[simp] theorem modRing_watch (e : Ep) (k : Nat) (f : Ring → Ring) : (s.modRing e k f).watch = s.watch := rfl
@[simp] theorem modRing_scriv (e : Ep) (k : Nat) (f : Ring → Ring) : (s.modRing e k f).scriv = s.scriv := rfl
@[simp] theorem modRing_crier (e : Ep) (k : Nat) (f : Ring → Ring) : (s.modRing e k f).crier = s.crier := rfl
@[simp] theorem modRing_lock (e : Ep) (k : Nat) (f : Ring → Ring) : (s.modRing e k f).lock = s.lock := rfl
@[simp] theorem modRing_epA (e : Ep) (k : Nat) (f : Ring → Ring) : (s.modRing e k f).epA = s.epA := rfl
@[simp] theorem modRing_epB (e : Ep) (k : Nat) (f : Ring → Ring) : (s.modRing e k f).epB = s.epB := rfl
@[simp] theorem modRing_bell (e : Ep) (k : Nat) (f : Ring → Ring) : (s.modRing e k f).bell = s.bell := rfl
@[simp] theorem modRing_dray (e : Ep) (k : Nat) (f : Ring → Ring) : (s.modRing e k f).dray = s.dray := rfl
@[simp] theorem modRing_cellar (e : Ep) (k : Nat) (f : Ring → Ring) : (s.modRing e k f).cellar = s.cellar := rfl
@[simp] theorem modRing_stew (e : Ep) (k : Nat) (f : Ring → Ring) : (s.modRing e k f).stew = s.stew := rfl
@[simp] theorem modRing_tink (e : Ep) (k : Nat) (f : Ring → Ring) : (s.modRing e k f).tink = s.tink := rfl
@[simp] theorem modRing_sys (e : Ep) (k : Nat) (f : Ring → Ring) : (s.modRing e k f).sys = s.sys := rfl
@[simp] theorem modRing_free (e : Ep) (k : Nat) (f : Ring → Ring) : (s.modRing e k f).free = s.free := rfl
@[simp] theorem modRing_out (e : Ep) (k : Nat) (f : Ring → Ring) : (s.modRing e k f).out = s.out := rfl
@[simp] theorem modRing_tai_eq (e : Ep) (k : Nat) (f : Ring → Ring)  : (s.modRing e k f).tai  = s.tai := rfl
@[simp] theorem modRing_reg_eq (e : Ep) (k : Nat) (f : Ring → Ring) (a' : Nat) : (s.modRing e k f).reg a' = s.reg a' := rfl
@[simp] theorem modRing_fld_eq (e : Ep) (k : Nat) (f : Ring → Ring) (a' b' c' : Nat) : (s.modRing e k f).fld a' b' c' = s.fld a' b' c' := rfl
@[simp] theorem modRing_flag_eq (e : Ep) (k : Nat) (f : Ring → Ring) (a' b' : Nat) : (s.modRing e k f).flag a' b' = s.flag a' b' := rfl
@[simp] theorem modRing_counter_eq (e : Ep) (k : Nat) (f : Ring → Ring) (a' : Nat) : (s.modRing e k f).counter a' = s.counter a' := rfl
@[simp] theorem modRing_engine_eq (e : Ep) (k : Nat) (f : Ring → Ring) (a' : Nat) : (s.modRing e k f).engine a' = s.engine a' := rfl
@[simp] theorem modRing_port_eq (e : Ep) (k : Nat) (f : Ring → Ring) (a' : Nat) : (s.modRing e k f).port a' = s.port a' := rfl
@[simp] theorem modRing_serving_eq (e : Ep) (k : Nat) (f : Ring → Ring) (a' : Nat) : (s.modRing e k f).serving a' = s.serving a' := rfl
@[simp] theorem modRing_ip_eq (e : Ep) (k : Nat) (f : Ring → Ring) (a' : Nat) : (s.modRing e k f).ip a' = s.ip a' := rfl
@[simp] theorem modRing_frameOpt_eq (e : Ep) (k : Nat) (f : Ring → Ring) (a' : Nat) : (s.modRing e k f).frame? a' = s.frame? a' := rfl
@[simp] theorem modRing_ep_eq (e : Ep) (k : Nat) (f : Ring → Ring) (d' : Ep) : (s.modRing e k f).ep d' = s.ep d' := rfl
@[simp] theorem modRing_usable_eq (e : Ep) (k : Nat) (f : Ring → Ring) (d' : Ep) : (s.modRing e k f).usable d' = s.usable d' := rfl
@[simp] theorem modRing_src_eq (e : Ep) (k : Nat) (f : Ring → Ring) (a' : Nat) : (s.modRing e k f).src a' = s.src a' := rfl
@[simp] theorem modRing_watchOf_eq (e : Ep) (k : Nat) (f : Ring → Ring) (a' : Nat) : (s.modRing e k f).watchOf a' = s.watchOf a' := rfl
@[simp] theorem modRing_recOf_eq (e : Ep) (k : Nat) (f : Ring → Ring) (a' : Nat) : (s.modRing e k f).recOf a' = s.recOf a' := rfl
@[simp] theorem modRing_half_eq (e : Ep) (k : Nat) (f : Ring → Ring) (a' b' : Nat) : (s.modRing e k f).half a' b' = s.half a' b' := rfl
@[simp] theorem modRing_bank_eq (e : Ep) (k : Nat) (f : Ring → Ring) (c' : Bool) : (s.modRing e k f).bank c' = s.bank c' := rfl

/-! ### State.emit -/

@[simp] theorem emit_pending (o : Out) : (s.emit o).pending = s.pending := rfl
@[simp] theorem emit_gen (o : Out) : (s.emit o).gen = s.gen := rfl
@[simp] theorem emit_time (o : Out) : (s.emit o).time = s.time := rfl
@[simp] theorem emit_regs (o : Out) : (s.emit o).regs = s.regs := rfl
@[simp] theorem emit_engines (o : Out) : (s.emit o).engines = s.engines := rfl
@[simp] theorem emit_ports (o : Out) : (s.emit o).ports = s.ports := rfl
@[simp] theorem emit_xcvr (o : Out) : (s.emit o).xcvr = s.xcvr := rfl
@[simp] theorem emit_frames (o : Out) : (s.emit o).frames = s.frames := rfl
@[simp] theorem emit_nextFrame (o : Out) : (s.emit o).nextFrame = s.nextFrame := rfl
@[simp] theorem emit_watch (o : Out) : (s.emit o).watch = s.watch := rfl
@[simp] theorem emit_scriv (o : Out) : (s.emit o).scriv = s.scriv := rfl
@[simp] theorem emit_crier (o : Out) : (s.emit o).crier = s.crier := rfl
@[simp] theorem emit_lock (o : Out) : (s.emit o).lock = s.lock := rfl
@[simp] theorem emit_epA (o : Out) : (s.emit o).epA = s.epA := rfl
@[simp] theorem emit_epB (o : Out) : (s.emit o).epB = s.epB := rfl
@[simp] theorem emit_rings (o : Out) : (s.emit o).rings = s.rings := rfl
@[simp] theorem emit_bell (o : Out) : (s.emit o).bell = s.bell := rfl
@[simp] theorem emit_dray (o : Out) : (s.emit o).dray = s.dray := rfl
@[simp] theorem emit_cellar (o : Out) : (s.emit o).cellar = s.cellar := rfl
@[simp] theorem emit_stew (o : Out) : (s.emit o).stew = s.stew := rfl
@[simp] theorem emit_tink (o : Out) : (s.emit o).tink = s.tink := rfl
@[simp] theorem emit_sys (o : Out) : (s.emit o).sys = s.sys := rfl
@[simp] theorem emit_free (o : Out) : (s.emit o).free = s.free := rfl
@[simp] theorem emit_tai_eq (o : Out)  : (s.emit o).tai  = s.tai := rfl
@[simp] theorem emit_reg_eq (o : Out) (a' : Nat) : (s.emit o).reg a' = s.reg a' := rfl
@[simp] theorem emit_fld_eq (o : Out) (a' b' c' : Nat) : (s.emit o).fld a' b' c' = s.fld a' b' c' := rfl
@[simp] theorem emit_flag_eq (o : Out) (a' b' : Nat) : (s.emit o).flag a' b' = s.flag a' b' := rfl
@[simp] theorem emit_counter_eq (o : Out) (a' : Nat) : (s.emit o).counter a' = s.counter a' := rfl
@[simp] theorem emit_engine_eq (o : Out) (a' : Nat) : (s.emit o).engine a' = s.engine a' := rfl
@[simp] theorem emit_port_eq (o : Out) (a' : Nat) : (s.emit o).port a' = s.port a' := rfl
@[simp] theorem emit_serving_eq (o : Out) (a' : Nat) : (s.emit o).serving a' = s.serving a' := rfl
@[simp] theorem emit_ip_eq (o : Out) (a' : Nat) : (s.emit o).ip a' = s.ip a' := rfl
@[simp] theorem emit_frameOpt_eq (o : Out) (a' : Nat) : (s.emit o).frame? a' = s.frame? a' := rfl
@[simp] theorem emit_ep_eq (o : Out) (d' : Ep) : (s.emit o).ep d' = s.ep d' := rfl
@[simp] theorem emit_usable_eq (o : Out) (d' : Ep) : (s.emit o).usable d' = s.usable d' := rfl
@[simp] theorem emit_ring_eq (o : Out) (d' : Ep) (a' : Nat) : (s.emit o).ring d' a' = s.ring d' a' := rfl
@[simp] theorem emit_src_eq (o : Out) (a' : Nat) : (s.emit o).src a' = s.src a' := rfl
@[simp] theorem emit_watchOf_eq (o : Out) (a' : Nat) : (s.emit o).watchOf a' = s.watchOf a' := rfl
@[simp] theorem emit_recOf_eq (o : Out) (a' : Nat) : (s.emit o).recOf a' = s.recOf a' := rfl
@[simp] theorem emit_half_eq (o : Out) (a' b' : Nat) : (s.emit o).half a' b' = s.half a' b' := rfl
@[simp] theorem emit_bank_eq (o : Out) (c' : Bool) : (s.emit o).bank c' = s.bank c' := rfl

/-! ### State.modEp -/

@[simp] theorem modEp_pending (e : Ep) (f : Endpoint → Endpoint) : (s.modEp e f).pending = s.pending := by cases e <;> rfl
@[simp] theorem modEp_gen (e : Ep) (f : Endpoint → Endpoint) : (s.modEp e f).gen = s.gen := by cases e <;> rfl
@[simp] theorem modEp_time (e : Ep) (f : Endpoint → Endpoint) : (s.modEp e f).time = s.time := by cases e <;> rfl
@[simp] theorem modEp_regs (e : Ep) (f : Endpoint → Endpoint) : (s.modEp e f).regs = s.regs := by cases e <;> rfl
@[simp] theorem modEp_engines (e : Ep) (f : Endpoint → Endpoint) : (s.modEp e f).engines = s.engines := by cases e <;> rfl
@[simp] theorem modEp_ports (e : Ep) (f : Endpoint → Endpoint) : (s.modEp e f).ports = s.ports := by cases e <;> rfl
@[simp] theorem modEp_xcvr (e : Ep) (f : Endpoint → Endpoint) : (s.modEp e f).xcvr = s.xcvr := by cases e <;> rfl
@[simp] theorem modEp_frames (e : Ep) (f : Endpoint → Endpoint) : (s.modEp e f).frames = s.frames := by cases e <;> rfl
@[simp] theorem modEp_nextFrame (e : Ep) (f : Endpoint → Endpoint) : (s.modEp e f).nextFrame = s.nextFrame := by cases e <;> rfl
@[simp] theorem modEp_watch (e : Ep) (f : Endpoint → Endpoint) : (s.modEp e f).watch = s.watch := by cases e <;> rfl
@[simp] theorem modEp_scriv (e : Ep) (f : Endpoint → Endpoint) : (s.modEp e f).scriv = s.scriv := by cases e <;> rfl
@[simp] theorem modEp_crier (e : Ep) (f : Endpoint → Endpoint) : (s.modEp e f).crier = s.crier := by cases e <;> rfl
@[simp] theorem modEp_lock (e : Ep) (f : Endpoint → Endpoint) : (s.modEp e f).lock = s.lock := by cases e <;> rfl
@[simp] theorem modEp_rings (e : Ep) (f : Endpoint → Endpoint) : (s.modEp e f).rings = s.rings := by cases e <;> rfl
@[simp] theorem modEp_bell (e : Ep) (f : Endpoint → Endpoint) : (s.modEp e f).bell = s.bell := by cases e <;> rfl
@[simp] theorem modEp_dray (e : Ep) (f : Endpoint → Endpoint) : (s.modEp e f).dray = s.dray := by cases e <;> rfl
@[simp] theorem modEp_cellar (e : Ep) (f : Endpoint → Endpoint) : (s.modEp e f).cellar = s.cellar := by cases e <;> rfl
@[simp] theorem modEp_stew (e : Ep) (f : Endpoint → Endpoint) : (s.modEp e f).stew = s.stew := by cases e <;> rfl
@[simp] theorem modEp_tink (e : Ep) (f : Endpoint → Endpoint) : (s.modEp e f).tink = s.tink := by cases e <;> rfl
@[simp] theorem modEp_sys (e : Ep) (f : Endpoint → Endpoint) : (s.modEp e f).sys = s.sys := by cases e <;> rfl
@[simp] theorem modEp_free (e : Ep) (f : Endpoint → Endpoint) : (s.modEp e f).free = s.free := by cases e <;> rfl
@[simp] theorem modEp_out (e : Ep) (f : Endpoint → Endpoint) : (s.modEp e f).out = s.out := by cases e <;> rfl
@[simp] theorem modEp_tai_eq (e : Ep) (f : Endpoint → Endpoint)  : (s.modEp e f).tai  = s.tai := by cases e <;> rfl
@[simp] theorem modEp_reg_eq (e : Ep) (f : Endpoint → Endpoint) (a' : Nat) : (s.modEp e f).reg a' = s.reg a' := by cases e <;> rfl
@[simp] theorem modEp_fld_eq (e : Ep) (f : Endpoint → Endpoint) (a' b' c' : Nat) : (s.modEp e f).fld a' b' c' = s.fld a' b' c' := by cases e <;> rfl
@[simp] theorem modEp_flag_eq (e : Ep) (f : Endpoint → Endpoint) (a' b' : Nat) : (s.modEp e f).flag a' b' = s.flag a' b' := by cases e <;> rfl
@[simp] theorem modEp_counter_eq (e : Ep) (f : Endpoint → Endpoint) (a' : Nat) : (s.modEp e f).counter a' = s.counter a' := by cases e <;> rfl
@[simp] theorem modEp_engine_eq (e : Ep) (f : Endpoint → Endpoint) (a' : Nat) : (s.modEp e f).engine a' = s.engine a' := by cases e <;> rfl
@[simp] theorem modEp_port_eq (e : Ep) (f : Endpoint → Endpoint) (a' : Nat) : (s.modEp e f).port a' = s.port a' := by cases e <;> rfl
@[simp] theorem modEp_serving_eq (e : Ep) (f : Endpoint → Endpoint) (a' : Nat) : (s.modEp e f).serving a' = s.serving a' := by cases e <;> rfl
@[simp] theorem modEp_ip_eq (e : Ep) (f : Endpoint → Endpoint) (a' : Nat) : (s.modEp e f).ip a' = s.ip a' := by cases e <;> rfl
@[simp] theorem modEp_frameOpt_eq (e : Ep) (f : Endpoint → Endpoint) (a' : Nat) : (s.modEp e f).frame? a' = s.frame? a' := by cases e <;> rfl
@[simp] theorem modEp_ring_eq (e : Ep) (f : Endpoint → Endpoint) (d' : Ep) (a' : Nat) : (s.modEp e f).ring d' a' = s.ring d' a' := by cases e <;> rfl
@[simp] theorem modEp_src_eq (e : Ep) (f : Endpoint → Endpoint) (a' : Nat) : (s.modEp e f).src a' = s.src a' := by cases e <;> rfl
@[simp] theorem modEp_watchOf_eq (e : Ep) (f : Endpoint → Endpoint) (a' : Nat) : (s.modEp e f).watchOf a' = s.watchOf a' := by cases e <;> rfl
@[simp] theorem modEp_recOf_eq (e : Ep) (f : Endpoint → Endpoint) (a' : Nat) : (s.modEp e f).recOf a' = s.recOf a' := by cases e <;> rfl
@[simp] theorem modEp_half_eq (e : Ep) (f : Endpoint → Endpoint) (a' b' : Nat) : (s.modEp e f).half a' b' = s.half a' b' := by cases e <;> rfl
@[simp] theorem modEp_bank_eq (e : Ep) (f : Endpoint → Endpoint) (c' : Bool) : (s.modEp e f).bank c' = s.bank c' := by cases e <;> rfl

/-! ### State.setLock -/

@[simp] theorem setLock_pending (p : Path) (b : Bool) : (s.setLock p b).pending = s.pending := by rcases p with ⟨⟨⟩⟩ | _ <;> rfl
@[simp] theorem setLock_gen (p : Path) (b : Bool) : (s.setLock p b).gen = s.gen := by rcases p with ⟨⟨⟩⟩ | _ <;> rfl
@[simp] theorem setLock_time (p : Path) (b : Bool) : (s.setLock p b).time = s.time := by rcases p with ⟨⟨⟩⟩ | _ <;> rfl
@[simp] theorem setLock_engines (p : Path) (b : Bool) : (s.setLock p b).engines = s.engines := by rcases p with ⟨⟨⟩⟩ | _ <;> rfl
@[simp] theorem setLock_ports (p : Path) (b : Bool) : (s.setLock p b).ports = s.ports := by rcases p with ⟨⟨⟩⟩ | _ <;> rfl
@[simp] theorem setLock_xcvr (p : Path) (b : Bool) : (s.setLock p b).xcvr = s.xcvr := by rcases p with ⟨⟨⟩⟩ | _ <;> rfl
@[simp] theorem setLock_frames (p : Path) (b : Bool) : (s.setLock p b).frames = s.frames := by rcases p with ⟨⟨⟩⟩ | _ <;> rfl
@[simp] theorem setLock_nextFrame (p : Path) (b : Bool) : (s.setLock p b).nextFrame = s.nextFrame := by rcases p with ⟨⟨⟩⟩ | _ <;> rfl
@[simp] theorem setLock_watch (p : Path) (b : Bool) : (s.setLock p b).watch = s.watch := by rcases p with ⟨⟨⟩⟩ | _ <;> rfl
@[simp] theorem setLock_scriv (p : Path) (b : Bool) : (s.setLock p b).scriv = s.scriv := by rcases p with ⟨⟨⟩⟩ | _ <;> rfl
@[simp] theorem setLock_crier (p : Path) (b : Bool) : (s.setLock p b).crier = s.crier := by rcases p with ⟨⟨⟩⟩ | _ <;> rfl
@[simp] theorem setLock_lock (p : Path) (b : Bool) : (s.setLock p b).lock = s.lock := by rcases p with ⟨⟨⟩⟩ | _ <;> rfl
@[simp] theorem setLock_epA (p : Path) (b : Bool) : (s.setLock p b).epA = s.epA := by rcases p with ⟨⟨⟩⟩ | _ <;> rfl
@[simp] theorem setLock_epB (p : Path) (b : Bool) : (s.setLock p b).epB = s.epB := by rcases p with ⟨⟨⟩⟩ | _ <;> rfl
@[simp] theorem setLock_rings (p : Path) (b : Bool) : (s.setLock p b).rings = s.rings := by rcases p with ⟨⟨⟩⟩ | _ <;> rfl
@[simp] theorem setLock_bell (p : Path) (b : Bool) : (s.setLock p b).bell = s.bell := by rcases p with ⟨⟨⟩⟩ | _ <;> rfl
@[simp] theorem setLock_dray (p : Path) (b : Bool) : (s.setLock p b).dray = s.dray := by rcases p with ⟨⟨⟩⟩ | _ <;> rfl
@[simp] theorem setLock_cellar (p : Path) (b : Bool) : (s.setLock p b).cellar = s.cellar := by rcases p with ⟨⟨⟩⟩ | _ <;> rfl
@[simp] theorem setLock_stew (p : Path) (b : Bool) : (s.setLock p b).stew = s.stew := by rcases p with ⟨⟨⟩⟩ | _ <;> rfl
@[simp] theorem setLock_tink (p : Path) (b : Bool) : (s.setLock p b).tink = s.tink := by rcases p with ⟨⟨⟩⟩ | _ <;> rfl
@[simp] theorem setLock_sys (p : Path) (b : Bool) : (s.setLock p b).sys = s.sys := by rcases p with ⟨⟨⟩⟩ | _ <;> rfl
@[simp] theorem setLock_free (p : Path) (b : Bool) : (s.setLock p b).free = s.free := by rcases p with ⟨⟨⟩⟩ | _ <;> rfl
@[simp] theorem setLock_out (p : Path) (b : Bool) : (s.setLock p b).out = s.out := by rcases p with ⟨⟨⟩⟩ | _ <;> rfl
@[simp] theorem setLock_regs_inForce (p : Path) (b : Bool) : (s.setLock p b).regs.inForce = s.regs.inForce := by rcases p with ⟨⟨⟩⟩ | _ <;> rfl
@[simp] theorem setLock_regs_staged (p : Path) (b : Bool) : (s.setLock p b).regs.staged = s.regs.staged := by rcases p with ⟨⟨⟩⟩ | _ <;> rfl
@[simp] theorem setLock_regs_held (p : Path) (b : Bool) : (s.setLock p b).regs.held = s.regs.held := by rcases p with ⟨⟨⟩⟩ | _ <;> rfl
@[simp] theorem setLock_regs_counters (p : Path) (b : Bool) : (s.setLock p b).regs.counters = s.regs.counters := by rcases p with ⟨⟨⟩⟩ | _ <;> rfl
@[simp] theorem setLock_regs_holding (p : Path) (b : Bool) : (s.setLock p b).regs.holding = s.regs.holding := by rcases p with ⟨⟨⟩⟩ | _ <;> rfl
@[simp] theorem setLock_regs_visible (p : Path) (b : Bool) : (s.setLock p b).regs.visible = s.regs.visible := by rcases p with ⟨⟨⟩⟩ | _ <;> rfl
@[simp] theorem setLock_regs_badInForce (p : Path) (b : Bool) : (s.setLock p b).regs.badInForce = s.regs.badInForce := by rcases p with ⟨⟨⟩⟩ | _ <;> rfl
@[simp] theorem setLock_regs_waiting (p : Path) (b : Bool) : (s.setLock p b).regs.waiting = s.regs.waiting := by rcases p with ⟨⟨⟩⟩ | _ <;> rfl
@[simp] theorem setLock_regs_upset (p : Path) (b : Bool) : (s.setLock p b).regs.upset = s.regs.upset := by rcases p with ⟨⟨⟩⟩ | _ <;> rfl
@[simp] theorem setLock_regs_reload (p : Path) (b : Bool) : (s.setLock p b).regs.reload = s.regs.reload := by rcases p with ⟨⟨⟩⟩ | _ <;> rfl
@[simp] theorem setLock_regs_parityInForce (p : Path) (b : Bool) : (s.setLock p b).regs.parityInForce = s.regs.parityInForce := by rcases p with ⟨⟨⟩⟩ | _ <;> rfl
@[simp] theorem setLock_regs_stagedLost (p : Path) (b : Bool) : (s.setLock p b).regs.stagedLost = s.regs.stagedLost := by rcases p with ⟨⟨⟩⟩ | _ <;> rfl
@[simp] theorem setLock_regs_parityAddr (p : Path) (b : Bool) : (s.setLock p b).regs.parityAddr = s.regs.parityAddr := by rcases p with ⟨⟨⟩⟩ | _ <;> rfl
@[simp] theorem setLock_regs_owner (p : Path) (b : Bool) : (s.setLock p b).regs.owner = s.regs.owner := by rcases p with ⟨⟨⟩⟩ | _ <;> rfl
@[simp] theorem setLock_regs_ownCause (p : Path) (b : Bool) : (s.setLock p b).regs.ownCause = s.regs.ownCause := by rcases p with ⟨⟨⟩⟩ | _ <;> rfl
@[simp] theorem setLock_regs_beatAt (p : Path) (b : Bool) : (s.setLock p b).regs.beatAt = s.regs.beatAt := by rcases p with ⟨⟨⟩⟩ | _ <;> rfl
@[simp] theorem setLock_tai_eq (p : Path) (b : Bool)  : (s.setLock p b).tai  = s.tai := by rcases p with ⟨⟨⟩⟩ | _ <;> rfl
@[simp] theorem setLock_reg_eq (p : Path) (b : Bool) (a' : Nat) : (s.setLock p b).reg a' = s.reg a' := by rcases p with ⟨⟨⟩⟩ | _ <;> rfl
@[simp] theorem setLock_fld_eq (p : Path) (b : Bool) (a' b' c' : Nat) : (s.setLock p b).fld a' b' c' = s.fld a' b' c' := by rcases p with ⟨⟨⟩⟩ | _ <;> rfl
@[simp] theorem setLock_flag_eq (p : Path) (b : Bool) (a' b' : Nat) : (s.setLock p b).flag a' b' = s.flag a' b' := by rcases p with ⟨⟨⟩⟩ | _ <;> rfl
@[simp] theorem setLock_counter_eq (p : Path) (b : Bool) (a' : Nat) : (s.setLock p b).counter a' = s.counter a' := by rcases p with ⟨⟨⟩⟩ | _ <;> rfl
@[simp] theorem setLock_engine_eq (p : Path) (b : Bool) (a' : Nat) : (s.setLock p b).engine a' = s.engine a' := by rcases p with ⟨⟨⟩⟩ | _ <;> rfl
@[simp] theorem setLock_port_eq (p : Path) (b : Bool) (a' : Nat) : (s.setLock p b).port a' = s.port a' := by rcases p with ⟨⟨⟩⟩ | _ <;> rfl
@[simp] theorem setLock_serving_eq (p : Path) (b : Bool) (a' : Nat) : (s.setLock p b).serving a' = s.serving a' := by rcases p with ⟨⟨⟩⟩ | _ <;> rfl
@[simp] theorem setLock_ip_eq (p : Path) (b : Bool) (a' : Nat) : (s.setLock p b).ip a' = s.ip a' := by rcases p with ⟨⟨⟩⟩ | _ <;> rfl
@[simp] theorem setLock_frameOpt_eq (p : Path) (b : Bool) (a' : Nat) : (s.setLock p b).frame? a' = s.frame? a' := by rcases p with ⟨⟨⟩⟩ | _ <;> rfl
@[simp] theorem setLock_ep_eq (p : Path) (b : Bool) (d' : Ep) : (s.setLock p b).ep d' = s.ep d' := by rcases p with ⟨⟨⟩⟩ | _ <;> rfl
@[simp] theorem setLock_usable_eq (p : Path) (b : Bool) (d' : Ep) : (s.setLock p b).usable d' = s.usable d' := by rcases p with ⟨⟨⟩⟩ | _ <;> rfl
@[simp] theorem setLock_ring_eq (p : Path) (b : Bool) (d' : Ep) (a' : Nat) : (s.setLock p b).ring d' a' = s.ring d' a' := by rcases p with ⟨⟨⟩⟩ | _ <;> rfl
@[simp] theorem setLock_src_eq (p : Path) (b : Bool) (a' : Nat) : (s.setLock p b).src a' = s.src a' := by rcases p with ⟨⟨⟩⟩ | _ <;> rfl
@[simp] theorem setLock_watchOf_eq (p : Path) (b : Bool) (a' : Nat) : (s.setLock p b).watchOf a' = s.watchOf a' := by rcases p with ⟨⟨⟩⟩ | _ <;> rfl
@[simp] theorem setLock_recOf_eq (p : Path) (b : Bool) (a' : Nat) : (s.setLock p b).recOf a' = s.recOf a' := by rcases p with ⟨⟨⟩⟩ | _ <;> rfl
@[simp] theorem setLock_half_eq (p : Path) (b : Bool) (a' b' : Nat) : (s.setLock p b).half a' b' = s.half a' b' := by rcases p with ⟨⟨⟩⟩ | _ <;> rfl
@[simp] theorem setLock_bank_eq (p : Path) (b : Bool) (c' : Bool) : (s.setLock p b).bank c' = s.bank c' := by rcases p with ⟨⟨⟩⟩ | _ <;> rfl

/-! ### State.modStore -/

@[simp] theorem modStore_pending (f : Store → Store) : (s.modStore f).pending = s.pending := rfl
@[simp] theorem modStore_gen (f : Store → Store) : (s.modStore f).gen = s.gen := rfl
@[simp] theorem modStore_time (f : Store → Store) : (s.modStore f).time = s.time := rfl
@[simp] theorem modStore_regs (f : Store → Store) : (s.modStore f).regs = s.regs := rfl
@[simp] theorem modStore_engines (f : Store → Store) : (s.modStore f).engines = s.engines := rfl
@[simp] theorem modStore_ports (f : Store → Store) : (s.modStore f).ports = s.ports := rfl
@[simp] theorem modStore_xcvr (f : Store → Store) : (s.modStore f).xcvr = s.xcvr := rfl
@[simp] theorem modStore_frames (f : Store → Store) : (s.modStore f).frames = s.frames := rfl
@[simp] theorem modStore_nextFrame (f : Store → Store) : (s.modStore f).nextFrame = s.nextFrame := rfl
@[simp] theorem modStore_watch (f : Store → Store) : (s.modStore f).watch = s.watch := rfl
@[simp] theorem modStore_scriv (f : Store → Store) : (s.modStore f).scriv = s.scriv := rfl
@[simp] theorem modStore_crier (f : Store → Store) : (s.modStore f).crier = s.crier := rfl
@[simp] theorem modStore_lock (f : Store → Store) : (s.modStore f).lock = s.lock := rfl
@[simp] theorem modStore_epA (f : Store → Store) : (s.modStore f).epA = s.epA := rfl
@[simp] theorem modStore_epB (f : Store → Store) : (s.modStore f).epB = s.epB := rfl
@[simp] theorem modStore_rings (f : Store → Store) : (s.modStore f).rings = s.rings := rfl
@[simp] theorem modStore_bell (f : Store → Store) : (s.modStore f).bell = s.bell := rfl
@[simp] theorem modStore_dray (f : Store → Store) : (s.modStore f).dray = s.dray := rfl
@[simp] theorem modStore_stew (f : Store → Store) : (s.modStore f).stew = s.stew := rfl
@[simp] theorem modStore_tink (f : Store → Store) : (s.modStore f).tink = s.tink := rfl
@[simp] theorem modStore_sys (f : Store → Store) : (s.modStore f).sys = s.sys := rfl
@[simp] theorem modStore_free (f : Store → Store) : (s.modStore f).free = s.free := rfl
@[simp] theorem modStore_out (f : Store → Store) : (s.modStore f).out = s.out := rfl
@[simp] theorem modStore_cellar_st (f : Store → Store) : (s.modStore f).cellar.st = s.cellar.st := rfl
@[simp] theorem modStore_cellar_startHeld (f : Store → Store) : (s.modStore f).cellar.startHeld = s.cellar.startHeld := rfl
@[simp] theorem modStore_cellar_heldMedia (f : Store → Store) : (s.modStore f).cellar.heldMedia = s.cellar.heldMedia := rfl
@[simp] theorem modStore_cellar_stopHeld (f : Store → Store) : (s.modStore f).cellar.stopHeld = s.cellar.stopHeld := rfl
@[simp] theorem modStore_cellar_noRestore (f : Store → Store) : (s.modStore f).cellar.noRestore = s.cellar.noRestore := rfl
@[simp] theorem modStore_cellar_pfail (f : Store → Store) : (s.modStore f).cellar.pfail = s.cellar.pfail := rfl
@[simp] theorem modStore_cellar_geom (f : Store → Store) : (s.modStore f).cellar.geom = s.cellar.geom := rfl
@[simp] theorem modStore_cellar_seq (f : Store → Store) : (s.modStore f).cellar.seq = s.cellar.seq := rfl
@[simp] theorem modStore_cellar_flush (f : Store → Store) : (s.modStore f).cellar.flush = s.cellar.flush := rfl
@[simp] theorem modStore_cellar_heldRecs (f : Store → Store) : (s.modStore f).cellar.heldRecs = s.cellar.heldRecs := rfl
@[simp] theorem modStore_cellar_program (f : Store → Store) : (s.modStore f).cellar.program = s.cellar.program := rfl
@[simp] theorem modStore_cellar_nextTarget (f : Store → Store) : (s.modStore f).cellar.nextTarget = s.cellar.nextTarget := rfl
@[simp] theorem modStore_cellar_tokens (f : Store → Store) : (s.modStore f).cellar.tokens = s.cellar.tokens := rfl
@[simp] theorem modStore_cellar_tokensAt (f : Store → Store) : (s.modStore f).cellar.tokensAt = s.cellar.tokensAt := rfl
@[simp] theorem modStore_cellar_checkpoint (f : Store → Store) : (s.modStore f).cellar.checkpoint = s.cellar.checkpoint := rfl
@[simp] theorem modStore_cellar_ckptBase (f : Store → Store) : (s.modStore f).cellar.ckptBase = s.cellar.ckptBase := rfl
@[simp] theorem modStore_cellar_degraded (f : Store → Store) : (s.modStore f).cellar.degraded = s.cellar.degraded := rfl
@[simp] theorem modStore_cellar_drop (f : Store → Store) : (s.modStore f).cellar.drop = s.cellar.drop := rfl
@[simp] theorem modStore_cellar_severe (f : Store → Store) : (s.modStore f).cellar.severe = s.cellar.severe := rfl
@[simp] theorem modStore_cellar_formatting (f : Store → Store) : (s.modStore f).cellar.formatting = s.cellar.formatting := rfl
@[simp] theorem modStore_cellar_stopPages (f : Store → Store) : (s.modStore f).cellar.stopPages = s.cellar.stopPages := rfl
@[simp] theorem modStore_cellar_startSeq (f : Store → Store) : (s.modStore f).cellar.startSeq = s.cellar.startSeq := rfl
@[simp] theorem modStore_cellar_flushFill (f : Store → Store) : (s.modStore f).cellar.flushFill = s.cellar.flushFill := rfl
@[simp] theorem modStore_cellar_flushDone (f : Store → Store) : (s.modStore f).cellar.flushDone = s.cellar.flushDone := rfl
@[simp] theorem modStore_cellar_scrubBase (f : Store → Store) : (s.modStore f).cellar.scrubBase = s.cellar.scrubBase := rfl
@[simp] theorem modStore_cellar_scrubDone (f : Store → Store) : (s.modStore f).cellar.scrubDone = s.cellar.scrubDone := rfl
@[simp] theorem modStore_cellar_scrubLast (f : Store → Store) : (s.modStore f).cellar.scrubLast = s.cellar.scrubLast := rfl
@[simp] theorem modStore_cellar_failing (f : Store → Store) : (s.modStore f).cellar.failing = s.cellar.failing := rfl
@[simp] theorem modStore_cellar_capMib (f : Store → Store) : (s.modStore f).cellar.capMib = s.cellar.capMib := rfl
@[simp] theorem modStore_tai_eq (f : Store → Store)  : (s.modStore f).tai  = s.tai := rfl
@[simp] theorem modStore_reg_eq (f : Store → Store) (a' : Nat) : (s.modStore f).reg a' = s.reg a' := rfl
@[simp] theorem modStore_fld_eq (f : Store → Store) (a' b' c' : Nat) : (s.modStore f).fld a' b' c' = s.fld a' b' c' := rfl
@[simp] theorem modStore_flag_eq (f : Store → Store) (a' b' : Nat) : (s.modStore f).flag a' b' = s.flag a' b' := rfl
@[simp] theorem modStore_counter_eq (f : Store → Store) (a' : Nat) : (s.modStore f).counter a' = s.counter a' := rfl
@[simp] theorem modStore_engine_eq (f : Store → Store) (a' : Nat) : (s.modStore f).engine a' = s.engine a' := rfl
@[simp] theorem modStore_port_eq (f : Store → Store) (a' : Nat) : (s.modStore f).port a' = s.port a' := rfl
@[simp] theorem modStore_serving_eq (f : Store → Store) (a' : Nat) : (s.modStore f).serving a' = s.serving a' := rfl
@[simp] theorem modStore_ip_eq (f : Store → Store) (a' : Nat) : (s.modStore f).ip a' = s.ip a' := rfl
@[simp] theorem modStore_frameOpt_eq (f : Store → Store) (a' : Nat) : (s.modStore f).frame? a' = s.frame? a' := rfl
@[simp] theorem modStore_ep_eq (f : Store → Store) (d' : Ep) : (s.modStore f).ep d' = s.ep d' := rfl
@[simp] theorem modStore_usable_eq (f : Store → Store) (d' : Ep) : (s.modStore f).usable d' = s.usable d' := rfl
@[simp] theorem modStore_ring_eq (f : Store → Store) (d' : Ep) (a' : Nat) : (s.modStore f).ring d' a' = s.ring d' a' := rfl
@[simp] theorem modStore_src_eq (f : Store → Store) (a' : Nat) : (s.modStore f).src a' = s.src a' := rfl
@[simp] theorem modStore_watchOf_eq (f : Store → Store) (a' : Nat) : (s.modStore f).watchOf a' = s.watchOf a' := rfl
@[simp] theorem modStore_recOf_eq (f : Store → Store) (a' : Nat) : (s.modStore f).recOf a' = s.recOf a' := rfl
@[simp] theorem modStore_half_eq (f : Store → Store) (a' b' : Nat) : (s.modStore f).half a' b' = s.half a' b' := rfl
@[simp] theorem modStore_bank_eq (f : Store → Store) (c' : Bool) : (s.modStore f).bank c' = s.bank c' := rfl

/-! ### State.modSub -/

@[simp] theorem modSub_pending (n : Nat) (f : Sub → Sub) : (s.modSub n f).pending = s.pending := rfl
@[simp] theorem modSub_gen (n : Nat) (f : Sub → Sub) : (s.modSub n f).gen = s.gen := rfl
@[simp] theorem modSub_time (n : Nat) (f : Sub → Sub) : (s.modSub n f).time = s.time := rfl
@[simp] theorem modSub_regs (n : Nat) (f : Sub → Sub) : (s.modSub n f).regs = s.regs := rfl
@[simp] theorem modSub_engines (n : Nat) (f : Sub → Sub) : (s.modSub n f).engines = s.engines := rfl
@[simp] theorem modSub_ports (n : Nat) (f : Sub → Sub) : (s.modSub n f).ports = s.ports := rfl
@[simp] theorem modSub_xcvr (n : Nat) (f : Sub → Sub) : (s.modSub n f).xcvr = s.xcvr := rfl
@[simp] theorem modSub_frames (n : Nat) (f : Sub → Sub) : (s.modSub n f).frames = s.frames := rfl
@[simp] theorem modSub_nextFrame (n : Nat) (f : Sub → Sub) : (s.modSub n f).nextFrame = s.nextFrame := rfl
@[simp] theorem modSub_watch (n : Nat) (f : Sub → Sub) : (s.modSub n f).watch = s.watch := rfl
@[simp] theorem modSub_scriv (n : Nat) (f : Sub → Sub) : (s.modSub n f).scriv = s.scriv := rfl
@[simp] theorem modSub_lock (n : Nat) (f : Sub → Sub) : (s.modSub n f).lock = s.lock := rfl
@[simp] theorem modSub_epA (n : Nat) (f : Sub → Sub) : (s.modSub n f).epA = s.epA := rfl
@[simp] theorem modSub_epB (n : Nat) (f : Sub → Sub) : (s.modSub n f).epB = s.epB := rfl
@[simp] theorem modSub_rings (n : Nat) (f : Sub → Sub) : (s.modSub n f).rings = s.rings := rfl
@[simp] theorem modSub_bell (n : Nat) (f : Sub → Sub) : (s.modSub n f).bell = s.bell := rfl
@[simp] theorem modSub_dray (n : Nat) (f : Sub → Sub) : (s.modSub n f).dray = s.dray := rfl
@[simp] theorem modSub_cellar (n : Nat) (f : Sub → Sub) : (s.modSub n f).cellar = s.cellar := rfl
@[simp] theorem modSub_stew (n : Nat) (f : Sub → Sub) : (s.modSub n f).stew = s.stew := rfl
@[simp] theorem modSub_tink (n : Nat) (f : Sub → Sub) : (s.modSub n f).tink = s.tink := rfl
@[simp] theorem modSub_sys (n : Nat) (f : Sub → Sub) : (s.modSub n f).sys = s.sys := rfl
@[simp] theorem modSub_free (n : Nat) (f : Sub → Sub) : (s.modSub n f).free = s.free := rfl
@[simp] theorem modSub_out (n : Nat) (f : Sub → Sub) : (s.modSub n f).out = s.out := rfl
@[simp] theorem modSub_crier_bitmaps (n : Nat) (f : Sub → Sub) : (s.modSub n f).crier.bitmaps = s.crier.bitmaps := rfl
@[simp] theorem modSub_crier_staged (n : Nat) (f : Sub → Sub) : (s.modSub n f).crier.staged = s.crier.staged := rfl
@[simp] theorem modSub_crier_fenced (n : Nat) (f : Sub → Sub) : (s.modSub n f).crier.fenced = s.crier.fenced := rfl
@[simp] theorem modSub_crier_changed (n : Nat) (f : Sub → Sub) : (s.modSub n f).crier.changed = s.crier.changed := rfl
@[simp] theorem modSub_crier_cutSet (n : Nat) (f : Sub → Sub) : (s.modSub n f).crier.cutSet = s.crier.cutSet := rfl
@[simp] theorem modSub_crier_cutAt (n : Nat) (f : Sub → Sub) : (s.modSub n f).crier.cutAt = s.crier.cutAt := rfl
@[simp] theorem modSub_crier_cutRead (n : Nat) (f : Sub → Sub) : (s.modSub n f).crier.cutRead = s.crier.cutRead := rfl
@[simp] theorem modSub_crier_readRecs (n : Nat) (f : Sub → Sub) : (s.modSub n f).crier.readRecs = s.crier.readRecs := rfl
@[simp] theorem modSub_crier_sentA (n : Nat) (f : Sub → Sub) : (s.modSub n f).crier.sentA = s.crier.sentA := rfl
@[simp] theorem modSub_crier_sentB (n : Nat) (f : Sub → Sub) : (s.modSub n f).crier.sentB = s.crier.sentB := rfl
@[simp] theorem modSub_crier_initA (n : Nat) (f : Sub → Sub) : (s.modSub n f).crier.initA = s.crier.initA := rfl
@[simp] theorem modSub_crier_initB (n : Nat) (f : Sub → Sub) : (s.modSub n f).crier.initB = s.crier.initB := rfl
@[simp] theorem modSub_tai_eq (n : Nat) (f : Sub → Sub)  : (s.modSub n f).tai  = s.tai := rfl
@[simp] theorem modSub_reg_eq (n : Nat) (f : Sub → Sub) (a' : Nat) : (s.modSub n f).reg a' = s.reg a' := rfl
@[simp] theorem modSub_fld_eq (n : Nat) (f : Sub → Sub) (a' b' c' : Nat) : (s.modSub n f).fld a' b' c' = s.fld a' b' c' := rfl
@[simp] theorem modSub_flag_eq (n : Nat) (f : Sub → Sub) (a' b' : Nat) : (s.modSub n f).flag a' b' = s.flag a' b' := rfl
@[simp] theorem modSub_counter_eq (n : Nat) (f : Sub → Sub) (a' : Nat) : (s.modSub n f).counter a' = s.counter a' := rfl
@[simp] theorem modSub_engine_eq (n : Nat) (f : Sub → Sub) (a' : Nat) : (s.modSub n f).engine a' = s.engine a' := rfl
@[simp] theorem modSub_port_eq (n : Nat) (f : Sub → Sub) (a' : Nat) : (s.modSub n f).port a' = s.port a' := rfl
@[simp] theorem modSub_serving_eq (n : Nat) (f : Sub → Sub) (a' : Nat) : (s.modSub n f).serving a' = s.serving a' := rfl
@[simp] theorem modSub_ip_eq (n : Nat) (f : Sub → Sub) (a' : Nat) : (s.modSub n f).ip a' = s.ip a' := rfl
@[simp] theorem modSub_frameOpt_eq (n : Nat) (f : Sub → Sub) (a' : Nat) : (s.modSub n f).frame? a' = s.frame? a' := rfl
@[simp] theorem modSub_ep_eq (n : Nat) (f : Sub → Sub) (d' : Ep) : (s.modSub n f).ep d' = s.ep d' := rfl
@[simp] theorem modSub_usable_eq (n : Nat) (f : Sub → Sub) (d' : Ep) : (s.modSub n f).usable d' = s.usable d' := rfl
@[simp] theorem modSub_ring_eq (n : Nat) (f : Sub → Sub) (d' : Ep) (a' : Nat) : (s.modSub n f).ring d' a' = s.ring d' a' := rfl
@[simp] theorem modSub_src_eq (n : Nat) (f : Sub → Sub) (a' : Nat) : (s.modSub n f).src a' = s.src a' := rfl
@[simp] theorem modSub_watchOf_eq (n : Nat) (f : Sub → Sub) (a' : Nat) : (s.modSub n f).watchOf a' = s.watchOf a' := rfl
@[simp] theorem modSub_recOf_eq (n : Nat) (f : Sub → Sub) (a' : Nat) : (s.modSub n f).recOf a' = s.recOf a' := rfl
@[simp] theorem modSub_half_eq (n : Nat) (f : Sub → Sub) (a' b' : Nat) : (s.modSub n f).half a' b' = s.half a' b' := rfl
@[simp] theorem modSub_bank_eq (n : Nat) (f : Sub → Sub) (c' : Bool) : (s.modSub n f).bank c' = s.bank c' := rfl

/-! ### State.modRoute -/

@[simp] theorem modRoute_pending (g : Bool) (r : Nat) (f : RouteState → RouteState) : (s.modRoute g r f).pending = s.pending := rfl
@[simp] theorem modRoute_gen (g : Bool) (r : Nat) (f : RouteState → RouteState) : (s.modRoute g r f).gen = s.gen := rfl
@[simp] theorem modRoute_time (g : Bool) (r : Nat) (f : RouteState → RouteState) : (s.modRoute g r f).time = s.time := rfl
@[simp] theorem modRoute_regs (g : Bool) (r : Nat) (f : RouteState → RouteState) : (s.modRoute g r f).regs = s.regs := rfl
@[simp] theorem modRoute_engines (g : Bool) (r : Nat) (f : RouteState → RouteState) : (s.modRoute g r f).engines = s.engines := rfl
@[simp] theorem modRoute_ports (g : Bool) (r : Nat) (f : RouteState → RouteState) : (s.modRoute g r f).ports = s.ports := rfl
@[simp] theorem modRoute_xcvr (g : Bool) (r : Nat) (f : RouteState → RouteState) : (s.modRoute g r f).xcvr = s.xcvr := rfl
@[simp] theorem modRoute_frames (g : Bool) (r : Nat) (f : RouteState → RouteState) : (s.modRoute g r f).frames = s.frames := rfl
@[simp] theorem modRoute_nextFrame (g : Bool) (r : Nat) (f : RouteState → RouteState) : (s.modRoute g r f).nextFrame = s.nextFrame := rfl
@[simp] theorem modRoute_watch (g : Bool) (r : Nat) (f : RouteState → RouteState) : (s.modRoute g r f).watch = s.watch := rfl
@[simp] theorem modRoute_scriv (g : Bool) (r : Nat) (f : RouteState → RouteState) : (s.modRoute g r f).scriv = s.scriv := rfl
@[simp] theorem modRoute_crier (g : Bool) (r : Nat) (f : RouteState → RouteState) : (s.modRoute g r f).crier = s.crier := rfl
@[simp] theorem modRoute_lock (g : Bool) (r : Nat) (f : RouteState → RouteState) : (s.modRoute g r f).lock = s.lock := rfl
@[simp] theorem modRoute_epA (g : Bool) (r : Nat) (f : RouteState → RouteState) : (s.modRoute g r f).epA = s.epA := rfl
@[simp] theorem modRoute_epB (g : Bool) (r : Nat) (f : RouteState → RouteState) : (s.modRoute g r f).epB = s.epB := rfl
@[simp] theorem modRoute_rings (g : Bool) (r : Nat) (f : RouteState → RouteState) : (s.modRoute g r f).rings = s.rings := rfl
@[simp] theorem modRoute_bell (g : Bool) (r : Nat) (f : RouteState → RouteState) : (s.modRoute g r f).bell = s.bell := rfl
@[simp] theorem modRoute_cellar (g : Bool) (r : Nat) (f : RouteState → RouteState) : (s.modRoute g r f).cellar = s.cellar := rfl
@[simp] theorem modRoute_stew (g : Bool) (r : Nat) (f : RouteState → RouteState) : (s.modRoute g r f).stew = s.stew := rfl
@[simp] theorem modRoute_tink (g : Bool) (r : Nat) (f : RouteState → RouteState) : (s.modRoute g r f).tink = s.tink := rfl
@[simp] theorem modRoute_sys (g : Bool) (r : Nat) (f : RouteState → RouteState) : (s.modRoute g r f).sys = s.sys := rfl
@[simp] theorem modRoute_free (g : Bool) (r : Nat) (f : RouteState → RouteState) : (s.modRoute g r f).free = s.free := rfl
@[simp] theorem modRoute_out (g : Bool) (r : Nat) (f : RouteState → RouteState) : (s.modRoute g r f).out = s.out := rfl
@[simp] theorem modRoute_dray_fenced (g : Bool) (r : Nat) (f : RouteState → RouteState) : (s.modRoute g r f).dray.fenced = s.dray.fenced := rfl
@[simp] theorem modRoute_dray_cellUse (g : Bool) (r : Nat) (f : RouteState → RouteState) : (s.modRoute g r f).dray.cellUse = s.dray.cellUse := rfl
@[simp] theorem modRoute_dray_hostCells (g : Bool) (r : Nat) (f : RouteState → RouteState) : (s.modRoute g r f).dray.hostCells = s.dray.hostCells := rfl
@[simp] theorem modRoute_dray_retiredCells (g : Bool) (r : Nat) (f : RouteState → RouteState) : (s.modRoute g r f).dray.retiredCells = s.dray.retiredCells := rfl
@[simp] theorem modRoute_dray_storeroom (g : Bool) (r : Nat) (f : RouteState → RouteState) : (s.modRoute g r f).dray.storeroom = s.dray.storeroom := rfl
@[simp] theorem modRoute_tai_eq (g : Bool) (r : Nat) (f : RouteState → RouteState)  : (s.modRoute g r f).tai  = s.tai := rfl
@[simp] theorem modRoute_reg_eq (g : Bool) (r : Nat) (f : RouteState → RouteState) (a' : Nat) : (s.modRoute g r f).reg a' = s.reg a' := rfl
@[simp] theorem modRoute_fld_eq (g : Bool) (r : Nat) (f : RouteState → RouteState) (a' b' c' : Nat) : (s.modRoute g r f).fld a' b' c' = s.fld a' b' c' := rfl
@[simp] theorem modRoute_flag_eq (g : Bool) (r : Nat) (f : RouteState → RouteState) (a' b' : Nat) : (s.modRoute g r f).flag a' b' = s.flag a' b' := rfl
@[simp] theorem modRoute_counter_eq (g : Bool) (r : Nat) (f : RouteState → RouteState) (a' : Nat) : (s.modRoute g r f).counter a' = s.counter a' := rfl
@[simp] theorem modRoute_engine_eq (g : Bool) (r : Nat) (f : RouteState → RouteState) (a' : Nat) : (s.modRoute g r f).engine a' = s.engine a' := rfl
@[simp] theorem modRoute_port_eq (g : Bool) (r : Nat) (f : RouteState → RouteState) (a' : Nat) : (s.modRoute g r f).port a' = s.port a' := rfl
@[simp] theorem modRoute_serving_eq (g : Bool) (r : Nat) (f : RouteState → RouteState) (a' : Nat) : (s.modRoute g r f).serving a' = s.serving a' := rfl
@[simp] theorem modRoute_ip_eq (g : Bool) (r : Nat) (f : RouteState → RouteState) (a' : Nat) : (s.modRoute g r f).ip a' = s.ip a' := rfl
@[simp] theorem modRoute_frameOpt_eq (g : Bool) (r : Nat) (f : RouteState → RouteState) (a' : Nat) : (s.modRoute g r f).frame? a' = s.frame? a' := rfl
@[simp] theorem modRoute_ep_eq (g : Bool) (r : Nat) (f : RouteState → RouteState) (d' : Ep) : (s.modRoute g r f).ep d' = s.ep d' := rfl
@[simp] theorem modRoute_usable_eq (g : Bool) (r : Nat) (f : RouteState → RouteState) (d' : Ep) : (s.modRoute g r f).usable d' = s.usable d' := rfl
@[simp] theorem modRoute_ring_eq (g : Bool) (r : Nat) (f : RouteState → RouteState) (d' : Ep) (a' : Nat) : (s.modRoute g r f).ring d' a' = s.ring d' a' := rfl
@[simp] theorem modRoute_src_eq (g : Bool) (r : Nat) (f : RouteState → RouteState) (a' : Nat) : (s.modRoute g r f).src a' = s.src a' := rfl
@[simp] theorem modRoute_watchOf_eq (g : Bool) (r : Nat) (f : RouteState → RouteState) (a' : Nat) : (s.modRoute g r f).watchOf a' = s.watchOf a' := rfl
@[simp] theorem modRoute_recOf_eq (g : Bool) (r : Nat) (f : RouteState → RouteState) (a' : Nat) : (s.modRoute g r f).recOf a' = s.recOf a' := rfl
@[simp] theorem modRoute_half_eq (g : Bool) (r : Nat) (f : RouteState → RouteState) (a' b' : Nat) : (s.modRoute g r f).half a' b' = s.half a' b' := rfl
@[simp] theorem modRoute_bank_eq (g : Bool) (r : Nat) (f : RouteState → RouteState) (c' : Bool) : (s.modRoute g r f).bank c' = s.bank c' := rfl

/-! ### State.modLoader -/

@[simp] theorem modLoader_pending (f : Loader → Loader) : (s.modLoader f).pending = s.pending := rfl
@[simp] theorem modLoader_gen (f : Loader → Loader) : (s.modLoader f).gen = s.gen := rfl
@[simp] theorem modLoader_time (f : Loader → Loader) : (s.modLoader f).time = s.time := rfl
@[simp] theorem modLoader_regs (f : Loader → Loader) : (s.modLoader f).regs = s.regs := rfl
@[simp] theorem modLoader_engines (f : Loader → Loader) : (s.modLoader f).engines = s.engines := rfl
@[simp] theorem modLoader_ports (f : Loader → Loader) : (s.modLoader f).ports = s.ports := rfl
@[simp] theorem modLoader_xcvr (f : Loader → Loader) : (s.modLoader f).xcvr = s.xcvr := rfl
@[simp] theorem modLoader_frames (f : Loader → Loader) : (s.modLoader f).frames = s.frames := rfl
@[simp] theorem modLoader_nextFrame (f : Loader → Loader) : (s.modLoader f).nextFrame = s.nextFrame := rfl
@[simp] theorem modLoader_scriv (f : Loader → Loader) : (s.modLoader f).scriv = s.scriv := rfl
@[simp] theorem modLoader_crier (f : Loader → Loader) : (s.modLoader f).crier = s.crier := rfl
@[simp] theorem modLoader_lock (f : Loader → Loader) : (s.modLoader f).lock = s.lock := rfl
@[simp] theorem modLoader_epA (f : Loader → Loader) : (s.modLoader f).epA = s.epA := rfl
@[simp] theorem modLoader_epB (f : Loader → Loader) : (s.modLoader f).epB = s.epB := rfl
@[simp] theorem modLoader_rings (f : Loader → Loader) : (s.modLoader f).rings = s.rings := rfl
@[simp] theorem modLoader_bell (f : Loader → Loader) : (s.modLoader f).bell = s.bell := rfl
@[simp] theorem modLoader_dray (f : Loader → Loader) : (s.modLoader f).dray = s.dray := rfl
@[simp] theorem modLoader_cellar (f : Loader → Loader) : (s.modLoader f).cellar = s.cellar := rfl
@[simp] theorem modLoader_stew (f : Loader → Loader) : (s.modLoader f).stew = s.stew := rfl
@[simp] theorem modLoader_tink (f : Loader → Loader) : (s.modLoader f).tink = s.tink := rfl
@[simp] theorem modLoader_sys (f : Loader → Loader) : (s.modLoader f).sys = s.sys := rfl
@[simp] theorem modLoader_free (f : Loader → Loader) : (s.modLoader f).free = s.free := rfl
@[simp] theorem modLoader_out (f : Loader → Loader) : (s.modLoader f).out = s.out := rfl
@[simp] theorem modLoader_watch_bank0 (f : Loader → Loader) : (s.modLoader f).watch.bank0 = s.watch.bank0 := rfl
@[simp] theorem modLoader_watch_bank1 (f : Loader → Loader) : (s.modLoader f).watch.bank1 = s.watch.bank1 := rfl
@[simp] theorem modLoader_watch_states (f : Loader → Loader) : (s.modLoader f).watch.states = s.watch.states := rfl
@[simp] theorem modLoader_watch_sweepPos (f : Loader → Loader) : (s.modLoader f).watch.sweepPos = s.watch.sweepPos := rfl
@[simp] theorem modLoader_watch_sweepBegan (f : Loader → Loader) : (s.modLoader f).watch.sweepBegan = s.watch.sweepBegan := rfl
@[simp] theorem modLoader_watch_sweepAfterCut (f : Loader → Loader) : (s.modLoader f).watch.sweepAfterCut = s.watch.sweepAfterCut := rfl
@[simp] theorem modLoader_watch_cutSwept (f : Loader → Loader) : (s.modLoader f).watch.cutSwept = s.watch.cutSwept := rfl
@[simp] theorem modLoader_watch_stalled (f : Loader → Loader) : (s.modLoader f).watch.stalled = s.watch.stalled := rfl
@[simp] theorem modLoader_watch_fenced (f : Loader → Loader) : (s.modLoader f).watch.fenced = s.watch.fenced := rfl
@[simp] theorem modLoader_watch_swapNo (f : Loader → Loader) : (s.modLoader f).watch.swapNo = s.watch.swapNo := rfl
@[simp] theorem modLoader_watch_uncheckedLeft (f : Loader → Loader) : (s.modLoader f).watch.uncheckedLeft = s.watch.uncheckedLeft := rfl
@[simp] theorem modLoader_watch_walks (f : Loader → Loader) : (s.modLoader f).watch.walks = s.watch.walks := rfl
@[simp] theorem modLoader_watch_captured (f : Loader → Loader) : (s.modLoader f).watch.captured = s.watch.captured := rfl
@[simp] theorem modLoader_tai_eq (f : Loader → Loader)  : (s.modLoader f).tai  = s.tai := rfl
@[simp] theorem modLoader_reg_eq (f : Loader → Loader) (a' : Nat) : (s.modLoader f).reg a' = s.reg a' := rfl
@[simp] theorem modLoader_fld_eq (f : Loader → Loader) (a' b' c' : Nat) : (s.modLoader f).fld a' b' c' = s.fld a' b' c' := rfl
@[simp] theorem modLoader_flag_eq (f : Loader → Loader) (a' b' : Nat) : (s.modLoader f).flag a' b' = s.flag a' b' := rfl
@[simp] theorem modLoader_counter_eq (f : Loader → Loader) (a' : Nat) : (s.modLoader f).counter a' = s.counter a' := rfl
@[simp] theorem modLoader_engine_eq (f : Loader → Loader) (a' : Nat) : (s.modLoader f).engine a' = s.engine a' := rfl
@[simp] theorem modLoader_port_eq (f : Loader → Loader) (a' : Nat) : (s.modLoader f).port a' = s.port a' := rfl
@[simp] theorem modLoader_serving_eq (f : Loader → Loader) (a' : Nat) : (s.modLoader f).serving a' = s.serving a' := rfl
@[simp] theorem modLoader_ip_eq (f : Loader → Loader) (a' : Nat) : (s.modLoader f).ip a' = s.ip a' := rfl
@[simp] theorem modLoader_frameOpt_eq (f : Loader → Loader) (a' : Nat) : (s.modLoader f).frame? a' = s.frame? a' := rfl
@[simp] theorem modLoader_ep_eq (f : Loader → Loader) (d' : Ep) : (s.modLoader f).ep d' = s.ep d' := rfl
@[simp] theorem modLoader_usable_eq (f : Loader → Loader) (d' : Ep) : (s.modLoader f).usable d' = s.usable d' := rfl
@[simp] theorem modLoader_ring_eq (f : Loader → Loader) (d' : Ep) (a' : Nat) : (s.modLoader f).ring d' a' = s.ring d' a' := rfl
@[simp] theorem modLoader_src_eq (f : Loader → Loader) (a' : Nat) : (s.modLoader f).src a' = s.src a' := rfl
@[simp] theorem modLoader_watchOf_eq (f : Loader → Loader) (a' : Nat) : (s.modLoader f).watchOf a' = s.watchOf a' := rfl
@[simp] theorem modLoader_recOf_eq (f : Loader → Loader) (a' : Nat) : (s.modLoader f).recOf a' = s.recOf a' := rfl
@[simp] theorem modLoader_half_eq (f : Loader → Loader) (a' b' : Nat) : (s.modLoader f).half a' b' = s.half a' b' := rfl
@[simp] theorem modLoader_bank_eq (f : Loader → Loader) (c' : Bool) : (s.modLoader f).bank c' = s.bank c' := rfl

/-! ### State.setHalf -/

@[simp] theorem setHalf_pending (n w : Nat) (h : KeyHalf) : (s.setHalf n w h).pending = s.pending := rfl
@[simp] theorem setHalf_gen (n w : Nat) (h : KeyHalf) : (s.setHalf n w h).gen = s.gen := rfl
@[simp] theorem setHalf_time (n w : Nat) (h : KeyHalf) : (s.setHalf n w h).time = s.time := rfl
@[simp] theorem setHalf_regs (n w : Nat) (h : KeyHalf) : (s.setHalf n w h).regs = s.regs := rfl
@[simp] theorem setHalf_engines (n w : Nat) (h : KeyHalf) : (s.setHalf n w h).engines = s.engines := rfl
@[simp] theorem setHalf_ports (n w : Nat) (h : KeyHalf) : (s.setHalf n w h).ports = s.ports := rfl
@[simp] theorem setHalf_xcvr (n w : Nat) (h : KeyHalf) : (s.setHalf n w h).xcvr = s.xcvr := rfl
@[simp] theorem setHalf_frames (n w : Nat) (h : KeyHalf) : (s.setHalf n w h).frames = s.frames := rfl
@[simp] theorem setHalf_nextFrame (n w : Nat) (h : KeyHalf) : (s.setHalf n w h).nextFrame = s.nextFrame := rfl
@[simp] theorem setHalf_watch (n w : Nat) (h : KeyHalf) : (s.setHalf n w h).watch = s.watch := rfl
@[simp] theorem setHalf_scriv (n w : Nat) (h : KeyHalf) : (s.setHalf n w h).scriv = s.scriv := rfl
@[simp] theorem setHalf_crier (n w : Nat) (h : KeyHalf) : (s.setHalf n w h).crier = s.crier := rfl
@[simp] theorem setHalf_epA (n w : Nat) (h : KeyHalf) : (s.setHalf n w h).epA = s.epA := rfl
@[simp] theorem setHalf_epB (n w : Nat) (h : KeyHalf) : (s.setHalf n w h).epB = s.epB := rfl
@[simp] theorem setHalf_rings (n w : Nat) (h : KeyHalf) : (s.setHalf n w h).rings = s.rings := rfl
@[simp] theorem setHalf_bell (n w : Nat) (h : KeyHalf) : (s.setHalf n w h).bell = s.bell := rfl
@[simp] theorem setHalf_dray (n w : Nat) (h : KeyHalf) : (s.setHalf n w h).dray = s.dray := rfl
@[simp] theorem setHalf_cellar (n w : Nat) (h : KeyHalf) : (s.setHalf n w h).cellar = s.cellar := rfl
@[simp] theorem setHalf_stew (n w : Nat) (h : KeyHalf) : (s.setHalf n w h).stew = s.stew := rfl
@[simp] theorem setHalf_tink (n w : Nat) (h : KeyHalf) : (s.setHalf n w h).tink = s.tink := rfl
@[simp] theorem setHalf_sys (n w : Nat) (h : KeyHalf) : (s.setHalf n w h).sys = s.sys := rfl
@[simp] theorem setHalf_free (n w : Nat) (h : KeyHalf) : (s.setHalf n w h).free = s.free := rfl
@[simp] theorem setHalf_out (n w : Nat) (h : KeyHalf) : (s.setHalf n w h).out = s.out := rfl
@[simp] theorem setHalf_lock_keks (n w : Nat) (h : KeyHalf) : (s.setHalf n w h).lock.keks = s.lock.keks := rfl
@[simp] theorem setHalf_lock_kek0 (n w : Nat) (h : KeyHalf) : (s.setHalf n w h).lock.kek0 = s.lock.kek0 := rfl
@[simp] theorem setHalf_lock_withheld (n w : Nat) (h : KeyHalf) : (s.setHalf n w h).lock.withheld = s.lock.withheld := rfl
@[simp] theorem setHalf_lock_erased (n w : Nat) (h : KeyHalf) : (s.setHalf n w h).lock.erased = s.lock.erased := rfl
@[simp] theorem setHalf_lock_alarm (n w : Nat) (h : KeyHalf) : (s.setHalf n w h).lock.alarm = s.lock.alarm := rfl
@[simp] theorem setHalf_lock_healthFail (n w : Nat) (h : KeyHalf) : (s.setHalf n w h).lock.healthFail = s.lock.healthFail := rfl
@[simp] theorem setHalf_lock_lanes (n w : Nat) (h : KeyHalf) : (s.setHalf n w h).lock.lanes = s.lock.lanes := rfl
@[simp] theorem setHalf_lock_waiting (n w : Nat) (h : KeyHalf) : (s.setHalf n w h).lock.waiting = s.lock.waiting := rfl
@[simp] theorem setHalf_lock_holder (n w : Nat) (h : KeyHalf) : (s.setHalf n w h).lock.holder = s.lock.holder := rfl
@[simp] theorem setHalf_lock_holderAt (n w : Nat) (h : KeyHalf) : (s.setHalf n w h).lock.holderAt = s.lock.holderAt := rfl
@[simp] theorem setHalf_lock_releaseDue (n w : Nat) (h : KeyHalf) : (s.setHalf n w h).lock.releaseDue = s.lock.releaseDue := rfl
@[simp] theorem setHalf_lock_resultSlot (n w : Nat) (h : KeyHalf) : (s.setHalf n w h).lock.resultSlot = s.lock.resultSlot := rfl
@[simp] theorem setHalf_lock_resultCode (n w : Nat) (h : KeyHalf) : (s.setHalf n w h).lock.resultCode = s.lock.resultCode := rfl
@[simp] theorem setHalf_lock_swaps (n w : Nat) (h : KeyHalf) : (s.setHalf n w h).lock.swaps = s.lock.swaps := rfl
@[simp] theorem setHalf_lock_autoDue (n w : Nat) (h : KeyHalf) : (s.setHalf n w h).lock.autoDue = s.lock.autoDue := rfl
@[simp] theorem setHalf_lock_pending (n w : Nat) (h : KeyHalf) : (s.setHalf n w h).lock.pending = s.lock.pending := rfl
@[simp] theorem setHalf_lock_drbgReady (n w : Nat) (h : KeyHalf) : (s.setHalf n w h).lock.drbgReady = s.lock.drbgReady := rfl
@[simp] theorem setHalf_lock_reseedAt (n w : Nat) (h : KeyHalf) : (s.setHalf n w h).lock.reseedAt = s.lock.reseedAt := rfl
@[simp] theorem setHalf_lock_retryAt (n w : Nat) (h : KeyHalf) : (s.setHalf n w h).lock.retryAt = s.lock.retryAt := rfl
@[simp] theorem setHalf_lock_peek (n w : Nat) (h : KeyHalf) : (s.setHalf n w h).lock.peek = s.lock.peek := rfl
@[simp] theorem setHalf_tai_eq (n w : Nat) (h : KeyHalf)  : (s.setHalf n w h).tai  = s.tai := rfl
@[simp] theorem setHalf_reg_eq (n w : Nat) (h : KeyHalf) (a' : Nat) : (s.setHalf n w h).reg a' = s.reg a' := rfl
@[simp] theorem setHalf_fld_eq (n w : Nat) (h : KeyHalf) (a' b' c' : Nat) : (s.setHalf n w h).fld a' b' c' = s.fld a' b' c' := rfl
@[simp] theorem setHalf_flag_eq (n w : Nat) (h : KeyHalf) (a' b' : Nat) : (s.setHalf n w h).flag a' b' = s.flag a' b' := rfl
@[simp] theorem setHalf_counter_eq (n w : Nat) (h : KeyHalf) (a' : Nat) : (s.setHalf n w h).counter a' = s.counter a' := rfl
@[simp] theorem setHalf_engine_eq (n w : Nat) (h : KeyHalf) (a' : Nat) : (s.setHalf n w h).engine a' = s.engine a' := rfl
@[simp] theorem setHalf_port_eq (n w : Nat) (h : KeyHalf) (a' : Nat) : (s.setHalf n w h).port a' = s.port a' := rfl
@[simp] theorem setHalf_serving_eq (n w : Nat) (h : KeyHalf) (a' : Nat) : (s.setHalf n w h).serving a' = s.serving a' := rfl
@[simp] theorem setHalf_ip_eq (n w : Nat) (h : KeyHalf) (a' : Nat) : (s.setHalf n w h).ip a' = s.ip a' := rfl
@[simp] theorem setHalf_frameOpt_eq (n w : Nat) (h : KeyHalf) (a' : Nat) : (s.setHalf n w h).frame? a' = s.frame? a' := rfl
@[simp] theorem setHalf_ep_eq (n w : Nat) (h : KeyHalf) (d' : Ep) : (s.setHalf n w h).ep d' = s.ep d' := rfl
@[simp] theorem setHalf_usable_eq (n w : Nat) (h : KeyHalf) (d' : Ep) : (s.setHalf n w h).usable d' = s.usable d' := rfl
@[simp] theorem setHalf_ring_eq (n w : Nat) (h : KeyHalf) (d' : Ep) (a' : Nat) : (s.setHalf n w h).ring d' a' = s.ring d' a' := rfl
@[simp] theorem setHalf_src_eq (n w : Nat) (h : KeyHalf) (a' : Nat) : (s.setHalf n w h).src a' = s.src a' := rfl
@[simp] theorem setHalf_watchOf_eq (n w : Nat) (h : KeyHalf) (a' : Nat) : (s.setHalf n w h).watchOf a' = s.watchOf a' := rfl
@[simp] theorem setHalf_recOf_eq (n w : Nat) (h : KeyHalf) (a' : Nat) : (s.setHalf n w h).recOf a' = s.recOf a' := rfl
@[simp] theorem setHalf_bank_eq (n w : Nat) (h : KeyHalf) (c' : Bool) : (s.setHalf n w h).bank c' = s.bank c' := rfl

/-! ### State.setRec -/

@[simp] theorem setRec_pending (n : Nat) (r : Rec) : (s.setRec n r).pending = s.pending := rfl
@[simp] theorem setRec_gen (n : Nat) (r : Rec) : (s.setRec n r).gen = s.gen := rfl
@[simp] theorem setRec_time (n : Nat) (r : Rec) : (s.setRec n r).time = s.time := rfl
@[simp] theorem setRec_regs (n : Nat) (r : Rec) : (s.setRec n r).regs = s.regs := rfl
@[simp] theorem setRec_engines (n : Nat) (r : Rec) : (s.setRec n r).engines = s.engines := rfl
@[simp] theorem setRec_ports (n : Nat) (r : Rec) : (s.setRec n r).ports = s.ports := rfl
@[simp] theorem setRec_xcvr (n : Nat) (r : Rec) : (s.setRec n r).xcvr = s.xcvr := rfl
@[simp] theorem setRec_frames (n : Nat) (r : Rec) : (s.setRec n r).frames = s.frames := rfl
@[simp] theorem setRec_nextFrame (n : Nat) (r : Rec) : (s.setRec n r).nextFrame = s.nextFrame := rfl
@[simp] theorem setRec_watch (n : Nat) (r : Rec) : (s.setRec n r).watch = s.watch := rfl
@[simp] theorem setRec_crier (n : Nat) (r : Rec) : (s.setRec n r).crier = s.crier := rfl
@[simp] theorem setRec_lock (n : Nat) (r : Rec) : (s.setRec n r).lock = s.lock := rfl
@[simp] theorem setRec_epA (n : Nat) (r : Rec) : (s.setRec n r).epA = s.epA := rfl
@[simp] theorem setRec_epB (n : Nat) (r : Rec) : (s.setRec n r).epB = s.epB := rfl
@[simp] theorem setRec_rings (n : Nat) (r : Rec) : (s.setRec n r).rings = s.rings := rfl
@[simp] theorem setRec_bell (n : Nat) (r : Rec) : (s.setRec n r).bell = s.bell := rfl
@[simp] theorem setRec_dray (n : Nat) (r : Rec) : (s.setRec n r).dray = s.dray := rfl
@[simp] theorem setRec_cellar (n : Nat) (r : Rec) : (s.setRec n r).cellar = s.cellar := rfl
@[simp] theorem setRec_stew (n : Nat) (r : Rec) : (s.setRec n r).stew = s.stew := rfl
@[simp] theorem setRec_tink (n : Nat) (r : Rec) : (s.setRec n r).tink = s.tink := rfl
@[simp] theorem setRec_sys (n : Nat) (r : Rec) : (s.setRec n r).sys = s.sys := rfl
@[simp] theorem setRec_free (n : Nat) (r : Rec) : (s.setRec n r).free = s.free := rfl
@[simp] theorem setRec_out (n : Nat) (r : Rec) : (s.setRec n r).out = s.out := rfl
@[simp] theorem setRec_scriv_fenced (n : Nat) (r : Rec) : (s.setRec n r).scriv.fenced = s.scriv.fenced := rfl
@[simp] theorem setRec_scriv_fencedAt (n : Nat) (r : Rec) : (s.setRec n r).scriv.fencedAt = s.scriv.fencedAt := rfl
@[simp] theorem setRec_scriv_testing (n : Nat) (r : Rec) : (s.setRec n r).scriv.testing = s.scriv.testing := rfl
@[simp] theorem setRec_scriv_away (n : Nat) (r : Rec) : (s.setRec n r).scriv.away = s.scriv.away := rfl
@[simp] theorem setRec_scriv_pipeOf (n : Nat) (r : Rec) : (s.setRec n r).scriv.pipeOf = s.scriv.pipeOf := rfl
@[simp] theorem setRec_scriv_ops (n : Nat) (r : Rec) : (s.setRec n r).scriv.ops = s.scriv.ops := rfl
@[simp] theorem setRec_scriv_hashOut (n : Nat) (r : Rec) : (s.setRec n r).scriv.hashOut = s.scriv.hashOut := rfl
@[simp] theorem setRec_scriv_recPeek (n : Nat) (r : Rec) : (s.setRec n r).scriv.recPeek = s.scriv.recPeek := rfl
@[simp] theorem setRec_scriv_pantry (n : Nat) (r : Rec) : (s.setRec n r).scriv.pantry = s.scriv.pantry := rfl
@[simp] theorem setRec_scriv_retired (n : Nat) (r : Rec) : (s.setRec n r).scriv.retired = s.scriv.retired := rfl
@[simp] theorem setRec_tai_eq (n : Nat) (r : Rec)  : (s.setRec n r).tai  = s.tai := rfl
@[simp] theorem setRec_reg_eq (n : Nat) (r : Rec) (a' : Nat) : (s.setRec n r).reg a' = s.reg a' := rfl
@[simp] theorem setRec_fld_eq (n : Nat) (r : Rec) (a' b' c' : Nat) : (s.setRec n r).fld a' b' c' = s.fld a' b' c' := rfl
@[simp] theorem setRec_flag_eq (n : Nat) (r : Rec) (a' b' : Nat) : (s.setRec n r).flag a' b' = s.flag a' b' := rfl
@[simp] theorem setRec_counter_eq (n : Nat) (r : Rec) (a' : Nat) : (s.setRec n r).counter a' = s.counter a' := rfl
@[simp] theorem setRec_engine_eq (n : Nat) (r : Rec) (a' : Nat) : (s.setRec n r).engine a' = s.engine a' := rfl
@[simp] theorem setRec_port_eq (n : Nat) (r : Rec) (a' : Nat) : (s.setRec n r).port a' = s.port a' := rfl
@[simp] theorem setRec_serving_eq (n : Nat) (r : Rec) (a' : Nat) : (s.setRec n r).serving a' = s.serving a' := rfl
@[simp] theorem setRec_ip_eq (n : Nat) (r : Rec) (a' : Nat) : (s.setRec n r).ip a' = s.ip a' := rfl
@[simp] theorem setRec_frameOpt_eq (n : Nat) (r : Rec) (a' : Nat) : (s.setRec n r).frame? a' = s.frame? a' := rfl
@[simp] theorem setRec_ep_eq (n : Nat) (r : Rec) (d' : Ep) : (s.setRec n r).ep d' = s.ep d' := rfl
@[simp] theorem setRec_usable_eq (n : Nat) (r : Rec) (d' : Ep) : (s.setRec n r).usable d' = s.usable d' := rfl
@[simp] theorem setRec_ring_eq (n : Nat) (r : Rec) (d' : Ep) (a' : Nat) : (s.setRec n r).ring d' a' = s.ring d' a' := rfl
@[simp] theorem setRec_src_eq (n : Nat) (r : Rec) (a' : Nat) : (s.setRec n r).src a' = s.src a' := rfl
@[simp] theorem setRec_watchOf_eq (n : Nat) (r : Rec) (a' : Nat) : (s.setRec n r).watchOf a' = s.watchOf a' := rfl
@[simp] theorem setRec_half_eq (n : Nat) (r : Rec) (a' b' : Nat) : (s.setRec n r).half a' b' = s.half a' b' := rfl
@[simp] theorem setRec_bank_eq (n : Nat) (r : Rec) (c' : Bool) : (s.setRec n r).bank c' = s.bank c' := rfl

/-! ### State.modSrc -/

@[simp] theorem modSrc_pending (n : Nat) (g : FaultSrc → FaultSrc) : (s.modSrc n g).pending = s.pending := rfl
@[simp] theorem modSrc_gen (n : Nat) (g : FaultSrc → FaultSrc) : (s.modSrc n g).gen = s.gen := rfl
@[simp] theorem modSrc_time (n : Nat) (g : FaultSrc → FaultSrc) : (s.modSrc n g).time = s.time := rfl
@[simp] theorem modSrc_regs (n : Nat) (g : FaultSrc → FaultSrc) : (s.modSrc n g).regs = s.regs := rfl
@[simp] theorem modSrc_engines (n : Nat) (g : FaultSrc → FaultSrc) : (s.modSrc n g).engines = s.engines := rfl
@[simp] theorem modSrc_ports (n : Nat) (g : FaultSrc → FaultSrc) : (s.modSrc n g).ports = s.ports := rfl
@[simp] theorem modSrc_xcvr (n : Nat) (g : FaultSrc → FaultSrc) : (s.modSrc n g).xcvr = s.xcvr := rfl
@[simp] theorem modSrc_frames (n : Nat) (g : FaultSrc → FaultSrc) : (s.modSrc n g).frames = s.frames := rfl
@[simp] theorem modSrc_nextFrame (n : Nat) (g : FaultSrc → FaultSrc) : (s.modSrc n g).nextFrame = s.nextFrame := rfl
@[simp] theorem modSrc_watch (n : Nat) (g : FaultSrc → FaultSrc) : (s.modSrc n g).watch = s.watch := rfl
@[simp] theorem modSrc_scriv (n : Nat) (g : FaultSrc → FaultSrc) : (s.modSrc n g).scriv = s.scriv := rfl
@[simp] theorem modSrc_crier (n : Nat) (g : FaultSrc → FaultSrc) : (s.modSrc n g).crier = s.crier := rfl
@[simp] theorem modSrc_lock (n : Nat) (g : FaultSrc → FaultSrc) : (s.modSrc n g).lock = s.lock := rfl
@[simp] theorem modSrc_epA (n : Nat) (g : FaultSrc → FaultSrc) : (s.modSrc n g).epA = s.epA := rfl
@[simp] theorem modSrc_epB (n : Nat) (g : FaultSrc → FaultSrc) : (s.modSrc n g).epB = s.epB := rfl
@[simp] theorem modSrc_rings (n : Nat) (g : FaultSrc → FaultSrc) : (s.modSrc n g).rings = s.rings := rfl
@[simp] theorem modSrc_bell (n : Nat) (g : FaultSrc → FaultSrc) : (s.modSrc n g).bell = s.bell := rfl
@[simp] theorem modSrc_dray (n : Nat) (g : FaultSrc → FaultSrc) : (s.modSrc n g).dray = s.dray := rfl
@[simp] theorem modSrc_cellar (n : Nat) (g : FaultSrc → FaultSrc) : (s.modSrc n g).cellar = s.cellar := rfl
@[simp] theorem modSrc_tink (n : Nat) (g : FaultSrc → FaultSrc) : (s.modSrc n g).tink = s.tink := rfl
@[simp] theorem modSrc_sys (n : Nat) (g : FaultSrc → FaultSrc) : (s.modSrc n g).sys = s.sys := rfl
@[simp] theorem modSrc_free (n : Nat) (g : FaultSrc → FaultSrc) : (s.modSrc n g).free = s.free := rfl
@[simp] theorem modSrc_out (n : Nat) (g : FaultSrc → FaultSrc) : (s.modSrc n g).out = s.out := rfl
@[simp] theorem modSrc_stew_flt (n : Nat) (g : FaultSrc → FaultSrc) : (s.modSrc n g).stew.flt = s.stew.flt := rfl
@[simp] theorem modSrc_stew_alert (n : Nat) (g : FaultSrc → FaultSrc) : (s.modSrc n g).stew.alert = s.stew.alert := rfl
@[simp] theorem modSrc_stew_fltAt (n : Nat) (g : FaultSrc → FaultSrc) : (s.modSrc n g).stew.fltAt = s.stew.fltAt := rfl
@[simp] theorem modSrc_stew_alertAt (n : Nat) (g : FaultSrc → FaultSrc) : (s.modSrc n g).stew.alertAt = s.stew.alertAt := rfl
@[simp] theorem modSrc_stew_wdog (n : Nat) (g : FaultSrc → FaultSrc) : (s.modSrc n g).stew.wdog = s.stew.wdog := rfl
@[simp] theorem modSrc_stew_coreSevere (n : Nat) (g : FaultSrc → FaultSrc) : (s.modSrc n g).stew.coreSevere = s.stew.coreSevere := rfl
@[simp] theorem modSrc_stew_coreFenced (n : Nat) (g : FaultSrc → FaultSrc) : (s.modSrc n g).stew.coreFenced = s.stew.coreFenced := rfl
@[simp] theorem modSrc_stew_tinkFenced (n : Nat) (g : FaultSrc → FaultSrc) : (s.modSrc n g).stew.tinkFenced = s.stew.tinkFenced := rfl
@[simp] theorem modSrc_stew_ringFenced (n : Nat) (g : FaultSrc → FaultSrc) : (s.modSrc n g).stew.ringFenced = s.stew.ringFenced := rfl
@[simp] theorem modSrc_stew_started (n : Nat) (g : FaultSrc → FaultSrc) : (s.modSrc n g).stew.started = s.stew.started := rfl
@[simp] theorem modSrc_tai_eq (n : Nat) (g : FaultSrc → FaultSrc)  : (s.modSrc n g).tai  = s.tai := rfl
@[simp] theorem modSrc_reg_eq (n : Nat) (g : FaultSrc → FaultSrc) (a' : Nat) : (s.modSrc n g).reg a' = s.reg a' := rfl
@[simp] theorem modSrc_fld_eq (n : Nat) (g : FaultSrc → FaultSrc) (a' b' c' : Nat) : (s.modSrc n g).fld a' b' c' = s.fld a' b' c' := rfl
@[simp] theorem modSrc_flag_eq (n : Nat) (g : FaultSrc → FaultSrc) (a' b' : Nat) : (s.modSrc n g).flag a' b' = s.flag a' b' := rfl
@[simp] theorem modSrc_counter_eq (n : Nat) (g : FaultSrc → FaultSrc) (a' : Nat) : (s.modSrc n g).counter a' = s.counter a' := rfl
@[simp] theorem modSrc_engine_eq (n : Nat) (g : FaultSrc → FaultSrc) (a' : Nat) : (s.modSrc n g).engine a' = s.engine a' := rfl
@[simp] theorem modSrc_port_eq (n : Nat) (g : FaultSrc → FaultSrc) (a' : Nat) : (s.modSrc n g).port a' = s.port a' := rfl
@[simp] theorem modSrc_serving_eq (n : Nat) (g : FaultSrc → FaultSrc) (a' : Nat) : (s.modSrc n g).serving a' = s.serving a' := rfl
@[simp] theorem modSrc_ip_eq (n : Nat) (g : FaultSrc → FaultSrc) (a' : Nat) : (s.modSrc n g).ip a' = s.ip a' := rfl
@[simp] theorem modSrc_frameOpt_eq (n : Nat) (g : FaultSrc → FaultSrc) (a' : Nat) : (s.modSrc n g).frame? a' = s.frame? a' := rfl
@[simp] theorem modSrc_ep_eq (n : Nat) (g : FaultSrc → FaultSrc) (d' : Ep) : (s.modSrc n g).ep d' = s.ep d' := rfl
@[simp] theorem modSrc_usable_eq (n : Nat) (g : FaultSrc → FaultSrc) (d' : Ep) : (s.modSrc n g).usable d' = s.usable d' := rfl
@[simp] theorem modSrc_ring_eq (n : Nat) (g : FaultSrc → FaultSrc) (d' : Ep) (a' : Nat) : (s.modSrc n g).ring d' a' = s.ring d' a' := rfl
@[simp] theorem modSrc_watchOf_eq (n : Nat) (g : FaultSrc → FaultSrc) (a' : Nat) : (s.modSrc n g).watchOf a' = s.watchOf a' := rfl
@[simp] theorem modSrc_recOf_eq (n : Nat) (g : FaultSrc → FaultSrc) (a' : Nat) : (s.modSrc n g).recOf a' = s.recOf a' := rfl
@[simp] theorem modSrc_half_eq (n : Nat) (g : FaultSrc → FaultSrc) (a' b' : Nat) : (s.modSrc n g).half a' b' = s.half a' b' := rfl
@[simp] theorem modSrc_bank_eq (n : Nat) (g : FaultSrc → FaultSrc) (c' : Bool) : (s.modSrc n g).bank c' = s.bank c' := rfl

/-! ### State.modWatch -/

@[simp] theorem modWatch_pending (n : Nat) (f : WState → WState) : (s.modWatch n f).pending = s.pending := rfl
@[simp] theorem modWatch_gen (n : Nat) (f : WState → WState) : (s.modWatch n f).gen = s.gen := rfl
@[simp] theorem modWatch_time (n : Nat) (f : WState → WState) : (s.modWatch n f).time = s.time := rfl
@[simp] theorem modWatch_regs (n : Nat) (f : WState → WState) : (s.modWatch n f).regs = s.regs := rfl
@[simp] theorem modWatch_engines (n : Nat) (f : WState → WState) : (s.modWatch n f).engines = s.engines := rfl
@[simp] theorem modWatch_ports (n : Nat) (f : WState → WState) : (s.modWatch n f).ports = s.ports := rfl
@[simp] theorem modWatch_xcvr (n : Nat) (f : WState → WState) : (s.modWatch n f).xcvr = s.xcvr := rfl
@[simp] theorem modWatch_frames (n : Nat) (f : WState → WState) : (s.modWatch n f).frames = s.frames := rfl
@[simp] theorem modWatch_nextFrame (n : Nat) (f : WState → WState) : (s.modWatch n f).nextFrame = s.nextFrame := rfl
@[simp] theorem modWatch_scriv (n : Nat) (f : WState → WState) : (s.modWatch n f).scriv = s.scriv := rfl
@[simp] theorem modWatch_crier (n : Nat) (f : WState → WState) : (s.modWatch n f).crier = s.crier := rfl
@[simp] theorem modWatch_lock (n : Nat) (f : WState → WState) : (s.modWatch n f).lock = s.lock := rfl
@[simp] theorem modWatch_epA (n : Nat) (f : WState → WState) : (s.modWatch n f).epA = s.epA := rfl
@[simp] theorem modWatch_epB (n : Nat) (f : WState → WState) : (s.modWatch n f).epB = s.epB := rfl
@[simp] theorem modWatch_rings (n : Nat) (f : WState → WState) : (s.modWatch n f).rings = s.rings := rfl
@[simp] theorem modWatch_bell (n : Nat) (f : WState → WState) : (s.modWatch n f).bell = s.bell := rfl
@[simp] theorem modWatch_dray (n : Nat) (f : WState → WState) : (s.modWatch n f).dray = s.dray := rfl
@[simp] theorem modWatch_cellar (n : Nat) (f : WState → WState) : (s.modWatch n f).cellar = s.cellar := rfl
@[simp] theorem modWatch_stew (n : Nat) (f : WState → WState) : (s.modWatch n f).stew = s.stew := rfl
@[simp] theorem modWatch_tink (n : Nat) (f : WState → WState) : (s.modWatch n f).tink = s.tink := rfl
@[simp] theorem modWatch_sys (n : Nat) (f : WState → WState) : (s.modWatch n f).sys = s.sys := rfl
@[simp] theorem modWatch_free (n : Nat) (f : WState → WState) : (s.modWatch n f).free = s.free := rfl
@[simp] theorem modWatch_out (n : Nat) (f : WState → WState) : (s.modWatch n f).out = s.out := rfl
@[simp] theorem modWatch_watch_bank0 (n : Nat) (f : WState → WState) : (s.modWatch n f).watch.bank0 = s.watch.bank0 := rfl
@[simp] theorem modWatch_watch_bank1 (n : Nat) (f : WState → WState) : (s.modWatch n f).watch.bank1 = s.watch.bank1 := rfl
@[simp] theorem modWatch_watch_loader (n : Nat) (f : WState → WState) : (s.modWatch n f).watch.loader = s.watch.loader := rfl
@[simp] theorem modWatch_watch_sweepPos (n : Nat) (f : WState → WState) : (s.modWatch n f).watch.sweepPos = s.watch.sweepPos := rfl
@[simp] theorem modWatch_watch_sweepBegan (n : Nat) (f : WState → WState) : (s.modWatch n f).watch.sweepBegan = s.watch.sweepBegan := rfl
@[simp] theorem modWatch_watch_sweepAfterCut (n : Nat) (f : WState → WState) : (s.modWatch n f).watch.sweepAfterCut = s.watch.sweepAfterCut := rfl
@[simp] theorem modWatch_watch_cutSwept (n : Nat) (f : WState → WState) : (s.modWatch n f).watch.cutSwept = s.watch.cutSwept := rfl
@[simp] theorem modWatch_watch_stalled (n : Nat) (f : WState → WState) : (s.modWatch n f).watch.stalled = s.watch.stalled := rfl
@[simp] theorem modWatch_watch_fenced (n : Nat) (f : WState → WState) : (s.modWatch n f).watch.fenced = s.watch.fenced := rfl
@[simp] theorem modWatch_watch_swapNo (n : Nat) (f : WState → WState) : (s.modWatch n f).watch.swapNo = s.watch.swapNo := rfl
@[simp] theorem modWatch_watch_uncheckedLeft (n : Nat) (f : WState → WState) : (s.modWatch n f).watch.uncheckedLeft = s.watch.uncheckedLeft := rfl
@[simp] theorem modWatch_watch_walks (n : Nat) (f : WState → WState) : (s.modWatch n f).watch.walks = s.watch.walks := rfl
@[simp] theorem modWatch_watch_captured (n : Nat) (f : WState → WState) : (s.modWatch n f).watch.captured = s.watch.captured := rfl
@[simp] theorem modWatch_tai_eq (n : Nat) (f : WState → WState)  : (s.modWatch n f).tai  = s.tai := rfl
@[simp] theorem modWatch_reg_eq (n : Nat) (f : WState → WState) (a' : Nat) : (s.modWatch n f).reg a' = s.reg a' := rfl
@[simp] theorem modWatch_fld_eq (n : Nat) (f : WState → WState) (a' b' c' : Nat) : (s.modWatch n f).fld a' b' c' = s.fld a' b' c' := rfl
@[simp] theorem modWatch_flag_eq (n : Nat) (f : WState → WState) (a' b' : Nat) : (s.modWatch n f).flag a' b' = s.flag a' b' := rfl
@[simp] theorem modWatch_counter_eq (n : Nat) (f : WState → WState) (a' : Nat) : (s.modWatch n f).counter a' = s.counter a' := rfl
@[simp] theorem modWatch_engine_eq (n : Nat) (f : WState → WState) (a' : Nat) : (s.modWatch n f).engine a' = s.engine a' := rfl
@[simp] theorem modWatch_port_eq (n : Nat) (f : WState → WState) (a' : Nat) : (s.modWatch n f).port a' = s.port a' := rfl
@[simp] theorem modWatch_serving_eq (n : Nat) (f : WState → WState) (a' : Nat) : (s.modWatch n f).serving a' = s.serving a' := rfl
@[simp] theorem modWatch_ip_eq (n : Nat) (f : WState → WState) (a' : Nat) : (s.modWatch n f).ip a' = s.ip a' := rfl
@[simp] theorem modWatch_frameOpt_eq (n : Nat) (f : WState → WState) (a' : Nat) : (s.modWatch n f).frame? a' = s.frame? a' := rfl
@[simp] theorem modWatch_ep_eq (n : Nat) (f : WState → WState) (d' : Ep) : (s.modWatch n f).ep d' = s.ep d' := rfl
@[simp] theorem modWatch_usable_eq (n : Nat) (f : WState → WState) (d' : Ep) : (s.modWatch n f).usable d' = s.usable d' := rfl
@[simp] theorem modWatch_ring_eq (n : Nat) (f : WState → WState) (d' : Ep) (a' : Nat) : (s.modWatch n f).ring d' a' = s.ring d' a' := rfl
@[simp] theorem modWatch_src_eq (n : Nat) (f : WState → WState) (a' : Nat) : (s.modWatch n f).src a' = s.src a' := rfl
@[simp] theorem modWatch_recOf_eq (n : Nat) (f : WState → WState) (a' : Nat) : (s.modWatch n f).recOf a' = s.recOf a' := rfl
@[simp] theorem modWatch_half_eq (n : Nat) (f : WState → WState) (a' b' : Nat) : (s.modWatch n f).half a' b' = s.half a' b' := rfl
@[simp] theorem modWatch_bank_eq (n : Nat) (f : WState → WState) (c' : Bool) : (s.modWatch n f).bank c' = s.bank c' := rfl

/-! ## What the updates write -/

@[simp] theorem advanceTo_now (n : Nat) : (s.advanceTo n).time.now = max s.time.now n := rfl
@[simp] theorem setReg_reg (o : Nat) (v : Word) (a : Nat) : (s.setReg o v).reg a = if a = o then v else s.reg a := by
  simp [State.reg, State.setReg]
@[simp] theorem setReg_fld (o : Nat) (v : Word) (a lo len : Nat) :
    (s.setReg o v).fld a lo len = if a = o then v.field lo len else s.fld a lo len := by
  simp only [State.fld, setReg_reg]
  split <;> rfl
@[simp] theorem setReg_flag (o : Nat) (v : Word) (a i : Nat) :
    (s.setReg o v).flag a i = if a = o then v.bit i else s.flag a i := by
  simp only [State.flag, setReg_reg]
  split <;> rfl
@[simp] theorem countN_counter (o n a : Nat) : (s.countN o n).counter a = if a = o then satAdd (s.counter o) n else s.counter a := by
  simp [State.counter, State.countN]
@[simp] theorem count_counter (o a : Nat) : (s.count o).counter a = if a = o then satAdd (s.counter o) 1 else s.counter a := by
  simp [State.count]
@[simp] theorem setEngine_engine (n : Nat) (x : Engine) (m : Nat) : (s.setEngine n x).engine m = if m = n then x else s.engine m := by
  simp [State.engine, State.setEngine]
@[simp] theorem modEngine_engine (n : Nat) (f : Engine → Engine) (m : Nat) :
    (s.modEngine n f).engine m = if m = n then f (s.engine n) else s.engine m := by
  simp [State.modEngine]
@[simp] theorem setPort_port (n : Nat) (x : Port) (m : Nat) : (s.setPort n x).port m = if m = n then x else s.port m := by
  simp [State.port, State.setPort]
@[simp] theorem modPort_port (n : Nat) (f : Port → Port) (m : Nat) :
    (s.modPort n f).port m = if m = n then f (s.port n) else s.port m := by
  simp [State.modPort]
@[simp] theorem modIp_ip (n : Nat) (f : Transceiver → Transceiver) (m : Nat) :
    (s.modIp n f).ip m = if m = n then f (s.ip n) else s.ip m := by
  simp [State.ip, State.modIp]
@[simp] theorem setFrame_frame? (n : Nat) (x : Machine.Frame) (m : Nat) :
    (s.setFrame n x).frame? m = if m = n then some x else s.frame? m := by
  simp [State.frame?, State.setFrame]
@[simp] theorem emit_out (o : Out) : (s.emit o).out = o :: s.out := rfl
@[simp] theorem modEp_ep (e : Ep) (f : Endpoint → Endpoint) (d : Ep) :
    (s.modEp e f).ep d = if d = e then f (s.ep e) else s.ep d := by
  cases e <;> cases d <;> rfl
@[simp] theorem setLock_unlocked (p : Path) (b : Bool) (q : Path) :
    (s.setLock p b).unlocked q = if q = p then b else s.unlocked q := by
  cases p with
  | ep e => cases e <;> cases q with
    | ep d => cases d <;> rfl
    | mgmt => rfl
  | mgmt => cases q with
    | ep d => cases d <;> rfl
    | mgmt => rfl
/-- The rings of one endpoint have numbers of their own: below 128 no two keys meet. -/
theorem modRing_ring (e : Ep) (k : Nat) (f : Ring → Ring) (d : Ep) (j : Nat) (hk : k < 128) (hj : j < 128) :
    (s.modRing e k f).ring d j = if d = e ∧ j = k then f (s.ring e k) else s.ring d j := by
  cases e <;> cases d <;> simp [State.ring, State.modRing, Ep.idx]
  · intro h
    omega
  · intro h
    omega
@[simp] theorem modRing_ring_same (e : Ep) (k : Nat) (f : Ring → Ring) : (s.modRing e k f).ring e k = f (s.ring e k) := by
  simp [State.ring, State.modRing]
@[simp] theorem modStore_store (f : Store → Store) : (s.modStore f).cellar.store = f s.cellar.store := rfl
@[simp] theorem modLoader_loader (f : Loader → Loader) : (s.modLoader f).watch.loader = f s.watch.loader := rfl
@[simp] theorem modSub_sub (n : Nat) (f : Sub → Sub) (m : Nat) : (s.modSub n f).sub m = if m = n then f (s.sub n) else s.sub m := by
  simp [State.sub, State.modSub]
/-- The halves of a slot are two: below 2 no two keys meet. -/
theorem setHalf_half (n w : Nat) (h : KeyHalf) (m v : Nat) (hw : w < 2) (hv : v < 2) :
    (s.setHalf n w h).half m v = if m = n ∧ v = w then h else s.half m v := by
  simp only [State.half, State.setHalf, get_set]
  by_cases e : 2 * m + v = 2 * n + w
  · rw [if_pos e, if_pos (by omega)]
  · rw [if_neg e, if_neg (by omega)]
@[simp] theorem setRec_recOf (n : Nat) (r : Rec) (m : Nat) : (s.setRec n r).recOf m = if m = n then r else s.recOf m := by
  simp [State.recOf, State.setRec]
@[simp] theorem modSrc_src (n : Nat) (g : FaultSrc → FaultSrc) (m : Nat) :
    (s.modSrc n g).src m = if m = n then g (s.src n) else s.src m := by
  simp [State.src, State.modSrc]
@[simp] theorem modWatch_watchOf (n : Nat) (f : WState → WState) (m : Nat) :
    (s.modWatch n f).watchOf m = if m = n then f (s.watchOf n) else s.watchOf m := by
  simp [State.watchOf, State.modWatch]

end Sys2Proof.Laws
end

