-- ==== Sys2Proof/Laws/Bell.lean ====
section
/-! SUPPORT. What the Bell Board's service leaves as it was within its parts: pending bits, stacks, masks, and of an endpoint
everything but its pending bit array; and that what has been sent stays sent. -/

namespace Sys2Proof.Laws

open Sys2Proof.Machine Sys2Proof.Safety

/-- What the service of the Bell Board never changes. -/
structure Served (s t : State) : Prop where
  keeps     : Keeps bellParts s t
  pend      : t.bell.pend = s.bell.pend
  stack     : t.bell.stack = s.bell.stack
  masked    : t.bell.masked = s.bell.masked
  signalled : ∀ g : Nat, g ∈ s.bell.signalled → g ∈ t.bell.signalled
  out       : ∀ o : Out, o ∈ s.out → o ∈ t.out
  ep        : ∀ e : Ep, { t.ep e with pba := 0 } = { s.ep e with pba := 0 }
  pba       : ∀ (e : Ep) (i : Nat), (s.ep e).pba.bit i = true → (t.ep e).pba.bit i = true
  /-- An endpoint that is not usable is left whole. -/
  away      : ∀ e : Ep, s.usable e = false → t.ep e = s.ep e

theorem Served.refl (s : State) : Served s s :=
  ⟨Keeps.refl _ _, rfl, rfl, rfl, fun _ h => h, fun _ h => h, fun _ => rfl, fun _ _ h => h, fun _ _ => rfl⟩

theorem usable_of_ep {s t : State} {e : Ep} (h : { t.ep e with pba := 0 } = { s.ep e with pba := 0 }) : t.usable e = s.usable e := by
  have h1 : (t.ep e).link = (s.ep e).link := by simpa using congrArg (fun x : Endpoint => x.link) h
  have h2 : (t.ep e).d3 = (s.ep e).d3 := by simpa using congrArg (fun x : Endpoint => x.d3) h
  have h3 : (t.ep e).flr = (s.ep e).flr := by simpa using congrArg (fun x : Endpoint => x.flr) h
  have h4 : (t.ep e).mse = (s.ep e).mse := by simpa using congrArg (fun x : Endpoint => x.mse) h
  have h5 : (t.ep e).bme = (s.ep e).bme := by simpa using congrArg (fun x : Endpoint => x.bme) h
  have h6 : (t.ep e).fundamental = (s.ep e).fundamental := by simpa using congrArg (fun x : Endpoint => x.fundamental) h
  simp only [State.usable, Endpoint.usable, h1, h2, h3, h4, h5, h6]

theorem Served.trans {s t u : State} (h : Served s t) (k : Served t u) : Served s u where
  keeps := Keeps.trans h.keeps k.keeps
  pend := k.pend.trans h.pend
  stack := k.stack.trans h.stack
  masked := k.masked.trans h.masked
  signalled := fun g hg => k.signalled g (h.signalled g hg)
  out := fun o ho => k.out o (h.out o ho)
  ep := fun e => (k.ep e).trans (h.ep e)
  pba := fun e i hi => k.pba e i (h.pba e i hi)
  away := fun e he => (k.away e ((usable_of_ep (h.ep e)).trans he)).trans (h.away e he)

theorem Served.foldl {α : Type} {f : State → α → State} (hf : ∀ (u : State) (x : α), Served u (f u x)) (l : List α) (s : State) :
    Served s (l.foldl f s) := by
  induction l generalizing s with
  | nil => exact Served.refl s
  | cons a l ih => exact (hf s a).trans (ih _)

theorem served_count (s : State) (o : Nat) : Served s (s.count o) where
  keeps := Keeps.mono (keeps_count s o) rfl
  pend := rfl
  stack := rfl
  masked := rfl
  signalled := fun _ h => h
  out := fun _ h => h
  ep := fun e => by cases e <;> rfl
  pba := fun e i h => by cases e <;> exact h
  away := fun e _ => by cases e <;> rfl

theorem served_requestVector (s : State) (e : Ep) (v : Nat) (hu : s.usable e = true) : Served s (s.requestVector e v) := by
  unfold State.requestVector
  split
  · refine ⟨Keeps.mono (keeps_modEp _ _ _) rfl, by simp, by simp, by simp, fun _ h => by simpa using h, fun _ h => by simpa using h,
      fun d => ?_, fun d i h => ?_, fun d hd => ?_⟩
    · rw [modEp_ep]
      split
      · rename_i h
        rw [h]
      · rfl
    · rw [modEp_ep]
      split
      · rename_i hd
        subst hd
        simp only [Word.bit] at h ⊢
        simp [h]
      · exact h
    · rw [modEp_ep, if_neg]
      rintro rfl
      simp [hu] at hd
  · unfold State.sendVector
    refine ⟨Keeps.mono (keeps_emit _ _) rfl, by simp, by simp, by simp, fun _ h => by simpa using h, fun _ h => by simp [h],
      fun d => by simp, fun d i h => by simpa using h, fun d _ => by simp⟩

theorem served_bellMessage (s : State) (t : Nat) : Served s (s.bellMessage t) := by
  unfold State.bellMessage
  split
  · rename_i h
    simp only [Bool.and_eq_true] at h
    have h1 := (served_count s (Reg.bellMsgs t)).trans
      (served_requestVector (s.count (Reg.bellMsgs t)) (targetEp t) (s.fld (Reg.bellTgtCfg t) 0 6) (by simpa using h.1.2))
    refine h1.trans ?_
    exact ⟨by
      refine Keeps.with_bell ?_ (Keeps.refl _ _)
      exact rfl, rfl, rfl, rfl, fun g hg => by
        simp only [mem_setInsert]
        exact .inr (by simpa using hg), fun _ h => h, fun e => by cases e <;> rfl, fun e i h => by cases e <;> exact h, fun e _ => by cases e <;> rfl⟩
  · exact Served.refl s

theorem served_bellService (s : State) : Served s s.bellService :=
  Served.foldl (fun u t => served_bellMessage u t) _ s

/-- A raise changes the pending bit it sets, and what the service may change. -/
theorem raise_eq (s : State) (n : Nat) : s.raise n = s ∨ s.raise n = s.count Reg.bellCoalesced ∨
    s.raise n = State.bellService { s with bell := { s.bell with pend := setInsert n s.bell.pend } } := by
  unfold State.raise
  split
  · exact .inl rfl
  · split
    · exact .inr (.inl rfl)
    · exact .inr (.inr rfl)

/-- What a raise leaves: as the service, but for the pending bits. -/
theorem raise_out (s : State) (n : Nat) (o : Out) (h : o ∈ s.out) : o ∈ (s.raise n).out := by
  rcases raise_eq s n with e | e | e <;> rw [e]
  · exact h
  · exact h
  · exact (served_bellService _).out o h

theorem raise_stack (s : State) (n : Nat) : (s.raise n).bell.stack = s.bell.stack := by
  rcases raise_eq s n with e | e | e <;> rw [e]
  · rfl
  · exact (served_bellService _).stack

theorem raise_masked (s : State) (n : Nat) : (s.raise n).bell.masked = s.bell.masked := by
  rcases raise_eq s n with e | e | e <;> rw [e]
  · rfl
  · exact (served_bellService _).masked

theorem raise_ep (s : State) (n : Nat) (e : Ep) : { (s.raise n).ep e with pba := 0 } = { s.ep e with pba := 0 } := by
  rcases raise_eq s n with h | h | h <;> rw [h]
  · cases e <;> rfl
  · exact ((served_bellService _).ep e).trans (by cases e <;> rfl)

theorem raise_away (s : State) (n : Nat) (e : Ep) (hu : s.usable e = false) : (s.raise n).ep e = s.ep e := by
  rcases raise_eq s n with h | h | h <;> rw [h]
  · cases e <;> rfl
  · exact ((served_bellService _).away e (by cases e <;> exact hu)).trans (by cases e <;> rfl)

/-! ## The message of a target (R391 to R393) -/

theorem bellMessage_signalled (s : State) (t g : Nat) (h : g ≠ t) (hg : g ∉ s.bell.signalled) :
    g ∉ (s.bellMessage t).bell.signalled := by
  unfold State.bellMessage
  split
  · simp only [mem_setInsert, not_or]
    have hs : ((s.count (Reg.bellMsgs t)).requestVector (targetEp t) (s.fld (Reg.bellTgtCfg t) 0 6)).bell = s.bell :=
      (Keeps.bell (keeps_requestVector _ _ _) rfl).trans (Keeps.bell (keeps_count _ _) rfl)
    rw [hs]
    exact ⟨h, hg⟩
  · exact hg

theorem bellMessages_signalled (l : List Nat) (s : State) (g : Nat) (h : g ∉ l) (hg : g ∉ s.bell.signalled) :
    g ∉ (l.foldl State.bellMessage s).bell.signalled := by
  induction l generalizing s with
  | nil => exact hg
  | cons t l ih =>
    simp only [List.mem_cons, not_or] at h
    exact ih _ h.2 (bellMessage_signalled s t g h.1 hg)

/-- What the service leaves is enough to keep a source deliverable. -/
theorem Served.deliverable {s t : State} (h : Served s t) (g n : Nat) : t.deliverable g n = s.deliverable g n := by
  have h1 : ∀ o a b, t.fld o a b = s.fld o a b := fun o a b => Keeps.fld h.keeps rfl o a b
  have h2 : ∀ o a, t.flag o a = s.flag o a := fun o a => Keeps.flag h.keeps rfl o a
  have h3 : t.runPri g = s.runPri g := by simp only [State.runPri, State.bellStack, h.stack]
  have h4 : t.bellPrio n = s.bellPrio n := h1 _ _ _
  simp only [State.deliverable, h1, h2, h3, h4, h.masked]

theorem Served.vectorMasked {s t : State} (h : Served s t) (e : Ep) (v : Nat) :
    (t.ep e).vectorMasked v = (s.ep e).vectorMasked v := by
  have h1 : (t.ep e).funcMask = (s.ep e).funcMask := by simpa using congrArg (fun x : Endpoint => x.funcMask) (h.ep e)
  have h2 : (t.ep e).msix = (s.ep e).msix := by simpa using congrArg (fun x : Endpoint => x.msix) (h.ep e)
  simp only [Endpoint.vectorMasked, Endpoint.msixWord, h1, h2]

/-- A target of a usable endpoint that is not signalled and has a pending deliverable source is signalled by the service,
and its vector's message goes out, or is noted while the vector is masked. -/
theorem bellService_signals (s : State) (g n : Nat) (hg : g < 16) (hs : g ∉ s.bell.signalled) (hp : n ∈ s.bell.pend)
    (hd : s.deliverable g n = true) (hu : s.usable (targetEp g) = true) :
    g ∈ s.bellService.bell.signalled ∧
    ((s.ep (targetEp g)).vectorMasked (s.fld (Reg.bellTgtCfg g) 0 6) = false →
      ∃ (a : Word) (d : Nat), .message (targetEp g) (s.fld (Reg.bellTgtCfg g) 0 6) a d ∈ s.bellService.out) ∧
    ((s.ep (targetEp g)).vectorMasked (s.fld (Reg.bellTgtCfg g) 0 6) = true →
      (s.bellService.ep (targetEp g)).pba.bit (s.fld (Reg.bellTgtCfg g) 0 6) = true) := by
  obtain ⟨l1, l2, hl⟩ : ∃ l1 l2, List.range 16 = l1 ++ g :: l2 := List.append_of_mem (List.mem_range.2 hg)
  have hn1 : g ∉ l1 := by
    intro hm
    have hnd : (List.range 16).Nodup := List.nodup_range
    rw [hl] at hnd
    exact (List.disjoint_of_nodup_append hnd) hm (by simp)
  have he : s.bellService = l2.foldl State.bellMessage ((l1.foldl State.bellMessage s).bellMessage g) := by
    unfold State.bellService
    rw [hl, List.foldl_append]
    rfl
  have h1 : Served s (l1.foldl State.bellMessage s) := Served.foldl (fun u t => served_bellMessage u t) l1 s
  have hs1 : g ∉ (l1.foldl State.bellMessage s).bell.signalled := bellMessages_signalled l1 s g hn1 hs
  generalize l1.foldl State.bellMessage s = u at he h1 hs1
  have hu1 : u.usable (targetEp g) = true := (usable_of_ep (h1.ep _)).trans hu
  have hd1 : (u.deliverables g).isEmpty = false := by
    simp only [State.deliverables, h1.pend, List.isEmpty_eq_false_iff_exists_mem, List.mem_filter]
    exact ⟨n, hp, by rw [h1.deliverable]; exact hd⟩
  have hc : (!u.bell.signalled.contains g && u.usable (targetEp g) && !(u.deliverables g).isEmpty) = true := by
    simp [hu1, hd1]
    simpa using hs1
  have hf : u.fld (Reg.bellTgtCfg g) 0 6 = s.fld (Reg.bellTgtCfg g) 0 6 := Keeps.fld h1.keeps rfl _ _ _
  have h2 : Served (u.bellMessage g) s.bellService := by
    rw [he]
    exact Served.foldl (fun u t => served_bellMessage u t) l2 _
  have hm : u.bellMessage g = { (u.count (Reg.bellMsgs g)).requestVector (targetEp g) (s.fld (Reg.bellTgtCfg g) 0 6) with
      bell := { ((u.count (Reg.bellMsgs g)).requestVector (targetEp g) (s.fld (Reg.bellTgtCfg g) 0 6)).bell with
        signalled := setInsert g ((u.count (Reg.bellMsgs g)).requestVector (targetEp g) (s.fld (Reg.bellTgtCfg g) 0 6)).bell.signalled } } := by
    rw [State.bellMessage, if_pos hc, hf]
  have hv : ((u.count (Reg.bellMsgs g)).ep (targetEp g)).vectorMasked (s.fld (Reg.bellTgtCfg g) 0 6) =
      (s.ep (targetEp g)).vectorMasked (s.fld (Reg.bellTgtCfg g) 0 6) := by
    rw [count_ep_eq, h1.vectorMasked]
  refine ⟨h2.signalled g (by rw [hm]; simp), fun hk => ?_, fun hk => ?_⟩
  · have hx : ∃ (a : Word) (d : Nat), .message (targetEp g) (s.fld (Reg.bellTgtCfg g) 0 6) a d ∈ (u.bellMessage g).out := by
      rw [hm]
      simp only [State.requestVector, hv, hk, Bool.false_eq_true, if_false, State.sendVector, emit_out]
      exact ⟨_, _, List.mem_cons_self⟩
    obtain ⟨a, d, hx⟩ := hx
    exact ⟨a, d, h2.out _ hx⟩
  · refine h2.pba _ _ ?_
    rw [hm]
    have h3 : ∀ (x : State) (b : BellUnit), ({ x with bell := b } : State).ep (targetEp g) = x.ep (targetEp g) := by
      intro x b
      cases targetEp g <;> rfl
    rw [h3]
    simp only [State.requestVector, hv, hk, if_true, modEp_ep, Word.bit]
    have h6 : s.fld (Reg.bellTgtCfg g) 0 6 < 64 := Nat.mod_lt _ (by decide)
    generalize s.fld (Reg.bellTgtCfg g) 0 6 = v at h6
    simp [h6]

end Sys2Proof.Laws
end

