-- ==== Sys2Proof/Laws/Bits.lean ====
section
/-! SUPPORT. The laws of fields and bits of a word: what a field of a merged or clamped word is. -/

namespace Sys2Proof.Laws

open Sys2Proof.Machine

theorem field_eq (w : Word) (lo len : Nat) : w.field lo len = w.toNat / 2 ^ lo % 2 ^ len := rfl

theorem field_lt (w : Word) (lo len : Nat) : w.field lo len < 2 ^ len := by
  rw [field_eq]
  exact Nat.mod_lt _ (Nat.two_pow_pos len)

theorem field_extract (w : Word) (lo len : Nat) : w.field lo len = (w.extractLsb' lo len).toNat := by
  rw [BitVec.extractLsb'_toNat, Nat.shiftRight_eq_div_pow, field_eq]

/-- Two words whose bits agree over a field agree in the field. -/
theorem field_congr {v w : Word} {lo len : Nat} (h : ∀ i < len, v.getLsbD (lo + i) = w.getLsbD (lo + i)) :
    v.field lo len = w.field lo len := by
  have : v.extractLsb' lo len = w.extractLsb' lo len := by
    apply BitVec.eq_of_getLsbD_eq
    intro i hi
    simp [hi, h i hi]
  rw [field_extract, field_extract, this]

/-- A one-bit field is a bit. -/
theorem field_one (w : Word) (i : Nat) : w.field i 1 = if w.bit i then 1 else 0 := by
  have h : w.toNat.testBit i = w.bit i := rfl
  rw [field_eq, ← h, Nat.testBit_eq_decide_div_mod_eq]
  have := Nat.mod_two_eq_zero_or_one (w.toNat / 2 ^ i)
  rcases this with h | h <;> simp [h]

theorem getLsbD_mixWord (m old new : Word) (i : Nat) :
    (mixWord m old new).getLsbD i = if m.getLsbD i then new.getLsbD i else old.getLsbD i := by
  simp only [mixWord, BitVec.getLsbD_or, BitVec.getLsbD_and, BitVec.getLsbD_not]
  by_cases hi : i < 64
  · cases m.getLsbD i <;> simp [hi]
  · have h1 := BitVec.getLsbD_of_ge m i (by omega)
    have h2 := BitVec.getLsbD_of_ge old i (by omega)
    simp [h1, h2]

/-- A field under the mask comes from the new word. -/
theorem field_mixWord {m old new : Word} {lo len : Nat} (h : ∀ i < len, m.getLsbD (lo + i) = true) :
    (mixWord m old new).field lo len = new.field lo len :=
  field_congr (fun i hi => by rw [getLsbD_mixWord, if_pos (h i hi)])

/-- A field outside the mask comes from the old word. -/
theorem field_mixWord_out {m old new : Word} {lo len : Nat} (h : ∀ i < len, m.getLsbD (lo + i) = false) :
    (mixWord m old new).field lo len = old.field lo len :=
  field_congr (fun i hi => by rw [getLsbD_mixWord, h i hi]; rfl)

theorem bit_mixWord {m old new : Word} {i : Nat} (h : m.getLsbD i = true) : (mixWord m old new).bit i = new.bit i := by
  simp only [Word.bit]
  rw [getLsbD_mixWord, if_pos h]

/-! ## A field replaced -/

theorem setField_toNat (w : Word) (lo len v : Nat) (h : lo + len ≤ 64) :
    (w.setField lo len v).toNat = w.toNat - w.field lo len * 2 ^ lo + v % 2 ^ len * 2 ^ lo ∧
    w.toNat = w.toNat / 2 ^ (lo + len) * 2 ^ (lo + len) + (w.field lo len * 2 ^ lo + w.toNat % 2 ^ lo) := by
  have hd : w.toNat = w.toNat / 2 ^ (lo + len) * 2 ^ (lo + len) + (w.field lo len * 2 ^ lo + w.toNat % 2 ^ lo) := by
    have h1 := Nat.div_add_mod w.toNat (2 ^ lo)
    have h2 := Nat.div_add_mod (w.toNat / 2 ^ lo) (2 ^ len)
    rw [Nat.div_div_eq_div_mul, ← pow_add] at h2
    rw [field_eq]
    have h3 : 2 ^ (lo + len) = 2 ^ len * 2 ^ lo := by rw [pow_add, mul_comm]
    rw [h3] at h2 ⊢
    calc w.toNat = 2 ^ lo * (w.toNat / 2 ^ lo) + w.toNat % 2 ^ lo := h1.symm
      _ = 2 ^ lo * (2 ^ len * (w.toNat / (2 ^ len * 2 ^ lo)) + w.toNat / 2 ^ lo % 2 ^ len) + w.toNat % 2 ^ lo := by rw [h2]
      _ = _ := by ring
  refine ⟨?_, hd⟩
  unfold Word.setField
  rw [BitVec.toNat_ofNat]
  apply Nat.mod_eq_of_lt
  have hw := w.isLt
  have hv : v % 2 ^ len < 2 ^ len := Nat.mod_lt _ (Nat.two_pow_pos len)
  have hr : w.toNat % 2 ^ lo < 2 ^ lo := Nat.mod_lt _ (Nat.two_pow_pos lo)
  have hp : (2 : Nat) ^ 64 = 2 ^ (lo + len) * 2 ^ (64 - (lo + len)) := by rw [← pow_add]; congr 1; omega
  have hq : w.toNat / 2 ^ (lo + len) < 2 ^ (64 - (lo + len)) := by
    rw [Nat.div_lt_iff_lt_mul (Nat.two_pow_pos _), mul_comm, ← hp]
    exact hw
  have hs : w.toNat - w.field lo len * 2 ^ lo + v % 2 ^ len * 2 ^ lo =
      w.toNat / 2 ^ (lo + len) * 2 ^ (lo + len) + (v % 2 ^ len * 2 ^ lo + w.toNat % 2 ^ lo) := by
    generalize w.field lo len * 2 ^ lo = f at hd ⊢
    omega
  rw [hs, hp]
  have hx : v % 2 ^ len * 2 ^ lo + w.toNat % 2 ^ lo < 2 ^ (lo + len) := by
    have h1 : v % 2 ^ len * 2 ^ lo + w.toNat % 2 ^ lo < (v % 2 ^ len + 1) * 2 ^ lo := by
      rw [Nat.add_mul, Nat.one_mul]
      omega
    have h2 : (v % 2 ^ len + 1) * 2 ^ lo ≤ 2 ^ len * 2 ^ lo := Nat.mul_le_mul_right _ hv
    rw [← pow_add, Nat.add_comm len] at h2
    omega
  calc _ < (w.toNat / 2 ^ (lo + len) + 1) * 2 ^ (lo + len) := by rw [Nat.add_mul, Nat.one_mul]; omega
    _ ≤ 2 ^ (64 - (lo + len)) * 2 ^ (lo + len) := Nat.mul_le_mul_right _ hq
    _ = _ := mul_comm _ _

/-- The bits of a word with one field replaced. -/
theorem getLsbD_setField (w : Word) (lo len v i : Nat) (h : lo + len ≤ 64) :
    (w.setField lo len v).getLsbD i = if lo ≤ i ∧ i < lo + len then v.testBit (i - lo) else w.getLsbD i := by
  obtain ⟨h1, h2⟩ := setField_toNat w lo len v h
  have hr : w.toNat % 2 ^ lo < 2 ^ lo := Nat.mod_lt _ (Nat.two_pow_pos lo)
  have hs : (w.setField lo len v).toNat =
      2 ^ (lo + len) * (w.toNat / 2 ^ (lo + len)) + (2 ^ lo * (v % 2 ^ len) + w.toNat % 2 ^ lo) := by
    rw [h1, mul_comm _ (w.toNat / _), mul_comm _ (v % _)]
    generalize w.field lo len * 2 ^ lo = f at h2 ⊢
    omega
  have hb : ∀ m : Nat, m < 2 ^ len → 2 ^ lo * m + w.toNat % 2 ^ lo < 2 ^ (lo + len) := by
    intro m hm
    have : 2 ^ lo * (m + 1) ≤ 2 ^ lo * 2 ^ len := Nat.mul_le_mul_left _ hm
    rw [← pow_add, Nat.mul_add] at this
    omega
  rw [BitVec.getLsbD, hs, Nat.testBit_two_pow_mul_add _ (hb _ (Nat.mod_lt _ (Nat.two_pow_pos len)))]
  by_cases hi : i < lo + len
  · rw [if_pos hi, Nat.testBit_two_pow_mul_add _ hr]
    by_cases hl : i < lo
    · rw [if_pos hl, if_neg (by omega), Nat.testBit_mod_two_pow]
      simp [hl, BitVec.getLsbD]
    · rw [if_neg hl, if_pos (by omega), Nat.testBit_mod_two_pow]
      simp [show i - lo < len by omega]
  · rw [if_neg hi, if_neg (by omega), Nat.testBit_div_two_pow, BitVec.getLsbD]
    congr 1
    omega

/-- A field clear of the one replaced is as it was. -/
theorem field_setField_out (w : Word) (lo len v a n : Nat) (h : lo + len ≤ 64) (ho : a + n ≤ lo ∨ lo + len ≤ a) :
    (w.setField lo len v).field a n = w.field a n :=
  field_congr (fun i hi => by rw [getLsbD_setField _ _ _ _ _ h, if_neg (by omega)])

theorem bit_setField_out (w : Word) (lo len v i : Nat) (h : lo + len ≤ 64) (ho : i < lo ∨ lo + len ≤ i) :
    (w.setField lo len v).bit i = w.bit i := by
  simp only [Word.bit]
  rw [getLsbD_setField _ _ _ _ _ h, if_neg (by omega)]

/-- Clamping a field leaves every bit outside it. -/
theorem bit_clamp_out (c : Clamp) (w : Word) (i : Nat) (h : c.lo + c.len ≤ 64) (ho : i < c.lo ∨ c.lo + c.len ≤ i) :
    (c.apply w).bit i = w.bit i := by
  unfold Clamp.apply
  dsimp only
  repeat' split
  all_goals first | rfl | exact bit_setField_out _ _ _ _ _ h ho

end Sys2Proof.Laws
end

