-- ==== Sys2Proof/Laws/FramesStorage.lean ====
section
/-! SUPPORT. Frames of the records, the command rings, the NAND, the Cellar, the Tinker and handovers:
the parts of the state that each operation may change. -/

namespace Sys2Proof.Laws

open Sys2Proof.Machine Sys2Proof.Safety

/-! ## Machine/Records.lean -/

theorem keeps_dropStage (s : State) :
    Keeps [.cellar] s (State.dropStage s) := by
  unfold State.dropStage
  refine Keeps.ite ?_ ?_
  · lift_lets -underBinder
    intro x1
    refine Keeps.with_cellar ?_ ?_ ?_
    · exact .inr rfl
    · exact .inl rfl
    · exact Keeps.refl _ _
  · exact Keeps.refl _ _

theorem keeps_fillBucket (s : State) :
    Keeps [.cellar] s (State.fillBucket s) := by
  unfold State.fillBucket
  refine Keeps.ite ?_ ?_
  · exact Keeps.refl _ _
  · lift_lets -underBinder
    intro x1 x2
    refine Keeps.with_cellar ?_ ?_ ?_
    · exact .inr rfl
    · exact .inl rfl
    · exact Keeps.refl _ _

theorem keeps_touchLine (s : State) (line : Nat) :
    Keeps [.counters, .scriv] s (State.touchLine s line) := by
  unfold State.touchLine
  lift_lets -underBinder
  intro x1 x2 x3 x4 x5
  refine Keeps.step (keeps_count _ _) rfl ?_
  refine Keeps.with_scriv ?_ ?_ ?_ ?_
  · exact .inr rfl
  · exact .inr rfl
  · exact .inl rfl
  · exact Keeps.refl _ _

theorem keeps_setRec (s : State) (i : Nat) (r : Rec) :
    Keeps [.records] s (State.setRec s i r) := by
  unfold State.setRec
  lift_lets -underBinder
  intro x1
  refine Keeps.with_scriv ?_ ?_ ?_ ?_
  · exact .inr rfl
  · exact .inl rfl
  · exact .inr rfl
  · exact Keeps.refl _ _

theorem keeps_joinSet (s : State) (i : Nat) :
    Keeps [.crier] s (State.joinSet s i) := by
  unfold State.joinSet
  refine Keeps.ite ?_ ?_
  · lift_lets -underBinder
    intro x1
    refine Keeps.with_crier ?_ ?_ ?_ ?_
    · exact .inr rfl
    · exact .inr ⟨rfl, rfl⟩
    · exact .inl rfl
    · exact Keeps.refl _ _
  · lift_lets -underBinder
    intro x2
    refine Keeps.with_crier ?_ ?_ ?_ ?_
    · exact .inr rfl
    · exact .inr ⟨rfl, rfl⟩
    · exact .inl rfl
    · exact Keeps.refl _ _

theorem keeps_changeRec (s : State) (i : Nat) (r : Rec) :
    Keeps [.records, .crier] s (State.changeRec s i r) := by
  unfold State.changeRec
  lift_lets -underBinder
  intro x1 x2 x3
  refine Keeps.step (keeps_joinSet _ _) rfl ?_
  refine Keeps.step (keeps_setRec _ _ _) rfl ?_
  exact Keeps.refl _ _

theorem keeps_nextSeq (s : State) :
    Keeps [.cellar] s (State.nextSeq s) := by
  unfold State.nextSeq
  lift_lets -underBinder
  intro x1
  refine Keeps.with_cellar ?_ ?_ ?_
  · exact .inr rfl
  · exact .inl rfl
  · exact Keeps.refl _ _

theorem keeps_staged (s : State) (flush : List (StoreRec × Nat)) (heldRecs : List (StoreRec × Nat)) :
    Keeps [.counters, .cellar] s (State.staged s flush heldRecs) := by
  unfold State.staged
  lift_lets -underBinder
  intro x1
  have h1 : Keeps [.counters, .cellar] s x1 := by
    refine Keeps.step (keeps_count _ _) rfl ?_
    refine Keeps.step (keeps_nextSeq _) rfl ?_
    exact Keeps.refl _ _
  clear_value x1
  intro x2
  refine Keeps.with_cellar ?_ ?_ ?_
  · exact .inr rfl
  · exact .inl rfl
  · exact h1

theorem keeps_journalStage (s : State) (i : Nat) (pclass : Nat) (ty : Nat) (r : Rec) :
    Keeps (faultParts ++ [.cellar]) s (State.journalStage s i pclass ty r) := by
  unfold State.journalStage
  lift_lets -underBinder
  intro x1 x2 x3 x4
  have h4 : Keeps (faultParts ++ [.cellar]) s x4 := by
    refine Keeps.with_cellar ?_ ?_ ?_
    · exact .inr rfl
    · exact .inl rfl
    · exact Keeps.refl _ _
  clear_value x4
  refine Keeps.ite ?_ ?_
  · exact Keeps.refl _ _
  · refine Keeps.ite ?_ ?_
    · refine Keeps.step (keeps_count _ _) rfl ?_
      exact Keeps.refl _ _
    · refine Keeps.ite ?_ ?_
      · refine Keeps.step (keeps_count _ _) rfl ?_
        exact Keeps.refl _ _
      · refine Keeps.ite ?_ ?_
        · refine Keeps.step (keeps_count _ _) rfl ?_
          exact Keeps.refl _ _
        · refine Keeps.ite ?_ ?_
          · refine Keeps.step (keeps_count _ _) rfl ?_
            refine Keeps.step (keeps_staged _ _ _) rfl ?_
            exact Keeps.refl _ _
          · refine Keeps.ite ?_ ?_
            · refine Keeps.step (keeps_staged _ _ _) rfl ?_
              exact Keeps.refl _ _
            · refine Keeps.ite ?_ ?_
              · refine Keeps.step (keeps_dropStage _) rfl ?_
                refine Keeps.step (keeps_staged _ _ _) rfl ?_
                exact Keeps.refl _ _
              · refine Keeps.ite ?_ ?_
                · refine Keeps.step (keeps_unitFault _ _ _) rfl ?_
                  refine Keeps.step (keeps_count _ _) rfl ?_
                  exact h4
                · refine Keeps.step (keeps_count _ _) rfl ?_
                  exact Keeps.refl _ _

theorem keeps_journalChange (s : State) (i : Nat) :
    Keeps (faultParts ++ [.cellar]) s (State.journalChange s i) := by
  unfold State.journalChange
  lift_lets -underBinder
  intro x1
  refine Keeps.ite ?_ ?_
  · exact Keeps.refl _ _
  · refine Keeps.step (keeps_journalStage _ _ _ _ _) rfl ?_
    exact Keeps.refl _ _

theorem keeps_writeRec (s : State) (i : Nat) (change : Bool) (r : Rec) :
    Keeps (faultParts ++ [.records, .cellar]) s (State.writeRec s i change r) := by
  unfold State.writeRec
  refine Keeps.ite ?_ ?_
  · refine Keeps.step (keeps_journalChange _ _) rfl ?_
    refine Keeps.step (keeps_changeRec _ _ _) rfl ?_
    exact Keeps.refl _ _
  · refine Keeps.step (keeps_setRec _ _ _) rfl ?_
    exact Keeps.refl _ _

theorem keeps_crierRead (s : State) (i : Nat) :
    Keeps [.counters, .records, .scriv] s (State.crierRead s i) := by
  unfold State.crierRead
  lift_lets -underBinder
  intro x1
  refine Keeps.step (keeps_count _ _) rfl ?_
  refine Keeps.step (keeps_setRec _ _ _) rfl ?_
  refine Keeps.step (keeps_touchLine _ _) rfl ?_
  exact Keeps.refl _ _

theorem keeps_crierTake (s : State) (k : Nat) :
    Keeps [.counters, .records, .scriv, .crier] s (State.crierTake s k) := by
  unfold State.crierTake
  lift_lets -underBinder
  intro x1 x2 x3
  have h3 : Keeps [.counters, .records, .scriv, .crier] s x3 := by
    refine Keeps.foldl (fun u4 y5 => ?_) ?_
    · refine Keeps.ite ?_ ?_
      · refine Keeps.step (keeps_crierRead _ _) rfl ?_
        exact Keeps.refl _ _
      · lift_lets -underBinder
        intro x6
        refine Keeps.step (keeps_setRec _ _ _) rfl ?_
        exact Keeps.refl _ _
    · exact Keeps.refl _ _
  clear_value x3
  intro x7
  refine Keeps.with_crier ?_ ?_ ?_ ?_
  · exact .inr rfl
  · exact .inr ⟨rfl, rfl⟩
  · exact .inl rfl
  · exact h3

theorem keeps_crierCatchUp (s : State) :
    Keeps [.counters, .records, .scriv, .crier] s (State.crierCatchUp s) := by
  unfold State.crierCatchUp
  lift_lets -underBinder
  intro x1
  refine Keeps.ite ?_ ?_
  · exact Keeps.refl _ _
  · refine Keeps.step (keeps_crierTake _ _) rfl ?_
    exact Keeps.refl _ _

theorem keeps_applyVote (s : State) (v : Nat) (w : Nat) (d : Desc) (x : Vote) :
    Keeps (faultParts ++ [.records, .cellar]) s (State.applyVote s v w d x) := by
  unfold State.applyVote
  lift_lets -underBinder
  intro x1 x2 x3 x4
  have h4 : Keeps (faultParts ++ [.records, .cellar]) s x4 := by
    refine Keeps.step (keeps_countIf _ _ _) rfl ?_
    refine Keeps.step (keeps_countN _ _ _) rfl ?_
    exact Keeps.refl _ _
  clear_value x4
  intro x5 x6
  refine Keeps.ite ?_ ?_
  · refine Keeps.step (keeps_count _ _) rfl ?_
    refine Keeps.step (keeps_writeRec _ _ _ _) rfl ?_
    exact h4
  · refine Keeps.ite ?_ ?_
    · refine Keeps.step (keeps_writeRec _ _ _ _) rfl ?_
      exact h4
    · refine Keeps.ite ?_ ?_
      · refine Keeps.ite ?_ ?_
        · refine Keeps.step (keeps_count _ _) rfl ?_
          refine Keeps.step (keeps_writeRec _ _ _ _) rfl ?_
          exact h4
        · refine Keeps.step (keeps_writeRec _ _ _ _) rfl ?_
          exact h4
      · refine Keeps.step (keeps_writeRec _ _ _ _) rfl ?_
        exact h4

theorem keeps_evalVote (s : State) (g : Bool) (v : Nat) (w : Nat) :
    Keeps (faultParts ++ [.records, .cellar]) s (State.evalVote s g v w) := by
  unfold State.evalVote
  lift_lets -underBinder
  intro x1 x2 x3 x4
  have h4 : Keeps (faultParts ++ [.records, .cellar]) s x4 := by
    refine Keeps.foldl (fun u5 y6 => ?_) ?_
    · refine Keeps.step (keeps_touchLine _ _) rfl ?_
      exact Keeps.refl _ _
    · exact Keeps.refl _ _
  clear_value x4
  intro x7
  refine Keeps.step (keeps_applyVote _ _ _ _ _) rfl ?_
  exact h4

theorem keeps_revote (s : State) (g : Bool) (i : Nat) (w : Nat) :
    Keeps (faultParts ++ [.records, .cellar]) s (State.revote s g i w) := by
  unfold State.revote
  lift_lets -underBinder
  intro x1 x2
  refine Keeps.ite ?_ ?_
  · refine Keeps.step (keeps_evalVote _ _ _ _) rfl ?_
    exact Keeps.refl _ _
  · exact Keeps.refl _ _

theorem keeps_releaseRec (s : State) (i : Nat) :
    Keeps (faultParts ++ [.records, .cellar]) s (State.releaseRec s i) := by
  unfold State.releaseRec
  lift_lets -underBinder
  intro x1
  have h1 : Keeps (faultParts ++ [.records, .cellar]) s x1 := by
    refine Keeps.step (keeps_crierCatchUp _) rfl ?_
    exact Keeps.refl _ _
  clear_value x1
  intro x2 x3
  have h3 : Keeps (faultParts ++ [.records, .cellar]) s x3 := by
    refine Keeps.step (keeps_touchLine _ _) rfl ?_
    exact h1
  clear_value x3
  intro x4 x5 x6
  have h6 : Keeps (faultParts ++ [.records, .cellar]) s x6 := by
    refine Keeps.ite ?_ ?_
    · refine Keeps.step (keeps_evalVote _ _ _ _) rfl ?_
      refine Keeps.step (keeps_setRec _ _ _) rfl ?_
      exact h3
    · refine Keeps.step (keeps_revote _ _ _ _) rfl ?_
      refine Keeps.step (keeps_writeRec _ _ _ _) rfl ?_
      exact h3
  clear_value x6
  refine Keeps.ite ?_ ?_
  · exact h1
  · refine Keeps.step (keeps_count _ _) rfl ?_
    exact h6

theorem keeps_forceRec (s : State) (i : Nat) (v : Word) :
    Keeps (faultParts ++ [.records, .cellar]) s (State.forceRec s i v) := by
  unfold State.forceRec
  lift_lets -underBinder
  intro x1
  have h1 : Keeps (faultParts ++ [.records, .cellar]) s x1 := by
    refine Keeps.step (keeps_touchLine _ _) rfl ?_
    refine Keeps.step (keeps_crierCatchUp _) rfl ?_
    exact Keeps.refl _ _
  clear_value x1
  intro x2 x3
  have h3 : Keeps (faultParts ++ [.records, .cellar]) s x3 := by
    refine Keeps.step (keeps_writeRec _ _ _ _) rfl ?_
    exact h1
  clear_value x3
  refine Keeps.step (keeps_count _ _) rfl ?_
  refine Keeps.step (keeps_revote _ _ _ _) rfl ?_
  exact h3

theorem keeps_pageCheck (s : State) (g : Bool) (i : Nat) (w : Nat) (e : WatchEntry) (t : Word) :
    Keeps (faultParts ++ [.records, .cellar]) s (State.pageCheck s g i w e t) := by
  unfold State.pageCheck
  lift_lets -underBinder
  intro x1
  have h1 : Keeps (faultParts ++ [.records, .cellar]) s x1 := by
    refine Keeps.step (keeps_touchLine _ _) rfl ?_
    refine Keeps.step (keeps_crierCatchUp _) rfl ?_
    exact Keeps.refl _ _
  clear_value x1
  intro x2 x3 x4
  refine Keeps.ite ?_ ?_
  · refine Keeps.step (keeps_revote _ _ _ _) rfl ?_
    refine Keeps.step (keeps_count _ _) rfl ?_
    refine Keeps.step (keeps_writeRec _ _ _ _) rfl ?_
    exact h1
  · exact h1

theorem keeps_restoreRec (s : State) (i : Nat) (v : Word) (t : Word) :
    Keeps (faultParts ++ [.records, .cellar]) s (State.restoreRec s i v t) := by
  unfold State.restoreRec
  lift_lets -underBinder
  intro x1
  have h1 : Keeps (faultParts ++ [.records, .cellar]) s x1 := by
    refine Keeps.step (keeps_touchLine _ _) rfl ?_
    refine Keeps.step (keeps_crierCatchUp _) rfl ?_
    exact Keeps.refl _ _
  clear_value x1
  intro x2
  refine Keeps.ite ?_ ?_
  · exact h1
  · refine Keeps.step (keeps_revote _ _ _ _) rfl ?_
    refine Keeps.step (keeps_writeRec _ _ _ _) rfl ?_
    exact h1

theorem keeps_commitResult (s : State) (g : Bool) (i : Nat) (w : Nat) (v : Word) (cause : Nat) (t : Word) :
    Keeps (faultParts ++ [.records, .cellar]) s (State.commitResult s g i w v cause t) := by
  unfold State.commitResult
  lift_lets -underBinder
  intro x1
  have h1 : Keeps (faultParts ++ [.records, .cellar]) s x1 := by
    refine Keeps.step (keeps_countOpt _ _) rfl ?_
    refine Keeps.step (keeps_touchLine _ _) rfl ?_
    refine Keeps.step (keeps_crierCatchUp _) rfl ?_
    exact Keeps.refl _ _
  clear_value x1
  intro x2 x3 x4
  have h4 : Keeps (faultParts ++ [.records, .cellar]) s x4 := by
    refine Keeps.ite ?_ ?_
    · refine Keeps.step (keeps_writeRec _ _ _ _) rfl ?_
      exact h1
    · refine Keeps.ite ?_ ?_
      · refine Keeps.step (keeps_count _ _) rfl ?_
        refine Keeps.step (keeps_setRec _ _ _) rfl ?_
        exact h1
      · refine Keeps.step (keeps_writeRec _ _ _ _) rfl ?_
        exact h1
  clear_value x4
  refine Keeps.ite ?_ ?_
  · refine Keeps.step (keeps_countIf _ _ _) rfl ?_
    exact h1
  · refine Keeps.step (keeps_revote _ _ _ _) rfl ?_
    exact h4

theorem keeps_walkRecord (s : State) (k : Walk) (i : Nat) :
    Keeps (faultParts ++ [.records, .cellar]) s (State.walkRecord s k i) := by
  unfold State.walkRecord
  lift_lets -underBinder
  intro x1
  have h1 : Keeps (faultParts ++ [.records, .cellar]) s x1 := by
    refine Keeps.step (keeps_touchLine _ _) rfl ?_
    refine Keeps.step (keeps_crierCatchUp _) rfl ?_
    exact Keeps.refl _ _
  clear_value x1
  intro x2 x3 x4
  refine Keeps.ite ?_ ?_
  · refine Keeps.step (keeps_revote _ _ _ _) rfl ?_
    refine Keeps.step (keeps_count _ _) rfl ?_
    refine Keeps.step (keeps_writeRec _ _ _ _) rfl ?_
    exact h1
  · exact h1

theorem keeps_loseRec (s : State) (i : Nat) (v : Word) (t : Word) :
    Keeps (faultParts ++ [.records, .cellar]) s (State.loseRec s i v t) := by
  unfold State.loseRec
  lift_lets -underBinder
  intro x1
  have h1 : Keeps (faultParts ++ [.records, .cellar]) s x1 := by
    refine Keeps.step (keeps_crierCatchUp _) rfl ?_
    exact Keeps.refl _ _
  clear_value x1
  intro x2 x3
  have h3 : Keeps (faultParts ++ [.records, .cellar]) s x3 := by
    refine Keeps.step (keeps_writeRec _ _ _ _) rfl ?_
    exact h1
  clear_value x3
  intro x4
  refine Keeps.step (keeps_revote _ _ _ _) rfl ?_
  refine Keeps.step (keeps_setRec _ _ _) rfl ?_
  exact h3

theorem keeps_initRec (s : State) (i : Nat) :
    Keeps (faultParts ++ [.records, .cellar]) s (State.initRec s i) := by
  unfold State.initRec
  lift_lets -underBinder
  intro x1
  have h1 : Keeps (faultParts ++ [.records, .cellar]) s x1 := by
    refine Keeps.step (keeps_touchLine _ _) rfl ?_
    refine Keeps.step (keeps_crierCatchUp _) rfl ?_
    exact Keeps.refl _ _
  clear_value x1
  intro x2
  refine Keeps.step (keeps_revote _ _ _ _) rfl ?_
  refine Keeps.step (keeps_writeRec _ _ _ _) rfl ?_
  exact h1

/-! ## Machine/Commands.lean -/

theorem keeps_endCmd (s : State) (c : CmdEntry) (status : Nat) (detail : Nat) (result : Word) :
    Keeps (andBell [.lock, .rings]) s (State.endCmd s c status detail result) := by
  unfold State.endCmd
  refine Keeps.step (keeps_endCommand _ _ _ _ _ _) rfl ?_
  exact Keeps.refl _ _

theorem keeps_takeCommand (s : State) (c : CmdEntry) (opc : Nat) :
    Keeps [.counters, .rings] s (State.takeCommand s c opc) := by
  unfold State.takeCommand
  refine Keeps.step (keeps_count _ _) rfl ?_
  refine Keeps.step (keeps_modRing _ _ _ _) rfl ?_
  exact Keeps.refl _ _

theorem keeps_startCommand {l : List Part} (s : State) (c : CmdEntry) (opc : Nat) (run : State → State)
    (hf : ∀ u : State, Keeps l u (run u)) (hl : ((andBell [.lock, .rings]).all fun p => l.contains p) = true) :
    Keeps l s (State.startCommand s c opc run) := by
  unfold State.startCommand
  refine Keeps.ite (Keeps.refl _ _) ?_
  have h1 : Keeps l s (s.takeCommand c opc) := Keeps.step (keeps_takeCommand _ _ _) (all_trans rfl hl) (Keeps.refl _ _)
  refine Keeps.ite ?_ (Keeps.ite ?_ (Keeps.trans h1 (hf _)))
  · exact Keeps.step (keeps_endCmd _ _ _ _ _) (all_trans rfl hl) (Keeps.step (keeps_count _ _) (all_trans rfl hl) h1)
  · exact Keeps.step (keeps_endCmd _ _ _ _ _) (all_trans rfl hl) h1

theorem keeps_memError (s : State) (e : Ep) (ring : Nat) :
    Keeps [.counters] s (State.memError s e ring) := by
  unfold State.memError
  refine Keeps.step (keeps_count _ _) rfl ?_
  exact Keeps.refl _ _

theorem keeps_execNop (c : CmdEntry) (s : State) :
    AnswerKeeps (andBell [.lock, .rings]) s (execNop c s) := by
  unfold execNop
  lift_lets -underBinder
  intro x1
  have h1 : Keeps (andBell [.lock, .rings]) s x1 := by
    refine Keeps.step (keeps_takeCommand _ _ _) rfl ?_
    exact Keeps.refl _ _
  clear_value x1
  refine AnswerKeeps.next ?_
  refine Keeps.ite ?_ ?_
  · exact Keeps.refl _ _
  · refine Keeps.step (keeps_endCmd _ _ _ _ _) rfl ?_
    exact h1

theorem keeps_execOpcodeUnknown (c : CmdEntry) (s : State) :
    AnswerKeeps (andBell [.lock, .rings]) s (execOpcodeUnknown c s) := by
  unfold execOpcodeUnknown
  refine AnswerKeeps.next ?_
  refine Keeps.ite ?_ ?_
  · exact Keeps.refl _ _
  · refine Keeps.trans ?_ (keeps_startCommand _ _ _ _ (fun u1 => ?_) rfl)
    · exact Keeps.refl _ _
    · refine Keeps.step (keeps_endCmd _ _ _ _ _) rfl ?_
      exact Keeps.refl _ _

/-! ## Machine/Nand.lean -/

theorem keeps_cellarSevere (s : State) :
    Keeps (faultParts ++ [.cellar]) s (State.cellarSevere s) := by
  unfold State.cellarSevere
  lift_lets -underBinder
  intro x1
  refine Keeps.step (keeps_unitFault _ _ _) rfl ?_
  refine Keeps.with_cellar ?_ ?_ ?_
  · exact .inr rfl
  · exact .inl rfl
  · exact Keeps.refl _ _

theorem keeps_modStore (s : State) (f : Store → Store) :
    Keeps [.store] s (State.modStore s f) := by
  unfold State.modStore
  lift_lets -underBinder
  intro x1
  refine Keeps.with_cellar ?_ ?_ ?_
  · exact .inl rfl
  · exact .inr rfl
  · exact Keeps.refl _ _

theorem keeps_badBlock (s : State) (g : NandGeometry) (b : Nat) (worn : Bool) :
    Keeps (faultParts ++ [.store, .cellar]) s (State.badBlock s g b worn) := by
  unfold State.badBlock
  lift_lets -underBinder
  intro x1
  have h1 : Keeps (faultParts ++ [.store, .cellar]) s x1 := by
    refine Keeps.step (keeps_modStore _ _) rfl ?_
    exact Keeps.refl _ _
  clear_value x1
  intro x2
  have h2 : Keeps (faultParts ++ [.store, .cellar]) s x2 := by
    refine Keeps.step (keeps_count _ _) rfl ?_
    exact h1
  clear_value x2
  intro x3
  refine Keeps.ite ?_ ?_
  · refine Keeps.step (keeps_cellarSevere _) rfl ?_
    exact h2
  · exact h2

theorem keeps_eraseBlock (s : State) (g : NandGeometry) (b : Nat) :
    Keeps (faultParts ++ [.store, .cellar]) s (State.eraseBlock s g b) := by
  unfold State.eraseBlock
  refine Keeps.ite ?_ ?_
  · refine Keeps.step (keeps_badBlock _ _ _ _) rfl ?_
    exact Keeps.refl _ _
  · lift_lets -underBinder
    intro x1
    have h1 : Keeps (faultParts ++ [.store, .cellar]) s x1 := by
      refine Keeps.step (keeps_count _ _) rfl ?_
      refine Keeps.step (keeps_modStore _ _) rfl ?_
      exact Keeps.refl _ _
    clear_value x1
    refine Keeps.ite ?_ ?_
    · refine Keeps.step (keeps_badBlock _ _ _ _) rfl ?_
      exact h1
    · exact h1

theorem keeps_claimBlock (s : State) (g : NandGeometry) (role : BlockRole) (b : Nat) :
    FstKeeps (faultParts ++ [.store, .cellar]) s (State.claimBlock s g role b) := by
  unfold State.claimBlock
  lift_lets -underBinder
  intro x1
  have h1 : Keeps (faultParts ++ [.store, .cellar]) s x1 := by
    refine Keeps.ite ?_ ?_
    · exact Keeps.refl _ _
    · refine Keeps.step (keeps_eraseBlock _ _ _) rfl ?_
      exact Keeps.refl _ _
  clear_value x1
  refine FstKeeps.ite ?_ ?_
  · refine FstKeeps.mk ?_
    exact h1
  · refine FstKeeps.ite ?_ ?_
    · refine FstKeeps.mk ?_
      refine Keeps.step (keeps_badBlock _ _ _ _) rfl ?_
      exact h1
    · refine FstKeeps.mk ?_
      refine Keeps.step (keeps_modStore _ _) rfl ?_
      exact h1

theorem keeps_takeBlock (s : State) (g : NandGeometry) (role : BlockRole) (from' : Nat) (n : Nat) :
    FstKeeps (faultParts ++ [.store, .cellar]) s (State.takeBlock s g role from' n) := by
  induction n generalizing s with
  | zero => exact Keeps.refl _ _
  | succ n ih =>
    unfold State.takeBlock
    split
    · exact Keeps.refl _ _
    · exact FstKeeps.ite (Keeps.step (keeps_claimBlock _ _ _ _) rfl (Keeps.refl _ _))
        (FstKeeps.step (ih _) rfl (Keeps.step (keeps_claimBlock _ _ _ _) rfl (Keeps.refl _ _)))

theorem keeps_putPage (s : State) (g : NandGeometry) (b : Nat) (p : StorePage) :
    Keeps [.store, .out] s (State.putPage s g b p) := by
  unfold State.putPage
  lift_lets -underBinder
  intro x1 x2 x3
  refine Keeps.step (keeps_emit _ _) rfl ?_
  refine Keeps.step (keeps_modStore _ _) rfl ?_
  exact Keeps.refl _ _

theorem keeps_putRoot (s : State) (g : NandGeometry) (b : Nat) :
    Keeps [.store, .out] s (State.putRoot s g b) := by
  unfold State.putRoot
  lift_lets -underBinder
  intro x1
  refine Keeps.step (keeps_putPage _ _ _ _) rfl ?_
  refine Keeps.step (keeps_modStore _ _) rfl ?_
  exact Keeps.refl _ _

theorem keeps_updateRoot (s : State) (g : NandGeometry) (n : Nat) :
    Keeps (faultParts ++ [.store, .cellar]) s (State.updateRoot s g n) := by
  induction n generalizing s with
  | zero => exact Keeps.refl _ _
  | succ n ih =>
    unfold State.updateRoot
    dsimp only
    split
    · exact Keeps.refl _ _
    · refine Keeps.ite (Keeps.step (ih _) rfl (Keeps.step (keeps_badBlock _ _ _ _) rfl (Keeps.refl _ _))) ?_
      refine Keeps.ite (Keeps.step (keeps_putRoot _ _ _) rfl (Keeps.refl _ _)) (Keeps.ite ?_ (Keeps.refl _ _))
      exact Keeps.ite (Keeps.step (ih _) rfl (Keeps.step (keeps_eraseBlock _ _ _) rfl (Keeps.refl _ _)))
        (Keeps.step (keeps_putRoot _ _ _) rfl (Keeps.step (keeps_eraseBlock _ _ _) rfl (Keeps.refl _ _)))

theorem keeps_rewriteRoot (s : State) (g : NandGeometry) (b : Nat) :
    Keeps (faultParts ++ [.store, .cellar]) s (State.rewriteRoot s g b) := by
  unfold State.rewriteRoot
  lift_lets -underBinder
  intro x1 x2
  have h2 : Keeps (faultParts ++ [.store, .cellar]) s x2 := by
    refine Keeps.ite ?_ ?_
    · refine Keeps.step (keeps_updateRoot _ _ _) rfl ?_
      exact Keeps.refl _ _
    · exact Keeps.refl _ _
  clear_value x2
  intro x3
  have h3 : Keeps (faultParts ++ [.store, .cellar]) s x3 := by
    refine Keeps.step (keeps_eraseBlock _ _ _) rfl ?_
    exact h2
  clear_value x3
  refine Keeps.ite ?_ ?_
  · refine Keeps.ite ?_ ?_
    · exact h3
    · refine Keeps.step (keeps_putRoot _ _ _) rfl ?_
      exact h3
  · exact Keeps.refl _ _

theorem keeps_redirect (s : State) (b : Nat) (n : Nat) :
    Keeps [.cellar] s (State.redirect s b n) := by
  unfold State.redirect
  lift_lets -underBinder
  intro x1
  refine Keeps.with_cellar ?_ ?_ ?_
  · exact .inr rfl
  · exact .inl rfl
  · exact Keeps.refl _ _

theorem keeps_copyPages (s : State) (g : NandGeometry) (b : Nat) (n : Nat) (pages : List StorePage) :
    Keeps [.store, .cellar, .out] s (State.copyPages s g b n pages) := by
  unfold State.copyPages
  refine Keeps.step (keeps_redirect _ _ _) rfl ?_
  refine Keeps.foldl (fun u1 y2 => ?_) ?_
  · refine Keeps.step (keeps_putPage _ _ _ _) rfl ?_
    exact Keeps.refl _ _
  · refine Keeps.step (keeps_modStore _ _) rfl ?_
    exact Keeps.refl _ _

theorem keeps_moveTo (s : State) (g : NandGeometry) (b : Nat) (n : Nat) :
    Keeps [.store, .cellar, .out] s (State.moveTo s g b n) := by
  unfold State.moveTo
  refine Keeps.step (keeps_modStore _ _) rfl ?_
  refine Keeps.step (keeps_copyPages _ _ _ _ _) rfl ?_
  exact Keeps.refl _ _

theorem keeps_moveBlock (s : State) (g : NandGeometry) (b : Nat) :
    Keeps (faultParts ++ [.store, .cellar]) s (State.moveBlock s g b) := by
  unfold State.moveBlock
  lift_lets -underBinder
  intro x1
  refine Keeps.ite ?_ ?_
  · refine Keeps.step (keeps_rewriteRoot _ _ _) rfl ?_
    exact Keeps.refl _ _
  · split
    · refine Keeps.step (keeps_moveTo _ _ _ _) rfl ?_
      refine Keeps.step (FstKeeps.eq (keeps_takeBlock _ _ _ _ _) (by assumption)) rfl ?_
      exact Keeps.refl _ _
    · refine Keeps.step (FstKeeps.eq (keeps_takeBlock _ _ _ _ _) (by assumption)) rfl ?_
      exact Keeps.refl _ _

theorem keeps_disturbCheck (s : State) (g : NandGeometry) (b : Nat) :
    Keeps (faultParts ++ [.store, .cellar]) s (State.disturbCheck s g b) := by
  unfold State.disturbCheck
  refine Keeps.ite ?_ ?_
  · refine Keeps.step (keeps_count _ _) rfl ?_
    refine Keeps.step (keeps_moveBlock _ _ _) rfl ?_
    exact Keeps.refl _ _
  · exact Keeps.refl _ _

theorem keeps_readyTarget (s : State) (g : NandGeometry) (t : Nat) (n : Nat) :
    Keeps (faultParts ++ [.store, .cellar]) s (State.readyTarget s g t n) := by
  induction n generalizing s with
  | zero => exact Keeps.refl _ _
  | succ n ih =>
    unfold State.readyTarget
    dsimp only
    refine Keeps.ite (Keeps.refl _ _) ?_
    split
    · exact Keeps.refl _ _
    · exact Keeps.step (ih _) rfl (Keeps.step (keeps_eraseBlock _ _ _) rfl (Keeps.refl _ _))

theorem keeps_readyBlocks (s : State) (g : NandGeometry) :
    Keeps (faultParts ++ [.store, .cellar]) s (State.readyBlocks s g) := by
  unfold State.readyBlocks
  refine Keeps.foldl (fun u1 y2 => ?_) ?_
  · refine Keeps.step (keeps_readyTarget _ _ _ _) rfl ?_
    exact Keeps.refl _ _
  · exact Keeps.refl _ _

theorem keeps_refreshRoot (s : State) (g : NandGeometry) :
    Keeps (faultParts ++ [.store, .cellar]) s (State.refreshRoot s g) := by
  unfold State.refreshRoot
  lift_lets -underBinder
  intro x1
  split
  · refine Keeps.ite ?_ ?_
    · exact Keeps.refl _ _
    · refine Keeps.step (keeps_updateRoot _ _ _) rfl ?_
      exact Keeps.refl _ _
  · refine Keeps.step (keeps_updateRoot _ _ _) rfl ?_
    exact Keeps.refl _ _

theorem keeps_settleNand (s : State) (g : NandGeometry) :
    Keeps (faultParts ++ [.store, .cellar]) s (State.settleNand s g) := by
  unfold State.settleNand
  refine Keeps.step (keeps_refreshRoot _ _) rfl ?_
  refine Keeps.step (keeps_readyBlocks _ _) rfl ?_
  refine Keeps.foldl (fun u1 y2 => ?_) ?_
  · refine Keeps.step (keeps_disturbCheck _ _ _) rfl ?_
    exact Keeps.refl _ _
  · exact Keeps.refl _ _

theorem keeps_levelWear (s : State) (g : NandGeometry) :
    Keeps (faultParts ++ [.store, .cellar]) s (State.levelWear s g) := by
  unfold State.levelWear
  lift_lets -underBinder
  intro x1 x2 x3 x4 x5 x6
  refine Keeps.ite ?_ ?_
  · exact Keeps.refl _ _
  · split
    · lift_lets -underBinder
      intro x7
      have h7 : FstKeeps (faultParts ++ [.store, .cellar]) s x7 := by
        refine FstKeeps.step (keeps_claimBlock _ _ _ _) rfl ?_
        exact Keeps.refl _ _
      clear_value x7
      refine Keeps.ite ?_ ?_
      · refine Keeps.step (keeps_settleNand _ _) rfl ?_
        refine Keeps.step (keeps_count _ _) rfl ?_
        refine Keeps.step (keeps_moveTo _ _ _ _) rfl ?_
        exact h7
      · exact h7
    · exact Keeps.refl _ _

theorem keeps_readPage (s : State) (b : Nat) (r : PageRead) :
    Keeps (faultParts ++ [.store]) s (State.readPage s b r) := by
  unfold State.readPage
  lift_lets -underBinder
  intro x1
  have h1 : Keeps (faultParts ++ [.store]) s x1 := by
    refine Keeps.step (keeps_modStore _ _) rfl ?_
    exact Keeps.refl _ _
  clear_value x1
  intro x2
  have h2 : Keeps (faultParts ++ [.store]) s x2 := by
    refine Keeps.step (keeps_countN _ _ _) rfl ?_
    exact h1
  clear_value x2
  intro x3
  have h3 : Keeps (faultParts ++ [.store]) s x3 := by
    refine Keeps.step (keeps_countN _ _ _) rfl ?_
    exact h2
  clear_value x3
  intro x4
  refine Keeps.ite ?_ ?_
  · refine Keeps.step (keeps_unitFault _ _ _) rfl ?_
    refine Keeps.step (keeps_countN _ _ _) rfl ?_
    exact h3
  · exact h3

theorem keeps_retireBlock (s : State) (g : NandGeometry) (b : Nat) (pages : List StorePage) :
    Keeps (faultParts ++ [.store, .cellar]) s (State.retireBlock s g b pages) := by
  unfold State.retireBlock
  lift_lets -underBinder
  intro x1 x2
  have h2 : Keeps (faultParts ++ [.store, .cellar]) s x2 := by
    refine Keeps.step (keeps_badBlock _ _ _ _) rfl ?_
    exact Keeps.refl _ _
  clear_value x2
  refine Keeps.ite ?_ ?_
  · exact h2
  · split
    · refine Keeps.step (keeps_copyPages _ _ _ _ _) rfl ?_
      refine Keeps.step (FstKeeps.eq (keeps_takeBlock _ _ _ _ _) (by assumption)) rfl ?_
      exact h2
    · refine Keeps.step (keeps_cellarSevere _) rfl ?_
      refine Keeps.step (FstKeeps.eq (keeps_takeBlock _ _ _ _ _) (by assumption)) rfl ?_
      exact h2

theorem keeps_withFailing {l : List Part} (s : State) (failing : List Nat) (run : State → State)
    (hf : ∀ u : State, Keeps l u (run u)) (hl : ([.cellar].all fun p => l.contains p) = true) :
    Keeps l s (State.withFailing s failing run) := by
  unfold State.withFailing
  have h1 : Keeps l s { s with cellar := { s.cellar with failing := failing } } :=
    Keeps.mono (l := [.cellar]) (Keeps.with_cellar (.inr rfl) (.inl rfl) (Keeps.refl _ _)) (all_trans rfl hl)
  exact Keeps.trans (Keeps.trans h1 (hf _))
    (Keeps.mono (l := [.cellar]) (Keeps.with_cellar (.inr rfl) (.inl rfl) (Keeps.refl _ _)) (all_trans rfl hl))

/-! ## Machine/Cellar.lean -/

theorem keeps_startCheckpoint (s : State) (forced : Bool) :
    Keeps [.counters, .cellar] s (State.startCheckpoint s forced) := by
  unfold State.startCheckpoint
  refine Keeps.ite ?_ ?_
  · exact Keeps.refl _ _
  · lift_lets -underBinder
    intro x1
    have h1 : Keeps [.counters, .cellar] s x1 := by
      refine Keeps.step (keeps_countIf _ _ _) rfl ?_
      exact Keeps.refl _ _
    clear_value x1
    intro x2
    refine Keeps.with_cellar ?_ ?_ ?_
    · exact .inr rfl
    · exact .inl rfl
    · exact h1

theorem keeps_degradeCellar (s : State) :
    Keeps [.counters, .cellar] s (State.degradeCellar s) := by
  unfold State.degradeCellar
  refine Keeps.ite ?_ ?_
  · exact Keeps.refl _ _
  · lift_lets -underBinder
    intro x1
    refine Keeps.step (keeps_dropStage _) rfl ?_
    refine Keeps.step (keeps_startCheckpoint _ _) rfl ?_
    refine Keeps.with_cellar ?_ ?_ ?_
    · exact .inr rfl
    · exact .inl rfl
    · exact Keeps.refl _ _

theorem keeps_touchAll (s : State) :
    Keeps [.counters, .scriv] s (State.touchAll s) := by
  unfold State.touchAll
  lift_lets -underBinder
  intro x1 x2 x3 x4 x5
  have h5 : Keeps [.counters, .scriv] s x5 := by
    refine Keeps.with_scriv ?_ ?_ ?_ ?_
    · exact .inr rfl
    · exact .inr rfl
    · exact .inl rfl
    · exact Keeps.refl _ _
  clear_value x5
  refine Keeps.step (keeps_countN _ _ _) rfl ?_
  refine Keeps.step (keeps_countN _ _ _) rfl ?_
  exact h5

theorem keeps_stopCellar (s : State) :
    Keeps [.cellar] s (State.stopCellar s) := by
  unfold State.stopCellar
  lift_lets -underBinder
  intro x1
  refine Keeps.with_cellar ?_ ?_ ?_
  · exact .inr rfl
  · exact .inl rfl
  · exact Keeps.refl _ _

theorem keeps_endCellar (s : State) (sub : Nat) (status : Nat) (detail : Nat) (result : Word) :
    Keeps (andBell [.lock, .rings]) s (State.endCellar s sub status detail result) := by
  unfold State.endCellar
  refine Keeps.foldl (fun u1 y2 => ?_) ?_
  · split
    · refine Keeps.ite ?_ ?_
      · refine Keeps.step (keeps_endCommand _ _ _ _ _ _) rfl ?_
        exact Keeps.refl _ _
      · exact Keeps.refl _ _
    · exact Keeps.refl _ _
  · exact Keeps.refl _ _

theorem keeps_startCellarCmd {l : List Part} (s : State) (c : CmdEntry) (sub : Nat) (w2 : Bool) (run : State → State)
    (hf : ∀ u : State, Keeps l u (run u)) (hl : ((andBell [.lock, .rings]).all fun p => l.contains p) = true) :
    Keeps l s (State.startCellarCmd s c sub w2 run) := by
  unfold State.startCellarCmd
  refine Keeps.ite (Keeps.refl _ _) ?_
  refine keeps_startCommand _ _ _ _ (fun u => ?_) (all_trans rfl hl)
  refine Keeps.ite (Keeps.step (keeps_endCmd _ _ _ _ _) (all_trans rfl hl) (Keeps.refl _ _)) ?_
  exact Keeps.trans (Keeps.step (keeps_modRing _ _ _ _) (all_trans rfl hl) (Keeps.refl _ _)) (hf _)

theorem keeps_execCellarStop (c : CmdEntry) (s : State) :
    AnswerKeeps (andBell [.lock, .rings, .cellar]) s (execCellarStop c s) := by
  unfold execCellarStop
  refine AnswerKeeps.next ?_
  refine Keeps.trans ?_ (keeps_startCellarCmd _ _ _ _ _ (fun u1 => ?_) rfl)
  · exact Keeps.refl _ _
  · split
    · refine Keeps.step (keeps_endCmd _ _ _ _ _) rfl ?_
      exact Keeps.refl _ _
    · lift_lets -underBinder
      intro x2
      refine Keeps.with_cellar ?_ ?_ ?_
      · exact .inr rfl
      · exact .inl rfl
      · exact Keeps.refl _ _
    · refine Keeps.step (keeps_stopCellar _) rfl ?_
      exact Keeps.refl _ _
    · refine Keeps.ite ?_ ?_
      · lift_lets -underBinder
        intro x3
        refine Keeps.step (keeps_endCellar _ _ _ _ _) rfl ?_
        refine Keeps.with_cellar ?_ ?_ ?_
        · exact .inr rfl
        · exact .inl rfl
        · exact Keeps.refl _ _
      · exact Keeps.refl _ _
    · exact Keeps.refl _ _

theorem keeps_drainHeld (s : State) :
    Keeps [.counters, .cellar] s (State.drainHeld s) := by
  unfold State.drainHeld
  refine Keeps.ite ?_ ?_
  · exact Keeps.refl _ _
  · lift_lets -underBinder
    intro x1 x2 x3 x4
    refine Keeps.step (keeps_countN _ _ _) rfl ?_
    refine Keeps.with_cellar ?_ ?_ ?_
    · exact .inr rfl
    · exact .inl rfl
    · exact Keeps.refl _ _

theorem keeps_spend (s : State) (bytes : Nat) :
    Keeps (andBell [.cellar]) s (State.spend s bytes) := by
  unfold State.spend
  lift_lets -underBinder
  intro x1 x2 x3
  have h3 : Keeps (andBell [.cellar]) s x3 := by
    refine Keeps.with_cellar ?_ ?_ ?_
    · exact .inr rfl
    · exact .inl rfl
    · exact Keeps.refl _ _
  clear_value x3
  refine Keeps.step (keeps_raiseIf _ _ _) rfl ?_
  exact h3

theorem keeps_nextPlace (s : State) (g : NandGeometry) (role : BlockRole) (ckptId : Nat) :
    FstKeeps (faultParts ++ [.store, .cellar]) s (State.nextPlace s g role ckptId) := by
  unfold State.nextPlace
  lift_lets -underBinder
  intro x1 x2 x3
  have h3 : Keeps (faultParts ++ [.store, .cellar]) s x3 := by
    refine Keeps.with_cellar ?_ ?_ ?_
    · exact .inl rfl
    · exact .inl rfl
    · exact Keeps.refl _ _
  clear_value x3
  split
  · refine FstKeeps.mk ?_
    exact h3
  · refine FstKeeps.step (keeps_takeBlock _ _ _ _ _) rfl ?_
    exact h3

theorem keeps_journalBegin (s : State) (g : NandGeometry) (over' : Bool) :
    Keeps (faultParts ++ [.store, .cellar]) s (State.journalBegin s g over') := by
  unfold State.journalBegin
  lift_lets -underBinder
  intro x1 x2
  refine Keeps.ite ?_ ?_
  · refine Keeps.step (keeps_degradeCellar _) rfl ?_
    exact Keeps.refl _ _
  · split
    · refine Keeps.step (keeps_degradeCellar _) rfl ?_
      refine Keeps.step (FstKeeps.eq (keeps_nextPlace _ _ _ _) (by assumption)) rfl ?_
      exact Keeps.refl _ _
    · lift_lets -underBinder
      intro x3 x4 x5 x6
      have h6 : Keeps (faultParts ++ [.store, .cellar]) s x6 := by
        refine Keeps.with_cellar ?_ ?_ ?_
        · exact .inl rfl
        · exact .inl rfl
        · refine Keeps.step (FstKeeps.eq (keeps_nextPlace _ _ _ _) (by assumption)) rfl ?_
          exact Keeps.refl _ _
      clear_value x6
      intro x7
      have h7 : Keeps (faultParts ++ [.store, .cellar]) s x7 := by
        refine Keeps.step (keeps_levelWear _ _) rfl ?_
        refine Keeps.step (keeps_drainHeld _) rfl ?_
        refine Keeps.step (keeps_spend _ _) rfl ?_
        refine Keeps.step (keeps_countIf _ _ _) rfl ?_
        exact h6
      clear_value x7
      refine Keeps.ite ?_ ?_
      · refine Keeps.step (keeps_settleNand _ _) rfl ?_
        exact h7
      · exact h7

theorem keeps_scrubAdvance (s : State) (b : Nat) (i : Nat) (anew : Bool) :
    Keeps [.clock, .cellar] s (State.scrubAdvance s b i anew) := by
  unfold State.scrubAdvance
  lift_lets -underBinder
  intro x1 x2 x3 x4
  have h4 : Keeps [.clock, .cellar] s x4 := by
    refine Keeps.step (keeps_advanceTo _ _) rfl ?_
    exact Keeps.refl _ _
  clear_value x4
  intro x5
  refine Keeps.with_cellar ?_ ?_ ?_
  · exact .inr rfl
  · exact .inl rfl
  · exact h4

theorem keeps_execCheckpointTimer (s : State) :
    AnswerKeeps [.clock, .counters, .cellar] s (execCheckpointTimer s) := by
  unfold execCheckpointTimer
  refine AnswerKeeps.next ?_
  refine Keeps.ite ?_ ?_
  · refine Keeps.step (keeps_startCheckpoint _ _) rfl ?_
    refine Keeps.step (keeps_advanceTo _ _) rfl ?_
    exact Keeps.refl _ _
  · exact Keeps.refl _ _

theorem keeps_execCellarCheckpoint (c : CmdEntry) (s : State) :
    AnswerKeeps (andBell [.lock, .rings, .cellar]) s (execCellarCheckpoint c s) := by
  unfold execCellarCheckpoint
  refine AnswerKeeps.next ?_
  refine Keeps.trans ?_ (keeps_startCellarCmd _ _ _ _ _ (fun u1 => ?_) rfl)
  · exact Keeps.refl _ _
  · refine Keeps.ite ?_ ?_
    · refine Keeps.step (keeps_startCheckpoint _ _) rfl ?_
      exact Keeps.refl _ _
    · refine Keeps.step (keeps_endCmd _ _ _ _ _) rfl ?_
      exact Keeps.refl _ _

theorem keeps_restoreOne (s : State) (r : StoreRec) :
    FstKeeps (faultParts ++ [.records, .cellar]) s (State.restoreOne s r) := by
  unfold State.restoreOne
  lift_lets -underBinder
  intro x1 x2
  have h2 : Keeps (faultParts ++ [.records, .cellar]) s x2 := by
    refine Keeps.step (keeps_count _ _) rfl ?_
    refine Keeps.step (keeps_restoreRec _ _ _ _) rfl ?_
    exact Keeps.refl _ _
  clear_value x2
  refine FstKeeps.ite ?_ ?_
  · refine FstKeeps.mk ?_
    refine Keeps.step (keeps_countIf _ _ _) rfl ?_
    exact h2
  · refine FstKeeps.mk ?_
    refine Keeps.step (keeps_count _ _) rfl ?_
    exact Keeps.refl _ _

theorem keeps_restoreAll (s : State) (rs : List StoreRec) :
    FstKeeps (faultParts ++ [.records, .cellar]) s (State.restoreAll s rs) := by
  induction rs generalizing s with
  | nil => exact Keeps.refl _ _
  | cons r rs ih =>
    unfold State.restoreAll
    exact Keeps.step (ih _) rfl (Keeps.step (keeps_restoreOne _ _) rfl (Keeps.refl _ _))

theorem keeps_awaitTokens (s : State) (bytes : Nat) :
    Keeps [.clock, .cellar] s (State.awaitTokens s bytes) := by
  unfold State.awaitTokens
  lift_lets -underBinder
  intro x1
  have h1 : Keeps [.clock, .cellar] s x1 := by
    refine Keeps.step (keeps_fillBucket _) rfl ?_
    exact Keeps.refl _ _
  clear_value x1
  intro x2 x3
  refine Keeps.step (keeps_fillBucket _) rfl ?_
  refine Keeps.step (keeps_advanceTo _ _) rfl ?_
  exact h1

theorem keeps_programStore (s : State) (g : NandGeometry) (role : BlockRole) (ckptId : Nat) (p : StorePage) (n : Nat) :
    FstKeeps (faultParts ++ [.store, .cellar]) s (State.programStore s g role ckptId p n) := by
  induction n generalizing s with
  | zero => exact Keeps.refl _ _
  | succ n ih =>
    unfold State.programStore
    have h := Keeps.step (m := (faultParts ++ [.store, .cellar])) (keeps_nextPlace s g role ckptId) rfl (Keeps.refl _ _)
    generalize s.nextPlace g role ckptId = x at h
    rcases x with ⟨u, _ | b⟩
    · exact h
    · exact FstKeeps.ite (FstKeeps.step (ih _) rfl (Keeps.step (keeps_retireBlock _ _ _ _) rfl h))
        (Keeps.step (keeps_putPage _ _ _ _) rfl h)

theorem keeps_checkpointPage (s : State) (g : NandGeometry) (ckptId : Nat) (p : StorePage) :
    FstKeeps (faultParts ++ [.clock, .store, .cellar]) s (State.checkpointPage s g ckptId p) := by
  unfold State.checkpointPage
  lift_lets -underBinder
  intro x1
  have h1 : FstKeeps (faultParts ++ [.clock, .store, .cellar]) s x1 := by
    refine FstKeeps.step (keeps_programStore _ _ _ _ _ _) rfl ?_
    refine Keeps.step (keeps_awaitTokens _ _) rfl ?_
    exact Keeps.refl _ _
  clear_value x1
  intro x2 x3
  have h3 : Keeps (faultParts ++ [.clock, .store, .cellar]) s x3 := by
    exact h1
  intro x4
  refine FstKeeps.mk ?_
  refine Keeps.step (keeps_spend _ _) rfl ?_
  refine Keeps.with_cellar ?_ ?_ ?_
  · exact .inl rfl
  · exact .inl rfl
  · exact h3

theorem keeps_checkpointPages (s : State) (g : NandGeometry) (ckptId : Nat) (ps : List StorePage) :
    FstKeeps (faultParts ++ [.clock, .store, .cellar]) s (State.checkpointPages s g ckptId ps) := by
  induction ps generalizing s with
  | nil => exact Keeps.refl _ _
  | cons p ps ih =>
    unfold State.checkpointPages
    dsimp only
    have h : FstKeeps (faultParts ++ [.clock, .store, .cellar]) s (s.checkpointPage g ckptId p) := keeps_checkpointPage s g ckptId p
    exact FstKeeps.ite (FstKeeps.step (ih _) rfl h) h

theorem keeps_startCellar (s : State) (g : NandGeometry) :
    Keeps (andBell [.lock, .rings, .store, .cellar]) s (State.startCellar s g) := by
  unfold State.startCellar
  split
  · lift_lets -underBinder
    intro x1
    refine Keeps.step (keeps_endCellar _ _ _ _ _) rfl ?_
    refine Keeps.with_cellar ?_ ?_ ?_
    · exact .inl rfl
    · exact .inl rfl
    · exact Keeps.refl _ _
  · lift_lets -underBinder
    intro x2
    have h2 : Keeps (andBell [.lock, .rings, .store, .cellar]) s x2 := by
      refine Keeps.step (keeps_modStore _ _) rfl ?_
      refine Keeps.step (keeps_modStore _ _) rfl ?_
      exact Keeps.refl _ _
    clear_value x2
    intro x3 x4
    refine Keeps.with_cellar ?_ ?_ ?_
    · exact .inl rfl
    · exact .inl rfl
    · exact h2

theorem keeps_execCellarStopped (s : State) :
    AnswerKeeps (andBell [.lock, .rings, .store, .cellar]) s (execCellarStopped s) := by
  unfold execCellarStopped
  lift_lets -underBinder
  intro x1 x2
  have h2 : Keeps (andBell [.lock, .rings, .store, .cellar]) s x2 := by
    refine Keeps.step (keeps_endCellar _ _ _ _ _) rfl ?_
    refine Keeps.with_cellar ?_ ?_ ?_
    · exact .inl rfl
    · exact .inl rfl
    · exact Keeps.refl _ _
  clear_value x2
  refine AnswerKeeps.next ?_
  refine Keeps.ite ?_ ?_
  · split
    · refine Keeps.step (keeps_startCellar _ _) rfl ?_
      exact h2
    · exact h2
  · exact Keeps.refl _ _

theorem keeps_putBack (s : State) (recs : List StoreRec) :
    Keeps [.counters, .cellar] s (State.putBack s recs) := by
  unfold State.putBack
  lift_lets -underBinder
  intro x1 x2 x3 x4
  refine Keeps.step (keeps_countN _ _ _) rfl ?_
  refine Keeps.with_cellar ?_ ?_ ?_
  · exact .inr rfl
  · exact .inl rfl
  · exact Keeps.refl _ _

theorem keeps_execScrub (words : List CodewordRead) (crcBad : Bool) (failing : List Nat) (s : State) :
    AnswerKeeps (faultParts ++ [.clock, .store, .cellar]) s (execScrub words crcBad failing s) := by
  unfold execScrub
  lift_lets -underBinder
  intro x0
  refine AnswerKeeps.next ?_
  split
  · refine Keeps.ite ?_ ?_
    · exact Keeps.refl _ _
    · refine Keeps.trans ?_ (keeps_withFailing _ _ _ (fun u1 => ?_) rfl)
      · exact Keeps.refl _ _
      · lift_lets -underBinder
        intro x2
        have h2 : Keeps (faultParts ++ [.clock, .store, .cellar]) u1 x2 := by
          refine Keeps.step (keeps_readPage _ _ _) rfl ?_
          refine Keeps.step (keeps_scrubAdvance _ _ _ _) rfl ?_
          exact Keeps.refl _ _
        clear_value x2
        intro x3
        refine Keeps.ite ?_ ?_
        · refine Keeps.step (keeps_settleNand _ _) rfl ?_
          refine Keeps.step (keeps_retireBlock _ _ _ _) rfl ?_
          exact h2
        · refine Keeps.ite ?_ ?_
          · refine Keeps.step (keeps_settleNand _ _) rfl ?_
            refine Keeps.step (keeps_count _ _) rfl ?_
            refine Keeps.step (keeps_moveBlock _ _ _) rfl ?_
            exact h2
          · refine Keeps.ite ?_ ?_
            · refine Keeps.step (keeps_settleNand _ _) rfl ?_
              exact h2
            · exact h2
  · exact Keeps.refl _ _

theorem keeps_journalProgrammed (s : State) (g : NandGeometry) (q : PageProgram) :
    Keeps [.counters, .store, .cellar, .out] s (State.journalProgrammed s g q) := by
  unfold State.journalProgrammed
  lift_lets -underBinder
  intro x1
  have h1 : Keeps [.counters, .store, .cellar, .out] s x1 := by
    refine Keeps.step (keeps_count _ _) rfl ?_
    refine Keeps.step (keeps_putPage _ _ _ _) rfl ?_
    exact Keeps.refl _ _
  clear_value x1
  intro x2
  refine Keeps.with_cellar ?_ ?_ ?_
  · exact .inl rfl
  · exact .inl rfl
  · exact h1

theorem keeps_flushPages (s : State) (g : NandGeometry) (ls : List (List StoreRec)) :
    Keeps (faultParts ++ [.store, .cellar]) s (State.flushPages s g ls) := by
  induction ls generalizing s with
  | nil => exact Keeps.refl _ _
  | cons l ls ih =>
    unfold State.flushPages
    exact Keeps.step (ih _) rfl (Keeps.step (keeps_countIf _ _ _) rfl
      (Keeps.step (keeps_programStore _ _ _ _ _ _) rfl (Keeps.refl _ _)))

theorem keeps_execFlushComplete (s : State) (failing : List Nat) :
    AnswerKeeps (faultParts ++ [.store, .cellar]) s (execFlushComplete s failing) := by
  unfold execFlushComplete
  refine AnswerKeeps.next ?_
  refine Keeps.ite ?_ ?_
  · exact Keeps.refl _ _
  · refine Keeps.trans ?_ (keeps_withFailing _ _ _ (fun u1 => ?_) rfl)
    · exact Keeps.refl _ _
    · lift_lets -underBinder
      intro x2
      have h2 : Keeps (faultParts ++ [.store, .cellar]) u1 x2 := by
        unfold x2
        split
        · refine Keeps.ite ?_ ?_
          · refine Keeps.step (keeps_flushPages _ _ _) rfl ?_
            refine Keeps.step (keeps_retireBlock _ _ _ _) rfl ?_
            exact Keeps.refl _ _
          · refine Keeps.step (keeps_journalProgrammed _ _ _) rfl ?_
            exact Keeps.refl _ _
        · exact Keeps.refl _ _
      clear_value x2
      intro x3
      have h3 : Keeps (faultParts ++ [.store, .cellar]) u1 x3 := by
        unfold x3
        split
        · refine Keeps.ite ?_ ?_
          · refine Keeps.step (keeps_flushPages _ _ _) rfl ?_
            exact h2
          · exact h2
        · exact h2
      clear_value x3
      intro x4
      refine Keeps.step (keeps_count _ _) rfl ?_
      refine Keeps.with_cellar ?_ ?_ ?_
      · exact .inl rfl
      · exact .inl rfl
      · exact h3

theorem keeps_execPageProgramDone (target : Nat) (ok : Bool) (s : State) (failing : List Nat) :
    AnswerKeeps (faultParts ++ [.store, .cellar]) s (execPageProgramDone target ok s failing) := by
  unfold execPageProgramDone
  refine AnswerKeeps.next ?_
  split
  · refine Keeps.ite ?_ ?_
    · exact Keeps.refl _ _
    · refine Keeps.ite ?_ ?_
      · lift_lets -underBinder
        intro x1
        have h1 : Keeps (faultParts ++ [.store, .cellar]) s x1 := by
          refine Keeps.step (keeps_journalProgrammed _ _ _) rfl ?_
          exact Keeps.refl _ _
        clear_value x1
        refine Keeps.ite ?_ ?_
        · refine Keeps.step (keeps_startCheckpoint _ _) rfl ?_
          exact h1
        · exact h1
      · refine Keeps.trans ?_ (keeps_withFailing _ _ _ (fun u2 => ?_) rfl)
        · exact Keeps.refl _ _
        · lift_lets -underBinder
          intro x3
          have h3 : Keeps (faultParts ++ [.store, .cellar]) u2 x3 := by
            refine Keeps.ite ?_ ?_
            · exact Keeps.refl _ _
            · refine Keeps.step (keeps_retireBlock _ _ _ _) rfl ?_
              exact Keeps.refl _ _
          clear_value x3
          intro x4
          have h4 : Keeps (faultParts ++ [.store, .cellar]) u2 x4 := by
            unfold x4
            split
            · refine Keeps.with_cellar ?_ ?_ ?_
              · exact .inl rfl
              · exact .inl rfl
              · refine Keeps.step (FstKeeps.eq (keeps_takeBlock _ _ _ _ _) (by assumption)) rfl ?_
                exact h3
            · refine Keeps.step (keeps_putBack _ _) rfl ?_
              lift_lets -underBinder
              intro x5
              refine Keeps.step (keeps_cellarSevere _) rfl ?_
              refine Keeps.with_cellar ?_ ?_ ?_
              · exact .inl rfl
              · exact .inl rfl
              · refine Keeps.step (FstKeeps.eq (keeps_takeBlock _ _ _ _ _) (by assumption)) rfl ?_
                exact h3
          clear_value x4
          refine Keeps.step (keeps_settleNand _ _) rfl ?_
          exact h4
  · exact Keeps.refl _ _

theorem keeps_sealWrites (s : State) (g : NandGeometry) (k : Checkpoint) :
    FstKeeps (faultParts ++ [.clock, .store, .cellar]) s (State.sealWrites s g k) := by
  unfold State.sealWrites
  lift_lets -underBinder
  intro x1
  have h1 : Keeps (faultParts ++ [.clock, .store, .cellar]) s x1 := by
    refine Keeps.step (keeps_modStore _ _) rfl ?_
    exact Keeps.refl _ _
  clear_value x1
  intro x2 x3
  have h3 : Keeps (faultParts ++ [.clock, .store, .cellar]) s x3 := by
    refine Keeps.step (keeps_touchAll _) rfl ?_
    exact h1
  clear_value x3
  intro x4 x5
  have h5 : Keeps (faultParts ++ [.clock, .store, .cellar]) s x5 := by
    refine Keeps.with_cellar ?_ ?_ ?_
    · exact .inl rfl
    · exact .inl rfl
    · exact h3
  clear_value x5
  refine FstKeeps.step (keeps_checkpointPages _ _ _ _) rfl ?_
  exact h5

theorem keeps_execCellarFormat (c : CmdEntry) (media : NandGeometry) (s : State) :
    AnswerKeeps (andBell [.lock, .rings, .store, .cellar]) s (execCellarFormat c media s) := by
  unfold execCellarFormat
  refine AnswerKeeps.next ?_
  refine Keeps.trans ?_ (keeps_startCellarCmd _ _ _ _ _ (fun u1 => ?_) rfl)
  · exact Keeps.refl _ _
  · refine Keeps.ite ?_ ?_
    · refine Keeps.step (keeps_endCmd _ _ _ _ _) rfl ?_
      exact Keeps.refl _ _
    · refine Keeps.ite ?_ ?_
      · refine Keeps.step (keeps_endCmd _ _ _ _ _) rfl ?_
        exact Keeps.refl _ _
      · lift_lets -underBinder
        intro x2 x3
        refine Keeps.with_cellar ?_ ?_ ?_
        · exact .inl rfl
        · exact .inl rfl
        · exact Keeps.refl _ _

theorem keeps_restoreReads (s : State) (g : NandGeometry) (reads : List PageOutcome) (pages : List (Nat × Nat × StorePage)) :
    Keeps (faultParts ++ [.store]) s (State.restoreReads s g reads pages) := by
  unfold State.restoreReads
  refine Keeps.foldl (fun u1 y2 => ?_) ?_
  · lift_lets -underBinder
    intro x3
    refine Keeps.ite ?_ ?_
    · refine Keeps.step (keeps_modStore _ _) rfl ?_
      exact Keeps.refl _ _
    · refine Keeps.step (keeps_readPage _ _ _) rfl ?_
      exact Keeps.refl _ _
  · exact Keeps.refl _ _

theorem keeps_execCellarRestoreDone (s : State) (reads : List PageOutcome) (failing : List Nat) :
    AnswerKeeps (faultParts ++ [.records, .store, .cellar]) s (execCellarRestoreDone s reads failing) := by
  unfold execCellarRestoreDone
  refine AnswerKeeps.next ?_
  split
  · exact Keeps.refl _ _
  · refine Keeps.ite ?_ ?_
    · exact Keeps.refl _ _
    · refine Keeps.trans ?_ (keeps_withFailing _ _ _ (fun u1 => ?_) rfl)
      · exact Keeps.refl _ _
      · lift_lets -underBinder
        intro x2 x3 x4
        have h4 : FstKeeps (faultParts ++ [.records, .store, .cellar]) u1 x4 := by
          refine FstKeeps.step (keeps_restoreAll _ _) rfl ?_
          refine Keeps.step (keeps_restoreReads _ _ _ _) rfl ?_
          exact Keeps.refl _ _
        clear_value x4
        intro x5
        have h5 : Keeps (faultParts ++ [.records, .store, .cellar]) u1 x5 := by
          exact h4
        intro x6 x7
        have h7 : Keeps (faultParts ++ [.records, .store, .cellar]) u1 x7 := by
          refine Keeps.with_cellar ?_ ?_ ?_
          · exact .inl rfl
          · exact .inl rfl
          · exact h5
        clear_value x7
        intro x8
        have h8 : Keeps (faultParts ++ [.records, .store, .cellar]) u1 x8 := by
          refine Keeps.step (keeps_endCellar _ _ _ _ _) rfl ?_
          exact h7
        clear_value x8
        intro x9
        have h9 : Keeps (faultParts ++ [.records, .store, .cellar]) u1 x9 := by
          refine Keeps.ite ?_ ?_
          · refine Keeps.step (keeps_stopCellar _) rfl ?_
            exact h8
          · refine Keeps.ite ?_ ?_
            · refine Keeps.step (keeps_startCheckpoint _ _) rfl ?_
              exact h8
            · exact h8
        clear_value x9
        refine Keeps.step (keeps_settleNand _ _) rfl ?_
        exact h9

theorem keeps_execCellarFormatDone (failed : List Nat) (s : State) :
    AnswerKeeps (andBell [.lock, .rings, .store, .cellar]) s (execCellarFormatDone failed s) := by
  unfold execCellarFormatDone
  refine AnswerKeeps.next ?_
  split
  · exact Keeps.refl _ _
  · lift_lets -underBinder
    intro x1 x2
    have h2 : Keeps (andBell [.lock, .rings, .store, .cellar]) s x2 := by
      refine Keeps.step (keeps_modStore _ _) rfl ?_
      exact Keeps.refl _ _
    clear_value x2
    intro x3 x4
    have h4 : Keeps (andBell [.lock, .rings, .store, .cellar]) s x4 := by
      refine Keeps.with_cellar ?_ ?_ ?_
      · exact .inl rfl
      · exact .inl rfl
      · exact h2
    clear_value x4
    intro x5
    have h5 : Keeps (andBell [.lock, .rings, .store, .cellar]) s x5 := by
      refine Keeps.step (keeps_countN _ _ _) rfl ?_
      refine Keeps.step (keeps_countN _ _ _) rfl ?_
      exact h4
    clear_value x5
    refine Keeps.ite ?_ ?_
    · refine Keeps.step (keeps_endCellar _ _ _ _ _) rfl ?_
      exact h5
    · refine Keeps.step (keeps_endCellar _ _ _ _ _) rfl ?_
      refine Keeps.foldl (fun u6 y7 => ?_) ?_
      · refine Keeps.step (keeps_putRoot _ _ _) rfl ?_
        exact Keeps.refl _ _
      · exact h5

theorem keeps_execBatchExpire (s : State) :
    AnswerKeeps [.clock] s (execBatchExpire s) := by
  unfold execBatchExpire
  refine AnswerKeeps.next ?_
  split
  · refine Keeps.step (keeps_advanceTo _ _) rfl ?_
    exact Keeps.refl _ _
  · exact Keeps.refl _ _

theorem keeps_execCellarStart (c : CmdEntry) (media : NandGeometry) (s : State) :
    AnswerKeeps (andBell [.lock, .rings, .store, .cellar]) s (execCellarStart c media s) := by
  unfold execCellarStart
  refine AnswerKeeps.next ?_
  refine Keeps.trans ?_ (keeps_startCellarCmd _ _ _ _ _ (fun u1 => ?_) rfl)
  · exact Keeps.refl _ _
  · lift_lets -underBinder
    intro x2 x3
    have h3 : Keeps (andBell [.lock, .rings, .store, .cellar]) u1 x3 := by
      refine Keeps.with_cellar ?_ ?_ ?_
      · exact .inl rfl
      · exact .inl rfl
      · exact Keeps.refl _ _
    clear_value x3
    split
    · refine Keeps.ite ?_ ?_
      · refine Keeps.step (keeps_endCmd _ _ _ _ _) rfl ?_
        exact Keeps.refl _ _
      · refine Keeps.step (keeps_startCellar _ _) rfl ?_
        exact h3
    · lift_lets -underBinder
      intro x4
      refine Keeps.with_cellar ?_ ?_ ?_
      · exact .inl rfl
      · exact .inl rfl
      · exact h3
    · refine Keeps.step (keeps_endCmd _ _ _ _ _) rfl ?_
      exact Keeps.refl _ _
    · refine Keeps.step (keeps_endCmd _ _ _ _ _) rfl ?_
      exact Keeps.refl _ _
    · refine Keeps.step (keeps_endCmd _ _ _ _ _) rfl ?_
      exact Keeps.refl _ _

theorem keeps_readPages (s : State) (reads : List PageOutcome) (l : List (Nat × Nat × StorePage)) :
    Keeps (faultParts ++ [.store]) s (State.readPages s reads l) := by
  unfold State.readPages
  refine Keeps.foldl (fun u1 y2 => ?_) ?_
  · refine Keeps.step (keeps_readPage _ _ _) rfl ?_
    exact Keeps.refl _ _
  · exact Keeps.refl _ _

theorem keeps_execJournalPageProgram (s : State) (failing : List Nat) :
    AnswerKeeps (faultParts ++ [.store, .cellar]) s (execJournalPageProgram s failing) := by
  unfold execJournalPageProgram
  refine AnswerKeeps.next ?_
  split
  · exact Keeps.refl _ _
  · refine Keeps.trans ?_ (keeps_withFailing _ _ _ (fun u1 => ?_) rfl)
    · exact Keeps.refl _ _
    · lift_lets -underBinder
      intro x2
      have h2 : Keeps (faultParts ++ [.store, .cellar]) u1 x2 := by
        refine Keeps.step (keeps_fillBucket _) rfl ?_
        exact Keeps.refl _ _
      clear_value x2
      refine Keeps.ite ?_ ?_
      · exact h2
      · refine Keeps.ite ?_ ?_
        · refine Keeps.step (keeps_journalBegin _ _ _) rfl ?_
          exact h2
        · refine Keeps.ite ?_ ?_
          · refine Keeps.step (keeps_journalBegin _ _ _) rfl ?_
            exact h2
          · exact h2

theorem keeps_sealCheckpoint (s : State) (k : Checkpoint) :
    Keeps (andBell [.lock, .rings, .store, .cellar]) s (State.sealCheckpoint s k) := by
  unfold State.sealCheckpoint
  lift_lets -underBinder
  intro x1 x2
  have h2 : Keeps (andBell [.lock, .rings, .store, .cellar]) s x2 := by
    refine Keeps.step (keeps_modStore _ _) rfl ?_
    exact Keeps.refl _ _
  clear_value x2
  intro x3 x4
  have h4 : Keeps (andBell [.lock, .rings, .store, .cellar]) s x4 := by
    refine Keeps.with_cellar ?_ ?_ ?_
    · exact .inl rfl
    · exact .inl rfl
    · exact h2
  clear_value x4
  refine Keeps.step (keeps_drainHeld _) rfl ?_
  refine Keeps.step (keeps_endCellar _ _ _ _ _) rfl ?_
  refine Keeps.step (keeps_count _ _) rfl ?_
  exact h4

theorem keeps_execCheckpointSeal (s : State) (reads : List PageOutcome) (failing : List Nat) :
    AnswerKeeps (faultParts ++ [.clock, .store, .cellar]) s (execCheckpointSeal s reads failing) := by
  unfold execCheckpointSeal
  refine AnswerKeeps.next ?_
  split
  · refine Keeps.ite ?_ ?_
    · exact Keeps.refl _ _
    · refine Keeps.trans ?_ (keeps_withFailing _ _ _ (fun u1 => ?_) rfl)
      · exact Keeps.refl _ _
      · split
        · refine Keeps.step (keeps_settleNand _ _) rfl ?_
          refine Keeps.step (keeps_cellarSevere _) rfl ?_
          refine Keeps.step (FstKeeps.eq (keeps_sealWrites _ _ _) (by assumption)) rfl ?_
          exact Keeps.refl _ _
        · lift_lets -underBinder
          intro x2 x3
          have h3 : Keeps (faultParts ++ [.clock, .store, .cellar]) u1 x3 := by
            refine Keeps.step (keeps_readPages _ _ _) rfl ?_
            refine Keeps.step (FstKeeps.eq (keeps_sealWrites _ _ _) (by assumption)) rfl ?_
            exact Keeps.refl _ _
          clear_value x3
          refine Keeps.ite ?_ ?_
          · refine Keeps.step (keeps_settleNand _ _) rfl ?_
            refine Keeps.step (keeps_sealCheckpoint _ _) rfl ?_
            exact h3
          · refine Keeps.step (keeps_settleNand _ _) rfl ?_
            exact h3
  · exact Keeps.refl _ _

/-! ## Machine/Tinker.lean -/

theorem keeps_sliceSel (s : State) (val : Word) :
    Keeps [.tink] s (State.sliceSel s val) := by
  unfold State.sliceSel
  lift_lets -underBinder
  intro x1 x2 x3
  refine Keeps.ite ?_ ?_
  · refine Keeps.with_tink ?_ ?_
    · exact rfl
    · exact Keeps.refl _ _
  · exact Keeps.refl _ _

theorem keeps_tinkStopCheck (s : State) :
    Keeps [.tink] s (State.tinkStopCheck s) := by
  unfold State.tinkStopCheck
  refine Keeps.ite ?_ ?_
  · lift_lets -underBinder
    intro x1
    refine Keeps.with_tink ?_ ?_
    · exact rfl
    · exact Keeps.refl _ _
  · exact Keeps.refl _ _

theorem keeps_rotate (s : State) :
    Keeps [.counters, .tink] s (State.rotate s) := by
  unfold State.rotate
  refine Keeps.ite ?_ ?_
  · lift_lets -underBinder
    intro x1
    refine Keeps.step (keeps_count _ _) rfl ?_
    refine Keeps.with_tink ?_ ?_
    · exact rfl
    · exact Keeps.refl _ _
  · exact Keeps.refl _ _

theorem keeps_skipSlice (s : State) (n : Nat) (reason : Nat) :
    Keeps [.counters, .tink] s (State.skipSlice s n reason) := by
  unfold State.skipSlice
  lift_lets -underBinder
  intro x1
  have h1 : Keeps [.counters, .tink] s x1 := by
    refine Keeps.step (keeps_sliceOutcome _ _ _) rfl ?_
    exact Keeps.refl _ _
  clear_value x1
  intro x2 x3
  have h3 : Keeps [.counters, .tink] s x3 := by
    refine Keeps.with_tink ?_ ?_
    · exact rfl
    · exact h1
  clear_value x3
  refine Keeps.step (keeps_tinkStopCheck _) rfl ?_
  refine Keeps.step (keeps_rotate _) rfl ?_
  refine Keeps.step (keeps_count _ _) rfl ?_
  exact h3

theorem keeps_holdSlice (s : State) (n : Nat) :
    Keeps [.counters, .engines, .scriv, .lock, .srcs, .tink] s (State.holdSlice s n) := by
  unfold State.holdSlice
  refine Keeps.ite ?_ ?_
  · refine Keeps.step (keeps_skipSlice _ _ _) rfl ?_
    refine Keeps.step (keeps_releaseSlice _ _) rfl ?_
    exact Keeps.refl _ _
  · lift_lets -underBinder
    intro x1
    have h1 : Keeps [.counters, .engines, .scriv, .lock, .srcs, .tink] s x1 := by
      refine Keeps.ite ?_ ?_
      · refine Keeps.step (keeps_modEngine _ _ _) rfl ?_
        exact Keeps.refl _ _
      · exact Keeps.refl _ _
    clear_value x1
    intro x2 x3
    have h3 : Keeps [.counters, .engines, .scriv, .lock, .srcs, .tink] s x3 := by
      refine Keeps.with_tink ?_ ?_
      · exact rfl
      · exact h1
    clear_value x3
    refine Keeps.step (keeps_maskBegin _ _) rfl ?_
    exact h3

theorem keeps_tinkBoundary (s : State) :
    Keeps [.counters, .engines, .scriv, .lock, .srcs, .tink] s (State.tinkBoundary s) := by
  unfold State.tinkBoundary
  lift_lets -underBinder
  intro x1 x2
  have h2 : Keeps [.counters, .engines, .scriv, .lock, .srcs, .tink] s x2 := by
    refine Keeps.foldl (fun u3 y4 => ?_) ?_
    · lift_lets -underBinder
      intro x5 x6
      refine Keeps.step (keeps_holdSlice _ _) rfl ?_
      refine Keeps.with_scriv ?_ ?_ ?_ ?_
      · exact .inr rfl
      · exact .inr rfl
      · exact .inl rfl
      · exact Keeps.refl _ _
    · exact Keeps.refl _ _
  clear_value x2
  intro x7
  refine Keeps.step (keeps_tinkStopCheck _) rfl ?_
  refine Keeps.with_scriv ?_ ?_ ?_ ?_
  · exact .inr rfl
  · exact .inr rfl
  · exact .inl rfl
  · exact h2

theorem keeps_tinkSettle (s : State) :
    Keeps [.counters, .engines, .scriv, .lock, .srcs, .tink] s (State.tinkSettle s) := by
  unfold State.tinkSettle
  refine Keeps.foldl (fun u1 y2 => ?_) ?_
  · refine Keeps.ite ?_ ?_
    · exact Keeps.refl _ _
    · refine Keeps.ite ?_ ?_
      · lift_lets -underBinder
        intro x3
        refine Keeps.ite ?_ ?_
        · refine Keeps.step (keeps_holdSlice _ _) rfl ?_
          exact Keeps.refl _ _
        · exact Keeps.refl _ _
      · split
        · refine Keeps.ite ?_ ?_
          · exact Keeps.refl _ _
          · refine Keeps.ite ?_ ?_
            · refine Keeps.step (keeps_holdSlice _ _) rfl ?_
              exact Keeps.refl _ _
            · refine Keeps.step (keeps_skipSlice _ _ _) rfl ?_
              exact Keeps.refl _ _
        · exact Keeps.refl _ _
  · exact Keeps.refl _ _

theorem keeps_tinkCommit (s : State) :
    Keeps [.tink] s (State.tinkCommit s) := by
  unfold State.tinkCommit
  lift_lets -underBinder
  intro x1
  refine Keeps.ite ?_ ?_
  · split
    · refine Keeps.ite ?_ ?_
      · exact Keeps.refl _ _
      · unfold x1
        lift_lets -underBinder
        intro x2
        refine Keeps.with_tink ?_ ?_
        · exact rfl
        · exact Keeps.refl _ _
    · unfold x1
      lift_lets -underBinder
      intro x3
      refine Keeps.with_tink ?_ ?_
      · exact rfl
      · exact Keeps.refl _ _
    · exact Keeps.refl _ _
    · exact Keeps.refl _ _
  · split
    · refine Keeps.step (keeps_tinkStopCheck _) rfl ?_
      unfold x1
      lift_lets -underBinder
      intro x4
      refine Keeps.with_tink ?_ ?_
      · exact rfl
      · exact Keeps.refl _ _
    · unfold x1
      lift_lets -underBinder
      intro x5
      refine Keeps.with_tink ?_ ?_
      · exact rfl
      · exact Keeps.refl _ _
    · unfold x1
      lift_lets -underBinder
      intro x6
      refine Keeps.with_tink ?_ ?_
      · exact rfl
      · exact Keeps.refl _ _
    · exact Keeps.refl _ _

theorem keeps_execPairHandoverTimer (s : State) :
    AnswerKeeps [.clock, .firmware] s (execPairHandoverTimer s) := by
  unfold execPairHandoverTimer
  lift_lets -underBinder
  intro x1 x2 x3 x4
  have h4 : Keeps [.clock, .firmware] s x4 := by
    refine Keeps.step (keeps_advanceTo _ _) rfl ?_
    exact Keeps.refl _ _
  clear_value x4
  intro x5
  refine AnswerKeeps.next ?_
  refine Keeps.ite ?_ ?_
  · refine Keeps.with_sys ?_ ?_ ?_ ?_ ?_ ?_ ?_ ?_ ?_
    · (refine .inr ?_; and_intros <;> rfl)
    · (refine .inr ?_; and_intros <;> rfl)
    · (refine .inr ?_; and_intros <;> rfl)
    · (refine .inr ?_; and_intros <;> rfl)
    · exact .inl rfl
    · exact .inr ⟨rfl, rfl⟩
    · exact .inr rfl
    · exact .inr ⟨rfl, rfl⟩
    · exact h4
  · exact Keeps.refl _ _

theorem keeps_endTest (s0 : State) (n : Nat) (bad : Nat) :
    Keeps faultParts s0 (State.endTest s0 n bad) := by
  unfold State.endTest
  lift_lets -underBinder
  intro x1 x2
  have h2 : Keeps (faultParts) s0 x2 := by
    refine Keeps.with_tink ?_ ?_
    · exact rfl
    · exact Keeps.refl _ _
  clear_value x2
  intro x3
  have h3 : Keeps (faultParts) s0 x3 := by
    refine Keeps.step (keeps_maskEnd _ _ _) rfl ?_
    exact h2
  clear_value x3
  intro x4
  have h4 : Keeps (faultParts) s0 x4 := by
    refine Keeps.foldl (fun u5 y6 => ?_) ?_
    · refine Keeps.foldl (fun u7 y8 => ?_) ?_
      · refine Keeps.step (keeps_stewEvent _ _ _) rfl ?_
        exact Keeps.refl _ _
      · exact Keeps.refl _ _
    · exact h3
  clear_value x4
  refine Keeps.step (keeps_stewPins _) rfl ?_
  refine Keeps.step (keeps_tinkStopCheck _) rfl ?_
  refine Keeps.step (keeps_rotate _) rfl ?_
  refine Keeps.step (keeps_releaseSlice _ _) rfl ?_
  exact h4

theorem keeps_addTest (s : State) (n : Nat) (held : Bool) (port : Option Nat) :
    Keeps [.tink] s (State.addTest s n held port) := by
  unfold State.addTest
  lift_lets -underBinder
  intro x1
  refine Keeps.with_tink ?_ ?_
  · exact rfl
  · exact Keeps.refl _ _

theorem keeps_freeSlice (s : State) (n : Nat) :
    Keeps [.counters, .engines, .ports, .scriv, .lock, .srcs, .tink] s (State.freeSlice s n) := by
  unfold State.freeSlice
  refine Keeps.ite ?_ ?_
  · refine Keeps.ite ?_ ?_
    · refine Keeps.step (keeps_holdSlice _ _) rfl ?_
      refine Keeps.step (keeps_addTest _ _ _ _) rfl ?_
      exact Keeps.refl _ _
    · split
      · refine Keeps.step (keeps_addTest _ _ _ _) rfl ?_
        refine Keeps.step (keeps_modPort _ _ _) rfl ?_
        exact Keeps.refl _ _
      · refine Keeps.step (keeps_skipSlice _ _ _) rfl ?_
        exact Keeps.refl _ _
  · refine Keeps.ite ?_ ?_
    · refine Keeps.step (keeps_addTest _ _ _ _) rfl ?_
      exact Keeps.refl _ _
    · refine Keeps.ite ?_ ?_
      · lift_lets -underBinder
        intro x1 x2
        have h2 : Keeps [.counters, .engines, .ports, .scriv, .lock, .srcs, .tink] s x2 := by
          refine Keeps.with_lock ?_ ?_ ?_ ?_
          · exact .inr rfl
          · exact .inr ⟨rfl, rfl, rfl⟩
          · exact .inl rfl
          · exact Keeps.refl _ _
        clear_value x2
        refine Keeps.step (keeps_tinkSettle _) rfl ?_
        refine Keeps.step (keeps_addTest _ _ _ _) rfl ?_
        exact h2
      · refine Keeps.step (keeps_holdSlice _ _) rfl ?_
        refine Keeps.step (keeps_addTest _ _ _ _) rfl ?_
        exact Keeps.refl _ _

theorem keeps_execTestResult (slice : Nat) (misr : Word) (saved : Bytes) (s : State) (reloaded : Bytes) :
    AnswerKeeps faultParts s (execTestResult slice misr saved s reloaded) := by
  unfold execTestResult
  refine AnswerKeeps.next ?_
  split
  · exact Keeps.refl _ _
  · lift_lets -underBinder
    intro x1 x2 x3
    have h3 : Keeps (faultParts) s x3 := by
      refine Keeps.step (keeps_sliceOutcome _ _ _) rfl ?_
      exact Keeps.refl _ _
    clear_value x3
    intro x4
    have h4 : Keeps (faultParts) s x4 := by
      refine Keeps.step (keeps_raiseIf _ _ _) rfl ?_
      refine Keeps.step (keeps_count _ _) rfl ?_
      exact h3
    clear_value x4
    intro x5
    have h5 : Keeps (faultParts) s x5 := by
      refine Keeps.ite ?_ ?_
      · refine Keeps.step (keeps_openWindows _ _) rfl ?_
        exact h4
      · exact h4
    clear_value x5
    intro x6 x7 x8
    have h8 : Keeps (faultParts) s x8 := by
      refine Keeps.with_tink ?_ ?_
      · exact rfl
      · exact h5
    clear_value x8
    refine Keeps.ite ?_ ?_
    · refine Keeps.ite ?_ ?_
      · refine Keeps.step (keeps_skipSlice _ _ _) rfl ?_
        refine Keeps.step (keeps_endTest _ _ _) rfl ?_
        exact h8
      · exact h8
    · refine Keeps.step (keeps_endTest _ _ _) rfl ?_
      exact h5

theorem keeps_execGoldenCheck (good : Bool) (s : State) :
    AnswerKeeps (andBell [.tink]) s (execGoldenCheck good s) := by
  unfold execGoldenCheck
  lift_lets -underBinder
  intro x1 x2 x3
  have h3 : Keeps (andBell [.tink]) s x3 := by
    refine Keeps.with_tink ?_ ?_
    · exact rfl
    · exact Keeps.refl _ _
  intro x4 x5
  have h5 : Keeps (andBell [.tink]) s x5 := by
    refine Keeps.with_tink ?_ ?_
    · exact rfl
    · exact Keeps.refl _ _
  clear_value x5
  refine AnswerKeeps.next ?_
  refine Keeps.ite ?_ ?_
  · refine Keeps.ite ?_ ?_
    · refine Keeps.with_tink ?_ ?_
      · exact rfl
      · exact h3
    · exact h3
  · refine Keeps.step (keeps_tinkStopCheck _) rfl ?_
    refine Keeps.step (keeps_raise _ _) rfl ?_
    exact h5

theorem keeps_execSliceSelect (s : State) :
    AnswerKeeps [.clock, .counters, .engines, .ports, .scriv, .lock, .srcs, .tink] s (execSliceSelect s) := by
  unfold execSliceSelect
  lift_lets -underBinder
  intro x1 x2
  have h2 : Keeps [.clock, .counters, .engines, .ports, .scriv, .lock, .srcs, .tink] s x2 := by
    refine Keeps.step (keeps_advanceTo _ _) rfl ?_
    exact Keeps.refl _ _
  clear_value x2
  refine AnswerKeeps.next ?_
  refine Keeps.ite ?_ ?_
  · exact Keeps.refl _ _
  · split
    · lift_lets -underBinder
      intro x3
      refine Keeps.step (keeps_skipSlice _ _ _) rfl ?_
      refine Keeps.with_tink ?_ ?_
      · exact rfl
      · exact h2
    · lift_lets -underBinder
      intro x4 x5
      refine Keeps.step (keeps_freeSlice _ _) rfl ?_
      refine Keeps.with_tink ?_ ?_
      · exact rfl
      · exact h2

/-! ## Machine/Handover.lean -/

theorem keeps_startShadow (s : State) (p : Nat) (n : Nat) (by' : Requester) :
    Keeps [.inForce, .staged, .held, .counters, .engines, .ports] s (State.startShadow s p n by') := by
  unfold State.startShadow
  lift_lets -underBinder
  intro x1 x2 x3
  have h3 : Keeps [.inForce, .staged, .held, .counters, .engines, .ports] s x3 := by
    refine Keeps.step (keeps_modEngine _ _ _) rfl ?_
    refine Keeps.step (keeps_zeroBlock _ _) rfl ?_
    refine Keeps.step (keeps_copyBlock _ _ _) rfl ?_
    exact Keeps.refl _ _
  clear_value x3
  refine Keeps.step (keeps_modPort _ _ _) rfl ?_
  exact h3

theorem keeps_refuseHandover (s : State) (p : Nat) (result : Nat) (by' : Requester) :
    Keeps [.ports, .firmware] s (State.refuseHandover s p result by') := by
  unfold State.refuseHandover
  lift_lets -underBinder
  intro x1
  have h1 : Keeps [.ports, .firmware] s x1 := by
    refine Keeps.ite ?_ ?_
    · refine Keeps.step (keeps_rollFailed _ _) rfl ?_
      exact Keeps.refl _ _
    · exact Keeps.refl _ _
  clear_value x1
  refine Keeps.step (keeps_modPort _ _ _) rfl ?_
  exact h1

theorem keeps_requestJudged (s : State) (p : Nat) (n : Nat) (by' : Requester) :
    Keeps (andBell [.inForce, .staged, .held, .engines, .ports, .firmware]) s (State.requestJudged s p n by') := by
  unfold State.requestJudged
  lift_lets -underBinder
  intro x1
  have h1 : Keeps (andBell [.inForce, .staged, .held, .engines, .ports, .firmware]) s x1 := by
    refine Keeps.ite ?_ ?_
    · refine Keeps.step (keeps_handoverFail _ _ _) rfl ?_
      exact Keeps.refl _ _
    · exact Keeps.refl _ _
  clear_value x1
  intro x2
  refine Keeps.ite ?_ ?_
  · exact h1
  · refine Keeps.ite ?_ ?_
    · refine Keeps.step (keeps_refuseHandover _ _ _ _) rfl ?_
      exact h1
    · refine Keeps.ite ?_ ?_
      · refine Keeps.step (keeps_refuseHandover _ _ _ _) rfl ?_
        exact h1
      · refine Keeps.ite ?_ ?_
        · refine Keeps.step (keeps_refuseHandover _ _ _ _) rfl ?_
          exact h1
        · refine Keeps.ite ?_ ?_
          · refine Keeps.step (keeps_offlineHandover _ _ _) rfl ?_
            exact h1
          · refine Keeps.step (keeps_startShadow _ _ _ _) rfl ?_
            exact h1

theorem keeps_judgeHandover (s : State) (p : Nat) (n : Nat) (by' : Requester) :
    Keeps (andBell [.inForce, .staged, .held, .engines, .ports, .firmware]) s (State.judgeHandover s p n by') := by
  unfold State.judgeHandover
  lift_lets -underBinder
  intro x1
  have h1 : Keeps (andBell [.inForce, .staged, .held, .engines, .ports, .firmware]) s x1 := by
    refine Keeps.step (keeps_requestJudged _ _ _ _) rfl ?_
    exact Keeps.refl _ _
  clear_value x1
  refine Keeps.step (keeps_engineTryStart _ _) rfl ?_
  exact h1

theorem keeps_rollEnd (s : State) :
    Keeps (andBell [.firmware, .flash]) s (State.rollEnd s) := by
  unfold State.rollEnd
  lift_lets -underBinder
  intro x1 x2 x3
  have h3 : Keeps (andBell [.firmware, .flash]) s x3 := by
    refine Keeps.with_sys ?_ ?_ ?_ ?_ ?_ ?_ ?_ ?_ ?_
    · (refine .inr ?_; and_intros <;> rfl)
    · (refine .inr ?_; and_intros <;> rfl)
    · (refine .inr ?_; and_intros <;> rfl)
    · (refine .inr ?_; and_intros <;> rfl)
    · exact .inl rfl
    · exact .inl rfl
    · exact .inr rfl
    · exact .inr ⟨rfl, rfl⟩
    · exact Keeps.refl _ _
  clear_value x3
  intro x4 x5 x6
  refine Keeps.ite ?_ ?_
  · refine Keeps.step (keeps_count _ _) rfl ?_
    refine Keeps.step (keeps_setFwResult _ _) rfl ?_
    refine Keeps.step (keeps_setRecord _ _) rfl ?_
    refine Keeps.with_sys ?_ ?_ ?_ ?_ ?_ ?_ ?_ ?_ ?_
    · (refine .inr ?_; and_intros <;> rfl)
    · (refine .inr ?_; and_intros <;> rfl)
    · (refine .inr ?_; and_intros <;> rfl)
    · (refine .inr ?_; and_intros <;> rfl)
    · exact .inl rfl
    · exact .inl rfl
    · exact .inr rfl
    · exact .inr ⟨rfl, rfl⟩
    · exact h3
  · refine Keeps.ite ?_ ?_
    · refine Keeps.step (keeps_setFwResult _ _) rfl ?_
      exact h3
    · refine Keeps.step (keeps_setFwResult _ _) rfl ?_
      refine Keeps.step (keeps_setRecord _ _) rfl ?_
      refine Keeps.with_sys ?_ ?_ ?_ ?_ ?_ ?_ ?_ ?_ ?_
      · (refine .inr ?_; and_intros <;> rfl)
      · (refine .inr ?_; and_intros <;> rfl)
      · (refine .inr ?_; and_intros <;> rfl)
      · (refine .inr ?_; and_intros <;> rfl)
      · exact .inl rfl
      · exact .inl rfl
      · exact .inr rfl
      · exact .inr ⟨rfl, rfl⟩
      · exact h3

theorem keeps_rollRequest (s : State) (p : Nat) :
    Keeps [.ports] s (State.rollRequest s p) := by
  unfold State.rollRequest
  lift_lets -underBinder
  intro x1 x2 x3
  refine Keeps.ite ?_ ?_
  · clear_value x3
    split
    · refine Keeps.step (keeps_modPort _ _ _) rfl ?_
      exact Keeps.refl _ _
    · exact Keeps.refl _ _
  · exact Keeps.refl _ _

theorem keeps_rollSettle (s : State) :
    Keeps (andBell [.engines, .ports, .firmware, .flash]) s (State.rollSettle s) := by
  unfold State.rollSettle
  refine Keeps.ite ?_ ?_
  · exact Keeps.refl _ _
  · lift_lets -underBinder
    intro x1
    have h1 : Keeps (andBell [.engines, .ports, .firmware, .flash]) s x1 := by
      refine Keeps.foldl (fun u2 y3 => ?_) ?_
      · refine Keeps.step (keeps_modEngine _ _ _) rfl ?_
        exact Keeps.refl _ _
      · exact Keeps.refl _ _
    clear_value x1
    refine Keeps.ite ?_ ?_
    · refine Keeps.foldl (fun u4 y5 => ?_) ?_
      · refine Keeps.step (keeps_rollRequest _ _) rfl ?_
        exact Keeps.refl _ _
      · exact h1
    · refine Keeps.step (keeps_rollEnd _) rfl ?_
      exact h1

theorem keeps_handoverSettle (s : State) :
    Keeps (andBell [.engines, .ports, .scriv, .lock, .srcs, .tink, .firmware, .flash]) s (State.handoverSettle s) := by
  unfold State.handoverSettle
  refine Keeps.step (keeps_rollSettle _) rfl ?_
  refine Keeps.step (keeps_tinkSettle _) rfl ?_
  exact Keeps.refl _ _

theorem keeps_handoverCommit (s : State) (hostPorts : List Nat) :
    Keeps (andBell [.inForce, .staged, .held, .engines, .ports, .scriv, .lock, .srcs, .tink, .firmware, .flash]) s (State.handoverCommit s hostPorts) := by
  unfold State.handoverCommit
  lift_lets -underBinder
  intro x1
  have h1 : Keeps (andBell   [.inForce, .staged, .held, .engines, .ports, .scriv, .lock, .srcs, .tink,     .firmware, .flash]) s x1 := by
    refine Keeps.foldl (fun u2 y3 => ?_) ?_
    · lift_lets -underBinder
      intro x4 x5
      have h5 : Keeps (andBell   [.inForce, .staged, .held, .engines, .ports, .scriv, .lock, .srcs, .tink,     .firmware, .flash]) u2 x5 := by
        refine Keeps.ite ?_ ?_
        · refine Keeps.step (keeps_modPort _ _ _) rfl ?_
          exact Keeps.refl _ _
        · exact Keeps.refl _ _
      clear_value x5
      intro x6
      have h6 : Keeps (andBell   [.inForce, .staged, .held, .engines, .ports, .scriv, .lock, .srcs, .tink,     .firmware, .flash]) u2 x6 := by
        unfold x6
        clear_value x4
        split
        · refine Keeps.foldl (fun u7 y8 => ?_) ?_
          · refine Keeps.step (keeps_skipSlice _ _ _) rfl ?_
            exact Keeps.refl _ _
          · exact h5
        · exact h5
      clear_value x6
      refine Keeps.ite ?_ ?_
      · refine Keeps.step (keeps_judgeHandover _ _ _ _) rfl ?_
        exact h6
      · clear_value x4
        split
        · refine Keeps.step (keeps_judgeHandover _ _ _ _) rfl ?_
          exact h5
        · exact h5
    · exact Keeps.refl _ _
  clear_value x1
  refine Keeps.step (keeps_handoverSettle _) rfl ?_
  exact h1

theorem keeps_shadowJudge (s : State) (p : Nat) (servingValid : Bool) (v : ShadowView) :
    Keeps faultParts s (State.shadowJudge s p servingValid v) := by
  unfold State.shadowJudge
  split
  · exact Keeps.refl _ _
  · refine Keeps.ite ?_ ?_
    · exact Keeps.refl _ _
    · refine Keeps.ite ?_ ?_
      · lift_lets -underBinder
        intro x1
        have h1 : Keeps (faultParts) s x1 := by
          refine Keeps.step (keeps_count _ _) rfl ?_
          refine Keeps.step (keeps_modPort _ _ _) rfl ?_
          exact Keeps.refl _ _
        clear_value x1
        refine Keeps.ite ?_ ?_
        · refine Keeps.step (keeps_handoverSettle _) rfl ?_
          refine Keeps.step (keeps_unitFault _ _ _) rfl ?_
          refine Keeps.step (keeps_handoverFail _ _ _) rfl ?_
          exact h1
        · exact h1
      · lift_lets -underBinder
        intro x2
        refine Keeps.step (keeps_modPort _ _ _) rfl ?_
        exact Keeps.refl _ _

theorem keeps_execHoTimeout (port : Nat) (s : State) :
    AnswerKeeps (andBell [.clock, .engines, .ports, .scriv, .lock, .srcs, .tink, .firmware, .flash]) s (execHoTimeout port s) := by
  unfold execHoTimeout
  lift_lets -underBinder
  intro x1
  refine AnswerKeeps.next ?_
  refine Keeps.ite ?_ ?_
  · refine Keeps.step (keeps_handoverSettle _) rfl ?_
    refine Keeps.step (keeps_handoverFail _ _ _) rfl ?_
    refine Keeps.step (keeps_advanceTo _ _) rfl ?_
    exact Keeps.refl _ _
  · exact Keeps.refl _ _

theorem keeps_execTakeoverCopy (port : Nat) (s : State) :
    AnswerKeeps [.ports] s (execTakeoverCopy port s) := by
  unfold execTakeoverCopy
  lift_lets -underBinder
  intro x1
  refine AnswerKeeps.next ?_
  refine Keeps.ite ?_ ?_
  · refine Keeps.ite ?_ ?_
    · refine Keeps.step (keeps_modPort _ _ _) rfl ?_
      exact Keeps.refl _ _
    · refine Keeps.step (keeps_modPort _ _ _) rfl ?_
      exact Keeps.refl _ _
  · exact Keeps.refl _ _

theorem keeps_execTakeoverSwitch (port : Nat) (overload : Bool) (s : State) :
    AnswerKeeps (andBell [.engines, .ports, .scriv, .lock, .srcs, .tink, .firmware, .flash]) s (execTakeoverSwitch port overload s) := by
  unfold execTakeoverSwitch
  lift_lets -underBinder
  intro x1
  refine AnswerKeeps.next ?_
  split
  · refine Keeps.ite ?_ ?_
    · refine Keeps.ite ?_ ?_
      · refine Keeps.step (keeps_count _ _) rfl ?_
        refine Keeps.step (keeps_modPort _ _ _) rfl ?_
        exact Keeps.refl _ _
      · refine Keeps.step (keeps_handoverSettle _) rfl ?_
        refine Keeps.step (keeps_switchEngine _ _ _ _) rfl ?_
        exact Keeps.refl _ _
    · exact Keeps.refl _ _
  · exact Keeps.refl _ _

end Sys2Proof.Laws
end

