-- ==== Sys2Proof/Laws/FramesTraffic.lean ====
section
/-! SUPPORT. Frames of the buses, forwarding, boots, transceivers, power, transmission, the Locksmith, lifecycle and debug:
the parts of the state that each operation may change. -/

namespace Sys2Proof.Laws

open Sys2Proof.Machine Sys2Proof.Safety

/-! ## Machine/Buses.lean -/

theorem keeps_laneCheck (s : State) (p : Nat) :
    Keeps [.ports, .frames] s (State.laneCheck s p) := by
  unfold State.laneCheck
  split
  · refine Keeps.ite ?_ ?_
    · exact Keeps.refl _ _
    · refine Keeps.step (keeps_modCopy _ _ _ _) rfl ?_
      refine Keeps.step (keeps_modPort _ _ _) rfl ?_
      exact Keeps.refl _ _
  · exact Keeps.refl _ _

theorem keeps_frameBegins (s : State) (p : Nat) (sof : Int) :
    Keeps (andBell [.engines, .ports, .rings, .cells]) s (State.frameBegins s p sof) := by
  unfold State.frameBegins
  lift_lets -underBinder
  intro x1
  have h1 : Keeps (andBell [.engines, .ports, .rings, .cells]) s x1 := by
    refine Keeps.ite ?_ ?_
    · refine Keeps.step (keeps_endBusFrame _ _) rfl ?_
      exact Keeps.refl _ _
    · exact Keeps.refl _ _
  clear_value x1
  intro x2
  have h2 : Keeps (andBell [.engines, .ports, .rings, .cells]) s x2 := by
    refine Keeps.step (keeps_modEngine _ _ _) rfl ?_
    exact h1
  clear_value x2
  refine Keeps.step (keeps_modPort _ _ _) rfl ?_
  exact h2

theorem keeps_startSof (s : State) (p : Nat) (o : OnBus) :
    Keeps (andBell [.engines, .ports, .rings, .cells]) s (State.startSof s p o) := by
  unfold State.startSof
  lift_lets -underBinder
  intro x1
  have h1 : Keeps (andBell [.engines, .ports, .rings, .cells]) s x1 := by
    refine Keeps.step (keeps_frameBegins _ _ _) rfl ?_
    exact Keeps.refl _ _
  clear_value x1
  intro x2
  have h2 : Keeps (andBell [.engines, .ports, .rings, .cells]) s x2 := by
    refine Keeps.step (keeps_modPort _ _ _) rfl ?_
    exact h1
  clear_value x2
  intro x3
  have h3 : Keeps (andBell [.engines, .ports, .rings, .cells]) s x3 := by
    unfold x3
    split
    · lift_lets -underBinder
      intro x4 x5
      have h5 : Keeps (andBell [.engines, .ports, .rings, .cells]) s x5 := by
        refine Keeps.step (keeps_modPort _ _ _) rfl ?_
        exact h2
      clear_value x5
      refine Keeps.step (keeps_countSet _ _ _) rfl ?_
      refine Keeps.step (keeps_count _ _) rfl ?_
      exact h5
    · exact h2
  clear_value x3
  split
  · refine Keeps.ite ?_ ?_
    · exact h3
    · refine Keeps.ite ?_ ?_
      · refine Keeps.step (keeps_emit _ _) rfl ?_
        refine Keeps.step (keeps_emit _ _) rfl ?_
        exact h3
      · refine Keeps.step (keeps_emit _ _) rfl ?_
        exact h3
  · exact h3

theorem keeps_sentFrame (s : State) (p : Nat) :
    Keeps [.engines] s (State.sentFrame s p) := by
  unfold State.sentFrame
  refine Keeps.step (keeps_modEngine _ _ _) rfl ?_
  exact Keeps.refl _ _

theorem keeps_endLane (s : State) (p : Nat) (o : CopyOutcome) :
    Keeps [.counters, .ports, .frames, .cells] s (State.endLane s p o) := by
  unfold State.endLane
  split
  · exact Keeps.refl _ _
  · refine Keeps.step (keeps_settleFrame _ _) rfl ?_
    refine Keeps.step (keeps_endCopy _ _ _ _) rfl ?_
    refine Keeps.step (keeps_modPort _ _ _) rfl ?_
    exact Keeps.refl _ _

theorem keeps_measureLoop (s : State) (p : Nat) (loop : Option Nat) :
    Keeps [.counters, .engines] s (State.measureLoop s p loop) := by
  unfold State.measureLoop
  lift_lets -underBinder
  intro x1
  split
  · split
    · refine Keeps.step (keeps_countIf _ _ _) rfl ?_
      refine Keeps.step (keeps_modEngine _ _ _) rfl ?_
      exact Keeps.refl _ _
    · exact Keeps.refl _ _
  · exact Keeps.refl _ _

theorem keeps_selfAbort (s : State) (p : Nat) (reg : Nat → Nat) (ph : BitPhase) (loop : Option Nat) (sv : ShadowView) :
    Keeps (faultParts ++ [.xcvr]) s (State.selfAbort s p reg ph loop sv) := by
  unfold State.selfAbort
  lift_lets -underBinder
  intro x1 x2
  have h2 : Keeps (faultParts ++ [.xcvr]) s x2 := by
    refine Keeps.step (keeps_lastErr _ _ _ _ _) rfl ?_
    refine Keeps.step (keeps_count _ _) rfl ?_
    refine Keeps.step (keeps_measureLoop _ _ _) rfl ?_
    exact Keeps.refl _ _
  clear_value x2
  intro x3
  have h3 : Keeps (faultParts ++ [.xcvr]) s x3 := by
    refine Keeps.step (keeps_modPort _ _ _) rfl ?_
    refine Keeps.step (keeps_endLane _ _ _) rfl ?_
    exact h2
  clear_value x3
  intro x4
  have h4 : Keeps (faultParts ++ [.xcvr]) s x4 := by
    refine Keeps.trans ?_ (keeps_portStep _ _ _ (fun u5 => ?_) rfl)
    · exact h3
    · refine Keeps.step (keeps_sentFrame _ _) rfl ?_
      refine Keeps.step (keeps_setErrors _ _ _ _) rfl ?_
      exact Keeps.refl _ _
  clear_value x4
  refine Keeps.step (keeps_emit _ _) rfl ?_
  refine Keeps.step (keeps_shadowJudge _ _ _ _) rfl ?_
  refine Keeps.step (keeps_unitFault _ _ _) rfl ?_
  refine Keeps.step (keeps_busFrameOver _ _) rfl ?_
  exact h4

theorem keeps_signalError (s : State) (p : Nat) (x : BusErr) (transmitter : Bool) (ph : BitPhase) :
    Keeps (andBell [.engines, .ports, .rings, .cells]) s (State.signalError s p x transmitter ph) := by
  unfold State.signalError
  lift_lets -underBinder
  intro x1 x2 x3 x4
  refine Keeps.ite ?_ ?_
  · refine Keeps.step (keeps_setErrors _ _ _ _) rfl ?_
    exact Keeps.refl _ _
  · refine Keeps.ite ?_ ?_
    · refine Keeps.step (keeps_modEngine _ _ _) rfl ?_
      exact Keeps.refl _ _
    · exact Keeps.refl _ _

theorem keeps_emitSome (s : State) (xs : Option Out) :
    Keeps [.out] s (State.emitSome s xs) := by
  unfold State.emitSome
  split
  · refine Keeps.step (keeps_emit _ _) rfl ?_
    exact Keeps.refl _ _
  · exact Keeps.refl _ _

theorem keeps_execRxHeader (port : Nat) (f : BusFrame) (sofAgo : Nat) (s : State) :
    AnswerKeeps (andBell [.engines, .ports, .xcvr, .frames, .rings, .cells]) s (execRxHeader port f sofAgo s) := by
  unfold execRxHeader
  lift_lets -underBinder
  intro x1 x2 x3
  have h3 : Keeps (andBell [.engines, .ports, .xcvr, .frames, .rings, .cells]) s x3 := by
    refine Keeps.step (keeps_frameBegins _ _ _) rfl ?_
    exact Keeps.refl _ _
  clear_value x3
  intro x4 x5
  have h5 : Keeps (andBell [.engines, .ports, .xcvr, .frames, .rings, .cells]) s x5 := by
    refine Keeps.ite ?_ ?_
    · refine Keeps.step (keeps_emit _ _) rfl ?_
      exact h3
    · exact h3
  clear_value x5
  intro x6
  have h6 : Keeps (andBell [.engines, .ports, .xcvr, .frames, .rings, .cells]) s x6 := by
    refine Keeps.step (keeps_setFrame _ _ _) rfl ?_
    exact h5
  clear_value x6
  intro x7
  have h7 : Keeps (andBell [.engines, .ports, .xcvr, .frames, .rings, .cells]) s x7 := by
    refine Keeps.with_nextFrame ?_ ?_
    · exact rfl
    · exact h6
  clear_value x7
  refine AnswerKeeps.next ?_
  refine Keeps.ite ?_ ?_
  · exact Keeps.refl _ _
  · refine Keeps.ite ?_ ?_
    · refine Keeps.ite ?_ ?_
      · refine Keeps.step (keeps_busFrameOver _ _) rfl ?_
        refine Keeps.step (keeps_count _ _) rfl ?_
        refine Keeps.step (keeps_modEngine _ _ _) rfl ?_
        exact h3
      · refine Keeps.step (keeps_emitSome _ _) rfl ?_
        refine Keeps.trans ?_ (keeps_portStep _ _ _ (fun u8 => ?_) rfl)
        · exact h3
        · refine Keeps.step (keeps_busFrameOver _ _) rfl ?_
          refine Keeps.step (keeps_signalError _ _ _ _ _) rfl ?_
          refine Keeps.step (keeps_noteError _ _ _ _ _) rfl ?_
          exact Keeps.refl _ _
    · refine Keeps.step (keeps_modPort _ _ _) rfl ?_
      exact h7

theorem keeps_dropHead_opt (s : State) (p : Nat) (c : Nat) :
    OptKeeps (andBell [.ports, .rings, .cells]) s (State.dropHead? s p c) := by
  unfold State.dropHead?
  split
  · exact OptKeeps.none
  · refine OptKeeps.ite ?_ ?_
    · exact OptKeeps.none
    · refine OptKeeps.ite ?_ ?_
      · refine OptKeeps.some ?_
        refine Keeps.step (keeps_count _ _) rfl ?_
        refine Keeps.step (keeps_retireHead _ _ _ _ _ _ _) rfl ?_
        exact Keeps.refl _ _
      · refine OptKeeps.ite ?_ ?_
        · refine OptKeeps.some ?_
          refine Keeps.step (keeps_retireHead _ _ _ _ _ _ _) rfl ?_
          exact Keeps.refl _ _
        · refine OptKeeps.ite ?_ ?_
          · refine OptKeeps.some ?_
            refine Keeps.step (keeps_count _ _) rfl ?_
            refine Keeps.step (keeps_retireHead _ _ _ _ _ _ _) rfl ?_
            exact Keeps.refl _ _
          · exact OptKeeps.none

theorem keeps_cleanClass (s : State) (p : Nat) (c : Nat) :
    Keeps (andBell [.ports, .rings, .cells]) s (State.cleanClass s p c) := by
  unfold State.cleanClass
  refine Keeps.foldl (fun u1 y2 => ?_) ?_
  · refine OptKeeps.getD ?_ ?_
    · refine OptKeeps.step (keeps_dropHead_opt _ _ _) rfl ?_
      exact Keeps.refl _ _
    · exact Keeps.refl _ _
  · exact Keeps.refl _ _

theorem keeps_execCtUnderrun (port : Nat) (ph : BitPhase) (s : State) (loop : Option Nat) (sv : ShadowView) :
    AnswerKeeps (faultParts ++ [.xcvr]) s (execCtUnderrun port ph s loop sv) := by
  unfold execCtUnderrun
  refine AnswerKeeps.next ?_
  split
  · refine Keeps.step (keeps_selfAbort _ _ _ _ _ _) rfl ?_
    exact Keeps.refl _ _
  · exact Keeps.refl _ _

theorem keeps_attemptFails (s : State) (p : Nat) :
    Keeps (andBell [.ports, .frames, .rings, .cells]) s (State.attemptFails s p) := by
  unfold State.attemptFails
  lift_lets -underBinder
  intro x1
  split
  · lift_lets -underBinder
    intro x2
    have h2 : Keeps (andBell [.ports, .frames, .rings, .cells]) s x2 := by
      refine Keeps.step (keeps_modHead _ _ _ _) rfl ?_
      refine Keeps.step (keeps_modPort _ _ _) rfl ?_
      exact Keeps.refl _ _
    clear_value x2
    intro x3
    split
    · exact h2
    · refine Keeps.ite ?_ ?_
      · refine Keeps.step (keeps_count _ _) rfl ?_
        refine Keeps.step (keeps_retireHead _ _ _ _ _ _ _) rfl ?_
        exact h2
      · refine Keeps.ite ?_ ?_
        · refine Keeps.step (keeps_count _ _) rfl ?_
          refine Keeps.step (keeps_retireHead _ _ _ _ _ _ _) rfl ?_
          exact h2
        · exact h2
  · refine Keeps.step (keeps_laneReturn _ _) rfl ?_
    exact Keeps.refl _ _
  · exact Keeps.refl _ _

theorem keeps_execBusError (port : Nat) (e : BusErr) (transmitter : Bool) (ph : BitPhase) (s : State) (loop : Option Nat) (sv : ShadowView) :
    AnswerKeeps (faultParts ++ [.xcvr]) s (execBusError port e transmitter ph s loop sv) := by
  unfold execBusError
  lift_lets -underBinder
  intro x1 x2 x3 x4
  have h4 : Keeps (faultParts ++ [.xcvr]) s x4 := by
    refine Keeps.ite ?_ ?_
    · refine Keeps.step (keeps_measureLoop _ _ _) rfl ?_
      exact Keeps.refl _ _
    · exact Keeps.refl _ _
  clear_value x4
  intro x5
  have h5 : Keeps (faultParts ++ [.xcvr]) s x5 := by
    refine Keeps.trans ?_ (keeps_withLevel _ _ _ (fun u6 => ?_) rfl)
    · exact h4
    · refine Keeps.trans ?_ (keeps_portStep _ _ _ (fun u7 => ?_) rfl)
      · exact Keeps.refl _ _
      · lift_lets -underBinder
        intro x8
        have h8 : Keeps (faultParts ++ [.xcvr]) u7 x8 := by
          refine Keeps.step (keeps_noteError _ _ _ _ _) rfl ?_
          exact Keeps.refl _ _
        clear_value x8
        intro x9
        have h9 : Keeps (faultParts ++ [.xcvr]) u7 x9 := by
          refine Keeps.step (keeps_signalError _ _ _ _ _) rfl ?_
          refine Keeps.ite ?_ ?_
          · refine Keeps.step (keeps_attemptFails _ _) rfl ?_
            exact h8
          · exact h8
        clear_value x9
        intro x10
        have h10 : Keeps (faultParts ++ [.xcvr]) u7 x10 := by
          refine Keeps.ite ?_ ?_
          · refine Keeps.step (keeps_sentFrame _ _) rfl ?_
            exact h9
          · exact h9
        clear_value x10
        refine Keeps.ite ?_ ?_
        · refine Keeps.step (keeps_busFrameOver _ _) rfl ?_
          exact h10
        · exact h10
  clear_value x5
  refine AnswerKeeps.next ?_
  refine Keeps.ite ?_ ?_
  · refine Keeps.step (keeps_emitSome _ _) rfl ?_
    refine Keeps.ite ?_ ?_
    · refine Keeps.step (keeps_shadowJudge _ _ _ _) rfl ?_
      exact h5
    · exact h5
  · exact Keeps.refl _ _

theorem keeps_giveVerdict (s : State) (p : Nat) (fid : Nat) (v : RxVerdict) :
    Keeps (andBell [.ports, .frames, .lock, .rings, .routes, .cells, .free]) s (State.giveVerdict s p fid v) := by
  unfold State.giveVerdict
  lift_lets -underBinder
  intro x1 x2
  have h2 : Keeps (andBell [.ports, .frames, .lock, .rings, .routes, .cells, .free]) s x2 := by
    refine Keeps.step (keeps_modFrame _ _ _) rfl ?_
    exact Keeps.refl _ _
  clear_value x2
  intro x3
  refine Keeps.step (keeps_afterVerdict _ _) rfl ?_
  refine Keeps.step (keeps_countIf _ _ _) rfl ?_
  exact h2

theorem keeps_ownFrame (s : State) (p : Nat) (f : BusFrame) :
    Keeps (andBell [.ports, .frames, .lock, .rings, .routes, .cells, .free]) s (State.ownFrame s p f) := by
  unfold State.ownFrame
  refine Keeps.ite ?_ ?_
  · lift_lets -underBinder
    intro x1 x2
    have h2 : Keeps (andBell [.ports, .frames, .lock, .rings, .routes, .cells, .free]) s x2 := by
      refine Keeps.step (keeps_count _ _) rfl ?_
      refine Keeps.step (keeps_setFrame _ _ _) rfl ?_
      exact Keeps.refl _ _
    clear_value x2
    refine Keeps.step (keeps_giveVerdict _ _ _ _) rfl ?_
    refine Keeps.with_nextFrame ?_ ?_
    · exact rfl
    · exact h2
  · exact Keeps.refl _ _

theorem keeps_execTxSuccess (port : Nat) (loopMtq : Nat) (sv : ShadowView) (s : State) :
    AnswerKeeps (faultParts ++ [.xcvr]) s (execTxSuccess port loopMtq sv s) := by
  unfold execTxSuccess
  lift_lets -underBinder
  intro x1
  refine AnswerKeeps.next ?_
  split
  · lift_lets -underBinder
    intro x2
    have h2 : Keeps (faultParts ++ [.xcvr]) s x2 := by
      refine Keeps.step (keeps_measureLoop _ _ _) rfl ?_
      refine Keeps.step (keeps_count _ _) rfl ?_
      exact Keeps.refl _ _
    clear_value x2
    intro x3
    have h3 : Keeps (faultParts ++ [.xcvr]) s x3 := by
      refine Keeps.step (keeps_setErrors _ _ _ _) rfl ?_
      exact h2
    clear_value x3
    intro x4
    have h4 : Keeps (faultParts ++ [.xcvr]) s x4 := by
      refine Keeps.step (keeps_ownFrame _ _ _) rfl ?_
      exact h3
    clear_value x4
    intro x5
    have h5 : Keeps (faultParts ++ [.xcvr]) s x5 := by
      unfold x5
      split
      · refine Keeps.trans ?_ (keeps_withLevel _ _ _ (fun u6 => ?_) rfl)
        · exact h4
        · refine Keeps.step (keeps_retireHead _ _ _ _ _ _ _) rfl ?_
          exact Keeps.refl _ _
      · refine Keeps.step (keeps_endLane _ _ _) rfl ?_
        exact h4
    clear_value x5
    intro x7
    have h7 : Keeps (faultParts ++ [.xcvr]) s x7 := by
      refine Keeps.step (keeps_busFrameOver _ _) rfl ?_
      refine Keeps.step (keeps_sentFrame _ _) rfl ?_
      refine Keeps.step (keeps_modPort _ _ _) rfl ?_
      exact h5
    clear_value x7
    refine Keeps.step (keeps_shadowJudge _ _ _ _) rfl ?_
    exact h7
  · exact Keeps.refl _ _

theorem keeps_execTxChoice (port : Nat) (s : State) :
    AnswerKeeps (andBell [.engines, .ports, .frames, .rings, .cells]) s (execTxChoice port s) := by
  unfold execTxChoice
  lift_lets -underBinder
  intro x1
  have h1 : Keeps (andBell [.engines, .ports, .frames, .rings, .cells]) s x1 := by
    refine Keeps.trans ?_ (keeps_withLevel _ _ _ (fun u2 => ?_) rfl)
    · exact Keeps.refl _ _
    · refine Keeps.foldl (fun u3 y4 => ?_) ?_
      · refine Keeps.step (keeps_cleanClass _ _ _) rfl ?_
        exact Keeps.refl _ _
      · exact Keeps.refl _ _
  clear_value x1
  intro x5 x6
  have h6 : Keeps (andBell [.engines, .ports, .frames, .rings, .cells]) s x6 := by
    refine Keeps.step (keeps_laneCheck _ _) rfl ?_
    refine Keeps.step (keeps_countIf _ _ _) rfl ?_
    exact h1
  clear_value x6
  refine AnswerKeeps.next ?_
  refine Keeps.ite ?_ ?_
  · exact Keeps.refl _ _
  · split
    · refine Keeps.step (keeps_startSof _ _ _) rfl ?_
      exact h6
    · exact h6

theorem keeps_execRxFrameEnd (port : Nat) (v : RxVerdict) (sv : ShadowView) (s : State) (toAck : Bool) :
    AnswerKeeps (faultParts ++ [.xcvr]) s (execRxFrameEnd port v sv s toAck) := by
  unfold execRxFrameEnd
  lift_lets -underBinder
  intro x1
  refine AnswerKeeps.next ?_
  split
  · refine Keeps.step (keeps_shadowJudge _ _ _ _) rfl ?_
    refine Keeps.step (keeps_busFrameOver _ _) rfl ?_
    exact Keeps.refl _ _
  · lift_lets -underBinder
    intro x2 x3
    have h3 : Keeps (faultParts ++ [.xcvr]) s x3 := by
      refine Keeps.step (keeps_modPort _ _ _) rfl ?_
      exact Keeps.refl _ _
    clear_value x3
    intro x4
    have h4 : Keeps (faultParts ++ [.xcvr]) s x4 := by
      refine Keeps.ite ?_ ?_
      · refine Keeps.trans ?_ (keeps_portStep _ _ _ (fun u5 => ?_) rfl)
        · exact h3
        · refine Keeps.step (keeps_setErrors _ _ _ _) rfl ?_
          exact Keeps.refl _ _
      · exact h3
    clear_value x4
    intro x6
    have h6 : Keeps (faultParts ++ [.xcvr]) s x6 := by
      refine Keeps.step (keeps_countIf _ _ _) rfl ?_
      refine Keeps.step (keeps_countIf _ _ _) rfl ?_
      exact h4
    clear_value x6
    intro x7
    have h7 : Keeps (faultParts ++ [.xcvr]) s x7 := by
      refine Keeps.step (keeps_tinkSettle _) rfl ?_
      refine Keeps.step (keeps_busFrameOver _ _) rfl ?_
      refine Keeps.step (keeps_giveVerdict _ _ _ _) rfl ?_
      exact h6
    clear_value x7
    refine Keeps.step (keeps_emitSome _ _) rfl ?_
    refine Keeps.step (keeps_shadowJudge _ _ _ _) rfl ?_
    exact h7

theorem keeps_execArbLost (port : Nat) (s : State) :
    AnswerKeeps (andBell [.ports, .frames, .rings, .cells]) s (execArbLost port s) := by
  unfold execArbLost
  lift_lets -underBinder
  intro x1
  refine AnswerKeeps.next ?_
  refine Keeps.ite ?_ ?_
  · exact Keeps.refl _ _
  · split
    · refine Keeps.trans ?_ (keeps_withLevel _ _ _ (fun u2 => ?_) rfl)
      · refine Keeps.step (keeps_modPort _ _ _) rfl ?_
        refine Keeps.step (keeps_count _ _) rfl ?_
        exact Keeps.refl _ _
      · refine Keeps.step (keeps_dropNextCheck _ _ _) rfl ?_
        exact Keeps.refl _ _
    · refine Keeps.step (keeps_laneReturn _ _) rfl ?_
      refine Keeps.step (keeps_count _ _) rfl ?_
      exact Keeps.refl _ _
    · exact Keeps.refl _ _

theorem keeps_execSelfAbort (port : Nat) (ph : BitPhase) (s : State) (loop : Option Nat) (sv : ShadowView) :
    AnswerKeeps (faultParts ++ [.xcvr]) s (execSelfAbort port ph s loop sv) := by
  unfold execSelfAbort
  refine AnswerKeeps.next ?_
  split
  · refine Keeps.ite ?_ ?_
    · refine Keeps.step (keeps_selfAbort _ _ _ _ _ _) rfl ?_
      exact Keeps.refl _ _
    · exact Keeps.refl _ _
  · exact Keeps.refl _ _

/-! ## Machine/Forwarding.lean -/

theorem keeps_dropHead (s : State) (p : Nat) (c : Nat) :
    Keeps (andBell [.ports, .rings, .cells]) s (State.dropHead s p c) := by
  unfold State.dropHead
  split
  · exact Keeps.refl _ _
  · refine Keeps.ite ?_ ?_
    · refine Keeps.step (keeps_modHead _ _ _ _) rfl ?_
      exact Keeps.refl _ _
    · refine Keeps.trans ?_ (keeps_withLevel _ _ _ (fun u1 => ?_) rfl)
      · exact Keeps.refl _ _
      · refine Keeps.step (keeps_count _ _) rfl ?_
        refine Keeps.step (keeps_retireHead _ _ _ _ _ _ _) rfl ?_
        exact Keeps.refl _ _

theorem keeps_reserveFor (s : State) (e : Ep) (k : Nat) (len : Nat) :
    FstKeeps (andBell [.rings]) s (State.reserveFor s e k len) := by
  unfold State.reserveFor
  lift_lets -underBinder
  intro x1
  have h1 : FstKeeps (andBell [.rings]) s x1 := by
    refine FstKeeps.step (keeps_captureReserve _ _ _ _) rfl ?_
    exact Keeps.refl _ _
  clear_value x1
  refine FstKeeps.ite ?_ ?_
  · refine FstKeeps.mk ?_
    refine Keeps.step (keeps_captureLost _ _ _) rfl ?_
    exact h1
  · exact h1

theorem keeps_unknownCapture (s : State) (fid : Nat) (f : Machine.Frame) (e : Ep) (k : Nat) :
    Keeps (andBell [.frames, .rings]) s (State.unknownCapture s fid f e k) := by
  unfold State.unknownCapture
  lift_lets -underBinder
  intro x1
  have h1 : FstKeeps (andBell [.frames, .rings]) s x1 := by
    refine FstKeeps.step (keeps_reserveFor _ _ _ _) rfl ?_
    exact Keeps.refl _ _
  clear_value x1
  intro x2 x3
  refine Keeps.step (keeps_modFrame _ _ _) rfl ?_
  refine Keeps.step (keeps_openRecord _ _ _) rfl ?_
  exact h1

theorem keeps_cutThrough (s : State) (fid : Nat) (i : Nat) :
    Keeps [.counters, .ports, .frames, .cells] s (State.cutThrough s fid i) := by
  unfold State.cutThrough
  split
  · split
    · lift_lets -underBinder
      intro x1 x2 x3
      refine Keeps.ite ?_ ?_
      · exact Keeps.refl _ _
      · split
        · refine Keeps.step (keeps_endCopy _ _ _ _) rfl ?_
          exact Keeps.refl _ _
        · lift_lets -underBinder
          intro x4 x5
          have h5 : Keeps [.counters, .ports, .frames, .cells] s x5 := by
            refine Keeps.step (keeps_modPort _ _ _) rfl ?_
            exact Keeps.refl _ _
          clear_value x5
          refine Keeps.step (keeps_count _ _) rfl ?_
          refine Keeps.step (keeps_modCopy _ _ _ _) rfl ?_
          exact h5
    · exact Keeps.refl _ _
  · exact Keeps.refl _ _

theorem keeps_takeToken (s : State) (g : Bool) (n : Nat) (r : RouteEntry) :
    FstKeeps [.routes] s (State.takeToken s g n r) := by
  unfold State.takeToken
  refine FstKeeps.ite ?_ ?_
  · refine FstKeeps.mk ?_
    exact Keeps.refl _ _
  · lift_lets -underBinder
    intro x1 x2 x3
    refine FstKeeps.mk ?_
    refine Keeps.step (keeps_modRoute _ _ _ _) rfl ?_
    exact Keeps.refl _ _

theorem keeps_readEntry (s : State) (g : Bool) (f : BusFrame) (n : Nat) :
    FstKeeps (andBell [.rings, .routes]) s (State.readEntry s g f n) := by
  unfold State.readEntry
  lift_lets -underBinder
  intro x1 x2
  have h2 : FstKeeps (andBell [.rings, .routes]) s x2 := by
    refine FstKeeps.step (keeps_takeToken _ _ _ _) rfl ?_
    exact Keeps.refl _ _
  clear_value x2
  intro x3 x4 x5
  have h5 : FstKeeps (andBell [.rings, .routes]) s x5 := by
    refine FstKeeps.step (keeps_reserveFor _ _ _ _) rfl ?_
    exact h2
  clear_value x5
  refine FstKeeps.ite ?_ ?_
  · refine FstKeeps.ite ?_ ?_
    · refine FstKeeps.mk ?_
      exact h5
    · refine FstKeeps.mk ?_
      exact h2
  · refine FstKeeps.mk ?_
    exact h2

theorem keeps_readRoutes (s : State) (g : Bool) (f : BusFrame) (ns : List Nat) :
    FstKeeps (andBell [.rings, .routes]) s (State.readRoutes s g f ns) := by
  induction ns generalizing s with
  | nil => exact Keeps.refl _ _
  | cons n ns ih => exact Keeps.step (ih _) rfl (Keeps.step (keeps_readEntry _ _ _ _) rfl (Keeps.refl _ _))

theorem keeps_drayLookup (s : State) (fid : Nat) (f : Machine.Frame) :
    Keeps (andBell [.ports, .frames, .rings, .routes, .cells, .storeroom]) s (State.drayLookup s fid f) := by
  unfold State.drayLookup
  lift_lets -underBinder
  intro x1
  have h1 : FstKeeps (andBell [.ports, .frames, .rings, .routes, .cells, .storeroom]) s x1 := by
    refine FstKeeps.step (keeps_readRoutes _ _ _ _) rfl ?_
    exact Keeps.refl _ _
  clear_value x1
  intro x2 x3
  have h3 : Keeps (andBell [.ports, .frames, .rings, .routes, .cells, .storeroom]) s x3 := by
    refine Keeps.step (keeps_countIf _ _ _) rfl ?_
    exact h1
  clear_value x3
  intro x4 x5
  have h5 : Keeps (andBell [.ports, .frames, .rings, .routes, .cells, .storeroom]) s x5 := by
    unfold x5
    split
    · unfold x4
      refine Keeps.step (keeps_modFrame _ _ _) rfl ?_
      refine Keeps.step (keeps_storeData _ _ _) rfl ?_
      refine Keeps.step (keeps_allocCells _ _ _ _ _ (by assumption)) rfl ?_
      exact h3
    · unfold x4
      refine Keeps.step (keeps_modFrame _ _ _) rfl ?_
      exact h3
  clear_value x5
  intro x6
  have h6 : Keeps (andBell [.ports, .frames, .rings, .routes, .cells, .storeroom]) s x6 := by
    refine Keeps.foldl (fun u7 y8 => ?_) ?_
    · refine Keeps.step (keeps_openRecord _ _ _) rfl ?_
      exact Keeps.refl _ _
    · exact h5
  clear_value x6
  refine Keeps.foldl (fun u9 y10 => ?_) ?_
  · refine Keeps.step (keeps_cutThrough _ _ _) rfl ?_
    exact Keeps.refl _ _
  · exact h6

theorem keeps_lookupMiss (s : State) (fid : Nat) (f : Machine.Frame) :
    Keeps (andBell [.ports, .frames, .rings, .routes, .cells, .storeroom]) s (State.lookupMiss s fid f) := by
  unfold State.lookupMiss
  lift_lets -underBinder
  intro x1 x2 x3 x4 x5 x6
  have h6 : Keeps (andBell [.ports, .frames, .rings, .routes, .cells, .storeroom]) s x6 := by
    refine Keeps.step (keeps_setFrame _ _ _) rfl ?_
    exact Keeps.refl _ _
  clear_value x6
  refine Keeps.ite ?_ ?_
  · refine Keeps.step (keeps_unknownCapture _ _ _ _ _) rfl ?_
    exact h6
  · refine Keeps.step (keeps_drayLookup _ _ _) rfl ?_
    exact h6

theorem keeps_assignLane (s : State) (fid : Nat) :
    Keeps [.counters, .frames, .lock] s (State.assignLane s fid) := by
  unfold State.assignLane
  refine Keeps.ite ?_ ?_
  · lift_lets -underBinder
    intro x1
    refine Keeps.step (keeps_countIf _ _ _) rfl ?_
    refine Keeps.step (keeps_modFrame _ _ _) rfl ?_
    exact Keeps.refl _ _
  · split
    · lift_lets -underBinder
      intro x2
      have h2 : Keeps [.counters, .frames, .lock] s x2 := by
        refine Keeps.step (keeps_modFrame _ _ _) rfl ?_
        exact Keeps.refl _ _
      clear_value x2
      intro x3
      refine Keeps.with_lock ?_ ?_ ?_ ?_
      · exact .inr rfl
      · exact .inr ⟨rfl, rfl, rfl⟩
      · exact .inl rfl
      · exact h2
    · exact Keeps.refl _ _

theorem keeps_lookupHit (s : State) (fid : Nat) (w : Nat) (f : Machine.Frame) :
    Keeps (andBell [.ports, .frames, .lock, .rings, .routes, .cells, .storeroom]) s (State.lookupHit s fid w f) := by
  unfold State.lookupHit
  lift_lets -underBinder
  intro x1 x2 x3 x4 x5 x6 x7
  have h7 : Keeps (andBell [.ports, .frames, .lock, .rings, .routes, .cells, .storeroom]) s x7 := by
    refine Keeps.step (keeps_countIf _ _ _) rfl ?_
    refine Keeps.step (keeps_setFrame _ _ _) rfl ?_
    exact Keeps.refl _ _
  clear_value x7
  refine Keeps.step (keeps_drayLookup _ _ _) rfl ?_
  refine Keeps.ite ?_ ?_
  · refine Keeps.step (keeps_assignLane _ _) rfl ?_
    exact h7
  · exact h7

theorem keeps_execLookup (fid : Nat) (eccSlot : Option Nat) (s : State) :
    AnswerKeeps (faultParts ++ [.storeroom]) s (execLookup fid eccSlot s) := by
  unfold execLookup
  refine AnswerKeeps.next ?_
  split
  · exact Keeps.refl _ _
  · refine Keeps.ite ?_ ?_
    · exact Keeps.refl _ _
    · lift_lets -underBinder
      intro x1
      have h1 : Keeps (faultParts ++ [.storeroom]) s x1 := by
        refine Keeps.step (keeps_count _ _) rfl ?_
        exact Keeps.refl _ _
      clear_value x1
      intro x2 x3
      have h3 : Keeps (faultParts ++ [.storeroom]) s x3 := by
        unfold x3
        split
        · refine Keeps.step (keeps_modBank _ _ _) rfl ?_
          exact h1
        · exact h1
      clear_value x3
      intro x4 x5 x6
      have h6 : Keeps (faultParts ++ [.storeroom]) s x6 := by
        refine Keeps.ite ?_ ?_
        · refine Keeps.step (keeps_unitFault _ _ _) rfl ?_
          refine Keeps.step (keeps_count _ _) rfl ?_
          refine Keeps.step (keeps_setFrame _ _ _) rfl ?_
          exact h3
        · split
          · refine Keeps.step (keeps_lookupHit _ _ _ _) rfl ?_
            refine Keeps.step (keeps_countIf _ _ _) rfl ?_
            refine Keeps.step (keeps_count _ _) rfl ?_
            exact h3
          · refine Keeps.step (keeps_lookupMiss _ _ _) rfl ?_
            exact h3
      clear_value x6
      refine Keeps.step (keeps_afterVerdict _ _) rfl ?_
      exact h6

theorem keeps_pushCopy (s : State) (fid : Nat) (i : Nat) (f : Machine.Frame) (c : Copy) (p : Nat) :
    Keeps (andBell [.ports, .frames]) s (State.pushCopy s fid i f c p) := by
  unfold State.pushCopy
  lift_lets -underBinder
  intro x1 x2 x3
  have h3 : Keeps (andBell [.ports, .frames]) s x3 := by
    refine Keeps.trans ?_ (keeps_withLevel _ _ _ (fun u4 => ?_) rfl)
    · exact Keeps.refl _ _
    · lift_lets -underBinder
      intro x5
      refine Keeps.step (keeps_pushPacket _ _ _ _) rfl ?_
      exact Keeps.refl _ _
  clear_value x3
  refine Keeps.step (keeps_modCopy _ _ _ _) rfl ?_
  refine Keeps.step (keeps_count _ _) rfl ?_
  exact h3

theorem keeps_execCaptureRecordFinish (fid : Nat) (copy : Nat) (s : State) :
    AnswerKeeps (andBell [.frames, .rings, .free]) s (execCaptureRecordFinish fid copy s) := by
  unfold execCaptureRecordFinish
  refine AnswerKeeps.next ?_
  split
  · split
    · refine Keeps.ite ?_ ?_
      · exact Keeps.refl _ _
      · lift_lets -underBinder
        intro x1
        have h1 : FstKeeps (andBell [.frames, .rings, .free]) s x1 := by
          refine FstKeeps.step (keeps_takeFree _) rfl ?_
          exact Keeps.refl _ _
        clear_value x1
        intro x2
        have h2 : Keeps (andBell [.frames, .rings, .free]) s x2 := by
          refine Keeps.step (keeps_writeData _ _ _ _ _) rfl ?_
          exact h1
        clear_value x2
        intro x3
        have h3 : Keeps (andBell [.frames, .rings, .free]) s x3 := by
          refine Keeps.step (keeps_emit _ _) rfl ?_
          exact h2
        clear_value x3
        intro x4
        have h4 : Keeps (andBell [.frames, .rings, .free]) s x4 := by
          refine Keeps.step (keeps_emit _ _) rfl ?_
          exact h3
        clear_value x4
        intro x5
        have h5 : Keeps (andBell [.frames, .rings, .free]) s x5 := by
          refine Keeps.step (keeps_count _ _) rfl ?_
          refine Keeps.step (keeps_modRing _ _ _ _) rfl ?_
          exact h4
        clear_value x5
        intro x6
        have h6 : Keeps (andBell [.frames, .rings, .free]) s x6 := by
          unfold x6
          split
          · refine Keeps.step (keeps_countSet _ _ _) rfl ?_
            exact h5
          · refine Keeps.step (keeps_countOutcome _ _ _ _) rfl ?_
            exact h5
          · exact h5
          · exact h5
        clear_value x6
        refine Keeps.step (keeps_settleFrame _ _) rfl ?_
        refine Keeps.step (keeps_modCopy _ _ _ _) rfl ?_
        refine Keeps.step (keeps_ringNotify _ _ _) rfl ?_
        exact h6
    · refine Keeps.ite ?_ ?_
      · lift_lets -underBinder
        intro x7
        have h7 : Keeps (andBell [.frames, .rings, .free]) s x7 := by
          unfold x7
          split
          · refine Keeps.step (keeps_countOutcome _ _ _ _) rfl ?_
            exact Keeps.refl _ _
          · exact Keeps.refl _ _
        clear_value x7
        refine Keeps.step (keeps_settleFrame _ _) rfl ?_
        refine Keeps.step (keeps_modCopy _ _ _ _) rfl ?_
        exact h7
      · exact Keeps.refl _ _
    · exact Keeps.refl _ _
  · exact Keeps.refl _ _

theorem keeps_execCopyPlacement (fid : Nat) (copy : Nat) (s : State) :
    AnswerKeeps (andBell [.ports, .frames, .lock, .cells]) s (execCopyPlacement fid copy s) := by
  unfold execCopyPlacement
  refine AnswerKeeps.next ?_
  split
  · refine Keeps.ite ?_ ?_
    · exact Keeps.refl _ _
    · lift_lets -underBinder
      intro x1
      have h1 : Keeps (andBell [.ports, .frames, .lock, .cells]) s x1 := by
        unfold x1
        split
        · refine Keeps.step (keeps_countSet _ _ _) rfl ?_
          refine Keeps.step (keeps_count _ _) rfl ?_
          exact Keeps.refl _ _
        · exact Keeps.refl _ _
      clear_value x1
      intro x2
      have h2 : Keeps (andBell [.ports, .frames, .lock, .cells]) s x2 := by
        unfold x2
        split
        · refine Keeps.step (keeps_endCopy _ _ _ _) rfl ?_
          exact h1
        · split
          · lift_lets -underBinder
            intro x3
            have h3 : Keeps (andBell [.ports, .frames, .lock, .cells]) s x3 := by
              refine Keeps.step (keeps_modCopy _ _ _ _) rfl ?_
              exact h1
            clear_value x3
            intro x4
            refine Keeps.with_lock ?_ ?_ ?_ ?_
            · exact .inr rfl
            · exact .inr ⟨rfl, rfl, rfl⟩
            · exact .inl rfl
            · exact h3
          · refine Keeps.step (keeps_pushCopy _ _ _ _ _ _) rfl ?_
            exact h1
          · refine Keeps.step (keeps_modCopy _ _ _ _) rfl ?_
            exact h1
      clear_value x2
      refine Keeps.step (keeps_settleFrame _ _) rfl ?_
      exact h2
  · exact Keeps.refl _ _

/-! ## Machine/Boot.lean -/

theorem keeps_checkSlot (s : State) (n : Nat) :
    Keeps [.firmware] s (State.checkSlot s n) := by
  unfold State.checkSlot
  lift_lets -underBinder
  intro x1 x2 x3
  refine Keeps.with_sys ?_ ?_ ?_ ?_ ?_ ?_ ?_ ?_ ?_
  · (refine .inr ?_; and_intros <;> rfl)
  · (refine .inr ?_; and_intros <;> rfl)
  · (refine .inr ?_; and_intros <;> rfl)
  · (refine .inr ?_; and_intros <;> rfl)
  · exact .inl rfl
  · exact .inr ⟨rfl, rfl⟩
  · exact .inr rfl
  · exact .inr ⟨rfl, rfl⟩
  · exact Keeps.refl _ _

theorem keeps_captureHeader (s : State) (val : Word) :
    Keeps [.firmware] s (State.captureHeader s val) := by
  unfold State.captureHeader
  lift_lets -underBinder
  intro x1 x2
  have h2 : Keeps [.firmware] s x2 := by
    refine Keeps.step (keeps_checkSlot _ _) rfl ?_
    exact Keeps.refl _ _
  clear_value x2
  intro x3
  refine Keeps.with_sys ?_ ?_ ?_ ?_ ?_ ?_ ?_ ?_ ?_
  · (refine .inr ?_; and_intros <;> rfl)
  · (refine .inr ?_; and_intros <;> rfl)
  · (refine .inr ?_; and_intros <;> rfl)
  · (refine .inr ?_; and_intros <;> rfl)
  · exact .inl rfl
  · exact .inr ⟨rfl, rfl⟩
  · exact .inr rfl
  · exact .inr ⟨rfl, rfl⟩
  · exact h2

theorem keeps_flWrite (s : State) (val : Word) :
    Keeps [.firmware, .pageBuf] s (State.flWrite s val) := by
  unfold State.flWrite
  lift_lets -underBinder
  intro x1
  refine Keeps.with_sys ?_ ?_ ?_ ?_ ?_ ?_ ?_ ?_ ?_
  · (refine .inr ?_; and_intros <;> rfl)
  · (refine .inr ?_; and_intros <;> rfl)
  · (refine .inr ?_; and_intros <;> rfl)
  · (refine .inr ?_; and_intros <;> rfl)
  · exact .inl rfl
  · exact .inr ⟨rfl, rfl⟩
  · exact .inl rfl
  · exact .inr ⟨rfl, rfl⟩
  · exact Keeps.refl _ _

theorem keeps_fwActivate (s : State) (slot : Nat) :
    Keeps (andBell [.firmware]) s (State.fwActivate s slot) := by
  unfold State.fwActivate
  lift_lets -underBinder
  intro x1
  have h1 : Keeps (andBell [.firmware]) s x1 := by
    refine Keeps.step (keeps_checkSlot _ _) rfl ?_
    exact Keeps.refl _ _
  clear_value x1
  intro x2
  refine Keeps.ite ?_ ?_
  · refine Keeps.step (keeps_setFwResult _ _) rfl ?_
    exact h1
  · refine Keeps.ite ?_ ?_
    · refine Keeps.step (keeps_setFwResult _ _) rfl ?_
      exact h1
    · refine Keeps.ite ?_ ?_
      · refine Keeps.step (keeps_setFwResult _ _) rfl ?_
        exact h1
      · refine Keeps.ite ?_ ?_
        · refine Keeps.step (keeps_setFwResult _ _) rfl ?_
          exact h1
        · refine Keeps.ite ?_ ?_
          · refine Keeps.step (keeps_setFwResult _ _) rfl ?_
            exact h1
          · refine Keeps.with_sys ?_ ?_ ?_ ?_ ?_ ?_ ?_ ?_ ?_
            · (refine .inr ?_; and_intros <;> rfl)
            · (refine .inr ?_; and_intros <;> rfl)
            · (refine .inr ?_; and_intros <;> rfl)
            · (refine .inr ?_; and_intros <;> rfl)
            · exact .inl rfl
            · exact .inr ⟨rfl, rfl⟩
            · exact .inr rfl
            · exact .inr ⟨rfl, rfl⟩
            · exact h1

theorem keeps_fwConfirm (s : State) :
    Keeps (andBell [.firmware, .flash]) s (State.fwConfirm s) := by
  unfold State.fwConfirm
  lift_lets -underBinder
  intro x1 x2 x3 x4
  refine Keeps.ite ?_ ?_
  · refine Keeps.step (keeps_setFwResult _ _) rfl ?_
    refine Keeps.step (keeps_setRecord _ _) rfl ?_
    refine Keeps.with_sys ?_ ?_ ?_ ?_ ?_ ?_ ?_ ?_ ?_
    · (refine .inr ?_; and_intros <;> rfl)
    · (refine .inr ?_; and_intros <;> rfl)
    · (refine .inr ?_; and_intros <;> rfl)
    · (refine .inr ?_; and_intros <;> rfl)
    · exact .inl rfl
    · exact .inl rfl
    · exact .inr rfl
    · exact .inr ⟨rfl, rfl⟩
    · exact Keeps.refl _ _
  · refine Keeps.ite ?_ ?_
    · refine Keeps.step (keeps_setFwResult _ _) rfl ?_
      refine Keeps.step (keeps_setRecord _ _) rfl ?_
      refine Keeps.with_sys ?_ ?_ ?_ ?_ ?_ ?_ ?_ ?_ ?_
      · (refine .inr ?_; and_intros <;> rfl)
      · (refine .inr ?_; and_intros <;> rfl)
      · (refine .inr ?_; and_intros <;> rfl)
      · (refine .inr ?_; and_intros <;> rfl)
      · exact .inl rfl
      · exact .inl rfl
      · exact .inr rfl
      · exact .inr ⟨rfl, rfl⟩
      · exact Keeps.refl _ _
    · refine Keeps.step (keeps_setFwResult _ _) rfl ?_
      exact Keeps.refl _ _

theorem keeps_fwRoll (s : State) (slot : Nat) :
    Keeps (andBell [.engines, .ports, .firmware, .flash]) s (State.fwRoll s slot) := by
  unfold State.fwRoll
  lift_lets -underBinder
  intro x1
  have h1 : Keeps (andBell [.engines, .ports, .firmware, .flash]) s x1 := by
    refine Keeps.step (keeps_checkSlot _ _) rfl ?_
    exact Keeps.refl _ _
  clear_value x1
  intro x2
  split
  · refine Keeps.step (keeps_setFwResult _ _) rfl ?_
    exact h1
  · refine Keeps.ite ?_ ?_
    · refine Keeps.step (keeps_setFwResult _ _) rfl ?_
      exact h1
    · refine Keeps.ite ?_ ?_
      · refine Keeps.step (keeps_setFwResult _ _) rfl ?_
        exact h1
      · refine Keeps.ite ?_ ?_
        · refine Keeps.step (keeps_setFwResult _ _) rfl ?_
          exact h1
        · lift_lets -underBinder
          intro x3
          refine Keeps.step (keeps_rollSettle _) rfl ?_
          refine Keeps.with_sys ?_ ?_ ?_ ?_ ?_ ?_ ?_ ?_ ?_
          · (refine .inr ?_; and_intros <;> rfl)
          · (refine .inr ?_; and_intros <;> rfl)
          · (refine .inr ?_; and_intros <;> rfl)
          · (refine .inr ?_; and_intros <;> rfl)
          · exact .inl rfl
          · exact .inl rfl
          · exact .inr rfl
          · exact .inr ⟨rfl, rfl⟩
          · exact h1

theorem keeps_fwErase (s : State) (slot : Nat) (flashOk : Bool) :
    Keeps (andBell [.firmware, .flash, .free]) s (State.fwErase s slot flashOk) := by
  unfold State.fwErase
  refine Keeps.ite ?_ ?_
  · refine Keeps.step (keeps_setFwResult _ _) rfl ?_
    exact Keeps.refl _ _
  · lift_lets -underBinder
    intro x1
    have h1 : Keeps (andBell [.firmware, .flash, .free]) s x1 := by
      refine Keeps.step (keeps_flashErase _ _ _) rfl ?_
      exact Keeps.refl _ _
    clear_value x1
    intro x2
    have h2 : Keeps (andBell [.firmware, .flash, .free]) s x2 := by
      refine Keeps.step (keeps_setRecord _ _) rfl ?_
      exact h1
    clear_value x2
    intro x3
    refine Keeps.ite ?_ ?_
    · refine Keeps.step (keeps_setFwResult _ _) rfl ?_
      refine Keeps.with_sys ?_ ?_ ?_ ?_ ?_ ?_ ?_ ?_ ?_
      · (refine .inr ?_; and_intros <;> rfl)
      · (refine .inr ?_; and_intros <;> rfl)
      · (refine .inr ?_; and_intros <;> rfl)
      · (refine .inr ?_; and_intros <;> rfl)
      · exact .inl rfl
      · exact .inl rfl
      · exact .inr rfl
      · exact .inr ⟨rfl, rfl⟩
      · exact h2
    · refine Keeps.step (keeps_setFwResult _ _) rfl ?_
      refine Keeps.with_sys_free ?_ ?_ ?_ ?_ ?_ ?_ ?_ ?_ ?_ ?_
      · (refine .inr ?_; and_intros <;> rfl)
      · (refine .inr ?_; and_intros <;> rfl)
      · (refine .inr ?_; and_intros <;> rfl)
      · (refine .inr ?_; and_intros <;> rfl)
      · exact .inl rfl
      · exact .inl rfl
      · exact .inr rfl
      · exact .inr ⟨rfl, rfl⟩
      · exact rfl
      · exact h2

theorem keeps_fwRevert (s : State) :
    Keeps (andBell [.engines, .ports, .firmware, .flash]) s (State.fwRevert s) := by
  unfold State.fwRevert
  refine Keeps.ite ?_ ?_
  · refine Keeps.step (keeps_setFwResult _ _) rfl ?_
    exact Keeps.refl _ _
  · refine Keeps.ite ?_ ?_
    · lift_lets -underBinder
      intro x1 x2
      refine Keeps.step (keeps_rollSettle _) rfl ?_
      refine Keeps.with_sys ?_ ?_ ?_ ?_ ?_ ?_ ?_ ?_ ?_
      · (refine .inr ?_; and_intros <;> rfl)
      · (refine .inr ?_; and_intros <;> rfl)
      · (refine .inr ?_; and_intros <;> rfl)
      · (refine .inr ?_; and_intros <;> rfl)
      · exact .inl rfl
      · exact .inl rfl
      · exact .inr rfl
      · exact .inr ⟨rfl, rfl⟩
      · exact Keeps.refl _ _
    · refine Keeps.ite ?_ ?_
      · exact Keeps.refl _ _
      · lift_lets -underBinder
        intro x3
        refine Keeps.with_sys ?_ ?_ ?_ ?_ ?_ ?_ ?_ ?_ ?_
        · (refine .inr ?_; and_intros <;> rfl)
        · (refine .inr ?_; and_intros <;> rfl)
        · (refine .inr ?_; and_intros <;> rfl)
        · (refine .inr ?_; and_intros <;> rfl)
        · exact .inl rfl
        · exact .inl rfl
        · exact .inr rfl
        · exact .inr ⟨rfl, rfl⟩
        · exact Keeps.refl _ _

theorem keeps_programPage (s : State) (a : Nat) (flashOk : Bool) :
    Keeps (andBell [.firmware, .flash, .free]) s (State.programPage s a flashOk) := by
  unfold State.programPage
  refine Keeps.ite ?_ ?_
  · refine Keeps.step (keeps_setFwResult _ _) rfl ?_
    refine Keeps.step (keeps_flashPut _ _ _) rfl ?_
    exact Keeps.refl _ _
  · lift_lets -underBinder
    intro x1
    refine Keeps.step (keeps_setFwResult _ _) rfl ?_
    refine Keeps.step (keeps_flashPut _ _ _) rfl ?_
    refine Keeps.with_free ?_ ?_
    · exact rfl
    · exact Keeps.refl _ _

theorem keeps_fwProgram (s : State) (slot : Nat) (flashOk : Bool) :
    Keeps (andBell [.firmware, .flash, .free]) s (State.fwProgram s slot flashOk) := by
  unfold State.fwProgram
  refine Keeps.ite ?_ ?_
  · lift_lets -underBinder
    intro x1
    refine Keeps.step (keeps_programPage _ _ _) rfl ?_
    refine Keeps.step (keeps_flashErase _ _ _) rfl ?_
    exact Keeps.refl _ _
  · refine Keeps.ite ?_ ?_
    · refine Keeps.step (keeps_setFwResult _ _) rfl ?_
      exact Keeps.refl _ _
    · refine Keeps.step (keeps_programPage _ _ _) rfl ?_
      exact Keeps.refl _ _

theorem keeps_fwCmd (s : State) (val : Word) (flashOk : Bool) :
    Keeps (andBell [.engines, .ports, .firmware, .flash, .free]) s (State.fwCmd s val flashOk) := by
  unfold State.fwCmd
  lift_lets -underBinder
  intro x1
  split
  · refine Keeps.step (keeps_fwActivate _ _) rfl ?_
    exact Keeps.refl _ _
  · refine Keeps.step (keeps_fwConfirm _) rfl ?_
    exact Keeps.refl _ _
  · refine Keeps.step (keeps_fwRevert _) rfl ?_
    exact Keeps.refl _ _
  · refine Keeps.step (keeps_fwRoll _ _) rfl ?_
    exact Keeps.refl _ _
  · refine Keeps.step (keeps_fwErase _ _ _) rfl ?_
    exact Keeps.refl _ _
  · refine Keeps.step (keeps_fwProgram _ _ _) rfl ?_
    exact Keeps.refl _ _
  · exact Keeps.refl _ _

theorem keeps_cleared (s : State) :
    Keeps allButPending s (State.cleared s) := by
  unfold State.cleared
  exact Keeps.ite (Keeps.step (keeps_setRecord _ _) rfl (keeps_pending rfl)) (keeps_pending rfl)

theorem keeps_readFuses (s : State) :
    Keeps [.inForce] s (State.readFuses s) := by
  unfold State.readFuses
  split
  · refine Keeps.ite ?_ ?_
    · exact Keeps.refl _ _
    · refine Keeps.foldl (fun u1 y2 => ?_) ?_
      · refine Keeps.step (keeps_setReg _ _ _) rfl ?_
        exact Keeps.refl _ _
      · exact Keeps.refl _ _
  · exact Keeps.refl _ _

theorem keeps_checkSlots (s : State) :
    Keeps [.firmware] s (State.checkSlots s) := by
  unfold State.checkSlots
  lift_lets -underBinder
  intro x1
  refine Keeps.with_sys ?_ ?_ ?_ ?_ ?_ ?_ ?_ ?_ ?_
  · (refine .inr ?_; and_intros <;> rfl)
  · (refine .inr ?_; and_intros <;> rfl)
  · (refine .inr ?_; and_intros <;> rfl)
  · (refine .inr ?_; and_intros <;> rfl)
  · exact .inl rfl
  · exact .inr ⟨rfl, rfl⟩
  · exact .inr rfl
  · exact .inr ⟨rfl, rfl⟩
  · exact Keeps.refl _ _

theorem keeps_loadMicrocode (s : State) (v : Nat) :
    Keeps [.engines] s (State.loadMicrocode s v) := by
  unfold State.loadMicrocode
  refine Keeps.foldl (fun u1 y2 => ?_) ?_
  · refine Keeps.step (keeps_modEngine _ _ _) rfl ?_
    exact Keeps.refl _ _
  · exact Keeps.refl _ _

theorem keeps_boot (s : State) :
    Keeps [.inForce, .engines, .stew, .power, .firmware, .flash] s (State.boot s) := by
  unfold State.boot
  lift_lets -underBinder
  intro x1 x2
  have h2 : Keeps [.inForce, .engines, .stew, .power, .firmware, .flash] s x2 := by
    refine Keeps.step (keeps_checkSlots _) rfl ?_
    refine Keeps.step (keeps_readFuses _) rfl ?_
    refine Keeps.with_sys ?_ ?_ ?_ ?_ ?_ ?_ ?_ ?_ ?_
    · exact .inl rfl
    · (refine .inr ?_; and_intros <;> rfl)
    · (refine .inr ?_; and_intros <;> rfl)
    · (refine .inr ?_; and_intros <;> rfl)
    · exact .inl rfl
    · exact .inl rfl
    · exact .inr rfl
    · exact .inr ⟨rfl, rfl⟩
    · exact Keeps.refl _ _
  clear_value x2
  split
  · lift_lets -underBinder
    intro x3 x4 x5
    have h5 : Keeps [.inForce, .engines, .stew, .power, .firmware, .flash] s x5 := by
      refine Keeps.step (keeps_setRecord _ _) rfl ?_
      refine Keeps.step (keeps_loadMicrocode _ _) rfl ?_
      exact h2
    clear_value x5
    intro x6 x7
    refine Keeps.step (keeps_stewPins _) rfl ?_
    refine Keeps.with_stew_sys ?_ ?_ ?_ ?_ ?_ ?_ ?_ ?_ ?_ ?_ ?_
    · exact .inr rfl
    · exact .inl rfl
    · exact .inl rfl
    · (refine .inr ?_; and_intros <;> rfl)
    · (refine .inr ?_; and_intros <;> rfl)
    · (refine .inr ?_; and_intros <;> rfl)
    · exact .inl rfl
    · exact .inl rfl
    · exact .inr rfl
    · exact .inr ⟨rfl, rfl⟩
    · exact h5
  · lift_lets -underBinder
    intro x8
    refine Keeps.with_sys ?_ ?_ ?_ ?_ ?_ ?_ ?_ ?_ ?_
    · exact .inl rfl
    · (refine .inr ?_; and_intros <;> rfl)
    · (refine .inr ?_; and_intros <;> rfl)
    · (refine .inr ?_; and_intros <;> rfl)
    · exact .inl rfl
    · exact .inl rfl
    · exact .inr rfl
    · exact .inr ⟨rfl, rfl⟩
    · exact h2

theorem keeps_deviceReset (s : State) (cause : Nat) (bootSel : Nat) :
    Keeps allButPending s (State.deviceReset s cause bootSel) := by
  unfold State.deviceReset
  exact Keeps.step (keeps_boot _) rfl (keeps_pending (keeps_cleared s .pending (by decide)))

theorem keeps_flSelect (s : State) :
    Keeps [.firmware] s (State.flSelect s) := by
  unfold State.flSelect
  lift_lets -underBinder
  intro x1
  refine Keeps.with_sys ?_ ?_ ?_ ?_ ?_ ?_ ?_ ?_ ?_
  · (refine .inr ?_; and_intros <;> rfl)
  · (refine .inr ?_; and_intros <;> rfl)
  · (refine .inr ?_; and_intros <;> rfl)
  · (refine .inr ?_; and_intros <;> rfl)
  · exact .inl rfl
  · exact .inr ⟨rfl, rfl⟩
  · exact .inr rfl
  · exact .inr ⟨rfl, rfl⟩
  · exact Keeps.refl _ _

theorem keeps_execBootReadyTimeout (s : State) :
    AnswerKeeps allButPending s (execBootReadyTimeout s) := by
  unfold execBootReadyTimeout
  lift_lets -underBinder
  intro x1
  have h1 : Keeps (allButPending) s x1 := by
    refine Keeps.step (keeps_advanceTo _ _) rfl ?_
    exact Keeps.refl _ _
  clear_value x1
  intro x2
  have h2 : Keeps (allButPending) s x2 := by
    unfold x2
    split
    · refine Keeps.step (keeps_setRecord _ _) rfl ?_
      exact h1
    · exact h1
  clear_value x2
  refine AnswerKeeps.next ?_
  refine Keeps.ite ?_ ?_
  · refine Keeps.step (keeps_deviceReset _ _ _) rfl ?_
    exact h2
  · exact Keeps.refl _ _

theorem keeps_execFirmwareReady (s : State) :
    AnswerKeeps [.tink, .firmware, .flash] s (execFirmwareReady s) := by
  unfold execFirmwareReady
  lift_lets -underBinder
  intro x1 x2 x3
  refine AnswerKeeps.next ?_
  refine Keeps.ite ?_ ?_
  · refine Keeps.step (keeps_setRecord _ _) rfl ?_
    refine Keeps.with_tink_sys ?_ ?_ ?_ ?_ ?_ ?_ ?_ ?_ ?_ ?_
    · exact rfl
    · (refine .inr ?_; and_intros <;> rfl)
    · (refine .inr ?_; and_intros <;> rfl)
    · (refine .inr ?_; and_intros <;> rfl)
    · (refine .inr ?_; and_intros <;> rfl)
    · exact .inl rfl
    · exact .inl rfl
    · exact .inr rfl
    · exact .inr ⟨rfl, rfl⟩
    · exact Keeps.refl _ _
  · exact Keeps.refl _ _

theorem keeps_loseVin (s : State) :
    Keeps allButPending s (State.loseVin s) := by
  exact keeps_pending (keeps_cleared s .pending (by decide))

theorem keeps_execLossOfPower (s : State) :
    AnswerKeeps allButPending s (execLossOfPower s) := by
  unfold execLossOfPower
  refine AnswerKeeps.next ?_
  refine Keeps.step (keeps_loseVin _) rfl ?_
  exact Keeps.refl _ _

theorem keeps_execSwitchTimeout (s : State) :
    AnswerKeeps (andBell [.commit, .clock, .tai, .banks, .loader, .watch, .lock, .rings, .tink, .firmware, .flash]) s (execSwitchTimeout s) := by
  unfold execSwitchTimeout
  refine AnswerKeeps.next ?_
  split
  · lift_lets -underBinder
    intro x1
    have h1 : Keeps (andBell   [.commit, .clock, .tai, .banks, .loader, .watch, .lock, .rings, .tink,     .firmware, .flash]) s x1 := by
      refine Keeps.step (keeps_advanceTo _ _) rfl ?_
      exact Keeps.refl _ _
    clear_value x1
    split
    · lift_lets -underBinder
      intro x2
      refine Keeps.step (keeps_setFwResult _ _) rfl ?_
      refine Keeps.with_sys ?_ ?_ ?_ ?_ ?_ ?_ ?_ ?_ ?_
      · (refine .inr ?_; and_intros <;> rfl)
      · (refine .inr ?_; and_intros <;> rfl)
      · (refine .inr ?_; and_intros <;> rfl)
      · (refine .inr ?_; and_intros <;> rfl)
      · exact .inl rfl
      · exact .inl rfl
      · exact .inr rfl
      · exact .inr ⟨rfl, rfl⟩
      · exact h1
    · lift_lets -underBinder
      intro x3
      refine Keeps.step (keeps_revertPair _ _) rfl ?_
      refine Keeps.step (keeps_failCommands _) rfl ?_
      refine Keeps.with_tink ?_ ?_
      · exact rfl
      · exact h1
    · lift_lets -underBinder
      intro x4 x5
      refine Keeps.with_tink_sys ?_ ?_ ?_ ?_ ?_ ?_ ?_ ?_ ?_ ?_
      · exact rfl
      · (refine .inr ?_; and_intros <;> rfl)
      · (refine .inr ?_; and_intros <;> rfl)
      · (refine .inr ?_; and_intros <;> rfl)
      · (refine .inr ?_; and_intros <;> rfl)
      · exact .inl rfl
      · exact .inl rfl
      · exact .inr rfl
      · exact .inr ⟨rfl, rfl⟩
      · exact h1
    · lift_lets -underBinder
      intro x6 x7
      refine Keeps.with_tink_sys ?_ ?_ ?_ ?_ ?_ ?_ ?_ ?_ ?_ ?_
      · exact rfl
      · (refine .inr ?_; and_intros <;> rfl)
      · (refine .inr ?_; and_intros <;> rfl)
      · (refine .inr ?_; and_intros <;> rfl)
      · (refine .inr ?_; and_intros <;> rfl)
      · exact .inl rfl
      · exact .inl rfl
      · exact .inr rfl
      · exact .inr ⟨rfl, rfl⟩
      · exact h1
  · exact Keeps.refl _ _

theorem keeps_execResetN (bootSel : Nat) (lowNs : Nat) (s : State) :
    AnswerKeeps allButPending s (execResetN bootSel lowNs s) := by
  unfold execResetN
  lift_lets -underBinder
  intro x1
  have h1 : Keeps allButPending s x1 := by
    refine Keeps.with_free ?_ ?_
    · exact rfl
    · exact Keeps.refl _ _
  clear_value x1
  refine AnswerKeeps.next ?_
  refine Keeps.ite ?_ ?_
  · exact Keeps.refl _ _
  · refine Keeps.ite ?_ ?_
    · refine Keeps.ite ?_ ?_
      · refine Keeps.step (keeps_deviceReset _ _ _) rfl ?_
        exact h1
      · exact h1
    · refine Keeps.step (keeps_deviceReset _ _ _) rfl ?_
      exact Keeps.refl _ _

theorem keeps_execConfirmTimeout (s : State) :
    AnswerKeeps (andBell [.clock, .engines, .ports, .firmware, .flash]) s (execConfirmTimeout s) := by
  unfold execConfirmTimeout
  refine AnswerKeeps.next ?_
  refine Keeps.ite ?_ ?_
  · refine Keeps.step (keeps_fwRevert _) rfl ?_
    refine Keeps.step (keeps_advanceTo _ _) rfl ?_
    exact Keeps.refl _ _
  · exact Keeps.refl _ _

theorem keeps_execPowerOn (bootSel : Nat) (s : State) :
    AnswerKeeps allButPending s (execPowerOn bootSel s) := by
  unfold execPowerOn
  exact AnswerKeeps.next (Keeps.step (keeps_boot _) rfl (keeps_pending (keeps_cleared s .pending (by decide))))

theorem keeps_execPairSwitch (s : State) :
    AnswerKeeps (andBell [.tink, .firmware, .flash]) s (execPairSwitch s) := by
  unfold execPairSwitch
  refine AnswerKeeps.next ?_
  refine Keeps.ite ?_ ?_
  · exact Keeps.refl _ _
  · split
    · lift_lets -underBinder
      intro x1 x2
      have h2 : Keeps (andBell [.tink, .firmware, .flash]) s x2 := by
        refine Keeps.with_sys ?_ ?_ ?_ ?_ ?_ ?_ ?_ ?_ ?_
        · (refine .inr ?_; and_intros <;> rfl)
        · (refine .inr ?_; and_intros <;> rfl)
        · (refine .inr ?_; and_intros <;> rfl)
        · (refine .inr ?_; and_intros <;> rfl)
        · exact .inl rfl
        · exact .inl rfl
        · exact .inr rfl
        · exact .inr ⟨rfl, rfl⟩
        · exact Keeps.refl _ _
      clear_value x2
      intro x3
      refine Keeps.step (keeps_setFwResult _ _) rfl ?_
      refine Keeps.step (keeps_switchPair _ _) rfl ?_
      refine Keeps.with_tink ?_ ?_
      · exact rfl
      · exact h2
    · lift_lets -underBinder
      intro x4
      refine Keeps.step (keeps_revertPair _ _) rfl ?_
      refine Keeps.with_tink ?_ ?_
      · exact rfl
      · exact Keeps.refl _ _
    · lift_lets -underBinder
      intro x5
      refine Keeps.step (keeps_switchPair _ _) rfl ?_
      refine Keeps.with_tink ?_ ?_
      · exact rfl
      · exact Keeps.refl _ _
    · exact Keeps.refl _ _

/-! ## Machine/Transceivers.lean -/

theorem keeps_fgClear (s : State) (p : Nat) :
    Keeps [.xcvr] s (State.fgClear s p) := by
  unfold State.fgClear
  refine Keeps.ite ?_ ?_
  · refine Keeps.step (keeps_modIp _ _ _) rfl ?_
    exact Keeps.refl _ _
  · exact Keeps.refl _ _

theorem keeps_execXcvrModeEffect (port : Nat) (s : State) :
    AnswerKeeps (andBell [.ports, .xcvr, .rings, .cells]) s (execXcvrModeEffect port s) := by
  unfold execXcvrModeEffect
  lift_lets -underBinder
  intro x1
  refine AnswerKeeps.next ?_
  refine Keeps.ite ?_ ?_
  · refine Keeps.trans ?_ (keeps_portStep _ _ _ (fun u2 => ?_) rfl)
    · exact Keeps.refl _ _
    · refine Keeps.step (keeps_modIp _ _ _) rfl ?_
      exact Keeps.refl _ _
  · exact Keeps.refl _ _

theorem keeps_execFgRetry (port : Nat) (s : State) :
    AnswerKeeps [.xcvr] s (execFgRetry port s) := by
  unfold execFgRetry
  lift_lets -underBinder
  intro x1
  refine AnswerKeeps.next ?_
  refine Keeps.ite ?_ ?_
  · refine Keeps.step (keeps_modIp _ _ _) rfl ?_
    exact Keeps.refl _ _
  · exact Keeps.refl _ _

theorem keeps_execLpStbEffect (port : Nat) (s : State) :
    AnswerKeeps (andBell [.ports, .xcvr, .rings, .cells]) s (execLpStbEffect port s) := by
  unfold execLpStbEffect
  refine AnswerKeeps.next ?_
  refine Keeps.ite ?_ ?_
  · refine Keeps.trans ?_ (keeps_portStep _ _ _ (fun u1 => ?_) rfl)
    · exact Keeps.refl _ _
    · lift_lets -underBinder
      intro x2
      refine Keeps.with_xcvr ?_ ?_
      · exact rfl
      · exact Keeps.refl _ _
  · exact Keeps.refl _ _

theorem keeps_tripCuts (s : State) (p : Nat) :
    Keeps (andBell [.engines, .ports, .frames, .rings, .cells, .free]) s (State.tripCuts s p) := by
  unfold State.tripCuts
  lift_lets -underBinder
  intro x1
  split
  lift_lets -underBinder
  intro x2 x3 x4
  have h4 : Keeps (andBell [.engines, .ports, .frames, .rings, .cells, .free]) s x4 := by
    refine Keeps.step (keeps_noteError _ _ _ _ _) rfl ?_
    refine Keeps.step (FstKeeps.eq (keeps_takeFree _) (by assumption)) rfl ?_
    exact Keeps.refl _ _
  clear_value x4
  intro x5
  have h5 : Keeps (andBell [.engines, .ports, .frames, .rings, .cells, .free]) s x5 := by
    refine Keeps.ite ?_ ?_
    · refine Keeps.step (keeps_laneReturn _ _) rfl ?_
      exact h4
    · refine Keeps.step (keeps_cutAttempt _ _) rfl ?_
      exact h4
  clear_value x5
  refine Keeps.step (keeps_setErrors _ _ _ _) rfl ?_
  exact h5

theorem keeps_fgTrip (s : State) (p : Nat) :
    Keeps (andBell [.engines, .ports, .xcvr, .frames, .rings, .cells, .free]) s (State.fgTrip s p) := by
  unfold State.fgTrip
  lift_lets -underBinder
  intro x1 x2 x3
  have h3 : Keeps (andBell [.engines, .ports, .xcvr, .frames, .rings, .cells, .free]) s x3 := by
    refine Keeps.trans ?_ (keeps_portStep _ _ _ (fun u4 => ?_) rfl)
    · exact Keeps.refl _ _
    · lift_lets -underBinder
      intro x5
      have h5 : Keeps (andBell [.engines, .ports, .xcvr, .frames, .rings, .cells, .free]) u4 x5 := by
        refine Keeps.ite ?_ ?_
        · refine Keeps.step (keeps_tripCuts _ _) rfl ?_
          exact Keeps.refl _ _
        · exact Keeps.refl _ _
      clear_value x5
      refine Keeps.step (keeps_modIp _ _ _) rfl ?_
      exact h5
  clear_value x3
  intro x6
  have h6 : Keeps (andBell [.engines, .ports, .xcvr, .frames, .rings, .cells, .free]) s x6 := by
    refine Keeps.ite ?_ ?_
    · refine Keeps.step (keeps_busFrameOver _ _) rfl ?_
      exact h3
    · exact h3
  clear_value x6
  refine Keeps.step (keeps_raise _ _) rfl ?_
  refine Keeps.step (keeps_count _ _) rfl ?_
  exact h6

theorem keeps_execViolUnpowered (bank : Nat) (mv : Nat) (s : State) :
    AnswerKeeps (andBell [.ports, .xcvr, .rings, .cells]) s (execViolUnpowered bank mv s) := by
  unfold execViolUnpowered
  refine AnswerKeeps.next ?_
  refine Keeps.trans ?_ (keeps_portsStep _ _ _ (fun u1 => ?_) rfl)
  · exact Keeps.refl _ _
  · lift_lets -underBinder
    intro x2
    refine Keeps.with_xcvr ?_ ?_
    · exact rfl
    · exact Keeps.refl _ _

theorem keeps_execFgCoolExpire (port : Nat) (s : State) :
    AnswerKeeps (andBell [.clock, .xcvr]) s (execFgCoolExpire port s) := by
  unfold execFgCoolExpire
  lift_lets -underBinder
  intro x1 x2
  refine AnswerKeeps.next ?_
  refine Keeps.ite ?_ ?_
  · refine Keeps.step (keeps_raiseIf _ _ _) rfl ?_
    refine Keeps.step (keeps_modIp _ _ _) rfl ?_
    refine Keeps.step (keeps_advanceTo _ _) rfl ?_
    exact Keeps.refl _ _
  · exact Keeps.refl _ _

theorem keeps_execVbusUndervoltage (bank : Nat) (mv : Nat) (s : State) :
    AnswerKeeps (andBell [.ports, .xcvr, .rings, .cells]) s (execVbusUndervoltage bank mv s) := by
  unfold execVbusUndervoltage
  lift_lets -underBinder
  intro x1 x2 x3 x4 x5
  have h5 : Keeps (andBell [.ports, .xcvr, .rings, .cells]) s x5 := by
    refine Keeps.trans ?_ (keeps_portsStep _ _ _ (fun u6 => ?_) rfl)
    · exact Keeps.refl _ _
    · lift_lets -underBinder
      intro x7 x8
      have h8 : Keeps (andBell [.ports, .xcvr, .rings, .cells]) u6 x8 := by
        refine Keeps.with_xcvr ?_ ?_
        · exact rfl
        · exact Keeps.refl _ _
      clear_value x8
      refine Keeps.ite ?_ ?_
      · refine Keeps.foldl (fun u9 y10 => ?_) ?_
        · refine Keeps.ite ?_ ?_
          · exact Keeps.refl _ _
          · refine Keeps.step (keeps_modIp _ _ _) rfl ?_
            exact Keeps.refl _ _
        · exact h8
      · exact h8
  clear_value x5
  refine AnswerKeeps.next ?_
  refine Keeps.step (keeps_raiseIf _ _ _) rfl ?_
  exact h5

theorem keeps_execXcvrSettled (port : Nat) (s : State) :
    AnswerKeeps [.clock, .xcvr] s (execXcvrSettled port s) := by
  unfold execXcvrSettled
  refine AnswerKeeps.next ?_
  split
  · refine Keeps.step (keeps_modIp _ _ _) rfl ?_
    refine Keeps.step (keeps_advanceTo _ _) rfl ?_
    exact Keeps.refl _ _
  · exact Keeps.refl _ _

theorem keeps_execFgSample (port : Nat) (mv : Nat) (ua : Nat) (s : State) :
    AnswerKeeps (andBell [.engines, .ports, .xcvr, .frames, .rings, .cells, .free]) s (execFgSample port mv ua s) := by
  unfold execFgSample
  lift_lets -underBinder
  intro x1
  have h1 : Keeps (andBell [.engines, .ports, .xcvr, .frames, .rings, .cells, .free]) s x1 := by
    refine Keeps.step (keeps_modIp _ _ _) rfl ?_
    exact Keeps.refl _ _
  clear_value x1
  refine AnswerKeeps.next ?_
  refine Keeps.ite ?_ ?_
  · refine Keeps.step (keeps_fgTrip _ _) rfl ?_
    exact h1
  · exact h1

/-! ## Machine/Power.lean -/

theorem keeps_ackWake (s : State) :
    Keeps [.xcvr] s (State.ackWake s) := by
  unfold State.ackWake
  lift_lets -underBinder
  intro x1
  refine Keeps.with_xcvr ?_ ?_
  · exact rfl
  · exact Keeps.refl _ _

theorem keeps_requestMove (s : State) (t : Nat) :
    Keeps [.power] s (State.requestMove s t) := by
  unfold State.requestMove
  refine Keeps.ite ?_ ?_
  · lift_lets -underBinder
    intro x1
    refine Keeps.with_sys ?_ ?_ ?_ ?_ ?_ ?_ ?_ ?_ ?_
    · exact .inl rfl
    · (refine .inr ?_; and_intros <;> rfl)
    · (refine .inr ?_; and_intros <;> rfl)
    · (refine .inr ?_; and_intros <;> rfl)
    · (refine .inr ?_; and_intros <;> rfl)
    · exact .inr ⟨rfl, rfl⟩
    · exact .inr rfl
    · exact .inr ⟨rfl, rfl⟩
    · exact Keeps.refl _ _
  · refine Keeps.ite ?_ ?_
    · exact Keeps.refl _ _
    · lift_lets -underBinder
      intro x2
      refine Keeps.with_sys ?_ ?_ ?_ ?_ ?_ ?_ ?_ ?_ ?_
      · exact .inl rfl
      · (refine .inr ?_; and_intros <;> rfl)
      · (refine .inr ?_; and_intros <;> rfl)
      · (refine .inr ?_; and_intros <;> rfl)
      · (refine .inr ?_; and_intros <;> rfl)
      · exact .inr ⟨rfl, rfl⟩
      · exact .inr rfl
      · exact .inr ⟨rfl, rfl⟩
      · exact Keeps.refl _ _

theorem keeps_writeTarget (s : State) (t : Nat) :
    Keeps [.power] s (State.writeTarget s t) := by
  unfold State.writeTarget
  refine Keeps.ite ?_ ?_
  · exact Keeps.refl _ _
  · refine Keeps.step (keeps_requestMove _ _) rfl ?_
    exact Keeps.refl _ _

theorem keeps_leaveDepot (s : State) :
    Keeps [.tai, .inForce, .counters, .watch, .stew, .power, .firmware] s (State.leaveDepot s) := by
  unfold State.leaveDepot
  lift_lets -underBinder
  intro x1
  have h1 : Keeps [.tai, .inForce, .counters, .watch, .stew, .power, .firmware] s x1 := by
    refine Keeps.step (keeps_setFld _ _ _ _ _) rfl ?_
    exact Keeps.refl _ _
  clear_value x1
  intro x2 x3 x4
  have h4 : Keeps [.tai, .inForce, .counters, .watch, .stew, .power, .firmware] s x4 := by
    refine Keeps.with_time_sys ?_ ?_ ?_ ?_ ?_ ?_ ?_ ?_ ?_ ?_ ?_
    · exact .inr rfl
    · exact .inl rfl
    · exact .inl rfl
    · (refine .inr ?_; and_intros <;> rfl)
    · (refine .inr ?_; and_intros <;> rfl)
    · (refine .inr ?_; and_intros <;> rfl)
    · exact .inl rfl
    · exact .inr ⟨rfl, rfl⟩
    · exact .inr rfl
    · exact .inr ⟨rfl, rfl⟩
    · exact h1
  clear_value x4
  refine Keeps.step (keeps_stewPins _) rfl ?_
  refine Keeps.step (keeps_retireAll _) rfl ?_
  exact h4

theorem keeps_wakeActs (s : State) :
    Keeps (andBell [.tai, .inForce, .watch, .stew, .power, .firmware]) s (State.wakeActs s) := by
  unfold State.wakeActs
  split
  · refine Keeps.step (keeps_raise _ _) rfl ?_
    exact Keeps.refl _ _
  · refine Keeps.step (keeps_raise _ _) rfl ?_
    exact Keeps.refl _ _
  · refine Keeps.step (keeps_leaveDepot _) rfl ?_
    exact Keeps.refl _ _
  · exact Keeps.refl _ _

theorem keeps_wake (s : State) (port : Nat) (cause : Nat) :
    Keeps (andBell [.tai, .inForce, .xcvr, .watch, .stew, .power, .firmware]) s (State.wake s port cause) := by
  unfold State.wake
  lift_lets -underBinder
  intro x1 x2
  have h2 : Keeps (andBell [.tai, .inForce, .xcvr, .watch, .stew, .power, .firmware]) s x2 := by
    refine Keeps.ite ?_ ?_
    · refine Keeps.with_xcvr ?_ ?_
      · exact rfl
      · exact Keeps.refl _ _
    · refine Keeps.step (keeps_count _ _) rfl ?_
      exact Keeps.refl _ _
  clear_value x2
  intro x3
  refine Keeps.ite ?_ ?_
  · refine Keeps.with_xcvr ?_ ?_
    · exact rfl
    · exact h2
  · refine Keeps.step (keeps_wakeActs _) rfl ?_
    exact h2

theorem keeps_pinsRest (s : State) :
    Keeps [.xcvr] s (State.pinsRest s) := by
  unfold State.pinsRest
  lift_lets -underBinder
  intro x1 x2
  have h2 : Keeps [.xcvr] s x2 := by
    refine Keeps.with_xcvr ?_ ?_
    · exact rfl
    · exact Keeps.refl _ _
  clear_value x2
  refine Keeps.foldl (fun u3 y4 => ?_) ?_
  · lift_lets -underBinder
    intro x5
    refine Keeps.step (keeps_modIp _ _ _) rfl ?_
    exact Keeps.refl _ _
  · exact h2

theorem keeps_heldWakes (s : State) :
    Keeps (andBell [.tai, .inForce, .xcvr, .watch, .stew, .power, .firmware]) s (State.heldWakes s) := by
  unfold State.heldWakes
  lift_lets -underBinder
  intro x1 x2
  refine Keeps.foldl (fun u3 y4 => ?_) ?_
  · refine Keeps.step (keeps_wakeActs _) rfl ?_
    exact Keeps.refl _ _
  · refine Keeps.with_xcvr ?_ ?_
    · exact rfl
    · exact Keeps.refl _ _

theorem keeps_execWakeUpPattern (port : Nat) (dom1 : Nat) (rec' : Nat) (dom2 : Nat) (total : Nat) (s : State) :
    AnswerKeeps (andBell [.tai, .inForce, .xcvr, .watch, .stew, .power, .firmware]) s (execWakeUpPattern port dom1 rec' dom2 total s) := by
  unfold execWakeUpPattern
  lift_lets -underBinder
  intro x1
  refine AnswerKeeps.next ?_
  refine Keeps.ite ?_ ?_
  · refine Keeps.step (keeps_wake _ _ _) rfl ?_
    exact Keeps.refl _ _
  · exact Keeps.refl _ _

theorem keeps_linksDown (s : State) :
    Keeps (andBell [.frames, .rings]) s (State.linksDown s) := by
  unfold State.linksDown
  refine Keeps.foldl (fun u1 y2 => ?_) ?_
  · refine Keeps.step (keeps_endpointChange _ _ _) rfl ?_
    exact Keeps.refl _ _
  · exact Keeps.refl _ _

theorem keeps_execWakeUpFrame (port : Nat) (ide : Bool) (ident : Nat) (dlc : Nat) (remote : Bool) (fd : Bool) (erroneous : Bool) (data : Word) (s : State) :
    AnswerKeeps (andBell [.tai, .inForce, .xcvr, .watch, .stew, .power, .firmware]) s (execWakeUpFrame port ide ident dlc remote fd erroneous data s) := by
  unfold execWakeUpFrame
  lift_lets -underBinder
  intro x1
  have h1 : Keeps (andBell [.tai, .inForce, .xcvr, .watch, .stew, .power, .firmware]) s x1 := by
    refine Keeps.step (keeps_modIp _ _ _) rfl ?_
    exact Keeps.refl _ _
  clear_value x1
  refine AnswerKeeps.next ?_
  refine Keeps.ite ?_ ?_
  · exact Keeps.refl _ _
  · refine Keeps.ite ?_ ?_
    · refine Keeps.ite ?_ ?_
      · refine Keeps.step (keeps_wake _ _ _) rfl ?_
        refine Keeps.step (keeps_raise _ _) rfl ?_
        refine Keeps.step (keeps_modIp _ _ _) rfl ?_
        exact Keeps.refl _ _
      · refine Keeps.step (keeps_modIp _ _ _) rfl ?_
        exact Keeps.refl _ _
    · refine Keeps.ite ?_ ?_
      · refine Keeps.step (keeps_wake _ _ _) rfl ?_
        exact h1
      · exact h1

theorem keeps_emptyKeys (s : State) :
    Keeps [.halves, .keks, .lock] s (State.emptyKeys s) := by
  unfold State.emptyKeys
  lift_lets -underBinder
  intro x1
  refine Keeps.with_lock ?_ ?_ ?_ ?_
  · exact .inl rfl
  · exact .inl rfl
  · exact .inl rfl
  · exact Keeps.refl _ _

theorem keeps_heldTarget (s : State) :
    Keeps [.power] s (State.heldTarget s) := by
  unfold State.heldTarget
  split
  · lift_lets -underBinder
    intro x1
    refine Keeps.step (keeps_requestMove _ _) rfl ?_
    refine Keeps.with_sys ?_ ?_ ?_ ?_ ?_ ?_ ?_ ?_ ?_
    · exact .inl rfl
    · (refine .inr ?_; and_intros <;> rfl)
    · (refine .inr ?_; and_intros <;> rfl)
    · (refine .inr ?_; and_intros <;> rfl)
    · (refine .inr ?_; and_intros <;> rfl)
    · exact .inr ⟨rfl, rfl⟩
    · exact .inr rfl
    · exact .inr ⟨rfl, rfl⟩
    · exact Keeps.refl _ _
  · exact Keeps.refl _ _

theorem keeps_execPfail (s : State) :
    AnswerKeeps (andBell [.ports, .frames, .rings, .cells, .store, .cellar, .tink]) s (execPfail s) := by
  unfold execPfail
  lift_lets -underBinder
  intro x1
  have h1 : Keeps (andBell [.ports, .frames, .rings, .cells, .store, .cellar, .tink]) s x1 := by
    refine Keeps.trans ?_ (keeps_portsStep _ _ _ (fun u2 => ?_) rfl)
    · exact Keeps.refl _ _
    · lift_lets -underBinder
      intro x3
      refine Keeps.with_cellar_tink ?_ ?_ ?_ ?_
      · exact .inl rfl
      · exact .inl rfl
      · exact rfl
      · exact Keeps.refl _ _
  clear_value x1
  refine AnswerKeeps.next ?_
  refine Keeps.ite ?_ ?_
  · exact Keeps.refl _ _
  · refine Keeps.step (keeps_linksDown _) rfl ?_
    exact h1

theorem keeps_execWakeN (s : State) :
    AnswerKeeps (andBell [.tai, .inForce, .xcvr, .watch, .stew, .power, .firmware]) s (execWakeN s) := by
  unfold execWakeN
  refine AnswerKeeps.next ?_
  refine Keeps.ite ?_ ?_
  · refine Keeps.step (keeps_wake _ _ _) rfl ?_
    exact Keeps.refl _ _
  · exact Keeps.refl _ _

theorem keeps_execTempUpdate (sensors : List Int) (s : State) :
    AnswerKeeps [.temp] s (execTempUpdate sensors s) := by
  unfold execTempUpdate
  refine AnswerKeeps.next ?_
  split
  · exact Keeps.refl _ _
  · lift_lets -underBinder
    intro x1 x2
    refine Keeps.with_sys ?_ ?_ ?_ ?_ ?_ ?_ ?_ ?_ ?_
    · (refine .inr ?_; and_intros <;> rfl)
    · (refine .inr ?_; and_intros <;> rfl)
    · (refine .inr ?_; and_intros <;> rfl)
    · (refine .inr ?_; and_intros <;> rfl)
    · (refine .inr ?_; and_intros <;> rfl)
    · exact .inr ⟨rfl, rfl⟩
    · exact .inr rfl
    · exact .inl rfl
    · exact Keeps.refl _ _

theorem keeps_endMove (s : State) :
    Keeps (andBell [.tai, .inForce, .xcvr, .watch, .stew, .power, .firmware]) s (State.endMove s) := by
  unfold State.endMove
  lift_lets -underBinder
  intro x1
  refine Keeps.step (keeps_heldTarget _) rfl ?_
  refine Keeps.step (keeps_stewPins _) rfl ?_
  refine Keeps.step (keeps_heldWakes _) rfl ?_
  refine Keeps.step (keeps_count _ _) rfl ?_
  refine Keeps.with_sys ?_ ?_ ?_ ?_ ?_ ?_ ?_ ?_ ?_
  · exact .inl rfl
  · (refine .inr ?_; and_intros <;> rfl)
  · (refine .inr ?_; and_intros <;> rfl)
  · (refine .inr ?_; and_intros <;> rfl)
  · exact .inl rfl
  · exact .inr ⟨rfl, rfl⟩
  · exact .inr rfl
  · exact .inr ⟨rfl, rfl⟩
  · exact Keeps.refl _ _

theorem keeps_execPfailRelease (s : State) :
    AnswerKeeps allButPending s (execPfailRelease s) := by
  unfold execPfailRelease
  refine AnswerKeeps.next ?_
  refine Keeps.ite ?_ ?_
  · refine Keeps.step (keeps_deviceReset _ _ _) rfl ?_
    exact Keeps.refl _ _
  · exact Keeps.refl _ _

theorem keeps_execPowerMoveStart (s : State) :
    AnswerKeeps (andBell [.tai, .inForce, .xcvr, .frames, .watch, .halves, .keks, .lock, .rings, .stew, .power, .firmware]) s (execPowerMoveStart s) := by
  unfold execPowerMoveStart
  refine AnswerKeeps.next ?_
  refine Keeps.ite ?_ ?_
  · exact Keeps.refl _ _
  · split
    · refine Keeps.ite ?_ ?_
      · refine Keeps.step (keeps_endMove _) rfl ?_
        refine Keeps.step (keeps_leaveDepot _) rfl ?_
        exact Keeps.refl _ _
      · lift_lets -underBinder
        intro x1
        refine Keeps.step (keeps_endMove _) rfl ?_
        refine Keeps.with_sys ?_ ?_ ?_ ?_ ?_ ?_ ?_ ?_ ?_
        · exact .inl rfl
        · (refine .inr ?_; and_intros <;> rfl)
        · (refine .inr ?_; and_intros <;> rfl)
        · (refine .inr ?_; and_intros <;> rfl)
        · exact .inl rfl
        · exact .inr ⟨rfl, rfl⟩
        · exact .inr rfl
        · exact .inr ⟨rfl, rfl⟩
        · exact Keeps.refl _ _
    · refine Keeps.ite ?_ ?_
      · lift_lets -underBinder
        intro x2
        have h2 : Keeps (andBell   [.tai, .inForce, .xcvr, .frames, .watch, .halves, .keks, .lock, .rings, .stew,     .power, .firmware]) s x2 := by
          refine Keeps.ite ?_ ?_
          · refine Keeps.step (keeps_leaveDepot _) rfl ?_
            exact Keeps.refl _ _
          · exact Keeps.refl _ _
        clear_value x2
        intro x3
        refine Keeps.step (keeps_endMove _) rfl ?_
        refine Keeps.with_sys ?_ ?_ ?_ ?_ ?_ ?_ ?_ ?_ ?_
        · exact .inl rfl
        · (refine .inr ?_; and_intros <;> rfl)
        · (refine .inr ?_; and_intros <;> rfl)
        · (refine .inr ?_; and_intros <;> rfl)
        · exact .inl rfl
        · exact .inr ⟨rfl, rfl⟩
        · exact .inr rfl
        · exact .inr ⟨rfl, rfl⟩
        · exact h2
      · exact Keeps.refl _ _
    · refine Keeps.ite ?_ ?_
      · lift_lets -underBinder
        intro x4
        have h4 : Keeps (andBell   [.tai, .inForce, .xcvr, .frames, .watch, .halves, .keks, .lock, .rings, .stew,     .power, .firmware]) s x4 := by
          refine Keeps.step (keeps_stewPins _) rfl ?_
          refine Keeps.step (keeps_linksDown _) rfl ?_
          exact Keeps.refl _ _
        clear_value x4
        intro x5
        refine Keeps.step (keeps_endMove _) rfl ?_
        refine Keeps.step (keeps_pinsRest _) rfl ?_
        refine Keeps.with_sys ?_ ?_ ?_ ?_ ?_ ?_ ?_ ?_ ?_
        · exact .inl rfl
        · (refine .inr ?_; and_intros <;> rfl)
        · (refine .inr ?_; and_intros <;> rfl)
        · (refine .inr ?_; and_intros <;> rfl)
        · exact .inl rfl
        · exact .inr ⟨rfl, rfl⟩
        · exact .inr rfl
        · exact .inr ⟨rfl, rfl⟩
        · exact h4
      · exact Keeps.refl _ _
    · refine Keeps.ite ?_ ?_
      · lift_lets -underBinder
        intro x6
        have h6 : Keeps (andBell   [.tai, .inForce, .xcvr, .frames, .watch, .halves, .keks, .lock, .rings, .stew,     .power, .firmware]) s x6 := by
          refine Keeps.step (keeps_emptyKeys _) rfl ?_
          refine Keeps.step (keeps_linksDown _) rfl ?_
          exact Keeps.refl _ _
        clear_value x6
        intro x7 x8
        have h8 : Keeps (andBell   [.tai, .inForce, .xcvr, .frames, .watch, .halves, .keks, .lock, .rings, .stew,     .power, .firmware]) s x8 := by
          refine Keeps.step (keeps_endMove _) rfl ?_
          refine Keeps.step (keeps_pinsRest _) rfl ?_
          refine Keeps.with_sys ?_ ?_ ?_ ?_ ?_ ?_ ?_ ?_ ?_
          · exact .inl rfl
          · (refine .inr ?_; and_intros <;> rfl)
          · (refine .inr ?_; and_intros <;> rfl)
          · (refine .inr ?_; and_intros <;> rfl)
          · exact .inl rfl
          · exact .inr ⟨rfl, rfl⟩
          · exact .inr rfl
          · exact .inr ⟨rfl, rfl⟩
          · exact h6
        clear_value x8
        intro x9
        refine Keeps.with_sys ?_ ?_ ?_ ?_ ?_ ?_ ?_ ?_ ?_
        · exact .inl rfl
        · (refine .inr ?_; and_intros <;> rfl)
        · (refine .inr ?_; and_intros <;> rfl)
        · (refine .inr ?_; and_intros <;> rfl)
        · exact .inl rfl
        · exact .inr ⟨rfl, rfl⟩
        · exact .inr rfl
        · exact .inr ⟨rfl, rfl⟩
        · exact h8
      · exact Keeps.refl _ _
    · exact Keeps.refl _ _

/-! ## Machine/Transmit.lean -/

theorem keeps_modOpen (s : State) (p : Nat) (tag : Nat) (f : Packet → Packet) :
    Keeps [.ports] s (State.modOpen s p tag f) := by
  unfold State.modOpen
  refine Keeps.step (keeps_modPort _ _ _) rfl ?_
  exact Keeps.refl _ _

theorem keeps_abandonOpen (s : State) (p : Nat) (tag : Nat) (status : Nat) (detail : Nat) :
    Keeps [.ports] s (State.abandonOpen s p tag status detail) := by
  unfold State.abandonOpen
  refine Keeps.step (keeps_modOpen _ _ _ _) rfl ?_
  exact Keeps.refl _ _

theorem keeps_dropZombie (s : State) (p : Nat) (tag : Nat) :
    Keeps (andBell [.ports]) s (State.dropZombie s p tag) := by
  unfold State.dropZombie
  refine Keeps.trans ?_ (keeps_withLevel _ _ _ (fun u1 => ?_) rfl)
  · exact Keeps.refl _ _
  · refine Keeps.step (keeps_modPort _ _ _) rfl ?_
    exact Keeps.refl _ _

theorem keeps_txOpen (s : State) (w : TxWait) :
    OptKeeps (andBell [.ports, .cells]) s (State.txOpen s w) := by
  unfold State.txOpen
  refine OptKeeps.ite ?_ ?_
  · exact OptKeeps.none
  · split
    · exact OptKeeps.none
    · lift_lets -underBinder
      intro x1 x2 x3
      have h3 : Keeps (andBell [.ports, .cells]) s x3 := by
        refine Keeps.step (keeps_allocCells _ _ _ _ _ (by assumption)) rfl ?_
        exact Keeps.refl _ _
      intro x4 x5
      have h5 : Keeps (andBell [.ports, .cells]) s x5 := by
        refine Keeps.with_dray ?_ ?_ ?_ ?_
        · exact .inr ⟨rfl, rfl⟩
        · exact .inl rfl
        · exact .inr rfl
        · exact h3
      clear_value x5
      refine OptKeeps.some ?_
      refine Keeps.trans ?_ (keeps_withLevel _ _ _ (fun u6 => ?_) rfl)
      · exact h5
      · lift_lets -underBinder
        intro x7
        refine Keeps.step (keeps_pushPacket _ _ _ _) rfl ?_
        exact Keeps.refl _ _

theorem keeps_execTxBackfill (port : Nat) (tag : Nat) (fetched : Option Bytes) (s : State) :
    AnswerKeeps (andBell [.ports, .lock, .storeroom]) s (execTxBackfill port tag fetched s) := by
  unfold execTxBackfill
  refine AnswerKeeps.next ?_
  refine Keeps.ite ?_ ?_
  · refine Keeps.step (keeps_dropZombie _ _ _) rfl ?_
    exact Keeps.refl _ _
  · split
    · exact Keeps.refl _ _
    · refine Keeps.ite ?_ ?_
      · exact Keeps.refl _ _
      · split
        · lift_lets -underBinder
          intro x1
          have h1 : Keeps (andBell [.ports, .lock, .storeroom]) s x1 := by
            unfold x1
            split
            · refine Keeps.step (keeps_count _ _) rfl ?_
              exact Keeps.refl _ _
            · exact Keeps.refl _ _
          clear_value x1
          refine Keeps.step (keeps_abandonOpen _ _ _ _ _) rfl ?_
          exact h1
        · lift_lets -underBinder
          intro x2
          split
          · lift_lets -underBinder
            intro x3
            refine Keeps.with_lock ?_ ?_ ?_ ?_
            · exact .inr rfl
            · exact .inr ⟨rfl, rfl, rfl⟩
            · exact .inl rfl
            · exact Keeps.refl _ _
          · refine Keeps.step (keeps_modOpen _ _ _ _) rfl ?_
            refine Keeps.step (keeps_storeData _ _ _) rfl ?_
            exact Keeps.refl _ _

theorem keeps_execTransmitEntry (e : Ep) (ring : Nat) (w0 : Word) (w1 : Word) (w2 : Word) (w3 : Word) (s : State) :
    AnswerKeeps (andBell [.ports, .rings, .cells]) s (execTransmitEntry e ring w0 w1 w2 w3 s) := by
  unfold execTransmitEntry
  lift_lets -underBinder
  intro x1 x2 x3 x4
  have h4 : Keeps (andBell [.ports, .rings, .cells]) s x4 := by
    refine Keeps.step (keeps_count _ _) rfl ?_
    refine Keeps.step (keeps_modRing _ _ _ _) rfl ?_
    exact Keeps.refl _ _
  clear_value x4
  intro x5
  refine AnswerKeeps.next ?_
  refine Keeps.ite ?_ ?_
  · exact Keeps.refl _ _
  · refine Keeps.ite ?_ ?_
    · refine Keeps.step (keeps_txCompletion _ _ _ _ _) rfl ?_
      exact h4
    · refine Keeps.ite ?_ ?_
      · refine Keeps.step (keeps_txCompletion _ _ _ _ _) rfl ?_
        exact h4
      · refine Keeps.ite ?_ ?_
        · refine Keeps.step (keeps_txCompletion _ _ _ _ _) rfl ?_
          exact h4
        · split
          · refine Keeps.step (keeps_txOpen _ _ _ (by assumption)) rfl ?_
            exact h4
          · refine Keeps.step (keeps_modRing _ _ _ _) rfl ?_
            exact h4

theorem keeps_execTxResourcesReady (e : Ep) (ring : Nat) (s : State) :
    AnswerKeeps (andBell [.ports, .rings, .cells]) s (execTxResourcesReady e ring s) := by
  unfold execTxResourcesReady
  refine AnswerKeeps.next ?_
  split
  · exact Keeps.refl _ _
  · split
    · refine Keeps.step (keeps_modRing _ _ _ _) rfl ?_
      refine Keeps.step (keeps_txOpen _ _ _ (by assumption)) rfl ?_
      exact Keeps.refl _ _
    · exact Keeps.refl _ _

/-! ## Machine/Locksmith.lean -/

theorem keeps_captureSlot (s : State) (val : Word) :
    Keeps [.lock] s (State.captureSlot s val) := by
  unfold State.captureSlot
  lift_lets -underBinder
  intro x1 x2
  refine Keeps.with_lock ?_ ?_ ?_ ?_
  · exact .inr rfl
  · exact .inr ⟨rfl, rfl, rfl⟩
  · exact .inl rfl
  · exact Keeps.refl _ _

theorem keeps_kmReleaseBy (s : State) (p : Path) :
    Keeps [.lock] s (State.kmReleaseBy s p) := by
  unfold State.kmReleaseBy
  refine Keeps.ite ?_ ?_
  · refine Keeps.step (keeps_kmRelease _) rfl ?_
    exact Keeps.refl _ _
  · exact Keeps.refl _ _

theorem keeps_kmClaim (s : State) (p : Path) :
    Keeps [.counters, .lock] s (State.kmClaim s p) := by
  unfold State.kmClaim
  refine Keeps.ite ?_ ?_
  · lift_lets -underBinder
    intro x1
    refine Keeps.with_lock ?_ ?_ ?_ ?_
    · exact .inr rfl
    · exact .inr ⟨rfl, rfl, rfl⟩
    · exact .inl rfl
    · exact Keeps.refl _ _
  · refine Keeps.step (keeps_count _ _) rfl ?_
    exact Keeps.refl _ _

theorem keeps_kmWrite (s : State) (p : Path) (val : Word) :
    Keeps [.counters, .lock] s (State.kmWrite s p val) := by
  unfold State.kmWrite
  lift_lets -underBinder
  intro x1
  have h1 : Keeps [.counters, .lock] s x1 := by
    refine Keeps.ite ?_ ?_
    · refine Keeps.step (keeps_kmClaim _ _) rfl ?_
      exact Keeps.refl _ _
    · exact Keeps.refl _ _
  clear_value x1
  refine Keeps.ite ?_ ?_
  · refine Keeps.step (keeps_kmReleaseBy _ _) rfl ?_
    exact h1
  · exact h1

theorem keeps_keyDone (s : State) (e : Ep) (ring : Nat) (slot : Nat) (code : Nat) (result : Word) :
    Keeps (andBell [.lock, .rings]) s (State.keyDone s e ring slot code result) := by
  unfold State.keyDone
  lift_lets -underBinder
  intro x1 x2
  have h2 : Keeps (andBell [.lock, .rings]) s x2 := by
    refine Keeps.with_lock ?_ ?_ ?_ ?_
    · exact .inr rfl
    · exact .inr ⟨rfl, rfl, rfl⟩
    · exact .inl rfl
    · exact Keeps.refl _ _
  clear_value x2
  refine Keeps.step (keeps_endCommand _ _ _ _ _ _) rfl ?_
  exact h2

theorem keeps_eraseKeys (s : State) (code : Nat) :
    Keeps (andBell [.frames, .halves, .keks, .lock, .rings]) s (State.eraseKeys s code) := by
  unfold State.eraseKeys
  lift_lets -underBinder
  intro x1 x2 x3 x4
  have h4 : Keeps (andBell [.frames, .halves, .keks, .lock, .rings]) s x4 := by
    refine Keeps.with_frames_lock ?_ ?_ ?_ ?_ ?_
    · exact rfl
    · exact .inl rfl
    · exact .inl rfl
    · exact .inl rfl
    · exact Keeps.refl _ _
  clear_value x4
  intro x5
  have h5 : Keeps (andBell [.frames, .halves, .keks, .lock, .rings]) s x5 := by
    refine Keeps.foldl (fun u6 y7 => ?_) ?_
    · refine Keeps.step (keeps_keyDone _ _ _ _ _ _) rfl ?_
      exact Keeps.refl _ _
    · exact h4
  clear_value x5
  intro x8
  have h8 : Keeps (andBell [.frames, .halves, .keks, .lock, .rings]) s x8 := by
    refine Keeps.foldl (fun u9 y10 => ?_) ?_
    · refine Keeps.step (keeps_keyDone _ _ _ _ _ _) rfl ?_
      exact Keeps.refl _ _
    · exact h5
  clear_value x8
  refine Keeps.step (keeps_raise _ _) rfl ?_
  refine Keeps.step (keeps_count _ _) rfl ?_
  exact h8

theorem keeps_setHalf (s : State) (slot : Nat) (which : Nat) (h : KeyHalf) :
    Keeps [.halves] s (State.setHalf s slot which h) := by
  unfold State.setHalf
  lift_lets -underBinder
  intro x1
  refine Keeps.with_lock ?_ ?_ ?_ ?_
  · exact .inl rfl
  · exact .inr ⟨rfl, rfl, rfl⟩
  · exact .inr rfl
  · exact Keeps.refl _ _

theorem keeps_swapSlot (s : State) (slot : Nat) :
    Keeps [.frames, .halves, .lock] s (State.swapSlot s slot) := by
  unfold State.swapSlot
  lift_lets -underBinder
  intro x1 x2 x3
  have h3 : Keeps [.frames, .halves, .lock] s x3 := by
    refine Keeps.step (keeps_setHalf _ _ _ _) rfl ?_
    refine Keeps.step (keeps_setHalf _ _ _ _) rfl ?_
    exact Keeps.refl _ _
  clear_value x3
  intro x4
  refine Keeps.with_frames_lock ?_ ?_ ?_ ?_ ?_
  · exact rfl
  · exact .inl rfl
  · exact .inr ⟨rfl, rfl, rfl⟩
  · exact .inl rfl
  · exact h3

theorem keeps_keySwaps (s : State) (host : Bool) (result : Word) :
    Keeps (andBell [.frames, .halves, .lock, .rings]) s (State.keySwaps s host result) := by
  unfold State.keySwaps
  lift_lets -underBinder
  intro x1 x2 x3
  have h3 : Keeps (andBell [.frames, .halves, .lock, .rings]) s x3 := by
    refine Keeps.foldl (fun u4 y5 => ?_) ?_
    · refine Keeps.step (keeps_swapSlot _ _) rfl ?_
      exact Keeps.refl _ _
    · exact Keeps.refl _ _
  clear_value x3
  intro x6 x7
  have h7 : Keeps (andBell [.frames, .halves, .lock, .rings]) s x7 := by
    refine Keeps.with_lock ?_ ?_ ?_ ?_
    · exact .inl rfl
    · exact .inr ⟨rfl, rfl, rfl⟩
    · exact .inl rfl
    · exact h3
  clear_value x7
  refine Keeps.foldl (fun u8 y9 => ?_) ?_
  · refine Keeps.step (keeps_keyDone _ _ _ _ _ _) rfl ?_
    exact Keeps.refl _ _
  · exact h7

theorem keeps_execEntropyRetry (passes : Bool) (s : State) :
    AnswerKeeps [.clock, .lock] s (execEntropyRetry passes s) := by
  unfold execEntropyRetry
  lift_lets -underBinder
  intro x1
  have h1 : Keeps [.clock, .lock] s x1 := by
    refine Keeps.step (keeps_advanceTo _ _) rfl ?_
    exact Keeps.refl _ _
  clear_value x1
  intro x2
  refine AnswerKeeps.next ?_
  refine Keeps.ite ?_ ?_
  · refine Keeps.with_lock ?_ ?_ ?_ ?_
    · exact .inr rfl
    · exact .inr ⟨rfl, rfl, rfl⟩
    · exact .inl rfl
    · exact h1
  · exact Keeps.refl _ _

theorem keeps_startKey {l : List Part} (s : State) (c : CmdEntry) (opc : Nat) (slot : Nat) (ok : Bool) (run : State → State)
    (hf : ∀ u : State, Keeps l u (run u)) (hl : ((andBell [.lock, .rings]).all fun p => l.contains p) = true) :
    Keeps l s (State.startKey s c opc slot ok run) := by
  unfold State.startKey
  refine keeps_startCommand _ _ _ _ (fun u => ?_) (all_trans rfl hl)
  refine Keeps.ite (Keeps.step (keeps_keyDone _ _ _ _ _ _) (all_trans rfl hl) (Keeps.refl _ _)) ?_
  have h1 : Keeps l u { u with lock := { u.lock with holderAt := u.time.now } } :=
    Keeps.mono (l := [.lock]) (Keeps.with_lock (.inr rfl) (.inr ⟨rfl, rfl, rfl⟩) (.inl rfl) (Keeps.refl _ _)) (all_trans rfl hl)
  exact Keeps.ite (Keeps.trans h1 (hf _)) (Keeps.step (keeps_endCmd _ _ _ _ _) (all_trans rfl hl) h1)

theorem keeps_execKekLoad (c : CmdEntry) (blob : Option Bytes) (s : State) :
    AnswerKeeps (andBell [.keks, .lock, .rings]) s (execKekLoad c blob s) := by
  unfold execKekLoad
  lift_lets -underBinder
  intro x1 x2
  refine AnswerKeeps.next ?_
  refine Keeps.trans ?_ (keeps_startKey _ _ _ _ _ _ (fun u3 => ?_) rfl)
  · exact Keeps.refl _ _
  · lift_lets -underBinder
    intro x4
    split
    · unfold x4
      refine Keeps.step (keeps_keyDone _ _ _ _ _ _) rfl ?_
      exact Keeps.refl _ _
    · unfold x4
      refine Keeps.step (keeps_keyDone _ _ _ _ _ _) rfl ?_
      refine Keeps.step (keeps_memError _ _ _) rfl ?_
      exact Keeps.refl _ _
    · split
      · unfold x4
        refine Keeps.step (keeps_keyDone _ _ _ _ _ _) rfl ?_
        exact Keeps.refl _ _
      · refine Keeps.ite ?_ ?_
        · lift_lets -underBinder
          intro x5
          unfold x4
          refine Keeps.step (keeps_keyDone _ _ _ _ _ _) rfl ?_
          refine Keeps.with_lock ?_ ?_ ?_ ?_
          · exact .inr rfl
          · exact .inl rfl
          · exact .inl rfl
          · exact Keeps.refl _ _
        · unfold x4
          refine Keeps.step (keeps_keyDone _ _ _ _ _ _) rfl ?_
          exact Keeps.refl _ _

theorem keeps_sealFail (s : State) (src : SealSource) (reg : Nat) (detail : Nat) :
    Keeps [.counters, .ports, .frames, .cells] s (State.sealFail s src reg detail) := by
  unfold State.sealFail
  lift_lets -underBinder
  intro x1
  have h1 : Keeps [.counters, .ports, .frames, .cells] s x1 := by
    refine Keeps.step (keeps_count _ _) rfl ?_
    exact Keeps.refl _ _
  clear_value x1
  split
  · refine Keeps.step (keeps_settleFrame _ _) rfl ?_
    refine Keeps.step (keeps_endCopy _ _ _ _) rfl ?_
    exact h1
  · refine Keeps.step (keeps_abandonOpen _ _ _ _ _) rfl ?_
    exact h1

theorem keeps_sealBegin (s : State) (lane : Nat) (src : SealSource) (slot : Nat) (f : BusFrame) (d : List Byte) :
    Keeps [.counters, .ports, .frames, .halves, .lock, .cells] s (State.sealBegin s lane src slot f d) := by
  unfold State.sealBegin
  lift_lets -underBinder
  intro x1
  refine Keeps.ite ?_ ?_
  · refine Keeps.step (keeps_sealFail _ _ _ _) rfl ?_
    exact Keeps.refl _ _
  · split
    · refine Keeps.step (keeps_sealFail _ _ _ _) rfl ?_
      exact Keeps.refl _ _
    · lift_lets -underBinder
      intro x2
      split
      · lift_lets -underBinder
        intro x3
        refine Keeps.ite ?_ ?_
        · unfold x2
          lift_lets -underBinder
          intro x4
          have h4 : Keeps [.counters, .ports, .frames, .halves, .lock, .cells] s x4 := by
            refine Keeps.step (keeps_setHalf _ _ _ _) rfl ?_
            exact Keeps.refl _ _
          clear_value x4
          intro x5 x6
          refine Keeps.with_lock ?_ ?_ ?_ ?_
          · exact .inl rfl
          · exact .inr ⟨rfl, rfl, rfl⟩
          · exact .inl rfl
          · exact h4
        · split
          · lift_lets -underBinder
            intro x7
            have h7 : Keeps [.counters, .ports, .frames, .halves, .lock, .cells] s x7 := by
              refine Keeps.step (keeps_allocCells _ _ _ _ _ (by assumption)) rfl ?_
              exact Keeps.refl _ _
            intro x8 x9
            have h9 : Keeps [.counters, .ports, .frames, .halves, .lock, .cells] s x9 := by
              refine Keeps.with_dray ?_ ?_ ?_ ?_
              · exact .inr ⟨rfl, rfl⟩
              · exact .inl rfl
              · exact .inr rfl
              · exact h7
            clear_value x9
            unfold x2
            lift_lets -underBinder
            intro x10
            have h10 : Keeps [.counters, .ports, .frames, .halves, .lock, .cells] s x10 := by
              refine Keeps.step (keeps_setHalf _ _ _ _) rfl ?_
              refine Keeps.step (keeps_modOpen _ _ _ _) rfl ?_
              exact h9
            clear_value x10
            intro x11 x12
            refine Keeps.with_lock ?_ ?_ ?_ ?_
            · exact .inl rfl
            · exact .inr ⟨rfl, rfl, rfl⟩
            · exact .inl rfl
            · exact h10
          · refine Keeps.step (keeps_sealFail _ _ _ _) rfl ?_
            exact Keeps.refl _ _
      · split
        · unfold x2
          lift_lets -underBinder
          intro x13
          have h13 : Keeps [.counters, .ports, .frames, .halves, .lock, .cells] s x13 := by
            refine Keeps.step (keeps_setHalf _ _ _ _) rfl ?_
            refine Keeps.step (keeps_allocCells _ _ _ _ _ (by assumption)) rfl ?_
            exact Keeps.refl _ _
          clear_value x13
          intro x14 x15
          refine Keeps.with_lock ?_ ?_ ?_ ?_
          · exact .inl rfl
          · exact .inr ⟨rfl, rfl, rfl⟩
          · exact .inl rfl
          · exact h13
        · refine Keeps.step (keeps_settleFrame _ _) rfl ?_
          refine Keeps.step (keeps_endCopy _ _ _ _) rfl ?_
          exact Keeps.refl _ _

theorem keeps_execSealStart (lane : Nat) (s : State) :
    AnswerKeeps (andBell [.ports, .frames, .halves, .lock, .cells]) s (execSealStart lane s) := by
  unfold execSealStart
  lift_lets -underBinder
  intro x1
  refine AnswerKeeps.next ?_
  split
  · exact Keeps.refl _ _
  · refine Keeps.ite ?_ ?_
    · exact Keeps.refl _ _
    · lift_lets -underBinder
      intro x2 x3
      have h3 : Keeps (andBell [.ports, .frames, .halves, .lock, .cells]) s x3 := by
        refine Keeps.with_lock ?_ ?_ ?_ ?_
        · exact .inl rfl
        · exact .inr ⟨rfl, rfl, rfl⟩
        · exact .inl rfl
        · exact Keeps.refl _ _
      clear_value x3
      split
      · refine Keeps.step (keeps_sealBegin _ _ _ _ _ _) rfl ?_
        exact h3
      · split
        · refine Keeps.step (keeps_dropZombie _ _ _) rfl ?_
          exact h3
        · exact h3

theorem keeps_writeNext (s : State) (e : Ep) (ring : Nat) (slot : Nat) (h : KeyHalf) :
    Keeps (andBell [.halves, .lock, .rings]) s (State.writeNext s e ring slot h) := by
  unfold State.writeNext
  refine Keeps.ite ?_ ?_
  · lift_lets -underBinder
    intro x1
    refine Keeps.with_lock ?_ ?_ ?_ ?_
    · exact .inl rfl
    · exact .inr ⟨rfl, rfl, rfl⟩
    · exact .inl rfl
    · exact Keeps.refl _ _
  · refine Keeps.step (keeps_keyDone _ _ _ _ _ _) rfl ?_
    refine Keeps.step (keeps_setHalf _ _ _ _) rfl ?_
    exact Keeps.refl _ _

theorem keeps_execKeyLoad (c : CmdEntry) (blob : Option Bytes) (s : State) :
    AnswerKeeps (andBell [.halves, .lock, .rings]) s (execKeyLoad c blob s) := by
  unfold execKeyLoad
  lift_lets -underBinder
  intro x1 x2 x3
  refine AnswerKeeps.next ?_
  refine Keeps.trans ?_ (keeps_startKey _ _ _ _ _ _ (fun u4 => ?_) rfl)
  · exact Keeps.refl _ _
  · lift_lets -underBinder
    intro x5
    split
    · unfold x5
      refine Keeps.step (keeps_keyDone _ _ _ _ _ _) rfl ?_
      exact Keeps.refl _ _
    · refine Keeps.step (keeps_keyDone _ _ _ _ _ _) rfl ?_
      refine Keeps.step (keeps_memError _ _ _) rfl ?_
      exact Keeps.refl _ _
    · split
      · unfold x5
        refine Keeps.step (keeps_keyDone _ _ _ _ _ _) rfl ?_
        exact Keeps.refl _ _
      · split
        · unfold x5
          refine Keeps.step (keeps_keyDone _ _ _ _ _ _) rfl ?_
          exact Keeps.refl _ _
        · refine Keeps.step (keeps_writeNext _ _ _ _ _) rfl ?_
          exact Keeps.refl _ _

theorem keeps_useHalf (s : State) (slot : Nat) (which : Nat) :
    Keeps (andBell [.halves, .lock]) s (State.useHalf s slot which) := by
  unfold State.useHalf
  lift_lets -underBinder
  intro x1 x2 x3 x4 x5
  have h5 : Keeps (andBell [.halves, .lock]) s x5 := by
    refine Keeps.step (keeps_setHalf _ _ _ _) rfl ?_
    exact Keeps.refl _ _
  clear_value x5
  intro x6 x7
  have h7 : Keeps (andBell [.halves, .lock]) s x7 := by
    refine Keeps.ite ?_ ?_
    · refine Keeps.with_lock ?_ ?_ ?_ ?_
      · exact .inl rfl
      · exact .inr ⟨rfl, rfl, rfl⟩
      · exact .inl rfl
      · exact h5
    · exact h5
  clear_value x7
  refine Keeps.step (keeps_raiseIf _ _ _) rfl ?_
  exact h7

theorem keeps_sealVerdict (s : State) (fid : Nat) (f : Machine.Frame) :
    Keeps (andBell [.engines, .frames, .scriv, .halves, .lock, .srcs, .tink]) s (State.sealVerdict s fid f) := by
  unfold State.sealVerdict
  lift_lets -underBinder
  intro x1 x2
  have h2 : FstKeeps (andBell [.engines, .frames, .scriv, .halves, .lock, .srcs, .tink]) s x2 := by
    unfold x2
    split
    · lift_lets -underBinder
      intro x3
      have h3 : Keeps (andBell [.engines, .frames, .scriv, .halves, .lock, .srcs, .tink]) s x3 := by
        refine Keeps.step (keeps_countIf _ _ _) rfl ?_
        exact Keeps.refl _ _
      clear_value x3
      split
      · refine FstKeeps.mk ?_
        refine Keeps.step (keeps_useHalf _ _ _) rfl ?_
        refine Keeps.step (keeps_setHalf _ _ _ _) rfl ?_
        exact h3
      · refine FstKeeps.mk ?_
        exact h3
    · refine FstKeeps.mk ?_
      exact Keeps.refl _ _
  clear_value x2
  intro x4
  have h4 : Keeps (andBell [.engines, .frames, .scriv, .halves, .lock, .srcs, .tink]) s x4 := by
    refine Keeps.step (keeps_modFrame _ _ _) rfl ?_
    refine Keeps.step (keeps_count _ _) rfl ?_
    exact h2
  clear_value x4
  refine Keeps.step (keeps_settleFrame _ _) rfl ?_
  refine Keeps.step (keeps_tinkSettle _) rfl ?_
  refine Keeps.step (keeps_freeLane _ _) rfl ?_
  exact h4

theorem keeps_execLocksmithVerdict (fid : Nat) (s : State) :
    AnswerKeeps (andBell [.engines, .frames, .scriv, .halves, .lock, .srcs, .tink]) s (execLocksmithVerdict fid s) := by
  unfold execLocksmithVerdict
  refine AnswerKeeps.next ?_
  split
  · exact Keeps.refl _ _
  · refine Keeps.ite ?_ ?_
    · exact Keeps.refl _ _
    · refine Keeps.step (keeps_sealVerdict _ _ _) rfl ?_
      exact Keeps.refl _ _

theorem keeps_execDrbgInstantiate (s : State) :
    AnswerKeeps [.lock] s (execDrbgInstantiate s) := by
  unfold execDrbgInstantiate
  lift_lets -underBinder
  intro x1
  refine AnswerKeeps.next ?_
  refine Keeps.ite ?_ ?_
  · exact Keeps.refl _ _
  · refine Keeps.with_lock ?_ ?_ ?_ ?_
    · exact .inr rfl
    · exact .inr ⟨rfl, rfl, rfl⟩
    · exact .inl rfl
    · exact Keeps.refl _ _

theorem keeps_execKmTimeout (s : State) :
    AnswerKeeps [.clock, .counters, .lock] s (execKmTimeout s) := by
  unfold execKmTimeout
  refine AnswerKeeps.next ?_
  refine Keeps.ite ?_ ?_
  · exact Keeps.refl _ _
  · refine Keeps.step (keeps_kmRelease _) rfl ?_
    refine Keeps.step (keeps_count _ _) rfl ?_
    refine Keeps.step (keeps_advanceTo _ _) rfl ?_
    exact Keeps.refl _ _

theorem keeps_execNextHalfWrite (slot : Nat) (s : State) :
    AnswerKeeps (andBell [.halves, .lock, .rings]) s (execNextHalfWrite slot s) := by
  unfold execNextHalfWrite
  refine AnswerKeeps.next ?_
  split
  · exact Keeps.refl _ _
  · refine Keeps.ite ?_ ?_
    · exact Keeps.refl _ _
    · lift_lets -underBinder
      intro x1 x2
      have h2 : Keeps (andBell [.halves, .lock, .rings]) s x2 := by
        refine Keeps.with_lock ?_ ?_ ?_ ?_
        · exact .inl rfl
        · exact .inr ⟨rfl, rfl, rfl⟩
        · exact .inl rfl
        · exact Keeps.refl _ _
      clear_value x2
      refine Keeps.step (keeps_keyDone _ _ _ _ _ _) rfl ?_
      refine Keeps.step (keeps_setHalf _ _ _ _) rfl ?_
      exact h2

theorem keeps_execDrbgReseed (s : State) :
    AnswerKeeps [.counters, .lock] s (execDrbgReseed s) := by
  unfold execDrbgReseed
  lift_lets -underBinder
  intro x1
  refine AnswerKeeps.next ?_
  refine Keeps.ite ?_ ?_
  · refine Keeps.step (keeps_count _ _) rfl ?_
    refine Keeps.with_lock ?_ ?_ ?_ ?_
    · exact .inr rfl
    · exact .inr ⟨rfl, rfl, rfl⟩
    · exact .inl rfl
    · exact Keeps.refl _ _
  · exact Keeps.refl _ _

theorem keeps_execDrbgAlarm (s : State) :
    AnswerKeeps (andBell [.frames, .halves, .keks, .lock, .rings]) s (execDrbgAlarm s) := by
  unfold execDrbgAlarm
  refine AnswerKeeps.next ?_
  refine Keeps.ite ?_ ?_
  · refine Keeps.step (keeps_eraseKeys _ _) rfl ?_
    exact Keeps.refl _ _
  · exact Keeps.refl _ _

theorem keeps_execHealthTestFail (s : State) :
    AnswerKeeps faultParts s (execHealthTestFail s) := by
  unfold execHealthTestFail
  lift_lets -underBinder
  intro x1 x2
  have h2 : Keeps (faultParts) s x2 := by
    refine Keeps.with_lock ?_ ?_ ?_ ?_
    · exact .inr rfl
    · exact .inr ⟨rfl, rfl, rfl⟩
    · exact .inl rfl
    · exact Keeps.refl _ _
  clear_value x2
  refine AnswerKeeps.next ?_
  refine Keeps.step (keeps_unitFault _ _ _) rfl ?_
  refine Keeps.step (keeps_count _ _) rfl ?_
  exact h2

theorem keeps_execAlarm (code : Nat) (s : State) :
    AnswerKeeps (andBell [.frames, .halves, .keks, .lock, .rings]) s (execAlarm code s) := by
  unfold execAlarm
  refine AnswerKeeps.next ?_
  refine Keeps.ite ?_ ?_
  · exact Keeps.refl _ _
  · refine Keeps.step (keeps_eraseKeys _ _) rfl ?_
    exact Keeps.refl _ _

theorem keeps_execZeroize (c : CmdEntry) (s : State) :
    AnswerKeeps (andBell [.frames, .halves, .keks, .lock, .rings]) s (execZeroize c s) := by
  unfold execZeroize
  refine AnswerKeeps.next ?_
  refine Keeps.trans ?_ (keeps_startCommand _ _ _ _ (fun u1 => ?_) rfl)
  · exact Keeps.refl _ _
  · refine Keeps.ite ?_ ?_
    · refine Keeps.step (keeps_endCmd _ _ _ _ _) rfl ?_
      refine Keeps.step (keeps_eraseKeys _ _) rfl ?_
      exact Keeps.refl _ _
    · refine Keeps.step (keeps_endCmd _ _ _ _ _) rfl ?_
      exact Keeps.refl _ _

theorem keeps_sealDone (s : State) (j : SealJob) (out : List Byte) :
    Keeps [.ports, .frames, .cells, .storeroom] s (State.sealDone s j out) := by
  unfold State.sealDone
  split
  · lift_lets -underBinder
    intro x1 x2
    have h2 : Keeps [.ports, .frames, .cells, .storeroom] s x2 := by
      refine Keeps.step (keeps_releaseCells _ _) rfl ?_
      refine Keeps.step (keeps_storeData _ _ _) rfl ?_
      exact Keeps.refl _ _
    clear_value x2
    refine Keeps.step (keeps_modCopy _ _ _ _) rfl ?_
    exact h2
  · split
    · exact Keeps.refl _ _
    · refine Keeps.step (keeps_modOpen _ _ _ _) rfl ?_
      refine Keeps.step (keeps_storeData _ _ _) rfl ?_
      exact Keeps.refl _ _

theorem keeps_execSealComplete (lane : Nat) (s : State) :
    AnswerKeeps (andBell [.engines, .ports, .frames, .scriv, .halves, .lock, .cells, .storeroom, .srcs, .tink]) s (execSealComplete lane s) := by
  unfold execSealComplete
  refine AnswerKeeps.next ?_
  split
  · exact Keeps.refl _ _
  · lift_lets -underBinder
    intro x1 x2
    have h2 : Keeps (andBell   [.engines, .ports, .frames, .scriv, .halves, .lock, .cells, .storeroom, .srcs,     .tink]) s x2 := by
      refine Keeps.with_lock ?_ ?_ ?_ ?_
      · exact .inl rfl
      · exact .inr ⟨rfl, rfl, rfl⟩
      · exact .inl rfl
      · exact Keeps.refl _ _
    clear_value x2
    intro x3
    have h3 : Keeps (andBell   [.engines, .ports, .frames, .scriv, .halves, .lock, .cells, .storeroom, .srcs,     .tink]) s x3 := by
      unfold x3
      split
      · split
        · refine Keeps.step (keeps_dropZombie _ _ _) rfl ?_
          exact h2
        · refine Keeps.step (keeps_releaseCells _ _) rfl ?_
          exact h2
      · refine Keeps.ite ?_ ?_
        · refine Keeps.step (keeps_sealFail _ _ _ _) rfl ?_
          refine Keeps.step (keeps_releaseCells _ _) rfl ?_
          exact h2
        · refine Keeps.step (keeps_sealDone _ _ _) rfl ?_
          refine Keeps.step (keeps_count _ _) rfl ?_
          refine Keeps.step (keeps_useHalf _ _ _) rfl ?_
          exact h2
    clear_value x3
    refine Keeps.step (keeps_tinkSettle _) rfl ?_
    exact h3

theorem keeps_execSealFArrival (fid : Nat) (s : State) :
    AnswerKeeps [.frames] s (execSealFArrival fid s) := by
  unfold execSealFArrival
  refine AnswerKeeps.next ?_
  split
  · exact Keeps.refl _ _
  · refine Keeps.ite ?_ ?_
    · exact Keeps.refl _ _
    · lift_lets -underBinder
      intro x1
      split
      · lift_lets -underBinder
        intro x2
        refine Keeps.step (keeps_setFrame _ _ _) rfl ?_
        exact Keeps.refl _ _
      · refine Keeps.step (keeps_setFrame _ _ _) rfl ?_
        exact Keeps.refl _ _

theorem keeps_execKek0Derive (s : State) :
    AnswerKeeps [.keks] s (execKek0Derive s) := by
  unfold execKek0Derive
  lift_lets -underBinder
  intro x1
  refine AnswerKeeps.next ?_
  refine Keeps.ite ?_ ?_
  · refine Keeps.with_lock ?_ ?_ ?_ ?_
    · exact .inr rfl
    · exact .inl rfl
    · exact .inr rfl
    · exact Keeps.refl _ _
  · exact Keeps.refl _ _

theorem keeps_execKeySwap (c : CmdEntry) (s : State) :
    AnswerKeeps (andBell [.lock, .rings]) s (execKeySwap c s) := by
  unfold execKeySwap
  lift_lets -underBinder
  intro x1
  refine AnswerKeeps.next ?_
  refine Keeps.trans ?_ (keeps_startKey _ _ _ _ _ _ (fun u2 => ?_) rfl)
  · exact Keeps.refl _ _
  · lift_lets -underBinder
    intro x3
    refine Keeps.with_lock ?_ ?_ ?_ ?_
    · exact .inr rfl
    · exact .inr ⟨rfl, rfl, rfl⟩
    · exact .inl rfl
    · exact Keeps.refl _ _

theorem keeps_execKeyClear (c : CmdEntry) (s : State) :
    AnswerKeeps (andBell [.halves, .lock, .rings]) s (execKeyClear c s) := by
  unfold execKeyClear
  lift_lets -underBinder
  intro x1
  refine AnswerKeeps.next ?_
  refine Keeps.trans ?_ (keeps_startKey _ _ _ _ _ _ (fun u2 => ?_) rfl)
  · exact Keeps.refl _ _
  · refine Keeps.step (keeps_writeNext _ _ _ _ _) rfl ?_
    exact Keeps.refl _ _

/-! ## Machine/Lifecycle.lean -/

theorem keeps_setLcResult (s : State) (r : Nat) :
    Keeps [.lifecycle] s (State.setLcResult s r) := by
  unfold State.setLcResult
  lift_lets -underBinder
  intro x1
  refine Keeps.with_sys ?_ ?_ ?_ ?_ ?_ ?_ ?_ ?_ ?_
  · (refine .inr ?_; and_intros <;> rfl)
  · (refine .inr ?_; and_intros <;> rfl)
  · exact .inl rfl
  · (refine .inr ?_; and_intros <;> rfl)
  · (refine .inr ?_; and_intros <;> rfl)
  · exact .inr ⟨rfl, rfl⟩
  · exact .inr rfl
  · exact .inr ⟨rfl, rfl⟩
  · exact Keeps.refl _ _

theorem keeps_programFuses (s : State) (t : Nat) :
    Keeps (andBell [.frames, .halves, .keks, .lock, .rings, .fuses, .lifecycle]) s (State.programFuses s t) := by
  unfold State.programFuses
  refine Keeps.ite ?_ ?_
  · lift_lets -underBinder
    intro x1
    refine Keeps.with_sys ?_ ?_ ?_ ?_ ?_ ?_ ?_ ?_ ?_
    · (refine .inr ?_; and_intros <;> rfl)
    · exact .inl rfl
    · exact .inl rfl
    · (refine .inr ?_; and_intros <;> rfl)
    · (refine .inr ?_; and_intros <;> rfl)
    · exact .inr ⟨rfl, rfl⟩
    · exact .inr rfl
    · exact .inr ⟨rfl, rfl⟩
    · exact Keeps.refl _ _
  · lift_lets -underBinder
    intro x2 x3
    refine Keeps.step (keeps_eraseKeys _ _) rfl ?_
    refine Keeps.with_lock_sys ?_ ?_ ?_ ?_ ?_ ?_ ?_ ?_ ?_ ?_ ?_ ?_
    · exact .inl rfl
    · exact .inl rfl
    · exact .inl rfl
    · (refine .inr ?_; and_intros <;> rfl)
    · exact .inl rfl
    · exact .inl rfl
    · (refine .inr ?_; and_intros <;> rfl)
    · (refine .inr ?_; and_intros <;> rfl)
    · exact .inr ⟨rfl, rfl⟩
    · exact .inr rfl
    · exact .inr ⟨rfl, rfl⟩
    · exact Keeps.refl _ _

theorem keeps_lcCmd (s : State) (val : Word) :
    Keeps (andBell [.frames, .halves, .keks, .lock, .rings, .fuses, .lifecycle]) s (State.lcCmd s val) := by
  unfold State.lcCmd
  lift_lets -underBinder
  intro x1
  refine Keeps.ite ?_ ?_
  · exact Keeps.refl _ _
  · refine Keeps.ite ?_ ?_
    · refine Keeps.step (keeps_count _ _) rfl ?_
      exact Keeps.refl _ _
    · refine Keeps.ite ?_ ?_
      · refine Keeps.step (keeps_setLcResult _ _) rfl ?_
        exact Keeps.refl _ _
      · refine Keeps.ite ?_ ?_
        · refine Keeps.step (keeps_setLcResult _ _) rfl ?_
          exact Keeps.refl _ _
        · refine Keeps.ite ?_ ?_
          · refine Keeps.step (keeps_setLcResult _ _) rfl ?_
            exact Keeps.refl _ _
          · refine Keeps.ite ?_ ?_
            · refine Keeps.step (keeps_setLcResult _ _) rfl ?_
              exact Keeps.refl _ _
            · refine Keeps.step (keeps_programFuses _ _) rfl ?_
              exact Keeps.refl _ _

theorem keeps_endSession (s : State) :
    Keeps allButPending s (State.endSession s) := by
  unfold State.endSession
  refine Keeps.ite ?_ ?_
  · refine Keeps.step (keeps_deviceReset _ _ _) rfl ?_
    exact Keeps.refl _ _
  · lift_lets -underBinder
    intro x1
    refine Keeps.with_sys ?_ ?_ ?_ ?_ ?_ ?_ ?_ ?_ ?_
    · exact .inl rfl
    · exact .inl rfl
    · exact .inl rfl
    · exact .inl rfl
    · exact .inl rfl
    · exact .inl rfl
    · exact .inl rfl
    · exact .inl rfl
    · exact Keeps.refl _ _

theorem keeps_openSession (s : State) (level : Nat) (auth : Bool) (key : Nat) :
    Keeps (andBell [.ports, .frames, .halves, .keks, .lock, .rings, .cells, .debug]) s (State.openSession s level auth key) := by
  unfold State.openSession
  lift_lets -underBinder
  intro x1
  have h1 : Keeps (andBell [.ports, .frames, .halves, .keks, .lock, .rings, .cells, .debug]) s x1 := by
    refine Keeps.trans ?_ (keeps_portsStep _ _ _ (fun u2 => ?_) rfl)
    · exact Keeps.refl _ _
    · lift_lets -underBinder
      intro x3
      refine Keeps.with_sys ?_ ?_ ?_ ?_ ?_ ?_ ?_ ?_ ?_
      · (refine .inr ?_; and_intros <;> rfl)
      · (refine .inr ?_; and_intros <;> rfl)
      · (refine .inr ?_; and_intros <;> rfl)
      · exact .inl rfl
      · (refine .inr ?_; and_intros <;> rfl)
      · exact .inr ⟨rfl, rfl⟩
      · exact .inr rfl
      · exact .inr ⟨rfl, rfl⟩
      · exact Keeps.refl _ _
  clear_value x1
  intro x4
  refine Keeps.ite ?_ ?_
  · refine Keeps.step (keeps_eraseKeys _ _) rfl ?_
    refine Keeps.with_lock ?_ ?_ ?_ ?_
    · exact .inl rfl
    · exact .inl rfl
    · exact .inl rfl
    · exact h1
  · exact h1

theorem keeps_setIr (s : State) (op : Nat) :
    Keeps [.debug] s (State.setIr s op) := by
  unfold State.setIr
  lift_lets -underBinder
  intro x1
  refine Keeps.with_sys ?_ ?_ ?_ ?_ ?_ ?_ ?_ ?_ ?_
  · (refine .inr ?_; and_intros <;> rfl)
  · (refine .inr ?_; and_intros <;> rfl)
  · (refine .inr ?_; and_intros <;> rfl)
  · exact .inl rfl
  · (refine .inr ?_; and_intros <;> rfl)
  · exact .inr ⟨rfl, rfl⟩
  · exact .inr rfl
  · exact .inr ⟨rfl, rfl⟩
  · exact Keeps.refl _ _

theorem keeps_debugData (s : State) (addr : Nat) :
    Keeps [.free, .out] s (State.debugData s addr) := by
  unfold State.debugData
  refine Keeps.step (keeps_emit _ _) rfl ?_
  refine Keeps.with_free ?_ ?_
  · exact rfl
  · exact Keeps.refl _ _

theorem keeps_execDbgAccess (op : DbgOp) (s : State) :
    AnswerKeeps [.debug, .free, .out] s (execDbgAccess op s) := by
  unfold execDbgAccess
  lift_lets -underBinder
  intro x1
  have h1 : Keeps [.debug, .free, .out] s x1 := by
    refine Keeps.step (keeps_setIr _ _) rfl ?_
    exact Keeps.refl _ _
  clear_value x1
  refine AnswerKeeps.next ?_
  refine Keeps.ite ?_ ?_
  · refine Keeps.ite ?_ ?_
    · exact h1
    · split
      · refine Keeps.step (keeps_debugData _ _) rfl ?_
        exact h1
      · refine Keeps.step (keeps_debugData _ _) rfl ?_
        exact h1
      · lift_lets -underBinder
        intro x2
        refine Keeps.with_sys ?_ ?_ ?_ ?_ ?_ ?_ ?_ ?_ ?_
        · (refine .inr ?_; and_intros <;> rfl)
        · (refine .inr ?_; and_intros <;> rfl)
        · (refine .inr ?_; and_intros <;> rfl)
        · exact .inl rfl
        · (refine .inr ?_; and_intros <;> rfl)
        · exact .inr ⟨rfl, rfl⟩
        · exact .inr rfl
        · exact .inr ⟨rfl, rfl⟩
        · exact h1
      · refine Keeps.ite ?_ ?_
        · refine Keeps.step (keeps_debugData _ _) rfl ?_
          exact h1
        · exact h1
  · exact Keeps.refl _ _

theorem keeps_execBypass (opcode : Nat) (s : State) :
    AnswerKeeps [.debug, .out] s (execBypass opcode s) := by
  unfold execBypass
  refine AnswerKeeps.next ?_
  refine Keeps.ite ?_ ?_
  · refine Keeps.step (keeps_emit _ _) rfl ?_
    refine Keeps.step (keeps_setIr _ _) rfl ?_
    exact Keeps.refl _ _
  · exact Keeps.refl _ _

theorem keeps_samplePins (s : State) :
    Keeps [.free, .out] s (State.samplePins s) := by
  unfold State.samplePins
  refine Keeps.step (keeps_emit _ _) rfl ?_
  refine Keeps.with_free ?_ ?_
  · exact rfl
  · exact Keeps.refl _ _

theorem keeps_execNonceLapse (s : State) :
    AnswerKeeps [.clock, .debug] s (execNonceLapse s) := by
  unfold execNonceLapse
  refine AnswerKeeps.next ?_
  split
  · lift_lets -underBinder
    intro x1
    have h1 : Keeps [.clock, .debug] s x1 := by
      refine Keeps.step (keeps_advanceTo _ _) rfl ?_
      exact Keeps.refl _ _
    clear_value x1
    intro x2
    refine Keeps.with_sys ?_ ?_ ?_ ?_ ?_ ?_ ?_ ?_ ?_
    · (refine .inr ?_; and_intros <;> rfl)
    · (refine .inr ?_; and_intros <;> rfl)
    · (refine .inr ?_; and_intros <;> rfl)
    · exact .inl rfl
    · (refine .inr ?_; and_intros <;> rfl)
    · exact .inr ⟨rfl, rfl⟩
    · exact .inr rfl
    · exact .inr ⟨rfl, rfl⟩
    · exact h1
  · exact Keeps.refl _ _

theorem keeps_authFailed (s : State) :
    Keeps [.counters, .debug] s (State.authFailed s) := by
  unfold State.authFailed
  lift_lets -underBinder
  intro x1 x2
  refine Keeps.step (keeps_count _ _) rfl ?_
  refine Keeps.with_sys ?_ ?_ ?_ ?_ ?_ ?_ ?_ ?_ ?_
  · (refine .inr ?_; and_intros <;> rfl)
  · (refine .inr ?_; and_intros <;> rfl)
  · (refine .inr ?_; and_intros <;> rfl)
  · exact .inl rfl
  · (refine .inr ?_; and_intros <;> rfl)
  · exact .inr ⟨rfl, rfl⟩
  · exact .inr rfl
  · exact .inr ⟨rfl, rfl⟩
  · exact Keeps.refl _ _

theorem keeps_execDebugAuthResult (s : State) :
    AnswerKeeps (andBell [.ports, .frames, .halves, .keks, .lock, .rings, .cells, .debug]) s (execDebugAuthResult s) := by
  unfold execDebugAuthResult
  refine AnswerKeeps.next ?_
  split
  · lift_lets -underBinder
    intro x1 x2
    have h2 : Keeps (andBell [.ports, .frames, .halves, .keks, .lock, .rings, .cells, .debug]) s x2 := by
      refine Keeps.with_sys ?_ ?_ ?_ ?_ ?_ ?_ ?_ ?_ ?_
      · (refine .inr ?_; and_intros <;> rfl)
      · (refine .inr ?_; and_intros <;> rfl)
      · (refine .inr ?_; and_intros <;> rfl)
      · exact .inl rfl
      · (refine .inr ?_; and_intros <;> rfl)
      · exact .inr ⟨rfl, rfl⟩
      · exact .inr rfl
      · exact .inr ⟨rfl, rfl⟩
      · exact Keeps.refl _ _
    clear_value x2
    refine Keeps.ite ?_ ?_
    · refine Keeps.ite ?_ ?_
      · exact h2
      · refine Keeps.step (keeps_openSession _ _ _ _) rfl ?_
        exact h2
    · refine Keeps.step (keeps_authFailed _) rfl ?_
      exact h2
  · exact Keeps.refl _ _

theorem keeps_execLcProgramDone (verified : Bool) (s : State) :
    AnswerKeeps [.power, .fuses, .lifecycle] s (execLcProgramDone verified s) := by
  unfold execLcProgramDone
  refine AnswerKeeps.next ?_
  split
  · lift_lets -underBinder
    intro x1
    refine Keeps.step (keeps_heldTarget _) rfl ?_
    refine Keeps.ite ?_ ?_
    · refine Keeps.with_sys ?_ ?_ ?_ ?_ ?_ ?_ ?_ ?_ ?_
      · exact .inl rfl
      · exact .inl rfl
      · exact .inl rfl
      · (refine .inr ?_; and_intros <;> rfl)
      · (refine .inr ?_; and_intros <;> rfl)
      · exact .inr ⟨rfl, rfl⟩
      · exact .inr rfl
      · exact .inr ⟨rfl, rfl⟩
      · exact Keeps.refl _ _
    · refine Keeps.with_sys ?_ ?_ ?_ ?_ ?_ ?_ ?_ ?_ ?_
      · exact .inl rfl
      · exact .inl rfl
      · exact .inl rfl
      · (refine .inr ?_; and_intros <;> rfl)
      · (refine .inr ?_; and_intros <;> rfl)
      · exact .inr ⟨rfl, rfl⟩
      · exact .inr rfl
      · exact .inr ⟨rfl, rfl⟩
      · exact Keeps.refl _ _
  · exact Keeps.refl _ _

theorem keeps_execSamplePreload (preload : Option Bytes) (s : State) :
    AnswerKeeps [.debug, .free, .out] s (execSamplePreload preload s) := by
  unfold execSamplePreload
  lift_lets -underBinder
  intro x1
  have h1 : Keeps [.debug, .free, .out] s x1 := by
    refine Keeps.step (keeps_samplePins _) rfl ?_
    refine Keeps.step (keeps_setIr _ _) rfl ?_
    exact Keeps.refl _ _
  clear_value x1
  intro x2
  refine AnswerKeeps.next ?_
  refine Keeps.ite ?_ ?_
  · refine Keeps.with_sys ?_ ?_ ?_ ?_ ?_ ?_ ?_ ?_ ?_
    · (refine .inr ?_; and_intros <;> rfl)
    · (refine .inr ?_; and_intros <;> rfl)
    · (refine .inr ?_; and_intros <;> rfl)
    · exact .inl rfl
    · (refine .inr ?_; and_intros <;> rfl)
    · exact .inr ⟨rfl, rfl⟩
    · exact .inr rfl
    · exact .inr ⟨rfl, rfl⟩
    · exact h1
  · exact Keeps.refl _ _

theorem keeps_execTapReset (s : State) :
    AnswerKeeps allButPending s (execTapReset s) := by
  unfold execTapReset
  lift_lets -underBinder
  intro x1
  refine AnswerKeeps.next ?_
  refine Keeps.step (keeps_endSession _) rfl ?_
  refine Keeps.with_sys ?_ ?_ ?_ ?_ ?_ ?_ ?_ ?_ ?_
  · exact .inl rfl
  · exact .inl rfl
  · exact .inl rfl
  · exact .inl rfl
  · exact .inl rfl
  · exact .inl rfl
  · exact .inl rfl
  · exact .inl rfl
  · exact Keeps.refl _ _

theorem keeps_execDbgResp (key : Bytes) (sig : Bytes) (s : State) :
    AnswerKeeps [.debug] s (execDbgResp key sig s) := by
  unfold execDbgResp
  lift_lets -underBinder
  intro x1
  have h1 : Keeps [.debug] s x1 := by
    refine Keeps.step (keeps_setIr _ _) rfl ?_
    exact Keeps.refl _ _
  clear_value x1
  intro x2
  refine AnswerKeeps.next ?_
  refine Keeps.ite ?_ ?_
  · refine Keeps.ite ?_ ?_
    · refine Keeps.with_sys ?_ ?_ ?_ ?_ ?_ ?_ ?_ ?_ ?_
      · (refine .inr ?_; and_intros <;> rfl)
      · (refine .inr ?_; and_intros <;> rfl)
      · (refine .inr ?_; and_intros <;> rfl)
      · exact .inl rfl
      · (refine .inr ?_; and_intros <;> rfl)
      · exact .inr ⟨rfl, rfl⟩
      · exact .inr rfl
      · exact .inr ⟨rfl, rfl⟩
      · exact h1
    · exact h1
  · exact Keeps.refl _ _

theorem keeps_execIdcode (s : State) :
    AnswerKeeps [.debug, .out] s (execIdcode s) := by
  unfold execIdcode
  refine AnswerKeeps.next ?_
  refine Keeps.ite ?_ ?_
  · refine Keeps.step (keeps_emit _ _) rfl ?_
    refine Keeps.step (keeps_setIr _ _) rfl ?_
    exact Keeps.refl _ _
  · exact Keeps.refl _ _

theorem keeps_execExtest (vector : Bytes) (s : State) :
    AnswerKeeps [.debug, .free, .out] s (execExtest vector s) := by
  unfold execExtest
  lift_lets -underBinder
  intro x1
  have h1 : Keeps [.debug, .free, .out] s x1 := by
    refine Keeps.step (keeps_setIr _ _) rfl ?_
    exact Keeps.refl _ _
  clear_value x1
  intro x2
  have h2 : Keeps [.debug, .free, .out] s x2 := by
    refine Keeps.step (keeps_samplePins _) rfl ?_
    exact h1
  clear_value x2
  intro x3
  refine AnswerKeeps.next ?_
  refine Keeps.ite ?_ ?_
  · refine Keeps.ite ?_ ?_
    · refine Keeps.with_sys ?_ ?_ ?_ ?_ ?_ ?_ ?_ ?_ ?_
      · (refine .inr ?_; and_intros <;> rfl)
      · (refine .inr ?_; and_intros <;> rfl)
      · (refine .inr ?_; and_intros <;> rfl)
      · exact .inl rfl
      · (refine .inr ?_; and_intros <;> rfl)
      · exact .inr ⟨rfl, rfl⟩
      · exact .inr rfl
      · exact .inr ⟨rfl, rfl⟩
      · exact h2
    · exact h1
  · exact Keeps.refl _ _

theorem keeps_execDbgChal (request : Nat) (s : State) :
    AnswerKeeps (andBell [.ports, .frames, .halves, .keks, .lock, .rings, .cells, .debug]) s (execDbgChal request s) := by
  unfold execDbgChal
  lift_lets -underBinder
  intro x1 x2 x3
  have h3 : Keeps (andBell [.ports, .frames, .halves, .keks, .lock, .rings, .cells, .debug]) s x3 := by
    refine Keeps.step (keeps_setIr _ _) rfl ?_
    exact Keeps.refl _ _
  clear_value x3
  intro x4 x5
  refine AnswerKeeps.next ?_
  refine Keeps.ite ?_ ?_
  · exact Keeps.refl _ _
  · refine Keeps.ite ?_ ?_
    · exact h3
    · refine Keeps.ite ?_ ?_
      · refine Keeps.step (keeps_openSession _ _ _ _) rfl ?_
        exact h3
      · refine Keeps.ite ?_ ?_
        · refine Keeps.step (keeps_emit _ _) rfl ?_
          refine Keeps.with_sys ?_ ?_ ?_ ?_ ?_ ?_ ?_ ?_ ?_
          · (refine .inr ?_; and_intros <;> rfl)
          · (refine .inr ?_; and_intros <;> rfl)
          · (refine .inr ?_; and_intros <;> rfl)
          · exact .inl rfl
          · (refine .inr ?_; and_intros <;> rfl)
          · exact .inr ⟨rfl, rfl⟩
          · exact .inr rfl
          · exact .inr ⟨rfl, rfl⟩
          · exact h3
        · exact h3

end Sys2Proof.Laws
end

