-- ==== Sys2Proof/Laws/FramesControl.lean ====
section
/-! SUPPORT. Frames of the Watchman, the Crier, the Scrivener, images, the fabric, epochs, time, register writes and loads:
the parts of the state that each operation may change. -/

namespace Sys2Proof.Laws

open Sys2Proof.Machine Sys2Proof.Safety

/-! ## Machine/Watchman.lean -/

theorem keeps_forceCmd (s : State) (val : Word) :
    Keeps (faultParts ++ [.records, .cellar]) s (State.forceCmd s val) := by
  unfold State.forceCmd
  lift_lets -underBinder
  intro x1
  refine Keeps.ite ?_ ?_
  · refine Keeps.step (keeps_count _ _) rfl ?_
    exact Keeps.refl _ _
  · refine Keeps.ite ?_ ?_
    · refine Keeps.step (keeps_forceRec _ _ _) rfl ?_
      exact Keeps.refl _ _
    · refine Keeps.ite ?_ ?_
      · refine Keeps.step (keeps_releaseRec _ _) rfl ?_
        exact Keeps.refl _ _
      · exact Keeps.refl _ _

theorem keeps_captureWatch (s : State) (w : Nat) :
    Keeps [.watch] s (State.captureWatch s w) := by
  unfold State.captureWatch
  lift_lets -underBinder
  intro x1 x2 x3 x4 x5 x6 x7
  refine Keeps.with_watch ?_ ?_ ?_ ?_
  · exact .inr ⟨rfl, rfl⟩
  · exact .inr rfl
  · exact .inl rfl
  · exact Keeps.refl _ _

theorem keeps_refresh (s : State) (f : Machine.Frame) (w : Nat) :
    Keeps [.counters, .watch] s (State.refresh s f w) := by
  unfold State.refresh
  refine Keeps.ite ?_ ?_
  · exact Keeps.refl _ _
  · lift_lets -underBinder
    intro x1
    have h1 : Keeps [.counters, .watch] s x1 := by
      refine Keeps.step (keeps_modWatch _ _ _) rfl ?_
      refine Keeps.step (keeps_checkIndex _ _) rfl ?_
      exact Keeps.refl _ _
    clear_value x1
    intro x2 x3 x4 x5
    have h5 : Keeps [.counters, .watch] s x5 := by
      refine Keeps.step (keeps_modWatch _ _ _) rfl ?_
      exact h1
    clear_value x5
    intro x6
    have h6 : Keeps [.counters, .watch] s x6 := by
      refine Keeps.step (keeps_count _ _) rfl ?_
      exact h5
    clear_value x6
    intro x7
    have h7 : Keeps [.counters, .watch] s x7 := by
      refine Keeps.ite ?_ ?_
      · exact h6
      · refine Keeps.step (keeps_count _ _) rfl ?_
        refine Keeps.step (keeps_modWatch _ _ _) rfl ?_
        exact h6
    clear_value x7
    refine Keeps.ite ?_ ?_
    · refine Keeps.step (keeps_count _ _) rfl ?_
      refine Keeps.step (keeps_startWalk _ _ _ _ _ _) rfl ?_
      exact h1
    · refine Keeps.ite ?_ ?_
      · refine Keeps.ite ?_ ?_
        · exact h7
        · refine Keeps.step (keeps_startWalk _ _ _ _ _ _) rfl ?_
          exact h7
      · refine Keeps.ite ?_ ?_
        · refine Keeps.step (keeps_startWalk _ _ _ _ _ _) rfl ?_
          exact h5
        · refine Keeps.ite ?_ ?_
          · exact h5
          · refine Keeps.step (keeps_modWatch _ _ _) rfl ?_
            exact h5

theorem keeps_visitWatch (s : State) (w : Nat) :
    Keeps [.counters, .watch] s (State.visitWatch s w) := by
  unfold State.visitWatch
  lift_lets -underBinder
  intro x1
  have h1 : Keeps [.counters, .watch] s x1 := by
    refine Keeps.step (keeps_checkIndex _ _) rfl ?_
    exact Keeps.refl _ _
  clear_value x1
  intro x2 x3
  have h3 : Keeps [.counters, .watch] s x3 := by
    refine Keeps.step (keeps_modWatch _ _ _) rfl ?_
    exact h1
  clear_value x3
  refine Keeps.ite ?_ ?_
  · refine Keeps.step (keeps_turnStale _ _ _) rfl ?_
    exact h3
  · exact h3

theorem keeps_watchEcc (s : State) (w : Nat) :
    Keeps faultParts s (State.watchEcc s w) := by
  unfold State.watchEcc
  refine Keeps.step (keeps_unitFault _ _ _) rfl ?_
  refine Keeps.step (keeps_count _ _) rfl ?_
  refine Keeps.step (keeps_retireWatch _ _ _) rfl ?_
  refine Keeps.step (keeps_checkIndex _ _) rfl ?_
  exact Keeps.refl _ _

theorem keeps_execSweepVisit (eccBad : List Nat) (s : State) :
    AnswerKeeps faultParts s (execSweepVisit eccBad s) := by
  unfold execSweepVisit
  lift_lets -underBinder
  intro x1 x2
  have h2 : Keeps (faultParts) s x2 := by
    refine Keeps.foldl (fun u3 y4 => ?_) ?_
    · lift_lets -underBinder
      intro x5 x6
      have h6 : Keeps (faultParts) u3 x6 := by
        refine Keeps.ite ?_ ?_
        · refine Keeps.step (keeps_watchEcc _ _) rfl ?_
          exact Keeps.refl _ _
        · exact Keeps.refl _ _
      clear_value x6
      refine Keeps.step (keeps_visitWatch _ _) rfl ?_
      exact h6
    · exact Keeps.refl _ _
  clear_value x2
  intro x7
  refine AnswerKeeps.next ?_
  refine Keeps.ite ?_ ?_
  · exact Keeps.refl _ _
  · refine Keeps.with_watch ?_ ?_ ?_ ?_
    · exact .inl rfl
    · exact .inl rfl
    · exact .inl rfl
    · exact h2

theorem keeps_walkEnd (s : State) (w : Nat) :
    Keeps [.counters, .watch] s (State.walkEnd s w) := by
  unfold State.walkEnd
  refine Keeps.ite ?_ ?_
  · exact Keeps.refl _ _
  · lift_lets -underBinder
    intro x1
    split
    · refine Keeps.step (keeps_modWatch _ _ _) rfl ?_
      exact Keeps.refl _ _
    · refine Keeps.ite ?_ ?_
      · refine Keeps.step (keeps_modWatch _ _ _) rfl ?_
        exact Keeps.refl _ _
      · refine Keeps.ite ?_ ?_
        · refine Keeps.step (keeps_turnStale _ _ _) rfl ?_
          exact Keeps.refl _ _
        · refine Keeps.ite ?_ ?_
          · refine Keeps.step (keeps_modWatch _ _ _) rfl ?_
            exact Keeps.refl _ _
          · exact Keeps.refl _ _

theorem keeps_execSweepStall (s : State) :
    AnswerKeeps (faultParts ++ [.clock]) s (execSweepStall s) := by
  unfold execSweepStall
  lift_lets -underBinder
  intro x1
  have h1 : Keeps (faultParts ++ [.clock]) s x1 := by
    refine Keeps.step (keeps_advanceTo _ _) rfl ?_
    exact Keeps.refl _ _
  clear_value x1
  intro x2
  refine AnswerKeeps.next ?_
  refine Keeps.ite ?_ ?_
  · exact Keeps.refl _ _
  · refine Keeps.step (keeps_unitFault _ _ _) rfl ?_
    refine Keeps.with_watch ?_ ?_ ?_ ?_
    · exact .inl rfl
    · exact .inl rfl
    · exact .inl rfl
    · exact h1

theorem keeps_execSweepComplete (s : State) :
    AnswerKeeps [.watch] s (execSweepComplete s) := by
  unfold execSweepComplete
  lift_lets -underBinder
  intro x1
  refine AnswerKeeps.next ?_
  refine Keeps.ite ?_ ?_
  · exact Keeps.refl _ _
  · refine Keeps.with_watch ?_ ?_ ?_ ?_
    · exact .inr ⟨rfl, rfl⟩
    · exact .inr rfl
    · exact .inl rfl
    · exact Keeps.refl _ _

theorem keeps_execWalkOp (s : State) :
    AnswerKeeps (faultParts ++ [.records, .cellar]) s (execWalkOp s) := by
  unfold execWalkOp
  refine AnswerKeeps.next ?_
  split
  · exact Keeps.refl _ _
  · refine Keeps.ite ?_ ?_
    · exact Keeps.refl _ _
    · lift_lets -underBinder
      intro x1 x2
      have h2 : Keeps (faultParts ++ [.records, .cellar]) s x2 := by
        refine Keeps.ite ?_ ?_
        · refine Keeps.step (keeps_walkRecord _ _ _) rfl ?_
          exact Keeps.refl _ _
        · exact Keeps.refl _ _
      clear_value x2
      intro x3
      refine Keeps.ite ?_ ?_
      · refine Keeps.with_watch ?_ ?_ ?_ ?_
        · exact .inl rfl
        · exact .inl rfl
        · exact .inl rfl
        · exact h2
      · refine Keeps.step (keeps_walkEnd _ _) rfl ?_
        refine Keeps.with_watch ?_ ?_ ?_ ?_
        · exact .inl rfl
        · exact .inl rfl
        · exact .inl rfl
        · exact h2

/-! ## Machine/Crier.lean -/

theorem keeps_modSub (s : State) (i : Nat) (f : Sub → Sub) :
    Keeps [.subs] s (State.modSub s i f) := by
  unfold State.modSub
  lift_lets -underBinder
  intro x1
  refine Keeps.with_crier ?_ ?_ ?_ ?_
  · exact .inl rfl
  · exact .inr ⟨rfl, rfl⟩
  · exact .inr rfl
  · exact Keeps.refl _ _

theorem keeps_subGrow (s : State) (i : Nat) :
    Keeps [.subs] s (State.subGrow s i) := by
  unfold State.subGrow
  lift_lets -underBinder
  intro x1
  refine Keeps.ite ?_ ?_
  · exact Keeps.refl _ _
  · refine Keeps.ite ?_ ?_
    · refine Keeps.step (keeps_modSub _ _ _) rfl ?_
      exact Keeps.refl _ _
    · refine Keeps.step (keeps_modSub _ _ _) rfl ?_
      exact Keeps.refl _ _

theorem keeps_mapCommit (s : State) :
    Keeps [.subs, .bitmaps] s (State.mapCommit s) := by
  unfold State.mapCommit
  lift_lets -underBinder
  intro x1 x2 x3 x4
  have h4 : Keeps [.subs, .bitmaps] s x4 := by
    refine Keeps.with_crier ?_ ?_ ?_ ?_
    · exact .inl rfl
    · exact .inl rfl
    · exact .inr rfl
    · exact Keeps.refl _ _
  clear_value x4
  refine Keeps.foldl (fun u5 y6 => ?_) ?_
  · refine Keeps.step (keeps_subGrow _ _) rfl ?_
    exact Keeps.refl _ _
  · exact h4

theorem keeps_subBegin (s : State) (i : Nat) (first : Word) :
    Keeps [.subs] s (State.subBegin s i first) := by
  unfold State.subBegin
  refine Keeps.step (keeps_modSub _ _ _) rfl ?_
  exact Keeps.refl _ _

theorem keeps_subStopped (s : State) (i : Nat) :
    Keeps [.subs] s (State.subStopped s i) := by
  unfold State.subStopped
  refine Keeps.ite ?_ ?_
  · refine Keeps.step (keeps_subBegin _ _ _) rfl ?_
    exact Keeps.refl _ _
  · refine Keeps.step (keeps_modSub _ _ _) rfl ?_
    exact Keeps.refl _ _

theorem keeps_subCommit (s : State) (i : Nat) :
    Keeps [.counters, .subs] s (State.subCommit s i) := by
  unfold State.subCommit
  refine Keeps.ite ?_ ?_
  · split
    · refine Keeps.step (keeps_subBegin _ _ _) rfl ?_
      exact Keeps.refl _ _
    · refine Keeps.step (keeps_modSub _ _ _) rfl ?_
      exact Keeps.refl _ _
    · exact Keeps.refl _ _
    · exact Keeps.refl _ _
  · split
    · exact Keeps.refl _ _
    · refine Keeps.step (keeps_subStopped _ _) rfl ?_
      exact Keeps.refl _ _
    · refine Keeps.step (keeps_modSub _ _ _) rfl ?_
      exact Keeps.refl _ _
    · refine Keeps.ite ?_ ?_
      · refine Keeps.step (keeps_modSub _ _ _) rfl ?_
        exact Keeps.refl _ _
      · refine Keeps.step (keeps_subStopped _ _) rfl ?_
        refine Keeps.step (keeps_countIf _ _ _) rfl ?_
        exact Keeps.refl _ _

theorem keeps_subLose (s : State) (i : Nat) (reason : Nat) :
    Keeps (andBell [.subs]) s (State.subLose s i reason) := by
  unfold State.subLose
  lift_lets -underBinder
  intro x1
  have h1 : Keeps (andBell [.subs]) s x1 := by
    refine Keeps.step (keeps_modSub _ _ _) rfl ?_
    exact Keeps.refl _ _
  clear_value x1
  intro x2
  have h2 : Keeps (andBell [.subs]) s x2 := by
    refine Keeps.step (keeps_raise _ _) rfl ?_
    refine Keeps.step (keeps_count _ _) rfl ?_
    exact h1
  clear_value x2
  refine Keeps.ite ?_ ?_
  · refine Keeps.step (keeps_subStopped _ _) rfl ?_
    refine Keeps.step (keeps_count _ _) rfl ?_
    exact h2
  · exact h2

theorem keeps_crierCut (s : State) :
    Keeps (andBell [.watch, .subs, .crier]) s (State.crierCut s) := by
  unfold State.crierCut
  lift_lets -underBinder
  intro x1
  have h1 : Keeps (andBell [.watch, .subs, .crier]) s x1 := by
    refine Keeps.foldl (fun u2 y3 => ?_) ?_
    · refine Keeps.ite ?_ ?_
      · refine Keeps.step (keeps_subLose _ _ _) rfl ?_
        exact Keeps.refl _ _
      · exact Keeps.refl _ _
    · exact Keeps.refl _ _
  clear_value x1
  intro x4 x5
  refine Keeps.with_watch_crier ?_ ?_ ?_ ?_ ?_ ?_ ?_
  · exact .inr ⟨rfl, rfl⟩
  · exact .inr rfl
  · exact .inl rfl
  · exact .inl rfl
  · exact .inr ⟨rfl, rfl⟩
  · exact .inl rfl
  · exact h1

theorem keeps_noteSent (s : State) (e : Ep) :
    Keeps [.crier] s (State.noteSent s e) := by
  unfold State.noteSent
  split
  · lift_lets -underBinder
    intro x1
    refine Keeps.with_crier ?_ ?_ ?_ ?_
    · exact .inr rfl
    · exact .inr ⟨rfl, rfl⟩
    · exact .inl rfl
    · exact Keeps.refl _ _
  · lift_lets -underBinder
    intro x2
    refine Keeps.with_crier ?_ ?_ ?_ ?_
    · exact .inr rfl
    · exact .inr ⟨rfl, rfl⟩
    · exact .inl rfl
    · exact Keeps.refl _ _

theorem keeps_subWrite (s : State) (i : Nat) (counters : List Nat) (w0 : Word) (rest : List Word) :
    Keeps (andBell [.subs, .crier, .rings]) s (State.subWrite s i counters w0 rest) := by
  unfold State.subWrite
  refine Keeps.ite ?_ ?_
  · exact Keeps.refl _ _
  · refine Keeps.ite ?_ ?_
    · refine Keeps.step (keeps_subLose _ _ _) rfl ?_
      exact Keeps.refl _ _
    · refine Keeps.ite ?_ ?_
      · refine Keeps.step (keeps_subLose _ _ _) rfl ?_
        exact Keeps.refl _ _
      · refine Keeps.ite ?_ ?_
        · refine Keeps.step (keeps_subLose _ _ _) rfl ?_
          exact Keeps.refl _ _
        · refine Keeps.step (keeps_ringWrite _ _ _ _ _) rfl ?_
          refine Keeps.step (keeps_noteSent _ _) rfl ?_
          refine Keeps.foldl (fun u1 y2 => ?_) ?_
          · refine Keeps.step (keeps_count _ _) rfl ?_
            exact Keeps.refl _ _
          · exact Keeps.refl _ _

theorem keeps_subEntry (s : State) (i : Nat) (counters : List Nat) (xs : List Word) :
    Keeps (andBell [.subs, .crier, .rings]) s (State.subEntry s i counters xs) := by
  unfold State.subEntry
  split
  · exact Keeps.refl _ _
  · refine Keeps.step (keeps_subWrite _ _ _ _ _) rfl ?_
    exact Keeps.refl _ _

theorem keeps_openSet (s : State) (i : Nat) (reason : Nat) (n : Word) :
    Keeps (andBell [.subs, .crier, .rings]) s (State.openSet s i reason n) := by
  unfold State.openSet
  lift_lets -underBinder
  intro x1 x2
  have h2 : Keeps (andBell [.subs, .crier, .rings]) s x2 := by
    refine Keeps.step (keeps_modSub _ _ _) rfl ?_
    exact Keeps.refl _ _
  clear_value x2
  refine Keeps.step (keeps_subEntry _ _ _ _) rfl ?_
  exact h2

theorem keeps_publishRing (s : State) (info : CloseInfo) (groups : List (Nat × Nat)) (changes : List (Nat × Rec)) (i : Nat) :
    Keeps (andBell [.subs, .crier, .rings]) s (State.publishRing s info groups changes i) := by
  unfold State.publishRing
  lift_lets -underBinder
  intro x1 x2
  have h2 : Keeps (andBell [.subs, .crier, .rings]) s x2 := by
    refine Keeps.step (keeps_modSub _ _ _) rfl ?_
    exact Keeps.refl _ _
  clear_value x2
  intro x3 x4
  have h4 : Keeps (andBell [.subs, .crier, .rings]) s x4 := by
    refine Keeps.ite ?_ ?_
    · refine Keeps.step (keeps_count _ _) rfl ?_
      exact h2
    · exact h2
  clear_value x4
  intro x5 x6
  have h6 : Keeps (andBell [.subs, .crier, .rings]) s x6 := by
    unfold x6
    clear_value x5
    split
    · refine Keeps.step (keeps_openSet _ _ _ _) rfl ?_
      exact h4
    · exact h4
  clear_value x6
  intro x7
  have h7 : Keeps (andBell [.subs, .crier, .rings]) s x7 := by
    refine Keeps.foldl (fun u8 y9 => ?_) ?_
    · refine Keeps.step (keeps_subEntry _ _ _ _) rfl ?_
      exact Keeps.refl _ _
    · exact h6
  clear_value x7
  intro x10
  have h10 : Keeps (andBell [.subs, .crier, .rings]) s x10 := by
    refine Keeps.foldl (fun u11 y12 => ?_) ?_
    · refine Keeps.step (keeps_subEntry _ _ _ _) rfl ?_
      exact Keeps.refl _ _
    · exact h7
  clear_value x10
  intro x13
  refine Keeps.ite ?_ ?_
  · refine Keeps.step (keeps_modSub _ _ _) rfl ?_
    exact h10
  · exact h4

theorem keeps_noteInit (s : State) (e : Ep) :
    Keeps [.crier] s (State.noteInit s e) := by
  unfold State.noteInit
  split
  · lift_lets -underBinder
    intro x1
    refine Keeps.with_crier ?_ ?_ ?_ ?_
    · exact .inr rfl
    · exact .inr ⟨rfl, rfl⟩
    · exact .inl rfl
    · exact Keeps.refl _ _
  · lift_lets -underBinder
    intro x2
    refine Keeps.with_crier ?_ ?_ ?_ ?_
    · exact .inr rfl
    · exact .inr ⟨rfl, rfl⟩
    · exact .inl rfl
    · exact Keeps.refl _ _

theorem keeps_initEntry (s : State) (i : Nat) (n : Word) (c : Nat) :
    Keeps (andBell [.records, .scriv, .subs, .crier, .rings]) s (State.initEntry s i n c) := by
  unfold State.initEntry
  refine Keeps.ite ?_ ?_
  · exact Keeps.refl _ _
  · refine Keeps.ite ?_ ?_
    · refine Keeps.step (keeps_subEntry _ _ _ _) rfl ?_
      refine Keeps.step (keeps_noteInit _ _) rfl ?_
      exact Keeps.refl _ _
    · lift_lets -underBinder
      intro x1 x2
      have h2 : Keeps (andBell [.records, .scriv, .subs, .crier, .rings]) s x2 := by
        refine Keeps.step (keeps_noteInit _ _) rfl ?_
        refine Keeps.step (keeps_crierRead _ _) rfl ?_
        exact Keeps.refl _ _
      clear_value x2
      refine Keeps.step (keeps_subEntry _ _ _ _) rfl ?_
      exact h2

theorem keeps_runCursor (s : State) (i : Nat) (n : Word) (limit : Option Nat) :
    Keeps (andBell [.records, .scriv, .subs, .crier, .rings]) s (State.runCursor s i n limit) := by
  unfold State.runCursor
  lift_lets -underBinder
  intro x1 x2 x3 x4 x5 x6
  have h6 : Keeps (andBell [.records, .scriv, .subs, .crier, .rings]) s x6 := by
    refine Keeps.foldl (fun u7 y8 => ?_) ?_
    · refine Keeps.step (keeps_initEntry _ _ _ _) rfl ?_
      exact Keeps.refl _ _
    · exact Keeps.refl _ _
  clear_value x6
  refine Keeps.ite ?_ ?_
  · exact Keeps.refl _ _
  · refine Keeps.ite ?_ ?_
    · refine Keeps.step (keeps_modSub _ _ _) rfl ?_
      exact h6
    · refine Keeps.step (keeps_modSub _ _ _) rfl ?_
      exact h6

theorem keeps_publish (s : State) (info : CloseInfo) (limit : Option Nat) :
    Keeps (andBell [.records, .scriv, .subs, .crier, .rings]) s (State.publish s info limit) := by
  unfold State.publish
  refine Keeps.ite ?_ ?_
  · exact Keeps.refl _ _
  · lift_lets -underBinder
    intro x1
    have h1 : Keeps (andBell [.records, .scriv, .subs, .crier, .rings]) s x1 := by
      refine Keeps.step (keeps_crierTake _ _) rfl ?_
      exact Keeps.refl _ _
    clear_value x1
    intro x2 x3 x4 x5
    have h5 : Keeps (andBell [.records, .scriv, .subs, .crier, .rings]) s x5 := by
      refine Keeps.with_crier ?_ ?_ ?_ ?_
      · exact .inl rfl
      · exact .inr ⟨rfl, rfl⟩
      · exact .inl rfl
      · exact h1
    clear_value x5
    intro x6
    have h6 : Keeps (andBell [.records, .scriv, .subs, .crier, .rings]) s x6 := by
      refine Keeps.foldl (fun u7 y8 => ?_) ?_
      · refine Keeps.step (keeps_publishRing _ _ _ _ _) rfl ?_
        exact Keeps.refl _ _
      · exact h5
    clear_value x6
    refine Keeps.foldl (fun u9 y10 => ?_) ?_
    · refine Keeps.ite ?_ ?_
      · refine Keeps.step (keeps_runCursor _ _ _ _) rfl ?_
        exact Keeps.refl _ _
      · exact Keeps.refl _ _
    · exact h6

theorem keeps_stageWords (s : State) (i : Nat) (op : Nat) (w : Nat) (ws : List Word) :
    Keeps [.bitmaps] s (State.stageWords s i op w ws) := by
  induction ws generalizing s w with
  | nil => exact Keeps.refl _ _
  | cons v vs ih =>
    refine Keeps.step (ih _ _) rfl (Keeps.with_crier (.inr rfl) (.inl rfl) (.inr rfl) (Keeps.refl _ _))

theorem keeps_execSubscribe (c : CmdEntry) (words : Option (List Word)) (s : State) :
    AnswerKeeps (andBell [.bitmaps, .lock, .rings]) s (execSubscribe c words s) := by
  unfold execSubscribe
  lift_lets -underBinder
  intro x1 x2 x3 x4
  refine AnswerKeeps.next ?_
  refine Keeps.trans ?_ (keeps_startCommand _ _ _ _ (fun u5 => ?_) rfl)
  · exact Keeps.refl _ _
  · refine Keeps.ite ?_ ?_
    · refine Keeps.step (keeps_endCmd _ _ _ _ _) rfl ?_
      exact Keeps.refl _ _
    · split
      · refine Keeps.step (keeps_endCmd _ _ _ _ _) rfl ?_
        refine Keeps.step (keeps_memError _ _ _) rfl ?_
        exact Keeps.refl _ _
      · lift_lets -underBinder
        intro x6 x7 x8
        have h8 : Keeps (andBell [.bitmaps, .lock, .rings]) u5 x8 := by
          refine Keeps.step (keeps_stageWords _ _ _ _ _) rfl ?_
          exact Keeps.refl _ _
        clear_value x8
        refine Keeps.ite ?_ ?_
        · refine Keeps.step (keeps_endCmd _ _ _ _ _) rfl ?_
          refine Keeps.step (keeps_count _ _) rfl ?_
          exact Keeps.refl _ _
        · refine Keeps.step (keeps_endCmd _ _ _ _ _) rfl ?_
          exact h8

theorem keeps_closeRing (s : State) (i : Nat) :
    Keeps (andBell [.subs, .crier, .rings]) s (State.closeRing s i) := by
  unfold State.closeRing
  split
  · exact Keeps.refl _ _
  · lift_lets -underBinder
    intro x1 x2
    have h2 : Keeps (andBell [.subs, .crier, .rings]) s x2 := by
      refine Keeps.step (keeps_subWrite _ _ _ _ _) rfl ?_
      exact Keeps.refl _ _
    clear_value x2
    intro x3
    have h3 : Keeps (andBell [.subs, .crier, .rings]) s x3 := by
      refine Keeps.step (keeps_countIf _ _ _) rfl ?_
      exact h2
    clear_value x3
    intro x4
    have h4 : Keeps (andBell [.subs, .crier, .rings]) s x4 := by
      refine Keeps.step (keeps_modSub _ _ _) rfl ?_
      exact h3
    clear_value x4
    refine Keeps.ite ?_ ?_
    · exact h2
    · refine Keeps.ite ?_ ?_
      · refine Keeps.step (keeps_subStopped _ _) rfl ?_
        exact h4
      · exact h4

theorem keeps_execCloseRecord (s : State) :
    AnswerKeeps (andBell [.subs, .crier, .rings]) s (execCloseRecord s) := by
  unfold execCloseRecord
  refine AnswerKeeps.next ?_
  refine Keeps.ite ?_ ?_
  · refine Keeps.foldl (fun u1 y2 => ?_) ?_
    · refine Keeps.step (keeps_closeRing _ _) rfl ?_
      exact Keeps.refl _ _
    · exact Keeps.refl _ _
  · exact Keeps.refl _ _

/-! ## Machine/Scrivener.lean -/

theorem keeps_captureRec (s : State) (i : Nat) :
    Keeps [.counters, .scriv] s (State.captureRec s i) := by
  unfold State.captureRec
  lift_lets -underBinder
  intro x1
  have h1 : Keeps [.counters, .scriv] s x1 := by
    refine Keeps.step (keeps_touchLine _ _) rfl ?_
    exact Keeps.refl _ _
  clear_value x1
  intro x2 x3
  refine Keeps.with_scriv ?_ ?_ ?_ ?_
  · exact .inr rfl
  · exact .inr rfl
  · exact .inl rfl
  · exact h1

theorem keeps_captureHash (s : State) (val : Word) :
    Keeps [.scriv] s (State.captureHash s val) := by
  unfold State.captureHash
  lift_lets -underBinder
  intro x1
  refine Keeps.with_scriv ?_ ?_ ?_ ?_
  · exact .inr rfl
  · exact .inr rfl
  · exact .inl rfl
  · exact Keeps.refl _ _

theorem keeps_endDecode (s : State) (fid : Nat) :
    Keeps [.frames] s (State.endDecode s fid) := by
  unfold State.endDecode
  refine Keeps.step (keeps_settleFrame _ _) rfl ?_
  refine Keeps.step (keeps_modFrame _ _ _) rfl ?_
  exact Keeps.refl _ _

theorem keeps_finishFrame (s : State) (fid : Nat) (f : Machine.Frame) (w : Nat) :
    Keeps [.counters, .frames, .watch] s (State.finishFrame s fid f w) := by
  unfold State.finishFrame
  refine Keeps.ite ?_ ?_
  · refine Keeps.step (keeps_endDecode _ _) rfl ?_
    refine Keeps.step (keeps_count _ _) rfl ?_
    exact Keeps.refl _ _
  · refine Keeps.step (keeps_endDecode _ _) rfl ?_
    refine Keeps.step (keeps_refresh _ _ _) rfl ?_
    refine Keeps.step (keeps_count _ _) rfl ?_
    exact Keeps.refl _ _

theorem keeps_applyResult (s : State) (f : Machine.Frame) (w : Nat) (xs : Result) :
    Keeps (faultParts ++ [.records, .cellar]) s (State.applyResult s f w xs) := by
  unfold State.applyResult
  split
  · refine Keeps.step (keeps_commitResult _ _ _ _ _ _ _) rfl ?_
    exact Keeps.refl _ _
  · refine Keeps.step (keeps_pageCheck _ _ _ _ _ _) rfl ?_
    exact Keeps.refl _ _

theorem keeps_execRecordCommit (fid : Nat) (s : State) :
    AnswerKeeps (faultParts ++ [.records, .cellar]) s (execRecordCommit fid s) := by
  unfold execRecordCommit
  refine AnswerKeeps.next ?_
  split
  · exact Keeps.refl _ _
  · split
    · exact Keeps.refl _ _
    · refine Keeps.ite ?_ ?_
      · exact Keeps.refl _ _
      · refine Keeps.ite ?_ ?_
        · refine Keeps.step (keeps_endDecode _ _) rfl ?_
          refine Keeps.step (keeps_count _ _) rfl ?_
          exact Keeps.refl _ _
        · refine Keeps.ite ?_ ?_
          · exact Keeps.refl _ _
          · split
            · refine Keeps.step (keeps_finishFrame _ _ _ _) rfl ?_
              exact Keeps.refl _ _
            · lift_lets -underBinder
              intro x1
              have h1 : Keeps (faultParts ++ [.records, .cellar]) s x1 := by
                refine Keeps.step (keeps_applyResult _ _ _ _) rfl ?_
                refine Keeps.step (keeps_modFrame _ _ _) rfl ?_
                exact Keeps.refl _ _
              clear_value x1
              refine Keeps.ite ?_ ?_
              · refine Keeps.step (keeps_finishFrame _ _ _ _) rfl ?_
                exact h1
              · exact h1

theorem keeps_execDecodeOp (fid : Nat) (s : State) :
    AnswerKeeps [.counters, .frames] s (execDecodeOp fid s) := by
  unfold execDecodeOp
  refine AnswerKeeps.next ?_
  split
  · exact Keeps.refl _ _
  · refine Keeps.ite ?_ ?_
    · exact Keeps.refl _ _
    · lift_lets -underBinder
      intro x1 x2
      refine Keeps.step (keeps_count _ _) rfl ?_
      refine Keeps.step (keeps_setFrame _ _ _) rfl ?_
      exact Keeps.refl _ _

theorem keeps_execPantryLineFill (line : Nat) (lost : Option (Word × Word × Word × Word)) (s : State) :
    AnswerKeeps (faultParts ++ [.records, .cellar]) s (execPantryLineFill line lost s) := by
  unfold execPantryLineFill
  lift_lets -underBinder
  intro x1 x2
  have h2 : Keeps (faultParts ++ [.records, .cellar]) s x2 := by
    refine Keeps.ite ?_ ?_
    · exact Keeps.refl _ _
    · refine Keeps.step (keeps_touchLine _ _) rfl ?_
      exact Keeps.refl _ _
  clear_value x2
  refine AnswerKeeps.next ?_
  split
  · exact h2
  · refine Keeps.step (keeps_unitFault _ _ _) rfl ?_
    refine Keeps.step (keeps_count _ _) rfl ?_
    refine Keeps.step (keeps_loseRec _ _ _ _) rfl ?_
    refine Keeps.step (keeps_loseRec _ _ _ _) rfl ?_
    exact h2

/-! ## Machine/Images.lean -/

theorem keeps_modLoader (s : State) (f : Loader → Loader) :
    Keeps [.loader] s (State.modLoader s f) := by
  unfold State.modLoader
  lift_lets -underBinder
  intro x1
  refine Keeps.with_watch ?_ ?_ ?_ ?_
  · exact .inr ⟨rfl, rfl⟩
  · exact .inl rfl
  · exact .inr rfl
  · exact Keeps.refl _ _

theorem keeps_loadBegin (s : State) (e : Ep) (k : Nat) (len : Nat) :
    Keeps [.loader, .cellar] s (State.loadBegin s e k len) := by
  unfold State.loadBegin
  lift_lets -underBinder
  intro x1 x2
  have h2 : Keeps [.loader, .cellar] s x2 := by
    refine Keeps.with_cellar ?_ ?_ ?_
    · exact .inr rfl
    · exact .inl rfl
    · exact Keeps.refl _ _
  clear_value x2
  refine Keeps.step (keeps_modLoader _ _) rfl ?_
  exact h2

theorem keeps_loadEnd (s : State) (status : Nat) (detail : Nat) (result : Word) :
    Keeps (andBell [.loader, .lock, .rings, .cellar]) s (State.loadEnd s status detail result) := by
  unfold State.loadEnd
  lift_lets -underBinder
  intro x1 x2
  have h2 : Keeps (andBell [.loader, .lock, .rings, .cellar]) s x2 := by
    refine Keeps.step (keeps_modLoader _ _) rfl ?_
    exact Keeps.refl _ _
  clear_value x2
  intro x3
  have h3 : Keeps (andBell [.loader, .lock, .rings, .cellar]) s x3 := by
    unfold x3
    split
    · refine Keeps.step (keeps_endCommand _ _ _ _ _ _) rfl ?_
      exact h2
    · exact h2
  clear_value x3
  split
  · exact h3
  · refine Keeps.step (keeps_loadBegin _ _ _ _) rfl ?_
    refine Keeps.step (keeps_modLoader _ _) rfl ?_
    exact h3

theorem keeps_loadFail (s : State) (err : Nat) (rec' : Nat) :
    Keeps (andBell [.commit, .banks, .loader, .watch, .lock, .rings, .cellar]) s (State.loadFail s err rec') := by
  unfold State.loadFail
  lift_lets -underBinder
  intro x1
  have h1 : Keeps (andBell [.commit, .banks, .loader, .watch, .lock, .rings, .cellar]) s x1 := by
    refine Keeps.step (keeps_modLoader _ _) rfl ?_
    exact Keeps.refl _ _
  clear_value x1
  refine Keeps.step (keeps_loadEnd _ _ _ _) rfl ?_
  refine Keeps.step (keeps_count _ _) rfl ?_
  refine Keeps.step (keeps_markBad _) rfl ?_
  exact h1

theorem keeps_writeRecord (s : State) (sec : Nat) (ws : List Word) :
    Keeps (faultParts ++ [.ops, .records, .cellar]) s (State.writeRecord s sec ws) := by
  unfold State.writeRecord
  lift_lets -underBinder
  intro x1 x2 x3 x4
  have h4 : Keeps (faultParts ++ [.ops, .records, .cellar]) s x4 := by
    unfold x4
    split
    · refine Keeps.step (keeps_modBank _ _ _) rfl ?_
      exact Keeps.refl _ _
    · refine Keeps.step (keeps_modBank _ _ _) rfl ?_
      exact Keeps.refl _ _
    · lift_lets -underBinder
      intro x5
      refine Keeps.step (keeps_modRoute _ _ _ _) rfl ?_
      refine Keeps.step (keeps_modBank _ _ _) rfl ?_
      exact Keeps.refl _ _
    · lift_lets -underBinder
      intro x6 x7
      have h7 : Keeps (faultParts ++ [.ops, .records, .cellar]) s x7 := by
        refine Keeps.step (keeps_modBank _ _ _) rfl ?_
        exact Keeps.refl _ _
      clear_value x7
      refine Keeps.ite ?_ ?_
      · refine Keeps.step (keeps_initRec _ _) rfl ?_
        exact h7
      · exact h7
    · lift_lets -underBinder
      intro x8 x9
      refine Keeps.with_scriv ?_ ?_ ?_ ?_
      · exact .inl rfl
      · exact .inl rfl
      · exact .inl rfl
      · exact Keeps.refl _ _
  clear_value x4
  intro x10
  refine Keeps.step (keeps_modLoader _ _) rfl ?_
  exact h4

theorem keeps_execLoadImage (c : CmdEntry) (s : State) :
    AnswerKeeps (andBell [.loader, .lock, .rings, .cellar]) s (execLoadImage c s) := by
  unfold execLoadImage
  refine AnswerKeeps.next ?_
  refine Keeps.trans ?_ (keeps_startCommand _ _ _ _ (fun u1 => ?_) rfl)
  · exact Keeps.refl _ _
  · refine Keeps.ite ?_ ?_
    · refine Keeps.step (keeps_endCmd _ _ _ _ _) rfl ?_
      exact Keeps.refl _ _
    · refine Keeps.ite ?_ ?_
      · refine Keeps.step (keeps_loadBegin _ _ _ _) rfl ?_
        exact Keeps.refl _ _
      · refine Keeps.step (keeps_modLoader _ _) rfl ?_
        exact Keeps.refl _ _

theorem keeps_loadWrite (s : State) :
    Keeps [.banks, .loader, .watch] s (State.loadWrite s) := by
  unfold State.loadWrite
  lift_lets -underBinder
  intro x1 x2
  have h2 : Keeps [.banks, .loader, .watch] s x2 := by
    refine Keeps.step (keeps_modLoader _ _) rfl ?_
    exact Keeps.refl _ _
  clear_value x2
  refine Keeps.ite ?_ ?_
  · refine Keeps.step (keeps_modBank _ _ _) rfl ?_
    exact h2
  · exact h2

theorem keeps_execImageCopyDone (s : State) :
    AnswerKeeps [.banks, .loader, .watch] s (execImageCopyDone s) := by
  unfold execImageCopyDone
  lift_lets -underBinder
  intro x1
  refine AnswerKeeps.next ?_
  refine Keeps.ite ?_ ?_
  · exact Keeps.refl _ _
  · refine Keeps.step (keeps_loadWrite _) rfl ?_
    refine Keeps.step (keeps_modBank _ _ _) rfl ?_
    exact Keeps.refl _ _

/-! ## Machine/Fabric.lean -/

theorem keeps_parityBad (s : State) (x : RegCopy × Nat) :
    Keeps faultParts s (State.parityBad s x) := by
  unfold State.parityBad
  split
  · exact Keeps.refl _ _
  · refine Keeps.ite ?_ ?_
    · exact Keeps.refl _ _
    · split
      · lift_lets -underBinder
        intro x1
        refine Keeps.step (keeps_unitFault _ _ _) rfl ?_
        refine Keeps.with_regs ?_ ?_ ?_ ?_ ?_ ?_ ?_ ?_ ?_
        · exact .inl rfl
        · exact .inl rfl
        · exact .inl rfl
        · exact .inl rfl
        · exact .inr ⟨rfl, rfl⟩
        · exact .inr ⟨rfl, rfl, rfl⟩
        · exact .inl rfl
        · exact .inr ⟨rfl, rfl, rfl⟩
        · exact Keeps.refl _ _
      · lift_lets -underBinder
        intro x2
        refine Keeps.step (keeps_raise _ _) rfl ?_
        refine Keeps.step (keeps_unitFault _ _ _) rfl ?_
        refine Keeps.with_regs ?_ ?_ ?_ ?_ ?_ ?_ ?_ ?_ ?_
        · exact .inl rfl
        · exact .inl rfl
        · exact .inl rfl
        · exact .inl rfl
        · exact .inr ⟨rfl, rfl⟩
        · exact .inr ⟨rfl, rfl, rfl⟩
        · exact .inl rfl
        · exact .inr ⟨rfl, rfl, rfl⟩
        · exact Keeps.refl _ _
      · lift_lets -underBinder
        intro x3
        refine Keeps.step (keeps_raise _ _) rfl ?_
        refine Keeps.step (keeps_unitFault _ _ _) rfl ?_
        refine Keeps.with_regs ?_ ?_ ?_ ?_ ?_ ?_ ?_ ?_ ?_
        · exact .inl rfl
        · exact .inl rfl
        · exact .inl rfl
        · exact .inl rfl
        · exact .inr ⟨rfl, rfl⟩
        · exact .inr ⟨rfl, rfl, rfl⟩
        · exact .inl rfl
        · exact .inr ⟨rfl, rfl, rfl⟩
        · exact Keeps.refl _ _

theorem keeps_mendCopy (s : State) (x : RegCopy × Nat) :
    Keeps [.parity] s (State.mendCopy s x) := by
  unfold State.mendCopy
  lift_lets -underBinder
  intro x1
  refine Keeps.with_regs ?_ ?_ ?_ ?_ ?_ ?_ ?_ ?_ ?_
  · exact .inr rfl
  · exact .inr rfl
  · exact .inr rfl
  · exact .inr rfl
  · exact .inr ⟨rfl, rfl⟩
  · exact .inr ⟨rfl, rfl, rfl⟩
  · exact .inl rfl
  · exact .inr ⟨rfl, rfl, rfl⟩
  · exact Keeps.refl _ _

theorem keeps_touchCopy (s : State) (x : RegCopy × Nat) :
    Keeps faultParts s (State.touchCopy s x) := by
  unfold State.touchCopy
  refine Keeps.ite ?_ ?_
  · refine Keeps.step (keeps_parityBad _ _) rfl ?_
    refine Keeps.step (keeps_mendCopy _ _) rfl ?_
    exact Keeps.refl _ _
  · exact Keeps.refl _ _

theorem keeps_setLock (s : State) (p : Path) (open' : Bool) :
    Keeps [.locks] s (State.setLock s p open') := by
  unfold State.setLock
  split
  · lift_lets -underBinder
    intro x1
    refine Keeps.with_regs ?_ ?_ ?_ ?_ ?_ ?_ ?_ ?_ ?_
    · exact .inr rfl
    · exact .inr rfl
    · exact .inr rfl
    · exact .inr rfl
    · exact .inr ⟨rfl, rfl⟩
    · exact .inl rfl
    · (refine .inr ?_; and_intros <;> rfl)
    · exact .inr ⟨rfl, rfl, rfl⟩
    · exact Keeps.refl _ _
  · lift_lets -underBinder
    intro x2
    refine Keeps.with_regs ?_ ?_ ?_ ?_ ?_ ?_ ?_ ?_ ?_
    · exact .inr rfl
    · exact .inr rfl
    · exact .inr rfl
    · exact .inr rfl
    · exact .inr ⟨rfl, rfl⟩
    · exact .inl rfl
    · (refine .inr ?_; and_intros <;> rfl)
    · exact .inr ⟨rfl, rfl, rfl⟩
    · exact Keeps.refl _ _
  · lift_lets -underBinder
    intro x3
    refine Keeps.with_regs ?_ ?_ ?_ ?_ ?_ ?_ ?_ ?_ ?_
    · exact .inr rfl
    · exact .inr rfl
    · exact .inr rfl
    · exact .inr rfl
    · exact .inr ⟨rfl, rfl⟩
    · exact .inl rfl
    · (refine .inr ?_; and_intros <;> rfl)
    · exact .inr ⟨rfl, rfl, rfl⟩
    · exact Keeps.refl _ _

theorem keeps_unlock (s : State) (p : Path) (val : Word) :
    Keeps [.counters, .locks] s (State.unlock s p val) := by
  unfold State.unlock
  refine Keeps.ite ?_ ?_
  · refine Keeps.step (keeps_setLock _ _ _) rfl ?_
    exact Keeps.refl _ _
  · refine Keeps.step (keeps_count _ _) rfl ?_
    refine Keeps.step (keeps_setLock _ _ _) rfl ?_
    exact Keeps.refl _ _

theorem keeps_clearLost (s : State) (p : Path) (off : Nat) :
    Keeps [.parity] s (State.clearLost s p off) := by
  unfold State.clearLost
  split
  · lift_lets -underBinder
    intro x1
    refine Keeps.with_regs ?_ ?_ ?_ ?_ ?_ ?_ ?_ ?_ ?_
    · exact .inr rfl
    · exact .inr rfl
    · exact .inr rfl
    · exact .inr rfl
    · exact .inr ⟨rfl, rfl⟩
    · exact .inr ⟨rfl, rfl, rfl⟩
    · exact .inl rfl
    · exact .inr ⟨rfl, rfl, rfl⟩
    · exact Keeps.refl _ _
  · exact Keeps.refl _ _

theorem keeps_stage (s : State) (off : Nat) (w : Word) :
    Keeps [.staged, .held, .parity] s (State.stage s off w) := by
  unfold State.stage
  refine Keeps.ite ?_ ?_
  · lift_lets -underBinder
    intro x1
    refine Keeps.step (keeps_mendCopy _ _) rfl ?_
    refine Keeps.with_regs ?_ ?_ ?_ ?_ ?_ ?_ ?_ ?_ ?_
    · exact .inr rfl
    · exact .inl rfl
    · exact .inl rfl
    · exact .inr rfl
    · exact .inr ⟨rfl, rfl⟩
    · exact .inr ⟨rfl, rfl, rfl⟩
    · exact .inl rfl
    · exact .inr ⟨rfl, rfl, rfl⟩
    · exact Keeps.refl _ _
  · lift_lets -underBinder
    intro x2
    refine Keeps.step (keeps_mendCopy _ _) rfl ?_
    refine Keeps.with_regs ?_ ?_ ?_ ?_ ?_ ?_ ?_ ?_ ?_
    · exact .inr rfl
    · exact .inl rfl
    · exact .inl rfl
    · exact .inr rfl
    · exact .inr ⟨rfl, rfl⟩
    · exact .inr ⟨rfl, rfl, rfl⟩
    · exact .inl rfl
    · exact .inr ⟨rfl, rfl, rfl⟩
    · exact Keeps.refl _ _

theorem keeps_stageWrite (s : State) (p : Path) (off : Nat) (w : Word) :
    Keeps [.staged, .held, .counters, .parity] s (State.stageWrite s p off w) := by
  unfold State.stageWrite
  lift_lets -underBinder
  intro x1
  have h1 : Keeps [.staged, .held, .counters, .parity] s x1 := by
    refine Keeps.step (keeps_countIf _ _ _) rfl ?_
    exact Keeps.refl _ _
  clear_value x1
  intro x2
  have h2 : Keeps [.staged, .held, .counters, .parity] s x2 := by
    refine Keeps.step (keeps_clearLost _ _ _) rfl ?_
    refine Keeps.step (keeps_stage _ _ _) rfl ?_
    exact h1
  clear_value x2
  split
  · split
    · refine Keeps.step (keeps_stage _ _ _) rfl ?_
      exact h2
    · exact h2
  · exact h2

theorem keeps_writeFields (s : State) (a : Access) (g : RegGroup) :
    Keeps [.inForce, .staged, .held, .counters, .parity] s (State.writeFields s a g) := by
  unfold State.writeFields
  lift_lets -underBinder
  intro x1 x2
  have h2 : Keeps [.inForce, .staged, .held, .counters, .parity] s x2 := by
    refine Keeps.ite ?_ ?_
    · exact Keeps.refl _ _
    · refine Keeps.step (keeps_setReg _ _ _) rfl ?_
      exact Keeps.refl _ _
  clear_value x2
  intro x3
  have h3 : Keeps [.inForce, .staged, .held, .counters, .parity] s x3 := by
    refine Keeps.ite ?_ ?_
    · exact h2
    · refine Keeps.step (keeps_stageWrite _ _ _ _) rfl ?_
      exact h2
  clear_value x3
  refine Keeps.step (keeps_clearLost _ _ _) rfl ?_
  exact h3

theorem keeps_accept (s : State) (p : Path) (off : Nat) (size : Nat) (val : Word) (flashOk : Bool) :
    FstKeeps (andBell [.locks]) s (State.accept s p off size val flashOk) := by
  unfold State.accept
  refine FstKeeps.ite ?_ ?_
  · refine FstKeeps.mk ?_
    refine Keeps.step (keeps_count _ _) rfl ?_
    exact Keeps.refl _ _
  · lift_lets -underBinder
    intro x1 x2
    have h2 : Keeps (andBell [.locks]) s x2 := by
      refine Keeps.step (keeps_setLock _ _ _) rfl ?_
      exact Keeps.refl _ _
    clear_value x2
    intro x3 x4 x5
    refine FstKeeps.ite ?_ ?_
    · refine FstKeeps.mk ?_
      refine Keeps.step (keeps_count _ _) rfl ?_
      exact h2
    · split
      · refine FstKeeps.mk ?_
        refine Keeps.step (keeps_count _ _) rfl ?_
        exact h2
      · refine FstKeeps.ite ?_ ?_
        · refine FstKeeps.mk ?_
          refine Keeps.step (keeps_raise _ _) rfl ?_
          refine Keeps.step (keeps_count _ _) rfl ?_
          exact h2
        · refine FstKeeps.ite ?_ ?_
          · refine FstKeeps.mk ?_
            refine Keeps.step (keeps_count _ _) rfl ?_
            exact h2
          · refine FstKeeps.mk ?_
            exact h2

/-! ## Machine/Epochs.lean -/

theorem keeps_mapPipes (s : State) :
    Keeps [.frames, .scriv] s (State.mapPipes s) := by
  unfold State.mapPipes
  lift_lets -underBinder
  intro x1 x2 x3
  have h3 : Keeps [.frames, .scriv] s x3 := by
    refine Keeps.with_scriv ?_ ?_ ?_ ?_
    · exact .inr rfl
    · exact .inr rfl
    · exact .inl rfl
    · exact Keeps.refl _ _
  clear_value x3
  refine Keeps.with_frames ?_ ?_
  · exact rfl
  · exact h3

theorem keeps_commitHook (s : State) (off : Nat) :
    Keeps (andBell [.owner, .engines, .ports, .subs, .rings, .cells, .tink]) s (State.commitHook s off) := by
  unfold State.commitHook
  split
  · refine Keeps.step (keeps_ringCommit _ _ _) rfl ?_
    exact Keeps.refl _ _
  · refine Keeps.step (keeps_ringCommit _ _ _) rfl ?_
    exact Keeps.refl _ _
  · refine Keeps.step (keeps_subCommit _ _) rfl ?_
    exact Keeps.refl _ _
  · refine Keeps.ite ?_ ?_
    · refine Keeps.step (keeps_tinkCommit _) rfl ?_
      exact Keeps.refl _ _
    · refine Keeps.ite ?_ ?_
      · lift_lets -underBinder
        intro x1
        refine Keeps.with_regs ?_ ?_ ?_ ?_ ?_ ?_ ?_ ?_ ?_
        · exact .inr rfl
        · exact .inr rfl
        · exact .inr rfl
        · exact .inl rfl
        · exact .inr ⟨rfl, rfl⟩
        · exact .inr ⟨rfl, rfl, rfl⟩
        · (refine .inr ?_; and_intros <;> rfl)
        · exact .inl rfl
        · exact Keeps.refl _ _
      · split
        · refine Keeps.ite ?_ ?_
          · refine Keeps.step (keeps_setErrors _ _ _ _) rfl ?_
            exact Keeps.refl _ _
          · exact Keeps.refl _ _
        · exact Keeps.refl _ _

theorem keeps_commitWord (s : State) (off : Nat) (w : Word) :
    Keeps [.inForce, .engines, .cellar] s (State.commitWord s off w) := by
  unfold State.commitWord
  lift_lets -underBinder
  intro x1
  have h1 : Keeps [.inForce, .engines, .cellar] s x1 := by
    refine Keeps.ite ?_ ?_
    · refine Keeps.step (keeps_fillBucket _) rfl ?_
      exact Keeps.refl _ _
    · exact Keeps.refl _ _
  clear_value x1
  intro x2
  have h2 : Keeps [.inForce, .engines, .cellar] s x2 := by
    refine Keeps.step (keeps_setReg _ _ _) rfl ?_
    exact h1
  clear_value x2
  split
  · refine Keeps.step (keeps_modEngine _ _ _) rfl ?_
    exact h2
  · exact h2

theorem keeps_ppsCommit (s : State) (was : Bool) :
    Keeps [.tai] s (State.ppsCommit s was) := by
  unfold State.ppsCommit
  refine Keeps.ite ?_ ?_
  · exact Keeps.refl _ _
  · lift_lets -underBinder
    intro x1
    refine Keeps.with_time ?_ ?_ ?_
    · exact .inr rfl
    · exact .inl rfl
    · exact Keeps.refl _ _

theorem keeps_commitRegs (s : State) :
    Keeps (andBell [.tai, .inForce, .staged, .owner, .engines, .ports, .frames, .subs, .rings, .cells, .cellar, .stew, .tink]) s (State.commitRegs s) := by
  unfold State.commitRegs
  lift_lets -underBinder
  intro x1 x2 x3
  have h3 : Keeps (andBell   [.tai, .inForce, .staged, .owner, .engines, .ports, .frames, .subs, .rings,     .cells, .cellar, .stew, .tink]) s x3 := by
    refine Keeps.trans ?_ (keeps_portsStep _ _ _ (fun u4 => ?_) rfl)
    · exact Keeps.refl _ _
    · lift_lets -underBinder
      intro x5
      refine Keeps.foldl (fun u6 y7 => ?_) ?_
      · refine Keeps.step (keeps_commitWord _ _ _) rfl ?_
        exact Keeps.refl _ _
      · refine Keeps.with_regs ?_ ?_ ?_ ?_ ?_ ?_ ?_ ?_ ?_
        · exact .inl rfl
        · exact .inl rfl
        · exact .inr rfl
        · exact .inl rfl
        · exact .inr ⟨rfl, rfl⟩
        · exact .inr ⟨rfl, rfl, rfl⟩
        · (refine .inr ?_; and_intros <;> rfl)
        · exact .inl rfl
        · exact Keeps.refl _ _
  clear_value x3
  intro x8
  have h8 : Keeps (andBell   [.tai, .inForce, .staged, .owner, .engines, .ports, .frames, .subs, .rings,     .cells, .cellar, .stew, .tink]) s x8 := by
    refine Keeps.foldl (fun u9 y10 => ?_) ?_
    · refine Keeps.step (keeps_commitHook _ _) rfl ?_
      exact Keeps.refl _ _
    · refine Keeps.step (keeps_ppsCommit _ _) rfl ?_
      exact h3
  clear_value x8
  intro x11 x12
  have h12 : Keeps (andBell   [.tai, .inForce, .staged, .owner, .engines, .ports, .frames, .subs, .rings,     .cells, .cellar, .stew, .tink]) s x12 := by
    refine Keeps.foldl (fun u13 y14 => ?_) ?_
    · refine Keeps.step (keeps_engineCommit _ _) rfl ?_
      exact Keeps.refl _ _
    · exact h8
  clear_value x12
  refine Keeps.step (keeps_bellService _) rfl ?_
  refine Keeps.step (keeps_stewPins _) rfl ?_
  refine Keeps.foldl (fun u15 y16 => ?_) ?_
  · refine Keeps.step (keeps_laneCheck _ _) rfl ?_
    exact Keeps.refl _ _
  · exact h12

theorem keeps_commitUnits (s : State) (host : Bool) (offs : List Nat) (result : Word) :
    Keeps (andBell [.tai, .inForce, .staged, .held, .owner, .engines, .ports, .frames, .scriv, .subs, .bitmaps, .halves, .lock, .rings, .cells, .cellar, .srcs, .stew, .tink, .firmware, .flash]) s (State.commitUnits s host offs result) := by
  unfold State.commitUnits
  lift_lets -underBinder
  intro x1
  have h1 : Keeps (andBell   [.tai, .inForce, .staged, .held, .owner, .engines, .ports, .frames, .scriv,     .subs, .bitmaps, .halves, .lock, .rings, .cells, .cellar, .srcs, .stew,     .tink, .firmware, .flash]) s x1 := by
    refine Keeps.ite ?_ ?_
    · refine Keeps.step (keeps_mapCommit _) rfl ?_
      refine Keeps.step (keeps_commitRegs _) rfl ?_
      exact Keeps.refl _ _
    · exact Keeps.refl _ _
  clear_value x1
  intro x2
  have h2 : Keeps (andBell   [.tai, .inForce, .staged, .held, .owner, .engines, .ports, .frames, .scriv,     .subs, .bitmaps, .halves, .lock, .rings, .cells, .cellar, .srcs, .stew,     .tink, .firmware, .flash]) s x2 := by
    refine Keeps.step (keeps_tinkBoundary _) rfl ?_
    refine Keeps.step (keeps_handoverCommit _ _) rfl ?_
    refine Keeps.step (keeps_keySwaps _ _ _) rfl ?_
    exact h1
  clear_value x2
  refine Keeps.step (keeps_mapPipes _) rfl ?_
  refine Keeps.step (keeps_countN _ _ _) rfl ?_
  exact h2

theorem keeps_awaitSwap (s : State) :
    Keeps [.commit] s (State.awaitSwap s) := by
  unfold State.awaitSwap
  lift_lets -underBinder
  intro x1
  refine Keeps.with_gen ?_ ?_ ?_ ?_ ?_
  · (refine .inr ?_; and_intros <;> rfl)
  · exact .inr ⟨rfl, rfl, rfl⟩
  · exact .inl rfl
  · (refine .inr ?_; and_intros <;> rfl)
  · exact Keeps.refl _ _

theorem keeps_deferSwap (s : State) (k : CommitKind) :
    Keeps [.commit] s (State.deferSwap s k) := by
  unfold State.deferSwap
  refine Keeps.ite ?_ ?_
  · refine Keeps.step (keeps_awaitSwap _) rfl ?_
    exact Keeps.refl _ _
  · exact Keeps.refl _ _

theorem keeps_endCommits (s : State) (k : CommitKind) (result : Word) :
    Keeps (andBell [.lock, .rings]) s (State.endCommits s k result) := by
  unfold State.endCommits
  refine Keeps.foldl (fun u1 y2 => ?_) ?_
  · split
    · refine Keeps.ite ?_ ?_
      · refine Keeps.step (keeps_endCommand _ _ _ _ _ _) rfl ?_
        exact Keeps.refl _ _
      · exact Keeps.refl _ _
    · exact Keeps.refl _ _
  · exact Keeps.refl _ _

theorem keeps_endManual (s : State) :
    Keeps (andBell [.lock, .rings]) s (State.endManual s) := by
  unfold State.endManual
  refine Keeps.ite ?_ ?_
  · exact Keeps.refl _ _
  · refine Keeps.foldl (fun u1 y2 => ?_) ?_
    · split
      · refine Keeps.ite ?_ ?_
        · refine Keeps.step (keeps_endCommand _ _ _ _ _ _) rfl ?_
          exact Keeps.refl _ _
        · exact Keeps.refl _ _
      · exact Keeps.refl _ _
    · exact Keeps.refl _ _

theorem keeps_commitEnds (s : State) (k : CommitKind) (host : Bool) (swap : Bool) (result : Word) :
    Keeps (andBell [.lock, .rings]) s (State.commitEnds s k host swap result) := by
  unfold State.commitEnds
  lift_lets -underBinder
  intro x1
  have h1 : Keeps (andBell [.lock, .rings]) s x1 := by
    refine Keeps.ite ?_ ?_
    · refine Keeps.step (keeps_endSwapCommands _ _ _) rfl ?_
      exact Keeps.refl _ _
    · exact Keeps.refl _ _
  clear_value x1
  intro x2
  have h2 : Keeps (andBell [.lock, .rings]) s x2 := by
    refine Keeps.ite ?_ ?_
    · refine Keeps.step (keeps_endCommits _ _ _) rfl ?_
      exact h1
    · exact h1
  clear_value x2
  refine Keeps.step (keeps_endManual _) rfl ?_
  exact h2

theorem keeps_swapBanks (s : State) :
    Keeps [.commit, .watch] s (State.swapBanks s) := by
  unfold State.swapBanks
  lift_lets -underBinder
  intro x1 x2
  refine Keeps.with_gen_watch ?_ ?_ ?_ ?_ ?_ ?_ ?_ ?_
  · (refine .inr ?_; and_intros <;> rfl)
  · exact .inr ⟨rfl, rfl, rfl⟩
  · exact .inl rfl
  · (refine .inr ?_; and_intros <;> rfl)
  · exact .inr ⟨rfl, rfl⟩
  · exact .inr rfl
  · exact .inl rfl
  · exact Keeps.refl _ _

theorem keeps_performSwap (s : State) :
    Keeps [.commit, .watch] s (State.performSwap s) := by
  unfold State.performSwap
  lift_lets -underBinder
  intro x1
  have h1 : Keeps [.commit, .watch] s x1 := by
    refine Keeps.step (keeps_swapBanks _) rfl ?_
    exact Keeps.refl _ _
  clear_value x1
  intro x2
  refine Keeps.with_gen ?_ ?_ ?_ ?_ ?_
  · (refine .inr ?_; and_intros <;> rfl)
  · exact .inr ⟨rfl, rfl, rfl⟩
  · exact .inl rfl
  · (refine .inr ?_; and_intros <;> rfl)
  · exact h1

theorem keeps_checkCommit (s : State) :
    Keeps faultParts s (State.checkCommit s) := by
  unfold State.checkCommit
  refine Keeps.foldl (fun u1 y2 => ?_) ?_
  · refine Keeps.step (keeps_touchCopy _ _) rfl ?_
    refine Keeps.step (keeps_touchCopy _ _) rfl ?_
    exact Keeps.refl _ _
  · exact Keeps.refl _ _

theorem keeps_setLastCommit (s : State) (result : Word) :
    Keeps [.commit] s (State.setLastCommit s result) := by
  unfold State.setLastCommit
  lift_lets -underBinder
  intro x1
  refine Keeps.with_gen ?_ ?_ ?_ ?_ ?_
  · (refine .inr ?_; and_intros <;> rfl)
  · exact .inr ⟨rfl, rfl, rfl⟩
  · exact .inl rfl
  · (refine .inr ?_; and_intros <;> rfl)
  · exact Keeps.refl _ _

theorem keeps_commitPoint (s : State) (k : CommitKind) (result : Word) :
    Keeps (faultParts ++ [.owner, .subs, .bitmaps, .halves, .cellar]) s (State.commitPoint s k result) := by
  unfold State.commitPoint
  lift_lets -underBinder
  intro x1 x2
  have h2 : Keeps (faultParts ++ [.owner, .subs, .bitmaps, .halves, .cellar]) s x2 := by
    refine Keeps.ite ?_ ?_
    · refine Keeps.step (keeps_checkCommit _) rfl ?_
      exact Keeps.refl _ _
    · exact Keeps.refl _ _
  clear_value x2
  intro x3 x4 x5 x6
  have h6 : Keeps (faultParts ++ [.owner, .subs, .bitmaps, .halves, .cellar]) s x6 := by
    refine Keeps.ite ?_ ?_
    · refine Keeps.step (keeps_deferSwap _ _) rfl ?_
      exact h2
    · exact h2
  clear_value x6
  intro x7
  have h7 : Keeps (faultParts ++ [.owner, .subs, .bitmaps, .halves, .cellar]) s x7 := by
    refine Keeps.ite ?_ ?_
    · refine Keeps.step (keeps_performSwap _) rfl ?_
      exact h6
    · exact h6
  clear_value x7
  intro x8
  have h8 : Keeps (faultParts ++ [.owner, .subs, .bitmaps, .halves, .cellar]) s x8 := by
    refine Keeps.step (keeps_commitUnits _ _ _ _) rfl ?_
    exact h7
  clear_value x8
  intro x9
  have h9 : Keeps (faultParts ++ [.owner, .subs, .bitmaps, .halves, .cellar]) s x9 := by
    refine Keeps.ite ?_ ?_
    · refine Keeps.step (keeps_setLastCommit _ _) rfl ?_
      exact h8
    · exact h8
  clear_value x9
  refine Keeps.step (keeps_commitEnds _ _ _ _ _) rfl ?_
  exact h9

theorem keeps_snapStrobe (s : State) (auto : Bool) (written : Bool) (clear : Bool) :
    Keeps [.snap, .counters, .snapCopies] s (State.snapStrobe s auto written clear) := by
  unfold State.snapStrobe
  lift_lets -underBinder
  intro x1 x2
  refine Keeps.with_gen_regs ?_ ?_ ?_ ?_ ?_ ?_ ?_ ?_ ?_ ?_ ?_ ?_ ?_
  · (refine .inr ?_; and_intros <;> rfl)
  · exact .inr ⟨rfl, rfl, rfl⟩
  · (refine .inr ?_; and_intros <;> rfl)
  · exact .inl rfl
  · exact .inr rfl
  · exact .inr rfl
  · exact .inr rfl
  · exact .inl rfl
  · exact .inl rfl
  · exact .inr ⟨rfl, rfl, rfl⟩
  · (refine .inr ?_; and_intros <;> rfl)
  · exact .inr ⟨rfl, rfl, rfl⟩
  · exact Keeps.refl _ _

theorem keeps_snapshot (s : State) (auto : Bool) (clear : Bool) :
    Keeps [.snap, .counters, .snapCopies] s (State.snapshot s auto clear) := by
  unfold State.snapshot
  lift_lets -underBinder
  intro x1
  refine Keeps.ite ?_ ?_
  · refine Keeps.step (keeps_snapStrobe _ _ _ _) rfl ?_
    exact Keeps.refl _ _
  · refine Keeps.ite ?_ ?_
    · refine Keeps.ite ?_ ?_
      · refine Keeps.step (keeps_snapStrobe _ _ _ _) rfl ?_
        exact Keeps.refl _ _
      · refine Keeps.with_gen ?_ ?_ ?_ ?_ ?_
        · (refine .inr ?_; and_intros <;> rfl)
        · exact .inr ⟨rfl, rfl, rfl⟩
        · (refine .inr ?_; and_intros <;> rfl)
        · exact .inl rfl
        · exact Keeps.refl _ _
    · refine Keeps.with_gen ?_ ?_ ?_ ?_ ?_
      · (refine .inr ?_; and_intros <;> rfl)
      · exact .inr ⟨rfl, rfl, rfl⟩
      · (refine .inr ?_; and_intros <;> rfl)
      · exact .inl rfl
      · exact Keeps.refl _ _

theorem keeps_countDeferred (s : State) (k : CommitKind) :
    Keeps [.counters] s (State.countDeferred s k) := by
  unfold State.countDeferred
  refine Keeps.step (keeps_countIf _ _ _) rfl ?_
  exact Keeps.refl _ _

theorem keeps_newEpoch (s : State) (st : RunState) :
    Keeps [.epoch] s (State.newEpoch s st) := by
  unfold State.newEpoch
  lift_lets -underBinder
  intro x1 x2
  have h2 : Keeps [.epoch] s x2 := by
    refine Keeps.with_gen ?_ ?_ ?_ ?_ ?_
    · exact .inl rfl
    · exact .inr ⟨rfl, rfl, rfl⟩
    · (refine .inr ?_; and_intros <;> rfl)
    · (refine .inr ?_; and_intros <;> rfl)
    · exact Keeps.refl _ _
  clear_value x2
  intro x3
  refine Keeps.with_gen ?_ ?_ ?_ ?_ ?_
  · exact .inl rfl
  · exact .inr ⟨rfl, rfl, rfl⟩
  · (refine .inr ?_; and_intros <;> rfl)
  · (refine .inr ?_; and_intros <;> rfl)
  · exact h2

theorem keeps_epochStart (s : State) :
    Keeps (faultParts ++ [.epoch, .snap, .snapCopies, .owner, .subs, .bitmaps, .halves, .cellar]) s (State.epochStart s) := by
  unfold State.epochStart
  lift_lets -underBinder
  intro x1
  have h1 : Keeps (faultParts ++ [.epoch, .snap, .snapCopies, .owner, .subs, .bitmaps, .halves, .cellar]) s x1 := by
    refine Keeps.step (keeps_countDeferred _ _) rfl ?_
    exact Keeps.refl _ _
  clear_value x1
  intro x2
  have h2 : Keeps (faultParts ++ [.epoch, .snap, .snapCopies, .owner, .subs, .bitmaps, .halves, .cellar]) s x2 := by
    refine Keeps.ite ?_ ?_
    · refine Keeps.step (keeps_snapshot _ _ _) rfl ?_
      exact h1
    · exact h1
  clear_value x2
  intro x3 x4
  have h4 : Keeps (faultParts ++ [.epoch, .snap, .snapCopies, .owner, .subs, .bitmaps, .halves, .cellar]) s x4 := by
    refine Keeps.with_gen ?_ ?_ ?_ ?_ ?_
    · exact .inl rfl
    · exact .inr ⟨rfl, rfl, rfl⟩
    · exact .inl rfl
    · exact .inl rfl
    · exact h2
  clear_value x4
  refine Keeps.step (keeps_raise _ _) rfl ?_
  refine Keeps.step (keeps_newEpoch _ _) rfl ?_
  refine Keeps.step (keeps_commitPoint _ _ _) rfl ?_
  exact h4

theorem keeps_epochCtl (s : State) (oldHold : Bool) :
    Keeps (faultParts ++ [.epoch, .freeze, .snap, .snapCopies, .owner, .subs, .bitmaps, .halves, .cellar]) s (State.epochCtl s oldHold) := by
  unfold State.epochCtl
  lift_lets -underBinder
  intro x1 x2
  have h2 : Keeps (faultParts ++   [.epoch, .freeze, .snap, .snapCopies, .owner, .subs, .bitmaps, .halves, .cellar]) s x2 := by
    refine Keeps.ite ?_ ?_
    · refine Keeps.with_gen ?_ ?_ ?_ ?_ ?_
      · exact .inl rfl
      · exact .inl rfl
      · exact .inl rfl
      · exact .inl rfl
      · exact Keeps.refl _ _
    · exact Keeps.refl _ _
  clear_value x2
  refine Keeps.ite ?_ ?_
  · split
    · refine Keeps.step (keeps_epochStart _) rfl ?_
      exact h2
    · lift_lets -underBinder
      intro x3
      refine Keeps.with_gen ?_ ?_ ?_ ?_ ?_
      · exact .inl rfl
      · exact .inl rfl
      · exact .inl rfl
      · exact .inl rfl
      · exact h2
    · exact h2
    · exact h2
  · split
    · lift_lets -underBinder
      intro x4
      refine Keeps.with_gen ?_ ?_ ?_ ?_ ?_
      · exact .inl rfl
      · exact .inl rfl
      · exact .inl rfl
      · exact .inl rfl
      · exact h2
    · lift_lets -underBinder
      intro x5
      refine Keeps.with_gen ?_ ?_ ?_ ?_ ?_
      · exact .inl rfl
      · exact .inl rfl
      · exact .inl rfl
      · exact .inl rfl
      · exact h2
    · lift_lets -underBinder
      intro x6
      refine Keeps.with_gen ?_ ?_ ?_ ?_ ?_
      · exact .inl rfl
      · exact .inl rfl
      · exact .inl rfl
      · exact .inl rfl
      · exact h2
    · exact h2

theorem keeps_manualCommit (s : State) :
    Keeps (faultParts ++ [.owner, .subs, .bitmaps, .halves, .cellar]) s (State.manualCommit s) := by
  unfold State.manualCommit
  refine Keeps.step (keeps_commitPoint _ _ _) rfl ?_
  exact Keeps.refl _ _

theorem keeps_unbusy (s : State) :
    Keeps (faultParts ++ [.owner, .subs, .bitmaps, .halves, .cellar]) s (State.unbusy s) := by
  unfold State.unbusy
  refine Keeps.ite ?_ ?_
  · exact Keeps.refl _ _
  · lift_lets -underBinder
    intro x1 x2 x3
    have h3 : Keeps (faultParts ++ [.owner, .subs, .bitmaps, .halves, .cellar]) s x3 := by
      refine Keeps.with_gen ?_ ?_ ?_ ?_ ?_
      · (refine .inr ?_; and_intros <;> rfl)
      · exact .inr ⟨rfl, rfl, rfl⟩
      · exact .inl rfl
      · (refine .inr ?_; and_intros <;> rfl)
      · exact Keeps.refl _ _
    clear_value x3
    refine Keeps.ite ?_ ?_
    · refine Keeps.step (keeps_manualCommit _) rfl ?_
      exact h3
    · refine Keeps.step (keeps_endManual _) rfl ?_
      exact h3

theorem keeps_cancelSwap (s : State) :
    Keeps (faultParts ++ [.owner, .subs, .bitmaps, .halves, .cellar]) s (State.cancelSwap s) := by
  unfold State.cancelSwap
  refine Keeps.ite ?_ ?_
  · exact Keeps.refl _ _
  · refine Keeps.step (keeps_unbusy _) rfl ?_
    refine Keeps.step (keeps_withdrawSwap _) rfl ?_
    exact Keeps.refl _ _

theorem keeps_requestSwap (s : State) :
    Keeps [.commit, .counters] s (State.requestSwap s) := by
  unfold State.requestSwap
  refine Keeps.ite ?_ ?_
  · refine Keeps.step (keeps_count _ _) rfl ?_
    exact Keeps.refl _ _
  · lift_lets -underBinder
    intro x1
    refine Keeps.with_gen ?_ ?_ ?_ ?_ ?_
    · (refine .inr ?_; and_intros <;> rfl)
    · exact .inr ⟨rfl, rfl, rfl⟩
    · exact .inl rfl
    · (refine .inr ?_; and_intros <;> rfl)
    · exact Keeps.refl _ _

theorem keeps_notBusy (s : State) :
    Keeps [.commit] s (State.notBusy s) := by
  unfold State.notBusy
  lift_lets -underBinder
  intro x1
  refine Keeps.with_gen ?_ ?_ ?_ ?_ ?_
  · (refine .inr ?_; and_intros <;> rfl)
  · exact .inr ⟨rfl, rfl, rfl⟩
  · exact .inl rfl
  · (refine .inr ?_; and_intros <;> rfl)
  · exact Keeps.refl _ _

theorem keeps_genCommit (s : State) :
    Keeps (faultParts ++ [.owner, .subs, .bitmaps, .halves, .cellar]) s (State.genCommit s) := by
  unfold State.genCommit
  refine Keeps.ite ?_ ?_
  · refine Keeps.step (keeps_count _ _) rfl ?_
    exact Keeps.refl _ _
  · refine Keeps.ite ?_ ?_
    · lift_lets -underBinder
      intro x1
      refine Keeps.with_gen ?_ ?_ ?_ ?_ ?_
      · (refine .inr ?_; and_intros <;> rfl)
      · exact .inr ⟨rfl, rfl, rfl⟩
      · exact .inl rfl
      · (refine .inr ?_; and_intros <;> rfl)
      · exact Keeps.refl _ _
    · refine Keeps.step (keeps_manualCommit _) rfl ?_
      refine Keeps.step (keeps_notBusy _) rfl ?_
      exact Keeps.refl _ _

theorem keeps_openCommits (s : State) :
    Keeps [.rings] s (State.openCommits s) := by
  unfold State.openCommits
  refine Keeps.foldl (fun u1 y2 => ?_) ?_
  · refine Keeps.ite ?_ ?_
    · exact Keeps.refl _ _
    · refine Keeps.step (keeps_modRing _ _ _ _) rfl ?_
      exact Keeps.refl _ _
  · exact Keeps.refl _ _

theorem keeps_thaw (s : State) :
    Keeps [.freeze, .staged, .held, .parity] s (State.thaw s) := by
  unfold State.thaw
  lift_lets -underBinder
  intro x1 x2
  refine Keeps.with_gen_regs ?_ ?_ ?_ ?_ ?_ ?_ ?_ ?_ ?_ ?_ ?_ ?_ ?_
  · (refine .inr ?_; and_intros <;> rfl)
  · exact .inl rfl
  · (refine .inr ?_; and_intros <;> rfl)
  · (refine .inr ?_; and_intros <;> rfl)
  · exact .inr rfl
  · exact .inl rfl
  · exact .inl rfl
  · exact .inr rfl
  · exact .inr ⟨rfl, rfl⟩
  · exact .inr ⟨rfl, rfl, rfl⟩
  · exact .inl rfl
  · exact .inr ⟨rfl, rfl, rfl⟩
  · exact Keeps.refl _ _

theorem keeps_doCut (s : State) :
    Keeps (andBell [.epoch, .watch, .subs, .crier]) s (State.doCut s) := by
  unfold State.doCut
  lift_lets -underBinder
  intro x1
  have h1 : Keeps (andBell [.epoch, .watch, .subs, .crier]) s x1 := by
    refine Keeps.step (keeps_crierCut _) rfl ?_
    exact Keeps.refl _ _
  clear_value x1
  intro x2 x3
  refine Keeps.with_gen_watch ?_ ?_ ?_ ?_ ?_ ?_ ?_ ?_
  · exact .inl rfl
  · exact .inr ⟨rfl, rfl, rfl⟩
  · (refine .inr ?_; and_intros <;> rfl)
  · (refine .inr ?_; and_intros <;> rfl)
  · exact .inr ⟨rfl, rfl⟩
  · exact .inr rfl
  · exact .inl rfl
  · exact h1

theorem keeps_realign (s : State) :
    Keeps (andBell [.epoch, .freeze, .staged, .held, .parity, .watch, .subs, .crier, .rings]) s (State.realign s) := by
  unfold State.realign
  lift_lets -underBinder
  intro x1 x2 x3
  have h3 : Keeps (andBell [.epoch, .freeze, .staged, .held, .parity, .watch, .subs, .crier, .rings]) s x3 := by
    refine Keeps.with_gen ?_ ?_ ?_ ?_ ?_
    · exact .inl rfl
    · exact .inl rfl
    · (refine .inr ?_; and_intros <;> rfl)
    · (refine .inr ?_; and_intros <;> rfl)
    · exact Keeps.refl _ _
  clear_value x3
  intro x4
  have h4 : Keeps (andBell [.epoch, .freeze, .staged, .held, .parity, .watch, .subs, .crier, .rings]) s x4 := by
    refine Keeps.ite ?_ ?_
    · refine Keeps.step (keeps_doCut _) rfl ?_
      exact h3
    · exact h3
  clear_value x4
  intro x5
  have h5 : Keeps (andBell [.epoch, .freeze, .staged, .held, .parity, .watch, .subs, .crier, .rings]) s x5 := by
    refine Keeps.step (keeps_openCommits _) rfl ?_
    refine Keeps.step (keeps_thaw _) rfl ?_
    exact h4
  clear_value x5
  intro x6
  refine Keeps.ite ?_ ?_
  · exact Keeps.refl _ _
  · refine Keeps.ite ?_ ?_
    · refine Keeps.with_gen ?_ ?_ ?_ ?_ ?_
      · exact .inl rfl
      · exact .inl rfl
      · (refine .inr ?_; and_intros <;> rfl)
      · (refine .inr ?_; and_intros <;> rfl)
      · exact h5
    · exact h4

theorem keeps_execCommit (c : CmdEntry) (s : State) :
    AnswerKeeps (faultParts ++ [.owner, .subs, .bitmaps, .halves, .cellar]) s (execCommit c s) := by
  unfold execCommit
  refine AnswerKeeps.next ?_
  refine Keeps.trans ?_ (keeps_startCommand _ _ _ _ (fun u1 => ?_) rfl)
  · exact Keeps.refl _ _
  · lift_lets -underBinder
    intro x2 x3 x4
    have h4 : Keeps (faultParts ++ [.owner, .subs, .bitmaps, .halves, .cellar]) u1 x4 := by
      refine Keeps.ite ?_ ?_
      · refine Keeps.step (keeps_requestSwap _) rfl ?_
        exact Keeps.refl _ _
      · exact Keeps.refl _ _
    clear_value x4
    intro x5 x6
    have h6 : Keeps (faultParts ++ [.owner, .subs, .bitmaps, .halves, .cellar]) u1 x6 := by
      refine Keeps.step (keeps_requestSwap _) rfl ?_
      exact Keeps.refl _ _
    clear_value x6
    refine Keeps.ite ?_ ?_
    · refine Keeps.step (keeps_endCmd _ _ _ _ _) rfl ?_
      exact Keeps.refl _ _
    · refine Keeps.ite ?_ ?_
      · refine Keeps.ite ?_ ?_
        · refine Keeps.step (keeps_endCmd _ _ _ _ _) rfl ?_
          exact Keeps.refl _ _
        · refine Keeps.ite ?_ ?_
          · refine Keeps.step (keeps_endCmd _ _ _ _ _) rfl ?_
            refine Keeps.step (keeps_genCommit _) rfl ?_
            unfold x5
            refine Keeps.step (keeps_modRing _ _ _ _) rfl ?_
            exact h4
          · refine Keeps.step (keeps_genCommit _) rfl ?_
            unfold x5
            refine Keeps.step (keeps_modRing _ _ _ _) rfl ?_
            exact h4
      · refine Keeps.ite ?_ ?_
        · refine Keeps.ite ?_ ?_
          · refine Keeps.step (keeps_modRing _ _ _ _) rfl ?_
            exact h6
          · refine Keeps.step (keeps_endCmd _ _ _ _ _) rfl ?_
            exact h6
        · exact Keeps.refl _ _

theorem keeps_boundary (s : State) :
    Keeps (faultParts ++ [.epoch, .freeze, .snap, .snapCopies, .owner, .records, .subs, .bitmaps, .halves, .cellar]) s (State.boundary s) := by
  unfold State.boundary
  lift_lets -underBinder
  intro x1 x2 x3
  have h3 : Keeps (faultParts ++   [.epoch, .freeze, .snap, .snapCopies, .owner, .records, .subs, .bitmaps, .halves,     .cellar]) s x3 := by
    refine Keeps.step (keeps_countIf _ _ _) rfl ?_
    exact Keeps.refl _ _
  clear_value x3
  intro x4
  have h4 : Keeps (faultParts ++   [.epoch, .freeze, .snap, .snapCopies, .owner, .records, .subs, .bitmaps, .halves,     .cellar]) s x4 := by
    refine Keeps.step (keeps_countDeferred _ _) rfl ?_
    exact h3
  clear_value x4
  intro x5
  have h5 : Keeps (faultParts ++   [.epoch, .freeze, .snap, .snapCopies, .owner, .records, .subs, .bitmaps, .halves,     .cellar]) s x5 := by
    refine Keeps.ite ?_ ?_
    · refine Keeps.step (keeps_snapshot _ _ _) rfl ?_
      exact h4
    · exact h4
  clear_value x5
  intro x6 x7
  have h7 : Keeps (faultParts ++   [.epoch, .freeze, .snap, .snapCopies, .owner, .records, .subs, .bitmaps, .halves,     .cellar]) s x7 := by
    refine Keeps.step (keeps_publish _ _ _) rfl ?_
    exact h5
  clear_value x7
  intro x8
  have h8 : Keeps (faultParts ++   [.epoch, .freeze, .snap, .snapCopies, .owner, .records, .subs, .bitmaps, .halves,     .cellar]) s x8 := by
    refine Keeps.step (keeps_openCommits _) rfl ?_
    refine Keeps.step (keeps_commitPoint _ _ _) rfl ?_
    exact h7
  clear_value x8
  intro x9 x10
  have h10 : Keeps (faultParts ++   [.epoch, .freeze, .snap, .snapCopies, .owner, .records, .subs, .bitmaps, .halves,     .cellar]) s x10 := by
    refine Keeps.with_gen ?_ ?_ ?_ ?_ ?_
    · exact .inl rfl
    · exact .inl rfl
    · exact .inl rfl
    · exact .inl rfl
    · exact h8
  clear_value x10
  intro x11 x12
  have h12 : Keeps (faultParts ++   [.epoch, .freeze, .snap, .snapCopies, .owner, .records, .subs, .bitmaps, .halves,     .cellar]) s x12 := by
    refine Keeps.step (keeps_raise _ _) rfl ?_
    refine Keeps.with_gen ?_ ?_ ?_ ?_ ?_
    · exact .inl rfl
    · exact .inl rfl
    · exact .inl rfl
    · exact .inl rfl
    · exact h10
  clear_value x12
  refine Keeps.ite ?_ ?_
  · refine Keeps.ite ?_ ?_
    · refine Keeps.step (keeps_epochStart _) rfl ?_
      exact h12
    · exact h12
  · refine Keeps.step (keeps_raise _ _) rfl ?_
    refine Keeps.step (keeps_newEpoch _ _) rfl ?_
    exact h10

theorem keeps_execStagingFreeze (s : State) :
    AnswerKeeps [.freeze, .clock] s (execStagingFreeze s) := by
  unfold execStagingFreeze
  lift_lets -underBinder
  intro x1
  have h1 : Keeps [.freeze, .clock] s x1 := by
    refine Keeps.step (keeps_advanceTo _ _) rfl ?_
    exact Keeps.refl _ _
  clear_value x1
  intro x2
  refine AnswerKeeps.next ?_
  refine Keeps.ite ?_ ?_
  · refine Keeps.with_gen ?_ ?_ ?_ ?_ ?_
    · (refine .inr ?_; and_intros <;> rfl)
    · exact .inl rfl
    · (refine .inr ?_; and_intros <;> rfl)
    · (refine .inr ?_; and_intros <;> rfl)
    · exact h1
  · exact Keeps.refl _ _

theorem keeps_execSilentBoundary (s : State) :
    AnswerKeeps (faultParts ++ [.epoch, .clock, .owner, .subs, .bitmaps, .halves, .cellar]) s (execSilentBoundary s) := by
  unfold execSilentBoundary
  lift_lets -underBinder
  intro x1 x2
  have h2 : Keeps (faultParts ++ [.epoch, .clock, .owner, .subs, .bitmaps, .halves, .cellar]) s x2 := by
    refine Keeps.step (keeps_advanceTo _ _) rfl ?_
    exact Keeps.refl _ _
  clear_value x2
  intro x3 x4 x5
  have h5 : Keeps (faultParts ++ [.epoch, .clock, .owner, .subs, .bitmaps, .halves, .cellar]) s x5 := by
    refine Keeps.step (keeps_commitPoint _ _ _) rfl ?_
    exact h2
  clear_value x5
  intro x6
  have h6 : Keeps (faultParts ++ [.epoch, .clock, .owner, .subs, .bitmaps, .halves, .cellar]) s x6 := by
    refine Keeps.step (keeps_countIf _ _ _) rfl ?_
    exact h5
  clear_value x6
  intro x7
  refine AnswerKeeps.next ?_
  refine Keeps.ite ?_ ?_
  · exact Keeps.refl _ _
  · refine Keeps.with_gen ?_ ?_ ?_ ?_ ?_
    · exact .inl rfl
    · exact .inr ⟨rfl, rfl, rfl⟩
    · exact .inl rfl
    · (refine .inr ?_; and_intros <;> rfl)
    · exact h6

theorem keeps_execEpochBoundary (s : State) :
    AnswerKeeps (faultParts ++ [.epoch, .freeze, .snap, .clock, .snapCopies, .owner, .records, .subs, .bitmaps, .halves, .cellar]) s (execEpochBoundary s) := by
  unfold execEpochBoundary
  refine AnswerKeeps.next ?_
  refine Keeps.ite ?_ ?_
  · refine Keeps.step (keeps_boundary _) rfl ?_
    refine Keeps.step (keeps_advanceTo _ _) rfl ?_
    exact Keeps.refl _ _
  · exact Keeps.refl _ _

theorem keeps_execCommitSwapEligible (s : State) :
    AnswerKeeps (faultParts ++ [.owner, .subs, .bitmaps, .halves, .cellar]) s (execCommitSwapEligible s) := by
  unfold execCommitSwapEligible
  lift_lets -underBinder
  intro x1
  have h1 : Keeps (faultParts ++ [.owner, .subs, .bitmaps, .halves, .cellar]) s x1 := by
    refine Keeps.step (keeps_swapBanks _) rfl ?_
    exact Keeps.refl _ _
  clear_value x1
  intro x2
  have h2 : Keeps (faultParts ++ [.owner, .subs, .bitmaps, .halves, .cellar]) s x2 := by
    refine Keeps.step (keeps_setLastCommit _ _) rfl ?_
    exact h1
  clear_value x2
  refine AnswerKeeps.next ?_
  refine Keeps.ite ?_ ?_
  · exact Keeps.refl _ _
  · refine Keeps.ite ?_ ?_
    · refine Keeps.step (keeps_unbusy _) rfl ?_
      exact Keeps.refl _ _
    · refine Keeps.ite ?_ ?_
      · refine Keeps.step (keeps_unbusy _) rfl ?_
        refine Keeps.step (keeps_endSwapCommands _ _ _) rfl ?_
        exact h2
      · exact Keeps.refl _ _

theorem keeps_execFreezeEnd (s : State) :
    AnswerKeeps [.freeze, .clock, .staged, .held, .parity] s (execFreezeEnd s) := by
  unfold execFreezeEnd
  refine AnswerKeeps.next ?_
  split
  · refine Keeps.step (keeps_thaw _) rfl ?_
    refine Keeps.step (keeps_advanceTo _ _) rfl ?_
    exact Keeps.refl _ _
  · exact Keeps.refl _ _

theorem keeps_execSnapshotComplete (s : State) :
    AnswerKeeps [.snap, .counters, .snapCopies] s (execSnapshotComplete s) := by
  unfold execSnapshotComplete
  lift_lets -underBinder
  intro x1 x2 x3
  have h3 : Keeps [.snap, .counters, .snapCopies] s x3 := by
    refine Keeps.with_gen_regs ?_ ?_ ?_ ?_ ?_ ?_ ?_ ?_ ?_ ?_ ?_ ?_ ?_
    · (refine .inr ?_; and_intros <;> rfl)
    · exact .inr ⟨rfl, rfl, rfl⟩
    · (refine .inr ?_; and_intros <;> rfl)
    · exact .inl rfl
    · exact .inr rfl
    · exact .inr rfl
    · exact .inr rfl
    · exact .inl rfl
    · exact .inl rfl
    · exact .inr ⟨rfl, rfl, rfl⟩
    · (refine .inr ?_; and_intros <;> rfl)
    · exact .inr ⟨rfl, rfl, rfl⟩
    · exact Keeps.refl _ _
  clear_value x3
  refine AnswerKeeps.next ?_
  refine Keeps.ite ?_ ?_
  · split
    · lift_lets -underBinder
      intro x4
      refine Keeps.step (keeps_snapStrobe _ _ _ _) rfl ?_
      refine Keeps.with_gen ?_ ?_ ?_ ?_ ?_
      · (refine .inr ?_; and_intros <;> rfl)
      · exact .inr ⟨rfl, rfl, rfl⟩
      · (refine .inr ?_; and_intros <;> rfl)
      · exact .inl rfl
      · exact h3
    · exact h3
  · exact Keeps.refl _ _

theorem keeps_execCut (s : State) :
    AnswerKeeps (andBell [.epoch, .clock, .watch, .subs, .crier]) s (execCut s) := by
  unfold execCut
  refine AnswerKeeps.next ?_
  refine Keeps.ite ?_ ?_
  · refine Keeps.step (keeps_doCut _) rfl ?_
    refine Keeps.step (keeps_advanceTo _ _) rfl ?_
    exact Keeps.refl _ _
  · exact Keeps.refl _ _

/-! ## Machine/Time.lean -/

theorem keeps_stepTime (s : State) (offset : Int) :
    Keeps (andBell [.epoch, .freeze, .tai, .staged, .held, .parity, .watch, .subs, .crier, .rings]) s (State.stepTime s offset) := by
  unfold State.stepTime
  lift_lets -underBinder
  intro x1 x2 x3
  have h3 : Keeps (andBell   [.epoch, .freeze, .tai, .staged, .held, .parity, .watch, .subs, .crier,     .rings]) s x3 := by
    refine Keeps.with_time ?_ ?_ ?_
    · exact .inr rfl
    · exact .inl rfl
    · exact Keeps.refl _ _
  clear_value x3
  intro x4 x5
  have h5 : Keeps (andBell   [.epoch, .freeze, .tai, .staged, .held, .parity, .watch, .subs, .crier,     .rings]) s x5 := by
    refine Keeps.with_time ?_ ?_ ?_
    · exact .inr rfl
    · exact .inl rfl
    · exact h3
  clear_value x5
  refine Keeps.step (keeps_realign _) rfl ?_
  refine Keeps.step (keeps_postEvent _ _ _ _) rfl ?_
  refine Keeps.step (keeps_postEvent _ _ _ _) rfl ?_
  exact h5

theorem keeps_applyTime (s : State) (q : TimeReq) :
    Keeps (andBell [.epoch, .freeze, .tai, .staged, .held, .parity, .watch, .subs, .crier, .lock, .rings]) s (State.applyTime s q) := by
  unfold State.applyTime
  lift_lets -underBinder
  intro x1 x2
  have h2 : Keeps (andBell   [.epoch, .freeze, .tai, .staged, .held, .parity, .watch, .subs, .crier, .lock,     .rings]) s x2 := by
    refine Keeps.with_time ?_ ?_ ?_
    · exact .inr rfl
    · exact .inl rfl
    · exact Keeps.refl _ _
  clear_value x2
  intro x3
  have h3 : Keeps (andBell   [.epoch, .freeze, .tai, .staged, .held, .parity, .watch, .subs, .crier, .lock,     .rings]) s x3 := by
    refine Keeps.step (keeps_stepTime _ _) rfl ?_
    exact h2
  clear_value x3
  refine Keeps.step (keeps_endCommand _ _ _ _ _ _) rfl ?_
  exact h3

theorem keeps_ppsEdge (s : State) :
    Keeps (andBell [.epoch, .freeze, .tai, .staged, .held, .parity, .watch, .subs, .crier, .lock, .rings]) s (State.ppsEdge s) := by
  unfold State.ppsEdge
  lift_lets -underBinder
  intro x1 x2 x3 x4 x5
  have h5 : Keeps (andBell   [.epoch, .freeze, .tai, .staged, .held, .parity, .watch, .subs, .crier, .lock,     .rings]) s x5 := by
    refine Keeps.ite ?_ ?_
    · refine Keeps.with_time ?_ ?_ ?_
      · exact .inr rfl
      · exact .inl rfl
      · exact Keeps.refl _ _
    · exact Keeps.refl _ _
  clear_value x5
  intro x6
  have h6 : Keeps (andBell   [.epoch, .freeze, .tai, .staged, .held, .parity, .watch, .subs, .crier, .lock,     .rings]) s x6 := by
    unfold x6
    split
    · refine Keeps.ite ?_ ?_
      · refine Keeps.step (keeps_applyTime _ _) rfl ?_
        exact h5
      · exact h5
    · exact h5
  clear_value x6
  intro x7
  refine Keeps.with_time ?_ ?_ ?_
  · exact .inr rfl
  · exact .inl rfl
  · exact h6

theorem keeps_execTimeSetTimeout (s : State) :
    AnswerKeeps (andBell [.clock, .tai, .lock, .rings]) s (execTimeSetTimeout s) := by
  unfold execTimeSetTimeout
  refine AnswerKeeps.next ?_
  split
  · lift_lets -underBinder
    intro x1
    have h1 : Keeps (andBell [.clock, .tai, .lock, .rings]) s x1 := by
      refine Keeps.step (keeps_advanceTo _ _) rfl ?_
      exact Keeps.refl _ _
    clear_value x1
    intro x2 x3
    have h3 : Keeps (andBell [.clock, .tai, .lock, .rings]) s x3 := by
      refine Keeps.with_time ?_ ?_ ?_
      · exact .inl rfl
      · exact .inl rfl
      · exact h1
    clear_value x3
    refine Keeps.step (keeps_endCommand _ _ _ _ _ _) rfl ?_
    exact h3
  · exact Keeps.refl _ _

theorem keeps_portAction (s : State) (e : Ep) (action : Nat) (p : Nat) :
    Keeps [.staged, .held, .counters, .parity, .engines, .xcvr] s (State.portAction s e action p) := by
  unfold State.portAction
  lift_lets -underBinder
  intro x1 x2
  split
  · refine Keeps.step (keeps_stageWrite _ _ _ _) rfl ?_
    exact Keeps.refl _ _
  · refine Keeps.step (keeps_stageWrite _ _ _ _) rfl ?_
    exact Keeps.refl _ _
  · refine Keeps.step (keeps_recover _ _) rfl ?_
    exact Keeps.refl _ _
  · refine Keeps.step (keeps_fgClear _ _) rfl ?_
    exact Keeps.refl _ _

theorem keeps_execTimeSetApply (s : State) :
    AnswerKeeps (andBell [.epoch, .freeze, .clock, .tai, .staged, .held, .parity, .watch, .subs, .crier, .lock, .rings]) s (execTimeSetApply s) := by
  unfold execTimeSetApply
  refine AnswerKeeps.next ?_
  split
  · refine Keeps.step (keeps_applyTime _ _) rfl ?_
    refine Keeps.step (keeps_advanceTo _ _) rfl ?_
    exact Keeps.refl _ _
  · exact Keeps.refl _ _

theorem keeps_execPpsLost (s : State) :
    AnswerKeeps [.clock, .tai] s (execPpsLost s) := by
  unfold execPpsLost
  lift_lets -underBinder
  intro x1
  have h1 : Keeps [.clock, .tai] s x1 := by
    refine Keeps.step (keeps_advanceTo _ _) rfl ?_
    exact Keeps.refl _ _
  clear_value x1
  intro x2
  refine AnswerKeeps.next ?_
  refine Keeps.ite ?_ ?_
  · refine Keeps.with_time ?_ ?_ ?_
    · exact .inl rfl
    · exact .inl rfl
    · exact h1
  · exact Keeps.refl _ _

theorem keeps_execPortCtl (c : CmdEntry) (s : State) :
    AnswerKeeps (andBell [.staged, .held, .parity, .engines, .xcvr, .lock, .rings]) s (execPortCtl c s) := by
  unfold execPortCtl
  refine AnswerKeeps.next ?_
  refine Keeps.trans ?_ (keeps_startCommand _ _ _ _ (fun u1 => ?_) rfl)
  · exact Keeps.refl _ _
  · refine Keeps.ite ?_ ?_
    · refine Keeps.step (keeps_endCmd _ _ _ _ _) rfl ?_
      exact Keeps.refl _ _
    · lift_lets -underBinder
      intro x2 x3
      refine Keeps.step (keeps_endCmd _ _ _ _ _) rfl ?_
      refine Keeps.foldl (fun u4 y5 => ?_) ?_
      · refine Keeps.step (keeps_portAction _ _ _ _) rfl ?_
        exact Keeps.refl _ _
      · exact Keeps.refl _ _

theorem keeps_execTimeSet (c : CmdEntry) (s : State) :
    AnswerKeeps (andBell [.tai, .lock, .rings]) s (execTimeSet c s) := by
  unfold execTimeSet
  refine AnswerKeeps.next ?_
  refine Keeps.trans ?_ (keeps_startCommand _ _ _ _ (fun u1 => ?_) rfl)
  · exact Keeps.refl _ _
  · lift_lets -underBinder
    intro x2 x3
    refine Keeps.ite ?_ ?_
    · refine Keeps.step (keeps_endCmd _ _ _ _ _) rfl ?_
      exact Keeps.refl _ _
    · refine Keeps.ite ?_ ?_
      · refine Keeps.step (keeps_endCmd _ _ _ _ _) rfl ?_
        exact Keeps.refl _ _
      · refine Keeps.with_time ?_ ?_ ?_
        · exact .inr rfl
        · exact .inl rfl
        · exact Keeps.refl _ _

theorem keeps_execPpsEdge (rising : Bool) (s : State) :
    AnswerKeeps (andBell [.epoch, .freeze, .tai, .staged, .held, .parity, .watch, .subs, .crier, .lock, .rings]) s (execPpsEdge rising s) := by
  unfold execPpsEdge
  refine AnswerKeeps.next ?_
  refine Keeps.ite ?_ ?_
  · refine Keeps.step (keeps_ppsEdge _) rfl ?_
    exact Keeps.refl _ _
  · exact Keeps.refl _ _

/-! ## Machine/RegisterWrites.lean -/

theorem keeps_xcvrCmd (s : State) (wc : Word) :
    Keeps [.xcvr] s (State.xcvrCmd s wc) := by
  unfold State.xcvrCmd
  lift_lets -underBinder
  intro x1
  have h1 : Keeps [.xcvr] s x1 := by
    refine Keeps.ite ?_ ?_
    · refine Keeps.step (keeps_fgClear _ _) rfl ?_
      exact Keeps.refl _ _
    · exact Keeps.refl _ _
  clear_value x1
  refine Keeps.ite ?_ ?_
  · refine Keeps.step (keeps_ackWake _) rfl ?_
    exact h1
  · exact h1

theorem keeps_unitEffect (s : State) (a : Access) (wc : Word) :
    Keeps (andBell [.owner, .engines, .ports, .xcvr, .watch, .scriv, .subs, .crier, .lock, .rings, .routes, .cells, .srcs, .stew, .tink, .firmware]) s (State.unitEffect s a wc) := by
  unfold State.unitEffect
  refine Keeps.ite ?_ ?_
  · refine Keeps.ite ?_ ?_
    · lift_lets -underBinder
      intro x1
      refine Keeps.with_regs ?_ ?_ ?_ ?_ ?_ ?_ ?_ ?_ ?_
      · exact .inr rfl
      · exact .inr rfl
      · exact .inr rfl
      · exact .inl rfl
      · exact .inr ⟨rfl, rfl⟩
      · exact .inr ⟨rfl, rfl, rfl⟩
      · (refine .inr ?_; and_intros <;> rfl)
      · exact .inl rfl
      · exact Keeps.refl _ _
    · exact Keeps.refl _ _
  · refine Keeps.ite ?_ ?_
    · refine Keeps.ite ?_ ?_
      · refine Keeps.step (keeps_dropHead _ _ _) rfl ?_
        exact Keeps.refl _ _
      · exact Keeps.refl _ _
    · refine Keeps.ite ?_ ?_
      · refine Keeps.step (keeps_bellPendClr _ _) rfl ?_
        exact Keeps.refl _ _
      · refine Keeps.ite ?_ ?_
        · refine Keeps.step (keeps_stewCmd _ _) rfl ?_
          exact Keeps.refl _ _
        · refine Keeps.ite ?_ ?_
          · refine Keeps.step (keeps_sliceSel _ _) rfl ?_
            exact Keeps.refl _ _
          · refine Keeps.ite ?_ ?_
            · refine Keeps.step (keeps_xcvrCmd _ _) rfl ?_
              exact Keeps.refl _ _
            · split
              · refine Keeps.ite ?_ ?_
                · refine Keeps.step (keeps_recover _ _) rfl ?_
                  exact Keeps.refl _ _
                · exact Keeps.refl _ _
              · refine Keeps.ite ?_ ?_
                · refine Keeps.step (keeps_bellService _) rfl ?_
                  exact Keeps.refl _ _
                · exact Keeps.refl _ _

theorem keeps_lockEffect (s : State) (a : Access) (wc : Word) :
    Keeps (andBell [.frames, .halves, .keks, .lock, .rings]) s (State.lockEffect s a wc) := by
  unfold State.lockEffect
  refine Keeps.ite ?_ ?_
  · refine Keeps.ite ?_ ?_
    · refine Keeps.step (keeps_eraseKeys _ _) rfl ?_
      exact Keeps.refl _ _
    · exact Keeps.refl _ _
  · refine Keeps.ite ?_ ?_
    · refine Keeps.ite ?_ ?_
      · lift_lets -underBinder
        intro x1
        refine Keeps.with_lock ?_ ?_ ?_ ?_
        · exact .inl rfl
        · exact .inl rfl
        · exact .inl rfl
        · exact Keeps.refl _ _
      · exact Keeps.refl _ _
    · refine Keeps.ite ?_ ?_
      · refine Keeps.step (keeps_kmWrite _ _ _) rfl ?_
        exact Keeps.refl _ _
      · refine Keeps.ite ?_ ?_
        · refine Keeps.step (keeps_captureSlot _ _) rfl ?_
          exact Keeps.refl _ _
        · exact Keeps.refl _ _

theorem keeps_genEffect (s : State) (a : Access) (wc : Word) (hold : Bool) :
    Keeps (faultParts ++ [.epoch, .freeze, .snap, .snapCopies, .locks, .owner, .subs, .bitmaps, .halves, .cellar]) s (State.genEffect s a wc hold) := by
  unfold State.genEffect
  refine Keeps.ite ?_ ?_
  · refine Keeps.step (keeps_unlock _ _ _) rfl ?_
    exact Keeps.refl _ _
  · refine Keeps.ite ?_ ?_
    · lift_lets -underBinder
      intro x1
      refine Keeps.ite ?_ ?_
      · exact Keeps.refl _ _
      · refine Keeps.step (keeps_ownerMove _ _ _) rfl ?_
        exact Keeps.refl _ _
    · refine Keeps.ite ?_ ?_
      · refine Keeps.ite ?_ ?_
        · refine Keeps.step (keeps_snapshot _ _ _) rfl ?_
          exact Keeps.refl _ _
        · exact Keeps.refl _ _
      · refine Keeps.ite ?_ ?_
        · refine Keeps.step (keeps_epochCtl _ _) rfl ?_
          exact Keeps.refl _ _
        · refine Keeps.ite ?_ ?_
          · refine Keeps.ite ?_ ?_
            · refine Keeps.step (keeps_genCommit _) rfl ?_
              exact Keeps.refl _ _
            · exact Keeps.refl _ _
          · refine Keeps.ite ?_ ?_
            · refine Keeps.ite ?_ ?_
              · refine Keeps.step (keeps_cancelSwap _) rfl ?_
                exact Keeps.refl _ _
              · refine Keeps.ite ?_ ?_
                · refine Keeps.step (keeps_requestSwap _) rfl ?_
                  exact Keeps.refl _ _
                · exact Keeps.refl _ _
            · exact Keeps.refl _ _

theorem keeps_sysEffect (s : State) (a : Access) (wc : Word) :
    Keeps allButPending s (State.sysEffect s a wc) := by
  unfold State.sysEffect
  refine Keeps.ite ?_ ?_
  · refine Keeps.step (keeps_writeTarget _ _) rfl ?_
    exact Keeps.refl _ _
  · refine Keeps.ite ?_ ?_
    · refine Keeps.ite ?_ ?_
      · refine Keeps.step (keeps_endSession _) rfl ?_
        exact Keeps.refl _ _
      · exact Keeps.refl _ _
    · refine Keeps.ite ?_ ?_
      · refine Keeps.step (keeps_lcCmd _ _) rfl ?_
        exact Keeps.refl _ _
      · refine Keeps.ite ?_ ?_
        · refine Keeps.ite ?_ ?_
          · refine Keeps.step (keeps_deviceReset _ _ _) rfl ?_
            exact Keeps.refl _ _
          · exact Keeps.refl _ _
        · refine Keeps.ite ?_ ?_
          · refine Keeps.step (keeps_fwCmd _ _ _) rfl ?_
            exact Keeps.refl _ _
          · refine Keeps.ite ?_ ?_
            · refine Keeps.step (keeps_flWrite _ _) rfl ?_
              exact Keeps.refl _ _
            · refine Keeps.ite ?_ ?_
              · refine Keeps.step (keeps_flSelect _) rfl ?_
                exact Keeps.refl _ _
              · refine Keeps.ite ?_ ?_
                · refine Keeps.step (keeps_captureHeader _ _) rfl ?_
                  exact Keeps.refl _ _
                · exact Keeps.refl _ _

theorem keeps_watchEffect (s : State) (a : Access) (wc : Word) :
    Keeps (faultParts ++ [.records, .cellar]) s (State.watchEffect s a wc) := by
  unfold State.watchEffect
  refine Keeps.ite ?_ ?_
  · refine Keeps.step (keeps_captureWatch _ _) rfl ?_
    exact Keeps.refl _ _
  · refine Keeps.ite ?_ ?_
    · refine Keeps.step (keeps_forceCmd _ _) rfl ?_
      exact Keeps.refl _ _
    · refine Keeps.ite ?_ ?_
      · refine Keeps.step (keeps_captureRec _ _) rfl ?_
        exact Keeps.refl _ _
      · refine Keeps.ite ?_ ?_
        · refine Keeps.step (keeps_captureHash _ _) rfl ?_
          exact Keeps.refl _ _
        · exact Keeps.refl _ _

theorem keeps_writeEffect (s : State) (a : Access) (hold : Bool) :
    Keeps allButPending s (State.writeEffect s a hold) := by
  unfold State.writeEffect
  lift_lets -underBinder
  intro x1
  refine Keeps.ite ?_ ?_
  · refine Keeps.step (keeps_genEffect _ _ _ _) rfl ?_
    exact Keeps.refl _ _
  · refine Keeps.ite ?_ ?_
    · refine Keeps.step (keeps_watchEffect _ _ _) rfl ?_
      exact Keeps.refl _ _
    · refine Keeps.ite ?_ ?_
      · refine Keeps.step (keeps_lockEffect _ _ _) rfl ?_
        exact Keeps.refl _ _
      · refine Keeps.ite ?_ ?_
        · refine Keeps.step (keeps_sysEffect _ _ _) rfl ?_
          exact Keeps.refl _ _
        · refine Keeps.step (keeps_unitEffect _ _ _) rfl ?_
          exact Keeps.refl _ _

theorem keeps_perform (s : State) (a : Access) (g : RegGroup) :
    Keeps allButPending s (State.perform s a g) := by
  unfold State.perform
  refine Keeps.ite ?_ ?_
  · refine Keeps.step (keeps_count _ _) rfl ?_
    exact Keeps.refl _ _
  · refine Keeps.ite ?_ ?_
    · exact Keeps.refl _ _
    · refine Keeps.step (keeps_writeEffect _ _ _) rfl ?_
      refine Keeps.step (keeps_writeFields _ _ _) rfl ?_
      exact Keeps.refl _ _

theorem keeps_access (s : State) (a : Access) :
    AnswerKeeps allButPending s (State.access s a) := by
  unfold State.access
  split
  · refine AnswerKeeps.next ?_
    exact Keeps.refl _ _
  · refine AnswerKeeps.ite ?_ ?_
    · exact AnswerKeeps.refused
    · refine AnswerKeeps.next ?_
      refine Keeps.step (keeps_perform _ _ _) rfl ?_
      exact Keeps.refl _ _

theorem keeps_performPosted (s : State) (xs : Posted) :
    AnswerKeeps allButPending s (State.performPosted s xs) := by
  unfold State.performPosted
  split
  · split
    · refine AnswerKeeps.next ?_
      refine Keeps.step (FstKeeps.eq (keeps_accept _ _ _ _ _ _) (by assumption)) rfl ?_
      exact Keeps.refl _ _
    · refine AnswerKeeps.step (keeps_access _ _) rfl ?_
      refine Keeps.step (FstKeeps.eq (keeps_accept _ _ _ _ _ _) (by assumption)) rfl ?_
      exact Keeps.refl _ _
  · refine AnswerKeeps.next ?_
    refine Keeps.step (keeps_doorbell _ _ _ _ _) rfl ?_
    exact Keeps.refl _ _
  · refine AnswerKeeps.next ?_
    refine Keeps.step (keeps_emit _ _) rfl ?_
    refine Keeps.step (l := _) (keeps_bellClaim _ _) rfl ?_
    exact Keeps.refl _ _
  · refine AnswerKeeps.next ?_
    refine Keeps.step (keeps_bellEoi _ _ _) rfl ?_
    exact Keeps.refl _ _
  · refine AnswerKeeps.next ?_
    refine Keeps.step (keeps_bellSetMask _ _ _) rfl ?_
    exact Keeps.refl _ _
  · refine AnswerKeeps.next ?_
    refine Keeps.step (keeps_msixWrite _ _ _ _ _) rfl ?_
    exact Keeps.refl _ _

theorem keeps_arrive (s : State) (x : Posted) :
    AnswerKeeps allButPending s (State.arrive s x) := by
  unfold State.arrive
  refine AnswerKeeps.ite ?_ ?_
  · lift_lets -underBinder
    intro x1
    refine AnswerKeeps.next ?_
    refine Keeps.with_regs ?_ ?_ ?_ ?_ ?_ ?_ ?_ ?_ ?_
    · exact .inl rfl
    · exact .inl rfl
    · exact .inl rfl
    · exact .inl rfl
    · exact .inl rfl
    · exact .inl rfl
    · exact .inl rfl
    · exact .inl rfl
    · exact Keeps.refl _ _
  · refine AnswerKeeps.step (keeps_performPosted _ _) rfl ?_
    exact Keeps.refl _ _

theorem keeps_busWrite (s : State) (p : Path) (off : Nat) (size : Nat) (val : Word) (flashOk : Bool) :
    AnswerKeeps allButPending s (State.busWrite s p off size val flashOk) := by
  unfold State.busWrite
  refine AnswerKeeps.step (keeps_arrive _ _) rfl ?_
  exact Keeps.refl _ _

theorem keeps_write (s : State) (p : Path) (off : Nat) (val : Word) :
    AnswerKeeps allButPending s (State.write s p off val) := by
  unfold State.write
  refine AnswerKeeps.step (keeps_busWrite _ _ _ _ _ _) rfl ?_
  exact Keeps.refl _ _

theorem keeps_execForceCmdRelease (p : Path) (val : Word) (s : State) :
    AnswerKeeps allButPending s (execForceCmdRelease p val s) := by
  unfold execForceCmdRelease
  refine AnswerKeeps.step (keeps_write _ _ _ _) rfl ?_
  exact Keeps.refl _ _

theorem keeps_execLockSlotSel (p : Path) (val : Word) (s : State) :
    AnswerKeeps allButPending s (execLockSlotSel p val s) := by
  unfold execLockSlotSel
  refine AnswerKeeps.step (keeps_write _ _ _ _) rfl ?_
  exact Keeps.refl _ _

theorem keeps_execLockZeroize (p : Path) (val : Word) (s : State) :
    AnswerKeeps allButPending s (execLockZeroize p val s) := by
  unfold execLockZeroize
  refine AnswerKeeps.step (keeps_write _ _ _ _) rfl ?_
  exact Keeps.refl _ _

theorem keeps_execRegisterWrite (p : Path) (off : Nat) (size : Nat) (val : Word) (s : State) :
    AnswerKeeps allButPending s (execRegisterWrite p off size val s) := by
  unfold execRegisterWrite
  refine AnswerKeeps.step (keeps_busWrite _ _ _ _ _ _) rfl ?_
  exact Keeps.refl _ _

theorem keeps_execFlData (p : Path) (val : Word) (s : State) :
    AnswerKeeps allButPending s (execFlData p val s) := by
  unfold execFlData
  refine AnswerKeeps.step (keeps_write _ _ _ _) rfl ?_
  exact Keeps.refl _ _

theorem keeps_execFwCmdConfirm (p : Path) (val : Word) (s : State) :
    AnswerKeeps allButPending s (execFwCmdConfirm p val s) := by
  unfold execFwCmdConfirm
  refine AnswerKeeps.step (keeps_write _ _ _ _) rfl ?_
  exact Keeps.refl _ _

theorem keeps_execFwSel (p : Path) (val : Word) (s : State) :
    AnswerKeeps allButPending s (execFwSel p val s) := by
  unfold execFwSel
  refine AnswerKeeps.step (keeps_write _ _ _ _) rfl ?_
  exact Keeps.refl _ _

theorem keeps_execFwCmdRevert (p : Path) (val : Word) (s : State) :
    AnswerKeeps allButPending s (execFwCmdRevert p val s) := by
  unfold execFwCmdRevert
  refine AnswerKeeps.step (keeps_write _ _ _ _) rfl ?_
  exact Keeps.refl _ _

theorem keeps_execPortCmdRecover (p : Path) (eng : Nat) (val : Word) (s : State) :
    AnswerKeeps allButPending s (execPortCmdRecover p eng val s) := by
  unfold execPortCmdRecover
  refine AnswerKeeps.step (keeps_write _ _ _ _) rfl ?_
  exact Keeps.refl _ _

theorem keeps_execBellGdis (p : Path) (val : Word) (s : State) :
    AnswerKeeps allButPending s (execBellGdis p val s) := by
  unfold execBellGdis
  refine AnswerKeeps.step (keeps_write _ _ _ _) rfl ?_
  exact Keeps.refl _ _

theorem keeps_execKmLockClaim (p : Path) (val : Word) (s : State) :
    AnswerKeeps allButPending s (execKmLockClaim p val s) := by
  unfold execKmLockClaim
  refine AnswerKeeps.step (keeps_write _ _ _ _) rfl ?_
  exact Keeps.refl _ _

theorem keeps_execGenUnlock (p : Path) (val : Word) (s : State) :
    AnswerKeeps allButPending s (execGenUnlock p val s) := by
  unfold execGenUnlock
  refine AnswerKeeps.step (keeps_write _ _ _ _) rfl ?_
  exact Keeps.refl _ _

theorem keeps_execForceCmdForce (p : Path) (val : Word) (s : State) :
    AnswerKeeps allButPending s (execForceCmdForce p val s) := by
  unfold execForceCmdForce
  refine AnswerKeeps.step (keeps_write _ _ _ _) rfl ?_
  exact Keeps.refl _ _

theorem keeps_execFwCmdActivate (p : Path) (val : Word) (s : State) :
    AnswerKeeps allButPending s (execFwCmdActivate p val s) := by
  unfold execFwCmdActivate
  refine AnswerKeeps.step (keeps_write _ _ _ _) rfl ?_
  exact Keeps.refl _ _

theorem keeps_execEpochCtlHold (p : Path) (val : Word) (s : State) :
    AnswerKeeps allButPending s (execEpochCtlHold p val s) := by
  unfold execEpochCtlHold
  refine AnswerKeeps.step (keeps_write _ _ _ _) rfl ?_
  exact Keeps.refl _ _

theorem keeps_execFwCmdRoll (p : Path) (val : Word) (s : State) :
    AnswerKeeps allButPending s (execFwCmdRoll p val s) := by
  unfold execFwCmdRoll
  refine AnswerKeeps.step (keeps_write _ _ _ _) rfl ?_
  exact Keeps.refl _ _

theorem keeps_execGenSwapCancel (p : Path) (val : Word) (s : State) :
    AnswerKeeps allButPending s (execGenSwapCancel p val s) := by
  unfold execGenSwapCancel
  refine AnswerKeeps.step (keeps_write _ _ _ _) rfl ?_
  exact Keeps.refl _ _

theorem keeps_execDbgCtlEnd (p : Path) (val : Word) (s : State) :
    AnswerKeeps allButPending s (execDbgCtlEnd p val s) := by
  unfold execDbgCtlEnd
  refine AnswerKeeps.step (keeps_write _ _ _ _) rfl ?_
  exact Keeps.refl _ _

theorem keeps_execEpochCtlRunStart (p : Path) (val : Word) (s : State) :
    AnswerKeeps allButPending s (execEpochCtlRunStart p val s) := by
  unfold execEpochCtlRunStart
  refine AnswerKeeps.step (keeps_write _ _ _ _) rfl ?_
  exact Keeps.refl _ _

theorem keeps_execScrivHashIn (p : Path) (val : Word) (s : State) :
    AnswerKeeps allButPending s (execScrivHashIn p val s) := by
  unfold execScrivHashIn
  refine AnswerKeeps.step (keeps_write _ _ _ _) rfl ?_
  exact Keeps.refl _ _

theorem keeps_execTxqDropHead (p : Path) (val : Word) (s : State) :
    AnswerKeeps allButPending s (execTxqDropHead p val s) := by
  unfold execTxqDropHead
  refine AnswerKeeps.step (keeps_write _ _ _ _) rfl ?_
  exact Keeps.refl _ _

theorem keeps_execRstCmdFull (p : Path) (val : Word) (s : State) :
    AnswerKeeps allButPending s (execRstCmdFull p val s) := by
  unfold execRstCmdFull
  refine AnswerKeeps.step (keeps_write _ _ _ _) rfl ?_
  exact Keeps.refl _ _

theorem keeps_execLockCmdAck (p : Path) (val : Word) (s : State) :
    AnswerKeeps allButPending s (execLockCmdAck p val s) := by
  unfold execLockCmdAck
  refine AnswerKeeps.step (keeps_write _ _ _ _) rfl ?_
  exact Keeps.refl _ _

theorem keeps_execAliasWrite (p : Path) (off : Nat) (size : Nat) (val : Word) (s : State) :
    AnswerKeeps allButPending s (execAliasWrite p off size val s) := by
  unfold execAliasWrite
  refine AnswerKeeps.step (keeps_busWrite _ _ _ _ _ _) rfl ?_
  exact Keeps.refl _ _

theorem keeps_execBellSrcEn (p : Path) (src : Nat) (val : Word) (s : State) :
    AnswerKeeps allButPending s (execBellSrcEn p src val s) := by
  unfold execBellSrcEn
  refine AnswerKeeps.step (keeps_write _ _ _ _) rfl ?_
  exact Keeps.refl _ _

theorem keeps_replay (s : State) (xs : List Posted) :
    AnswerKeeps allButPending s (State.replay s xs) := by
  induction xs generalizing s with
  | nil => exact AnswerKeeps.next (keeps_pending rfl)
  | cons x xs ih =>
    unfold State.replay
    refine AnswerKeeps.ite (AnswerKeeps.next (keeps_pending rfl)) ?_
    have h := keeps_performPosted s x
    generalize s.performPosted x = a at h
    cases a with
    | next u => exact AnswerKeeps.step (ih _) rfl (Keeps.step (h u rfl) rfl (Keeps.refl _ _))
    | fault _ => exact fun _ e => nomatch e
    | refused _ => exact AnswerKeeps.refused

theorem keeps_execConfigReload (off : Nat) (s : State) :
    AnswerKeeps allButPending s (execConfigReload off s) := by
  unfold execConfigReload
  refine AnswerKeeps.ite ?_ ?_
  · lift_lets -underBinder
    intro x1
    refine AnswerKeeps.step (keeps_replay _ _) rfl ?_
    refine Keeps.step (keeps_mendCopy _ _) rfl ?_
    refine Keeps.with_regs ?_ ?_ ?_ ?_ ?_ ?_ ?_ ?_ ?_
    · exact .inl rfl
    · exact .inl rfl
    · exact .inl rfl
    · exact .inl rfl
    · exact .inl rfl
    · exact .inl rfl
    · exact .inl rfl
    · exact .inl rfl
    · exact Keeps.refl _ _
  · refine AnswerKeeps.next ?_
    exact Keeps.refl _ _

theorem keeps_execBellPendClr (p : Path) (val : Word) (s : State) :
    AnswerKeeps allButPending s (execBellPendClr p val s) := by
  unfold execBellPendClr
  refine AnswerKeeps.step (keeps_write _ _ _ _) rfl ?_
  exact Keeps.refl _ _

theorem keeps_execStewCmdRclr (p : Path) (val : Word) (s : State) :
    AnswerKeeps allButPending s (execStewCmdRclr p val s) := by
  unfold execStewCmdRclr
  refine AnswerKeeps.step (keeps_write _ _ _ _) rfl ?_
  exact Keeps.refl _ _

theorem keeps_execGenSnapTake (p : Path) (val : Word) (s : State) :
    AnswerKeeps allButPending s (execGenSnapTake p val s) := by
  unfold execGenSnapTake
  refine AnswerKeeps.step (keeps_write _ _ _ _) rfl ?_
  exact Keeps.refl _ _

theorem keeps_execBellMask (e : Ep) (l : Nat) (val : Word) (s : State) :
    AnswerKeeps allButPending s (execBellMask e l val s) := by
  unfold execBellMask
  refine AnswerKeeps.step (keeps_arrive _ _) rfl ?_
  exact Keeps.refl _ _

theorem keeps_execWakeAck (p : Path) (val : Word) (s : State) :
    AnswerKeeps allButPending s (execWakeAck p val s) := by
  unfold execWakeAck
  refine AnswerKeeps.step (keeps_write _ _ _ _) rfl ?_
  exact Keeps.refl _ _

theorem keeps_execFwCmdProgram (p : Path) (val : Word) (flashOk : Bool) (s : State) :
    AnswerKeeps allButPending s (execFwCmdProgram p val flashOk s) := by
  unfold execFwCmdProgram
  refine AnswerKeeps.step (keeps_busWrite _ _ _ _ _ _) rfl ?_
  exact Keeps.refl _ _

theorem keeps_execFlAddr (p : Path) (val : Word) (s : State) :
    AnswerKeeps allButPending s (execFlAddr p val s) := by
  unfold execFlAddr
  refine AnswerKeeps.step (keeps_write _ _ _ _) rfl ?_
  exact Keeps.refl _ _

theorem keeps_execOwnHbBeat (p : Path) (val : Word) (s : State) :
    AnswerKeeps allButPending s (execOwnHbBeat p val s) := by
  unfold execOwnHbBeat
  refine AnswerKeeps.step (keeps_write _ _ _ _) rfl ?_
  exact Keeps.refl _ _

theorem keeps_execPwrCtlTarget (p : Path) (val : Word) (s : State) :
    AnswerKeeps allButPending s (execPwrCtlTarget p val s) := by
  unfold execPwrCtlTarget
  refine AnswerKeeps.step (keeps_write _ _ _ _) rfl ?_
  exact Keeps.refl _ _

theorem keeps_execWatchWsel (p : Path) (val : Word) (s : State) :
    AnswerKeeps allButPending s (execWatchWsel p val s) := by
  unfold execWatchWsel
  refine AnswerKeeps.step (keeps_write _ _ _ _) rfl ?_
  exact Keeps.refl _ _

theorem keeps_execEpochCtlRunStop (p : Path) (val : Word) (s : State) :
    AnswerKeeps allButPending s (execEpochCtlRunStop p val s) := by
  unfold execEpochCtlRunStop
  refine AnswerKeeps.step (keeps_write _ _ _ _) rfl ?_
  exact Keeps.refl _ _

theorem keeps_execTinkSliceSel (p : Path) (val : Word) (s : State) :
    AnswerKeeps allButPending s (execTinkSliceSel p val s) := by
  unfold execTinkSliceSel
  refine AnswerKeeps.step (keeps_write _ _ _ _) rfl ?_
  exact Keeps.refl _ _

theorem keeps_execLcCmdGo (p : Path) (val : Word) (s : State) :
    AnswerKeeps allButPending s (execLcCmdGo p val s) := by
  unfold execLcCmdGo
  refine AnswerKeeps.step (keeps_write _ _ _ _) rfl ?_
  exact Keeps.refl _ _

theorem keeps_execBellClaim (e : Ep) (l : Nat) (s : State) :
    AnswerKeeps allButPending s (execBellClaim e l s) := by
  unfold execBellClaim
  refine AnswerKeeps.step (keeps_arrive _ _) rfl ?_
  exact Keeps.refl _ _

theorem keeps_execFgClear (p : Path) (val : Word) (s : State) :
    AnswerKeeps allButPending s (execFgClear p val s) := by
  unfold execFgClear
  refine AnswerKeeps.step (keeps_write _ _ _ _) rfl ?_
  exact Keeps.refl _ _

theorem keeps_execBellEoi (e : Ep) (l : Nat) (val : Word) (s : State) :
    AnswerKeeps allButPending s (execBellEoi e l val s) := by
  unfold execBellEoi
  refine AnswerKeeps.step (keeps_arrive _ _) rfl ?_
  exact Keeps.refl _ _

theorem keeps_execDoorbell (e : Ep) (ring : Nat) (off : Nat) (val : Word) (s : State) :
    AnswerKeeps allButPending s (execDoorbell e ring off val s) := by
  unfold execDoorbell
  refine AnswerKeeps.step (keeps_arrive _ _) rfl ?_
  exact Keeps.refl _ _

theorem keeps_execParityScan (bad : List (RegCopy × Nat)) (s : State) (later : List (RegCopy × Nat)) :
    AnswerKeeps faultParts s (execParityScan bad s later) := by
  unfold execParityScan
  lift_lets -underBinder
  intro x1
  have h1 : Keeps (faultParts) s x1 := by
    refine Keeps.foldl (fun u2 y3 => ?_) ?_
    · refine Keeps.step (keeps_parityBad _ _) rfl ?_
      exact Keeps.refl _ _
    · exact Keeps.refl _ _
  intro x4 x5
  have h5 : Keeps (faultParts) s x5 := by
    refine Keeps.with_regs ?_ ?_ ?_ ?_ ?_ ?_ ?_ ?_ ?_
    · exact .inl rfl
    · exact .inl rfl
    · exact .inl rfl
    · exact .inl rfl
    · exact .inr ⟨rfl, rfl⟩
    · exact .inr ⟨rfl, rfl, rfl⟩
    · exact .inl rfl
    · exact .inr ⟨rfl, rfl, rfl⟩
    · exact h1
  intro x6
  refine AnswerKeeps.next ?_
  refine Keeps.ite ?_ ?_
  · refine Keeps.with_regs ?_ ?_ ?_ ?_ ?_ ?_ ?_ ?_ ?_
    · exact .inl rfl
    · exact .inl rfl
    · exact .inl rfl
    · exact .inl rfl
    · exact .inr ⟨rfl, rfl⟩
    · exact .inr ⟨rfl, rfl, rfl⟩
    · exact .inl rfl
    · exact .inr ⟨rfl, rfl, rfl⟩
    · exact h5
  · exact h5

theorem keeps_execStewCmdRecover (p : Path) (val : Word) (s : State) :
    AnswerKeeps allButPending s (execStewCmdRecover p val s) := by
  unfold execStewCmdRecover
  refine AnswerKeeps.step (keeps_write _ _ _ _) rfl ?_
  exact Keeps.refl _ _

theorem keeps_execKmLockRelease (p : Path) (val : Word) (s : State) :
    AnswerKeeps allButPending s (execKmLockRelease p val s) := by
  unfold execKmLockRelease
  refine AnswerKeeps.step (keeps_write _ _ _ _) rfl ?_
  exact Keeps.refl _ _

theorem keeps_execStewCmdAck (p : Path) (val : Word) (s : State) :
    AnswerKeeps allButPending s (execStewCmdAck p val s) := by
  unfold execStewCmdAck
  refine AnswerKeeps.step (keeps_write _ _ _ _) rfl ?_
  exact Keeps.refl _ _

theorem keeps_execScrivRecSel (p : Path) (val : Word) (s : State) :
    AnswerKeeps allButPending s (execScrivRecSel p val s) := by
  unfold execScrivRecSel
  refine AnswerKeeps.step (keeps_write _ _ _ _) rfl ?_
  exact Keeps.refl _ _

theorem keeps_execGenOwnerWrite (p : Path) (val : Word) (s : State) :
    AnswerKeeps allButPending s (execGenOwnerWrite p val s) := by
  unfold execGenOwnerWrite
  refine AnswerKeeps.step (keeps_write _ _ _ _) rfl ?_
  exact Keeps.refl _ _

theorem keeps_execGenCommit (p : Path) (val : Word) (s : State) :
    AnswerKeeps allButPending s (execGenCommit p val s) := by
  unfold execGenCommit
  refine AnswerKeeps.step (keeps_write _ _ _ _) rfl ?_
  exact Keeps.refl _ _

theorem keeps_execFwCmdErase (p : Path) (val : Word) (flashOk : Bool) (s : State) :
    AnswerKeeps allButPending s (execFwCmdErase p val flashOk s) := by
  unfold execFwCmdErase
  refine AnswerKeeps.step (keeps_busWrite _ _ _ _ _ _) rfl ?_
  exact Keeps.refl _ _

theorem keeps_execMsiXTableWrite (e : Ep) (w : MsixPlace) (size : Nat) (val : Word) (s : State) :
    AnswerKeeps allButPending s (execMsiXTableWrite e w size val s) := by
  unfold execMsiXTableWrite
  refine AnswerKeeps.step (keeps_arrive _ _) rfl ?_
  exact Keeps.refl _ _

theorem keeps_execGenSwapReq (p : Path) (val : Word) (s : State) :
    AnswerKeeps allButPending s (execGenSwapReq p val s) := by
  unfold execGenSwapReq
  refine AnswerKeeps.step (keeps_write _ _ _ _) rfl ?_
  exact Keeps.refl _ _

/-! ## Machine/Loads.lean -/

theorem keeps_failLoad (s : State) (err : Nat) (rec' : Nat) :
    Keeps (faultParts ++ [.owner, .subs, .bitmaps, .halves, .cellar]) s (State.failLoad s err rec') := by
  unfold State.failLoad
  lift_lets -underBinder
  intro x1
  have h1 : Keeps (faultParts ++ [.owner, .subs, .bitmaps, .halves, .cellar]) s x1 := by
    unfold x1
    split
    · refine Keeps.ite ?_ ?_
      · refine Keeps.step (keeps_memError _ _ _) rfl ?_
        exact Keeps.refl _ _
      · exact Keeps.refl _ _
    · exact Keeps.refl _ _
  clear_value x1
  refine Keeps.step (keeps_unbusy _) rfl ?_
  refine Keeps.step (keeps_loadFail _ _ _) rfl ?_
  exact h1

theorem keeps_execImageRecordRead (words : Option (List Word)) (s : State) :
    AnswerKeeps (faultParts ++ [.owner, .ops, .records, .subs, .bitmaps, .halves, .cellar]) s (execImageRecordRead words s) := by
  unfold execImageRecordRead
  lift_lets -underBinder
  intro x1
  refine AnswerKeeps.next ?_
  split
  · exact Keeps.refl _ _
  · refine Keeps.ite ?_ ?_
    · exact Keeps.refl _ _
    · split
      · refine Keeps.step (keeps_failLoad _ _ _) rfl ?_
        exact Keeps.refl _ _
      · split
        · refine Keeps.step (keeps_failLoad _ _ _) rfl ?_
          exact Keeps.refl _ _
        · lift_lets -underBinder
          intro x2
          refine Keeps.step (keeps_writeRecord _ _ _) rfl ?_
          exact Keeps.refl _ _

theorem keeps_execImageEndCheck (s : State) (readOk : Bool) :
    AnswerKeeps (faultParts ++ [.owner, .subs, .bitmaps, .halves, .cellar]) s (execImageEndCheck s readOk) := by
  unfold execImageEndCheck
  lift_lets -underBinder
  intro x1
  refine AnswerKeeps.next ?_
  refine Keeps.ite ?_ ?_
  · exact Keeps.refl _ _
  · refine Keeps.ite ?_ ?_
    · refine Keeps.step (keeps_failLoad _ _ _) rfl ?_
      exact Keeps.refl _ _
    · refine Keeps.ite ?_ ?_
      · refine Keeps.step (keeps_failLoad _ _ _) rfl ?_
        exact Keeps.refl _ _
      · refine Keeps.ite ?_ ?_
        · refine Keeps.step (keeps_failLoad _ _ _) rfl ?_
          exact Keeps.refl _ _
        · refine Keeps.step (keeps_modLoader _ _) rfl ?_
          exact Keeps.refl _ _

theorem keeps_execImageBankCheck (s : State) :
    AnswerKeeps (faultParts ++ [.owner, .subs, .bitmaps, .halves, .cellar]) s (execImageBankCheck s) := by
  unfold execImageBankCheck
  lift_lets -underBinder
  intro x1
  refine AnswerKeeps.next ?_
  refine Keeps.ite ?_ ?_
  · exact Keeps.refl _ _
  · split
    · refine Keeps.step (keeps_failLoad _ _ _) rfl ?_
      exact Keeps.refl _ _
    · lift_lets -underBinder
      intro x2
      have h2 : Keeps (faultParts ++ [.owner, .subs, .bitmaps, .halves, .cellar]) s x2 := by
        refine Keeps.step (keeps_modBank _ _ _) rfl ?_
        exact Keeps.refl _ _
      clear_value x2
      intro x3
      have h3 : Keeps (faultParts ++ [.owner, .subs, .bitmaps, .halves, .cellar]) s x3 := by
        refine Keeps.step (keeps_modLoader _ _) rfl ?_
        exact h2
      clear_value x3
      refine Keeps.step (keeps_loadEnd _ _ _ _) rfl ?_
      refine Keeps.step (keeps_count _ _) rfl ?_
      exact h3

theorem keeps_execImageWaitEnd (header : Option (List Word)) (s : State) :
    AnswerKeeps (faultParts ++ [.owner, .subs, .bitmaps, .halves, .cellar]) s (execImageWaitEnd header s) := by
  unfold execImageWaitEnd
  lift_lets -underBinder
  intro x1
  refine AnswerKeeps.next ?_
  refine Keeps.ite ?_ ?_
  · exact Keeps.refl _ _
  · split
    · refine Keeps.step (keeps_failLoad _ _ _) rfl ?_
      exact Keeps.refl _ _
    · lift_lets -underBinder
      intro x2
      split
      · refine Keeps.step (keeps_failLoad _ _ _) rfl ?_
        exact Keeps.refl _ _
      · lift_lets -underBinder
        intro x3
        have h3 : Keeps (faultParts ++ [.owner, .subs, .bitmaps, .halves, .cellar]) s x3 := by
          refine Keeps.step (keeps_modLoader _ _) rfl ?_
          exact Keeps.refl _ _
        clear_value x3
        intro x4
        refine Keeps.ite ?_ ?_
        · refine Keeps.step (keeps_loadWrite _) rfl ?_
          refine Keeps.step (keeps_modBank _ _ _) rfl ?_
          exact h3
        · refine Keeps.step (keeps_modLoader _ _) rfl ?_
          exact h3

end Sys2Proof.Laws
end

