-- ==== Sys2Proof/Laws/Staged.lean ====
section
/-! SUPPORT. A commit point at which host items commit leaves nothing staged: the copies move into force, and a handover that
starts there copies the staged copies of a block, of which there are none. -/

namespace Sys2Proof.Laws

open Sys2Proof.Machine Sys2Proof.Safety

theorem copyBlock_staged (s : State) (a b : Nat) (h : s.regs.staged = []) : (s.copyBlock a b).regs.staged = [] := by
  unfold State.copyBlock
  generalize portRwOffsets = l
  induction l generalizing s with
  | nil => exact h
  | cons o l ih =>
    refine ih _ ?_
    simp [h, moveCopy, Table.find?, Table.erase]

theorem offlineHandover_staged (s : State) (p n : Nat) (h : s.regs.staged = []) :
    (s.offlineHandover p n).regs.staged = [] := by
  unfold State.offlineHandover
  rw [Keeps.regs_staged (keeps_switchEngine _ _ _ _) rfl, Keeps.regs_staged (keeps_zeroBlock _ _) rfl]
  exact copyBlock_staged _ _ _ h

theorem startShadow_staged (s : State) (p n : Nat) (b : Requester) (h : s.regs.staged = []) :
    (s.startShadow p n b).regs.staged = [] := by
  unfold State.startShadow
  simp only [modPort_regs, modEngine_regs]
  rw [Keeps.regs_staged (keeps_zeroBlock _ _) rfl]
  exact copyBlock_staged _ _ _ h

theorem requestJudged_staged (s : State) (p n : Nat) (b : Requester) (h : s.regs.staged = []) :
    (s.requestJudged p n b).regs.staged = [] := by
  unfold State.requestJudged
  have h1 : (if (s.port p).shadow.isSome then s.handoverFail p 9 else s).regs.staged = [] := by
    split
    · rw [Keeps.regs_staged (keeps_handoverFail _ _ _) rfl, h]
    · exact h
  generalize (if (s.port p).shadow.isSome then s.handoverFail p 9 else s) = u at h1
  dsimp only
  split
  · exact h1
  split
  · rw [Keeps.regs_staged (keeps_refuseHandover _ _ _ _) rfl, h1]
  split
  · rw [Keeps.regs_staged (keeps_refuseHandover _ _ _ _) rfl, h1]
  split
  · rw [Keeps.regs_staged (keeps_refuseHandover _ _ _ _) rfl, h1]
  split
  · exact offlineHandover_staged _ _ _ h1
  · exact startShadow_staged _ _ _ _ h1

theorem judgeHandover_staged (s : State) (p n : Nat) (b : Requester) (h : s.regs.staged = []) :
    (s.judgeHandover p n b).regs.staged = [] := by
  unfold State.judgeHandover
  rw [Keeps.regs_staged (keeps_engineTryStart _ _) rfl]
  exact requestJudged_staged _ _ _ _ h

theorem staged_foldl {α : Type} (f : State → α → State) (l : List α)
    (hf : ∀ (u : State) (x : α), u.regs.staged = [] → (f u x).regs.staged = []) (s : State) (h : s.regs.staged = []) :
    (l.foldl f s).regs.staged = [] := by
  induction l generalizing s with
  | nil => exact h
  | cons a l ih => exact ih _ (hf _ _ h)

theorem handoverCommit_staged (s : State) (ps : List Nat) (h : s.regs.staged = []) :
    (s.handoverCommit ps).regs.staged = [] := by
  unfold State.handoverCommit
  dsimp only
  rw [Keeps.regs_staged (keeps_handoverSettle _) rfl]
  refine staged_foldl _ _ (fun u p hu => ?_) s h
  have h1 : (if (u.port p).request.isSome then u.modPort p (fun q => { q with request := none }) else u).regs.staged = [] := by
    split
    · simpa using hu
    · exact hu
  generalize (if (u.port p).request.isSome then u.modPort p (fun q => { q with request := none }) else u) = v at h1
  split
  · refine judgeHandover_staged _ _ _ _ ?_
    split
    · refine staged_foldl _ _ (fun w t hw => ?_) v h1
      rw [Keeps.regs_staged (keeps_skipSlice _ _ _) rfl, hw]
    · exact h1
  · split
    · exact judgeHandover_staged _ _ _ _ h1
    · exact h1

theorem commitRegs_staged (s : State) : s.commitRegs.regs.staged = [] := by
  unfold State.commitRegs
  dsimp only
  rw [Keeps.regs_staged (keeps_bellService _) rfl, Keeps.regs_staged (keeps_stewPins _) rfl]
  refine staged_foldl _ _ (fun u p hu => ?_) _ (staged_foldl _ _ (fun u n hu => ?_) _ (staged_foldl _ _ (fun u x hu => ?_) _ ?_))
  · rw [Keeps.regs_staged (keeps_laneCheck _ _) rfl, hu]
  · rw [Keeps.regs_staged (keeps_engineCommit _ _) rfl, hu]
  · rw [Keeps.regs_staged (keeps_commitHook _ _) rfl, hu]
  · rw [Keeps.regs_staged (keeps_ppsCommit _ _) rfl]
    unfold State.portsStep
    refine staged_foldl _ _ (fun u p hu => ?_) _ (staged_foldl _ _ (fun u x hu => ?_) _ rfl)
    · split
      · rw [Keeps.regs_staged (keeps_portDown _ _) rfl, hu]
      · exact hu
    · rw [Keeps.regs_staged (keeps_commitWord _ _ _) rfl, hu]

theorem commitUnits_staged (s : State) (offs : List Nat) (w : Word) : (s.commitUnits true offs w).regs.staged = [] := by
  unfold State.commitUnits
  simp only [if_true]
  rw [Keeps.regs_staged (keeps_mapPipes _) rfl, Keeps.regs_staged (keeps_countN _ _ _) rfl,
    Keeps.regs_staged (keeps_tinkBoundary _) rfl]
  refine handoverCommit_staged _ _ ?_
  rw [Keeps.regs_staged (keeps_keySwaps _ _ _) rfl, Keeps.regs_staged (keeps_mapCommit _) rfl]
  exact commitRegs_staged _

/-- After a commit point at which host items commit nothing is staged (R40, R50). -/
theorem commitPoint_staged (s : State) (k : CommitKind) (w : Word) (h : s.hostCommits k = true) :
    (s.commitPoint k w).regs.staged = [] := by
  unfold State.commitPoint
  simp only [h, if_true]
  rw [Keeps.regs_staged (keeps_commitEnds _ _ _ _ _) rfl]
  split
  · rw [Keeps.regs_staged (keeps_setLastCommit _ _) rfl, commitUnits_staged]
  · rw [commitUnits_staged]

/-- LAST_COMMIT after a commit point at which something staged, of good parity, commits (R54, R72). -/
theorem commitPoint_lastCommit (s : State) (k : CommitKind) (w : Word) (h : s.hostCommits k = true)
    (hs : s.checkCommit.regs.staged ≠ []) : (s.commitPoint k w).gen.lastCommit = w := by
  unfold State.commitPoint
  have hi : s.checkCommit.regs.staged.isEmpty = false := by simpa using hs
  simp only [h, if_true, hi, Bool.true_and, Bool.not_false, Bool.or_true, Bool.true_or]
  rw [Keeps.gen_lastCommit (keeps_commitEnds _ _ _ _ _) rfl]
  rfl

end Sys2Proof.Laws
end

