-- ==== Sys2Proof/Laws/Writes.lean ====
section
/-! SUPPORT. What a register write does once it reaches its register: the one law of the fabric that every statement about
a write goes through (R55 to R68). -/

namespace Sys2Proof.Laws

open Sys2Proof.Machine Sys2Proof.Safety

/-- The lock of one path changes no other path's ownership, no register and no port. -/
theorem setLock_isOwner (s : State) (p : Path) (b : Bool) (q : Path) : (s.setLock p b).isOwner q = s.isOwner q := by
  cases q <;> simp [State.isOwner]

theorem setLock_shadowBlock (s : State) (p : Path) (b : Bool) (off : Nat) :
    (s.setLock p b).shadowBlock off = s.shadowBlock off := by
  unfold State.shadowBlock State.shadowedPort
  simp

theorem setLock_lcDataLocked (s : State) (p : Path) (b : Bool) (off : Nat) :
    (s.setLock p b).lcDataLocked off = s.lcDataLocked off := by
  simp [State.lcDataLocked]

theorem setLock_latest (s : State) (p : Path) (b : Bool) (off : Nat) : (s.setLock p b).latest off = s.latest off := by
  simp [State.latest]

theorem setLock_newWord (s : State) (p : Path) (b : Bool) (a : Access) (g : RegGroup) :
    (s.setLock p b).newWord a g = s.newWord a g := by
  simp [State.newWord, setLock_latest]

/-- A write through any window, of a register at its canonical offset, by a path that may configure, re-arms the path's
lock and is performed. -/
theorem busWrite_reaches {s : State} {p : Path} {off k i : Nat} {val : Word} {f : Bool} {g : RegGroup} (hr : regAt off = some (g, i))
    (ho : canonicalOff off = off) (hlt : off < 0x200000) (h8 : off % 8 = 0) (hk : k < 4)
    (ht : g.takes (windowOp (off + 0x400000 * k)) = true)
    (h : canWrite s p off ((windowOp (off + 0x400000 * k)).apply (s.reg off) val) = true) (hl : s.lcDataLocked off = false) :
    let a : Access := { path := p, off := off, op := windowOp (off + 0x400000 * k), val := val, flashOk := f }
    s.busWrite p (off + 0x400000 * k) 8 val f =
      .next (((s.setLock p false).writeFields a g).writeEffect a (s.flag Reg.genEpochCtl 2)) := by
  intro a
  simp only [canWrite, hr, Bool.and_eq_true, Bool.not_eq_true'] at h
  obtain ⟨⟨⟨⟨how, hbad⟩, hw⟩, hsh⟩, hg, hlive⟩ := h
  have hin : (off + 0x400000 * k) % 0x400000 = off := by omega
  have hacc : s.accept p (off + 0x400000 * k) 8 val f = (s.setLock p false, some a) := by
    have hc : ¬ ((8 : Nat) ≠ 8 ∨ (off + 0x400000 * k) % 8 ≠ 0 ∨ 0x1000000 ≤ off + 0x400000 * k ∨ 0x200000 ≤ off) := by omega
    have hgd : (g.guarded && !s.unlocked p) = false := by
      cases hgu : g.guarded <;> simp [hgu] at hg ⊢
      exact hg
    simp only [State.accept, how, Bool.not_true, Bool.false_eq_true, ↓reduceIte, hin, hc, ho, hr, hgd, ht, a]
  have hd : decodedOff (off + 0x400000 * k) = off + 0x400000 * k := by
    have : (off + 0x400000 * k) / 0x400000 = k := by omega
    simp only [decodedOff, hin, ho, this]
    omega
  have hm : s.mustWait (.write p (off + 0x400000 * k) 8 val f) = false := by
    simp only [State.mustWait, State.meetsBad, hacc, a, hbad, Bool.false_or, List.any_eq_false]
    simp [List.isEmpty_iff.mp hw]
  simp only [State.busWrite, hd, State.arrive, hm, Bool.false_eq_true, if_false, State.performPosted, hacc]
  have hlv : (s.setLock p false).changesLive a g = false := by
    simp only [State.changesLive, setLock_reg_eq, a]
    simpa using hlive
  simp only [State.access, a, hr]
  rw [if_neg (by simpa [a] using hlv)]
  simp only [State.perform, setLock_shadowBlock, hsh, setLock_lcDataLocked, hl, setLock_flag_eq]
  simp

/-- The same for a 64-bit write in the normal window. -/
theorem write_reaches {s : State} {p : Path} {off i : Nat} {val : Word} {f : Bool} {g : RegGroup} (hr : regAt off = some (g, i))
    (ho : canonicalOff off = off) (hlt : off < 0x200000) (h8 : off % 8 = 0) (ht : g.takes .plain = true)
    (h : canWrite s p off val = true) (hl : s.lcDataLocked off = false) :
    let a : Access := { path := p, off := off, op := .plain, val := val, flashOk := f }
    s.busWrite p off 8 val f = .next (((s.setLock p false).writeFields a g).writeEffect a (s.flag Reg.genEpochCtl 2)) := by
  have hw : windowOp off = .plain := by
    have : off / 0x400000 = 0 := by omega
    simp [windowOp, this]
  have := busWrite_reaches (k := 0) (f := f) hr ho hlt h8 (by omega) (by simpa [hw] using ht) (by simpa [hw, WriteOp.apply] using h) hl
  simpa [hw] using this

/-! ## What a write leaves in its register -/

/-- A register without fields that keep a value keeps nothing. -/
theorem writeFields_wc (s : State) (a : Access) (g : RegGroup) (h : g.rw = 0) (h' : g.rwi = 0) :
    s.writeFields a g = s.clearLost a.path a.off := by
  simp [State.writeFields, h, h']

/-- RWI fields take the new word at once; no other register changes. -/
theorem writeFields_reg (s : State) (a : Access) (g : RegGroup) (o : Nat) :
    (s.writeFields a g).reg o =
      if o = a.off ∧ g.rwi ≠ 0 then mixWord (BitVec.ofNat 64 g.rwi) (s.reg a.off) (s.newWord a g) else s.reg o := by
  simp only [State.writeFields]
  rw [Keeps.reg (keeps_clearLost _ _ _) rfl]
  by_cases h1 : g.rwi = 0 <;> by_cases h2 : g.rw = 0 <;> simp only [h1, h2, if_true, if_false, ne_eq, not_true_eq_false,
    and_false, not_false_eq_true, and_true]
  · rw [Keeps.reg (keeps_stageWrite _ _ _ _) rfl]
  · rw [setReg_reg]
  · rw [Keeps.reg (keeps_stageWrite _ _ _ _) rfl, setReg_reg]

/-- In the normal window, where no field is clamped, the new word is the word written. -/
theorem newWord_plain (s : State) (a : Access) (g : RegGroup) (ho : a.op = .plain) (hc : g.clamps = [])
    (h : ¬ (0x151000 ≤ a.off ∧ a.off < 0x153600)) : s.newWord a g = a.val := by
  have h1 : ¬ (0x151000 ≤ a.off ∧ a.off < 0x151800 ∧ a.off % 0x40 = 8) := by omega
  have h2 : ¬ (0x153000 ≤ a.off ∧ a.off < 0x153600 ∧ a.off % 0x10 = 0 ∧ a.val.field 16 6 ≤ a.val.field 8 6) := by omega
  simp [State.newWord, ho, hc, WriteOp.apply, afterClamp, h1, h2]

/-! ## Registers of a run -/

theorem indexOf_hit {g : RegGroup} {off : Nat} (h : g.base ≤ off ∧ (off - g.base) % g.stride = 0 ∧ (off - g.base) / g.stride < g.count) :
    g.indexOf off = some (g.first + (off - g.base) / g.stride) := by
  simp [RegGroup.indexOf, h]

theorem findGroup_hit {g : RegGroup} {gs : List RegGroup} {off i : Nat} (h : g.indexOf off = some i) :
    findGroup off (g :: gs) = some (g, i) := by
  simp [findGroup, h]

theorem findGroup_miss {g : RegGroup} {gs : List RegGroup} {off : Nat}
    (h : ¬ (g.base ≤ off ∧ (off - g.base) % g.stride = 0 ∧ (off - g.base) / g.stride < g.count)) :
    findGroup off (g :: gs) = findGroup off gs := by
  simp [findGroup, RegGroup.indexOf, h]

/-- BELL.SRC_CFG of source n (R401). -/
theorem regAt_bellSrcCfg (n : Nat) (h1 : 1 ≤ n) (h : n < 512) :
    regAt (Reg.bellSrcCfg n) = some ({ base := 0x11008, stride := 0x8, count := 511, first := 1, rw := 0xf0f00, rwi := 0x1
                                       live := 0xfffffffffff0f0fe }, n) := by
  have hb : blockGroups (Reg.bellSrcCfg n) = bellGroups := by
    have : Reg.bellSrcCfg n / 0x10000 = 1 := by
      simp only [Reg.bellSrcCfg]
      omega
    simp [blockGroups, this]
  rw [regAt, hb, bellGroups, findGroup_miss (by simp only [Reg.bellSrcCfg]; omega)]
  have hi := indexOf_hit (g := { base := 0x11008, stride := 0x8, count := 511, first := 1, rw := 0xf0f00, rwi := 0x1, live := 0xfffffffffff0f0fe })
    (off := Reg.bellSrcCfg n) (by simp only [Reg.bellSrcCfg]; omega)
  rw [findGroup_hit hi]
  simp only [Reg.bellSrcCfg]
  congr 2
  omega

/-- PORT.CMD of engine n (R121). -/
theorem regAt_portCmd (n : Nat) (h : n < 136) :
    regAt (Reg.portCmd n) = some ({ base := 0x100030, stride := 0x400, count := 136, wc := 0x1 }, n) := by
  have hb : blockGroups (Reg.portCmd n) = portGroups := by
    have : Reg.portCmd n / 0x10000 = 16 ∨ Reg.portCmd n / 0x10000 = 17 ∨ Reg.portCmd n / 0x10000 = 18 := by
      simp only [Reg.portCmd]
      omega
    rcases this with e | e | e <;> simp [blockGroups, e]
  rw [regAt, hb, portGroups, portGroups0, List.cons_append, findGroup_miss (by simp only [Reg.portCmd]; omega),
    List.cons_append, findGroup_miss (by simp only [Reg.portCmd]; omega),
    List.cons_append, findGroup_miss (by simp only [Reg.portCmd]; omega),
    List.cons_append, findGroup_miss (by simp only [Reg.portCmd]; omega),
    List.cons_append, findGroup_miss (by simp only [Reg.portCmd]; omega),
    List.cons_append, findGroup_miss (by simp only [Reg.portCmd]; omega), List.cons_append]
  have hi := indexOf_hit (g := { base := 0x100030, stride := 0x400, count := 136, wc := 0x1 })
    (off := Reg.portCmd n) (by simp only [Reg.portCmd]; omega)
  rw [findGroup_hit hi]
  simp only [Reg.portCmd]
  congr 2
  omega

end Sys2Proof.Laws
end

