-- ==== Sys2Proof/Machine/Package.lean ====
section
/-! DEFINITION. The package: the ball map (R464 to R468), the supply limits (R469, R470), and the pins that R145 does not
cover in each power state (R483). -/

namespace Sys2Proof.Machine

/-! ## Balls (R464) -/

/-- A ball, by its name, and its number where the name has one. -/
inductive Ball where
  | one (name : String)
  | nth (name : String) (i : Nat)
deriving DecidableEq, Repr

/-- Numbered balls of one name. -/
def balls (name : String) (n : Nat) : List Ball := (List.range n).map (Ball.nth name)
/-- Balls of one name each. -/
def ballNames (l : List String) : List Ball := l.map Ball.one

/-- The balls of a DDR4 channel, in list order, and then its supply (R468). -/
def ddrBalls (pre : String) : List Ball :=
  (List.range 9).flatMap (fun j =>
    (List.range 8).map (fun k => Ball.nth (pre ++ "DQ") (8 * j + k)) ++
    [Ball.nth (pre ++ "DQS_T") j, Ball.nth (pre ++ "DQS_C") j, Ball.nth (pre ++ "DM_N") j]) ++
  balls (pre ++ "A") 18 ++ balls (pre ++ "BA") 2 ++ balls (pre ++ "BG") 2 ++ ballNames [pre ++ "ACT_N", pre ++ "PAR"] ++
  [Ball.nth (pre ++ "CK_T") 0, Ball.nth (pre ++ "CK_C") 0, Ball.nth (pre ++ "CK_T") 1, Ball.nth (pre ++ "CK_C") 1] ++
  balls (pre ++ "CKE") 2 ++ balls (pre ++ "CS_N") 2 ++ balls (pre ++ "ODT") 2 ++
  ballNames [pre ++ "ALERT_N", pre ++ "RESET_N", pre ++ "ZQ"] ++ List.replicate 20 (.one "VDDQ")

/-- The balls of a NAND channel, in list order (R468). -/
def nandBalls (pre : String) : List Ball :=
  balls (pre ++ "DQ") 8 ++
  ballNames [pre ++ "DQS_T", pre ++ "DQS_C", pre ++ "RE_T", pre ++ "RE_C", pre ++ "WE_N", pre ++ "ALE", pre ++ "CLE", pre ++ "WP_N"] ++
  balls (pre ++ "CE_N") 4 ++ balls (pre ++ "RB_N") 4

/-! ## The map (R465 to R468): rows 1 to 41 from A to BC, columns 1 to 41 -/

/-- Ground. -/
def vss : Ball := .one "VSS"

/-- A ball of a list, and ground after its end. -/
def listBall (l : List Ball) (k : Nat) : Ball := (l[k]?).getD vss

/-- A pair of lanes on a row of PCIe balls: endpoint A from column 3 on, endpoint B from column 24 on. -/
def pcieBall (dir : String) (col : Nat) : Ball :=
  let lane : String → Nat → Ball := fun ep k =>
    if k % 4 < 2 ∧ k / 4 < 4 then .nth (ep ++ dir ++ (if k % 4 = 0 then "_P" else "_N")) (k / 4) else vss
  if 3 ≤ col ∧ col < 19 then lane "PEA_" (col - 3) else if 24 ≤ col then lane "PEB_" (col - 24) else vss

/-- Rows A to F (R466). -/
def northBall (row col : Nat) : Ball :=
  match row with
  | 1 => if 19 ≤ col ∧ col ≤ 23 then
      listBall (ballNames ["PEA_REFCLK_P", "PEA_REFCLK_N", "VSS", "PEB_REFCLK_P", "PEB_REFCLK_N"]) (col - 19)
    else pcieBall "TX" col
  | 2 => if col = 19 then .one "PEA_PERST_N" else if col = 23 then .one "PEB_PERST_N" else vss
  | 3 => if col = 20 then .one "REFCLK_P" else if col = 21 then .one "REFCLK_N" else pcieBall "RX" col
  | 5 =>
    if (3 ≤ col ∧ col ≤ 10) ∨ (24 ≤ col ∧ col ≤ 31) then .one "VPCIE09"
    else if (11 ≤ col ∧ col ≤ 14) ∨ (32 ≤ col ∧ col ≤ 35) then .one "VPCIE18"
    else vss
  | 6 =>
    if 2 ≤ col then listBall (ballNames ["BOOT_CS_N", "BOOT_CLK", "BOOT_DS", "BOOT_RST_N"] ++ balls "BOOT_DQ" 8 ++
      List.replicate 4 (.one "VBOOT") ++ [vss, vss] ++
      ballNames ["TCK", "TMS", "TDI", "TDO", "TRST_N", "RESET_N", "PFAIL_N", "WAKE_N", "FLT_N", "ALERT_N", "PPS_IN"] ++
      balls "BOOT_SEL" 2 ++ balls "TEST" 4 ++ List.replicate 4 (.one "VIN")) (col - 2)
    else vss
  | _ => vss

/-- Rows AM to AY (R467): the logic ports, in four pairs of rows, an outer one for even ports and an inner one for odd ones. -/
def logicBall (row col : Nat) : Ball :=
  let q := if row = 38 ∨ row = 37 then 0 else if row = 36 ∨ row = 35 then 1 else if row = 34 ∨ row = 33 then 2 else 3
  let outer := row == 38 || row == 36 || row == 34 || row == 32
  if col < 2 ∨ 41 ≤ col then vss
  else
    let l := 3 * q + (col - 2) / 13
    let c := (col - 2) % 13
    if c = 6 then .nth "VIOL" l
    else
      let j := if c < 6 then c / 3 else (c - 1) / 3
      let n := 32 + 8 * l + 2 * j + (if outer then 0 else 1)
      match (if c < 6 then c else c - 1) % 3 with
      | 0 => .nth "TXD" n
      | 1 => .nth "RXD" n
      | _ => .nth "STB" n

/-- Rows BA to BC (R467): the integrated ports and their bank supplies. -/
def busBall (row col : Nat) : Ball :=
  if col < 2 ∨ 42 ≤ col then vss
  else
    let b := (col - 2) / 10
    let i := (col - 2) % 10
    if 4 ≤ b then vss
    else if i = 8 then .nth "VBUS" b
    else if i = 9 ∨ row = 39 then vss
    else .nth (if row = 41 then "CANH" else "CANL") (8 * b + i)

/-- Rows G to AL (R468): the memory channels, the NAND and the core supply. v numbers the balls of a region as visited. -/
def middleBall (row col : Nat) : Ball :=
  let every : Nat → Nat → List Ball → Ball := fun n v l => if v % n = n - 1 then vss else listBall l (v - v / n)
  if col ≤ 9 then every 4 (9 * (row - 7) + (col - 1)) (ddrBalls "DDRA_")
  else if 33 ≤ col then every 4 (9 * (row - 7) + (41 - col)) (ddrBalls "DDRB_")
  else if row ≤ 9 then every 6 (23 * (row - 7) + (col - 10))
    (nandBalls "NAND0_" ++ nandBalls "NAND1_" ++ List.replicate 8 (.one "VNAND"))
  else if (row + col) % 2 = 0 then .one "VCORE" else vss

/-- The ball at a row and a column. -/
def ballAt (row col : Nat) : Ball :=
  if row ≤ 6 then northBall row col else if row ≤ 30 then middleBall row col else if row ≤ 38 then logicBall row col
  else busBall row col

/-! ## Supplies (R469, R470) -/

/-- A supply: operating limits and the highest absolute rating, in tenths of a millivolt. -/
structure Supply where
  name : String
  low  : Nat
  high : Nat
  most : Nat
deriving DecidableEq, Repr

/-- The supplies. -/
def supplies : List Supply := [
  { name := "VIN", low := 27000, high := 55000, most := 60000 }, { name := "VBUS", low := 27000, high := 55000, most := 60000 },
  { name := "VIOL", low := 17100, high := 55000, most := 60000 }, { name := "VCORE", low := 7275, high := 7725, most := 9000 },
  { name := "VDDQ", low := 11400, high := 12600, most := 15000 }, { name := "VPCIE09", low := 8550, high := 9450, most := 11000 },
  { name := "VPCIE18", low := 17100, high := 18900, most := 21000 }, { name := "VNAND", low := 11400, high := 12600, most := 15000 },
  { name := "VBOOT", low := 17100, high := 18900, most := 21000 }]

/-! ## Pins in each power state (R483) -/

/-- A pin that is low at rest in reset and active in RUN and TRIM, in DEPOT at a level; unpowered in OFF. -/
def State.pinIn (s : State) (reset' depot : PinDrive) : PinDrive :=
  if s.sys.pwr = 3 then .highZ else if s.sys.pwr = 2 then depot else if s.pinsRun then .engine else reset'

/-- DDRx_RESET_N and DDRx_CKE. -/
def State.ddrPins (s : State) : PinDrive × PinDrive := (s.pinIn .low .high, s.pinIn .low .low)
/-- NANDc_CE_N and NANDc_WP_N. -/
def State.nandPins (s : State) : PinDrive × PinDrive := (s.pinIn .high .high, s.pinIn .low .low)
/-- BOOT_CS_N and BOOT_RST_N. -/
def State.bootPins (s : State) : PinDrive × PinDrive := (s.pinIn .high .high, s.pinIn .low .high)
/-- A PCIe transmitter: in electrical idle but in RUN and TRIM. -/
def State.pciePins (s : State) : PinDrive := s.pinIn .idle .idle

end Sys2Proof.Machine
end

