-- ==== Sys2Proof/WellFormed.lean ====
section
/-! DEFINITION. Well-formed commands: every number inside the range of R2 and R10 for what it names. A command is built
by the outside world from such numbers; exec does not rely on the check. -/

namespace Sys2Proof

/-- A bus port P0 to P127. -/
def wfPort (p : Nat) : Bool := p < 128
/-- A port engine E0 to E135. -/
def wfEngine (n : Nat) : Bool := n < 136
/-- An integrated port P0 to P31. -/
def wfIntegrated (p : Nat) : Bool := p < 32
/-- A logic-level port P32 to P127. -/
def wfLogic (p : Nat) : Bool := 32 ≤ p ∧ p < 128
/-- A ring 0 to 127 of an endpoint. -/
def wfRing (k : Nat) : Bool := k < 128
/-- A target of an endpoint, 0 to 7. -/
def wfTarget (l : Nat) : Bool := l < 8
/-- A Locksmith lane 0 to 15. -/
def wfLane (l : Nat) : Bool := l < 16
/-- An interrupt source 1 to 511. -/
def wfSource (n : Nat) : Bool := 1 ≤ n ∧ n ≤ 511
/-- A fault source F0 to F383. -/
def wfFault (f : Nat) : Bool := f < 384
/-- A self-test slice S0 to S173. -/
def wfSlice (n : Nat) : Bool := n < 174
/-- An offset of BAR0 (R80) with an access size of 1, 2, 4 or 8 bytes. -/
def wfAccess (off size : Nat) : Bool := off < 0x1000000 && (size == 1 || size == 2 || size == 4 || size == 8)

/-- Format code, data length and field ranges of a frame on the bus (R86, R165). -/
def BusFrame.wf (f : BusFrame) : Bool :=
  f.fmt < 7 && f.ident < (if isExtended f.fmt then 0x20000000 else 0x800) && f.dlc < (if f.fmt = 4 then 2048 else 16) && f.sdt < 256 && f.vcid < 256 && f.af < 0x100000000 &&
  f.data.length == f.len

/-- Link widths x1, x2 and x4, generations 1 to 4 (R5). -/
def wfLink (link : Bool) (width speed : Nat) : Bool :=
  !link || ((width == 1 || width == 2 || width == 4) && 1 ≤ speed && speed ≤ 4)

/-- BAR addresses are aligned to their sizes (R322). -/
def Bars.wf (b : Bars) : Bool := b.bar0.field 0 24 == 0 && b.bar2.field 0 20 == 0 && b.bar4.field 0 16 == 0

/-- A table access lies inside BAR4. -/
def MsixPlace.wf (size : Nat) : MsixPlace → Bool
  | .table off => off < 0x10000 && (size == 1 || size == 2 || size == 4 || size == 8)
  | .functionMask => true

/-- Ring and endpoint of a command entry. -/
def CmdEntry.wf (c : CmdEntry) : Bool := wfRing c.ring

/-- A NAND geometry of two channels with four chip enables each, in the widths of CELL.GEOM (R362, R388). -/
def NandGeometry.wf (g : NandGeometry) : Bool :=
  g.targets < 256 && g.pageCode < 3 && g.pages < 0x10000 && g.blocks < 0x1000000

/-- A page of at most eight codewords, each corrected in at most 120 bits after at most 15 retries (R376). -/
def PageRead.wf (r : PageRead) : Bool :=
  decide (r.words.length ≤ 8) && r.words.all (fun w => decide (w.bits ≤ 120) && decide (w.retries ≤ 15))

/-- Well-formedness of a command: its operands lie in the ranges of the resources they name. -/
def Instr.wf (i : Instr) : Bool :=
  match i with
  | .registerWrite _ off size _ => wfAccess off size
  | .aliasWrite _ off size _ => wfAccess off size && 0x400000 ≤ off
  | .parityScan bad later => (bad ++ later).all (fun b => b.2 < 0x200000)
  | .lookup _ eccSlot => eccSlot.all (fun k => k < 262208)
  | .configReload off => off < 0x200000
  | .rxHeader port f _ => wfPort port && f.wf
  | .rxFrameEnd port _ _ _ => wfPort port
  | .busError port _ _ _ _ _ => wfPort port
  | .boDelayExpire port => wfPort port
  | .busOffRecovery port _ => wfPort port
  | .portCmdRecover _ eng _ => wfEngine eng
  | .portIntegrated eng => wfEngine eng
  | .portStopComplete eng => wfEngine eng
  | .portHoldExpire port => wfPort port
  | .txChoice port => wfPort port
  | .txSuccess port _ _ => wfPort port
  | .arbLost port => wfPort port
  | .selfAbort port _ _ _ => wfPort port
  | .ctUnderrun port _ _ _ => wfPort port
  | .xcvrModeEffect port => wfIntegrated port
  | .xcvrSettled port => wfIntegrated port
  | .lpStbEffect port => wfLogic port
  | .vbusUndervoltage bank _ => bank < 4
  | .violUnpowered bank _ => bank < 12
  | .fgSample port _ _ => wfIntegrated port
  | .fgCoolExpire port => wfIntegrated port
  | .fgRetry port => wfIntegrated port
  | .wakeUpPattern port _ _ _ _ => wfIntegrated port
  | .wakeUpFrame port _ ident dlc _ _ _ _ => wfIntegrated port && ident < 0x20000000 && dlc < 16
  | .takeoverCopy port => wfPort port
  | .takeoverSwitch port _ => wfPort port
  | .hoTimeout port => wfPort port
  | .pantryLineFill line _ => line < 0x400000
  | .sweepVisit eccBad => eccBad.all (fun w => w < 262144)
  | .loadImage c => c.wf
  | .subscribe c _ => c.wf
  | .txBackfill port _ _ => wfPort port
  | .sealStart lane => wfLane lane
  | .sealComplete lane => wfLane lane
  | .keyLoad c _ => c.wf
  | .kekLoad c _ => c.wf
  | .keyClear c => c.wf
  | .nextHalfWrite slot => slot < 1024
  | .keySwap c => c.wf
  | .zeroize c => c.wf
  | .endpointUsableChange _ link _ _ _ width speed bars => wfLink link width speed && bars.wf
  | .ringRunning _ ring => wfRing ring
  | .ringStopComplete _ ring => wfRing ring
  | .doorbell _ ring off _ => ring < 256 && off < 0x1000
  | .completionWrite _ ring => wfRing ring
  | .nop c => c.wf
  | .opcodeUnknown c => c.wf
  | .commit c => c.wf
  | .portCtl c => c.wf
  | .timeSet c => c.wf
  | .transmitEntry _ ring _ _ _ _ => wfRing ring
  | .txResourcesReady _ ring => wfRing ring
  | .cellarStart c m => c.wf && m.wf
  | .cellarStop c => c.wf
  | .cellarCheckpoint c => c.wf
  | .cellarFormat c m => c.wf && m.wf
  | .cellarRestoreDone reads _ => reads.all (fun x => x.read.wf)
  | .checkpointSeal reads _ => reads.all (fun x => x.read.wf)
  | .scrub words crcBad _ => PageRead.wf { words := words, crcBad := crcBad }
  | .sourceRaise src => wfSource src
  | .bellClaim _ l => wfTarget l
  | .bellEoi _ l _ => wfTarget l
  | .bellMask _ l _ => wfTarget l
  | .bellSrcEn _ src _ => wfSource src
  | .faultEvent f => wfFault f
  | .brokenWire f _ => wfFault f
  | .levelRestored f _ => wfFault f
  | .subBucketAdvance f => wfFault f
  | .recovery f => wfFault f
  | .rcntDecay f => wfFault f
  | .windowClose f => wfFault f
  | .testResult slice _ _ _ => wfSlice slice
  | .resetN bootSel _ => bootSel < 4
  | .powerOn bootSel => bootSel < 4
  | .protocolExceptionExit eng => wfEngine eng
  | .dbgAccess (.halt m) | .dbgAccess (.step m) => m < 4
  | .dbgAccess (.scan n) => wfSlice n
  | .dbgAccess (.read _) => true
  | .msiXTableWrite _ w size _ => w.wf size
  | .ringReadFailure _ ring => wfRing ring
  | .tempUpdate sensors => sensors.length == 8
  | .genUnlock _ _ | .genOwnerWrite _ _ | .ownHbBeat _ _ | .ownerJudge | .genSnapTake _ _ | .snapshotComplete | .cut
  | .stagingFreeze | .epochBoundary | .freezeEnd | .closeRecord | .silentBoundary | .genCommit _ _ | .commitSwapEligible
  | .epochCtlRunStart _ _ | .epochCtlRunStop _ _ | .epochCtlHold _ _ | .genSwapReq _ _ | .genSwapCancel _ _
  | .fgClear _ _ | .wakeN | .wakeAck _ _ | .decodeOp _ | .recordCommit _ | .sweepComplete | .sweepStall
  | .walkOp | .watchWsel _ _ | .forceCmdForce _ _ | .forceCmdRelease _ _ | .scrivRecSel _ _ | .scrivHashIn _ _
  | .imageWaitEnd _ | .imageCopyDone | .imageRecordRead _ | .imageEndCheck _ | .imageBankCheck | .copyPlacement _ _
  | .txqDropHead _ _ | .sealFArrival _ | .locksmithVerdict _ | .lockZeroize _ _ | .alarm _ | .kek0Derive | .lockCmdAck _ _
  | .kmLockClaim _ _ | .kmLockRelease _ _ | .kmTimeout | .drbgInstantiate | .drbgReseed | .healthTestFail | .entropyRetry _
  | .drbgAlarm | .endpointReset _ _ _ | .d3hotEntry _ | .timeSetApply | .timeSetTimeout | .captureRecordFinish _ _
  | .cellarStopped | .cellarFormatDone _ | .batchExpire | .journalPageProgram _ | .pageProgramDone _ _ _
  | .checkpointTimer | .pfail | .flushComplete _ | .pfailRelease | .bellPendClr _ _
  | .bellGdis _ _ | .stewCmdAck _ _ | .stewCmdRecover _ _ | .stewCmdRclr _ _ | .watchdogTrip | .sliceSelect
  | .goldenCheck _ | .pairHandoverTimer | .lcCmdGo _ _ | .lcProgramDone _ | .idcode | .bypass _ | .samplePreload _
  | .extest _ | .dbgChal _ | .dbgResp _ _ | .debugAuthResult | .nonceLapse | .tapReset | .dbgCtlEnd _ _
  | .pwrCtlTarget _ _ | .powerMoveStart | .rstCmdFull _ _ | .firmwareReady | .bootReadyTimeout | .fwCmdActivate _ _
  | .fwCmdConfirm _ _ | .fwCmdRevert _ _ | .fwCmdRoll _ _ | .fwCmdErase _ _ _ | .fwCmdProgram _ _ _ | .flData _ _
  | .flAddr _ _ | .fwSel _ _ | .pairSwitch | .switchTimeout | .confirmTimeout | .ppsEdge _ | .ppsLost | .lockSlotSel _ _
  | .tinkSliceSel _ _ | .minimumLowTime | .lossOfPower => true

end Sys2Proof
end

