-- ==== Sys2Proof/Tests/Slice0.lean ====
section
/-! SUPPORT. Tests: ill-formed commands are refused by the check; the spec's worked examples and the standards' test vectors;
and, for every obligation with hypotheses, a state and operands that meet them together. -/

namespace Sys2Proof.Tests

open Sys2Proof Sys2Proof.Machine Sys2Proof.Safety

set_option maxRecDepth 4000
set_option Elab.async false

/-! ## Small states -/

/-- A state with register words in force, offsets rising, and endpoint A's guard lock disarmed. -/
def withRegs (l : Table Word) (s : State) : State := { s with regs := { s.regs with inForce := l, unlockedA := true } }

/-- An endpoint that is usable. -/
def linked : Endpoint := { link := true, mse := true, bme := true }

/-- The state after reset with both endpoints usable and endpoint A's guard lock disarmed. -/
def up : State := withRegs [] { epA := linked, epB := linked }

/-- The generator runs, in the epoch that ends at 50 ms. -/
def running : Gen := { st := .running, epochNum := 7, nextAt := 50000000 }

/-- A command ring of 64 entries with one entry to read, its completions on ring 1. -/
def cmdRing : Ring := { st := .running, useCtl := 0x1000C0100, hostPos := 1 }

/-- A running ring of 4 KiB with a ring type. -/
def ringOf (ty : Nat) : Ring := { st := .running, useCtl := BitVec.ofNat 64 (0xC0000 + 256 * ty) }

/-- Endpoint A owns the block, a command entry waits on its ring 0, and ring 1 takes completions. -/
def host : State := { up with rings := [(0, cmdRing), (1, ringOf 2)] }

/-- A command entry of endpoint A's ring 0. -/
def cmd (w1 w2 : Word) : CmdEntry :=
  { ep := .a, ring := 0, w0 := 0, w1 := w1, w2 := w2, w3 := 0, w4 := 0, w5 := 0, w6 := 0, w7 := 0 }

/-- Port 0 is up: its engine runs in MODE 0 and its transceiver is in normal mode with its supplies present. -/
def bus : State :=
  { up with engines := [(0, { st := .running })]
            xcvr := { ip := [(0, { modeEff := 3 })], uv := [false, false, false, false], unpowered := [false, false, false, false] } }

/-- A header of a classic frame with identifier 0x123 and one data byte. -/
def header : BusFrame :=
  { fmt := 0, ident := 0x123, dlc := 1, brs := false, esi := false, sec := false, sdt := 0, vcid := 0, af := 0, data := [0x55#8] }

/-- A received frame of port 0 in flight, looked up, with its verdict. -/
def flying : Machine.Frame :=
  { port := 0, f := header, sofTai := 5, keyAt := 0, validTai := 9, validAt := 9, verdict := some .valid, looked := true, key := 0x123000000, gen := false
    watch := some 3, eccLost := false, unk := 0, routes := [], plain := header.data, decoding := false, pipe := 0, opPos := 0
    sel0 := none, sel1 := none, results := [], badOp := false, committing := false, committed := false, sealed := false, lane := none
    half := none, latched := {}, fArrived := false, verdictCode := none, keyGone := false, copies := [], cells := [] }

/-- A closed packet with the header of the frame. -/
def packet : Packet :=
  { closed := true, abandon := false, fmt := 0, brs := false, ident := 0x123, len := 1, dlc := 1, tag := 0, expire := none, cset := 0
    ingress := 0, host := none, xl := 0, cells := [7], words := 5, attempts := 0, failStatus := 0, failDetail := 0, dropNext := false }

/-- A copy of the frame for the class queues of port 1. -/
def copy : Copy :=
  { route := 0, dest := .port 1, stage := .waiting, fmt := 0, ident := 0x123, brs := false, dlc := 1, cls := 0, verify := false
    eslot := none, cset := 0, life := 0, noToken := false, noCell := false, fallback := false, space := none, keptLen := 1
    withdrawn := false, own := none }

/-- Watch 3 of bank 0 expects the frame every 10 µs and has two ops. -/
def watching : WatchUnit :=
  { bank0 := { entries := [(3, 0x8000000123000000, 0x20000000, 0xA00000000000)], stash := [(0x123000000, 3)] } }

/-- The watched frame is in flight as number 5, valid and looked up. -/
def received : State := { up with watch := watching, frames := [(5, flying)] }

/-- An open host packet, number 4, with one data byte. -/
def openPacket : Packet := { packet with closed := false, tag := 4, host := some { ep := .a, ring := 2, tag := 9, slot := none } }

/-- KEK1 is all zeros, and endpoint A holds the key management lock. -/
def keyed : State := { host with lock := { keks := [(1, 0#256)], kek0 := some 0, holder := 1 } }

/-- A loaded half of a key slot for GCM with 16-byte tags. -/
def keyHalf : KeyHalf := { loaded := true, sform := 2, fvTx := 41, r := 7 }

/-- Ring 2 of endpoint A is a transmit ring with one entry. -/
def sending : State := { bus with rings := [(1, ringOf 2), (2, { ringOf 4 with useCtl := 0x1000C0400, hostPos := 1 })] }

/-- NAND of one target in each channel with 4096 blocks of 128 pages of 4 KiB. -/
def media : NandGeometry :=
  { targets := 17, uniform := true, luns := 1, spare := 452, rawMib := 8192, pageCode := 0, pages := 128, blocks := 4096, tprogUs := 50, slcOk := true, factoryBad := [], badRoots := [] }

/-- A journal record of signal 9. -/
def stored : StoreRec := { state := 1, type := 0, pclass := 1, kind := 0, signal := 9, seq := 1, value := 77, stamp := 5 }

/-- A page with that record. -/
def storedPage : StorePage := { area := 3, sealPage := false, ckptId := 0, markSeq := 0, nrec := 1, recs := [stored] }

/-- The body of a root page of media just formatted. -/
def rootBody : RootBody :=
  { number := 1, bad := [], counts := [], baseErases := 1, peLimit := 0, slcEn := false, slcFa := 0, slcP := [], sealedId := 0
    sealedTai := 0, mark := 0, ckptBlocks := [] }

/-- What the media hold after a format. -/
def formatted : Store :=
  { blocks := [(0, { role := .root, pages := [{ storedPage with area := 1, nrec := 0, recs := [], root := some rootBody }] })] }

/-- The Cellar runs on the media, with one record staged and one journal and one checkpoint block open. -/
def cellaring : CellarUnit :=
  { st := .running, geom := some media, flush := [(stored, 0)], tokens := 100000000000
    store := { blocks := [(5, { role := .journal, pages := [storedPage] }), (6, { role := .checkpoint })] } }

/-- What an agreeing spare saw. -/
def seen : ShadowView := { spareValid := true, errorFree := true, agree := true }

/-- BAR addresses that are aligned. -/
def bars : Bars := { bar0 := 0xF000000, bar2 := 0xF100000, bar4 := 0xF110000 }

/-- The command entry with this first word. -/
def opc (w0 : Word) (c : CmdEntry) : CmdEntry := { c with w0 := w0 }

/-- Media of eight blocks in each target. -/
def smallMedia : NandGeometry := { media with blocks := 8 }

/-- The Cellar runs on the small media with a checkpoint under way. -/
def sealing : State := { host with cellar := { cellaring with geom := some smallMedia, checkpoint := some { ckptId := 1, s := 5 } } }

/-- The page that its seal programs, with its place. -/
def sealPlace : Nat × Nat × StorePage :=
  (((sealing.sealWrites smallMedia { ckptId := 1, s := 5 }).1.cellar.store.checkpointPlaces 1)[0]?).getD (0, 0, storedPage)

/-- Endpoint A owns the block and the Cellar runs. -/
def cellarHost : State := { host with cellar := cellaring }

/-! ## Ill-formed commands -/

/-- An entry of a ring that no endpoint has. -/
def badCmd : CmdEntry := { cmd 0 0 with ring := 128 }

/-- Ill-formed commands, 1. -/
def illFormed0 : List Instr :=
  [.registerWrite (.ep .a) 0x1000000 8 0, .registerWrite (.ep .a) 0 3 0, .aliasWrite (.ep .a) 0 8 0,
    .parityScan [(.staged, 0x200000)] [], .parityScan [] [(.held, 0x200000)], .lookup 0 (some 262208),
    .configReload 0x200000, .rxHeader 128 header 0, .rxHeader 0 { header with fmt := 7 } 0,
    .rxHeader 0 { header with ident := 0x800 } 0, .rxHeader 0 { header with fmt := 1, ident := 0x20000000 } 0,
    .rxHeader 0 { header with dlc := 16 } 0]

/-- Ill-formed commands, 2. -/
def illFormed1 : List Instr :=
  [.rxHeader 0 { header with fmt := 4, dlc := 2048 } 0, .rxHeader 0 { header with dlc := 2 } 0,
    .rxHeader 0 { header with sdt := 256 } 0, .rxHeader 0 { header with vcid := 256 } 0,
    .rxHeader 0 { header with af := 0x100000000 } 0, .rxFrameEnd 128 .valid seen,
    .busError 128 .crc true .nominal none seen, .boDelayExpire 128, .busOffRecovery 128 1, .portCmdRecover (.ep .a) 136 1,
    .portIntegrated 136, .portStopComplete 136]

/-- Ill-formed commands, 3. -/
def illFormed2 : List Instr :=
  [.portHoldExpire 128, .txChoice 128, .txSuccess 128 0 seen, .arbLost 128, .selfAbort 128 .nominal none seen,
    .ctUnderrun 128 .nominal none seen, .xcvrModeEffect 32, .xcvrSettled 32, .lpStbEffect 31, .lpStbEffect 128,
    .vbusUndervoltage 4 0, .violUnpowered 12 0]

/-- Ill-formed commands, 4. -/
def illFormed3 : List Instr :=
  [.fgSample 32 0 0, .fgCoolExpire 32, .fgRetry 32, .wakeUpPattern 32 0 0 0 0, .wakeUpFrame 32 true 0 0 false false false 0,
    .wakeUpFrame 0 true 0x20000000 0 false false false 0, .wakeUpFrame 0 true 0 16 false false false 0, .takeoverCopy 128,
    .takeoverSwitch 128 false, .hoTimeout 128, .pantryLineFill 0x400000 none, .sweepVisit [262144]]

/-- Ill-formed commands, 5. -/
def illFormed4 : List Instr :=
  [.loadImage badCmd, .subscribe badCmd none, .txBackfill 128 0 none, .sealStart 16, .sealComplete 16, .keyLoad badCmd none,
    .kekLoad badCmd none, .keyClear badCmd, .nextHalfWrite 1024, .keySwap badCmd, .zeroize badCmd,
    .endpointUsableChange .a true true true false 3 4 bars]

/-- Ill-formed commands, 6. -/
def illFormed5 : List Instr :=
  [.endpointUsableChange .a true true true false 4 5, .endpointUsableChange .a true true true false 4 0,
    .endpointUsableChange .a true true true false 4 4 { bars with bar0 := 0x800000 }, .endpointUsableChange .a true true true false 4 4 { bars with bar2 := 0x80000 },
    .endpointUsableChange .a true true true false 4 4 { bars with bar4 := 0x8000 }, .ringRunning .a 128, .ringStopComplete .a 128,
    .doorbell .a 256 0 0, .doorbell .a 0 0x1000 0, .completionWrite .a 128, .nop badCmd, .opcodeUnknown badCmd]

/-- Ill-formed commands, 7. -/
def illFormed6 : List Instr :=
  [.commit badCmd, .portCtl badCmd, .timeSet badCmd, .transmitEntry .a 128 0 0 0 0, .txResourcesReady .a 128,
    .ringReadFailure .a 128, .cellarStart badCmd media, .cellarStart (cmd 0 0) { media with targets := 256 },
    .cellarStart (cmd 0 0) { media with pageCode := 3 }, .cellarStart (cmd 0 0) { media with pages := 0x10000 },
    .cellarStart (cmd 0 0) { media with blocks := 0x1000000 }, .cellarStop badCmd]

/-- Ill-formed commands, 8. -/
def illFormed7 : List Instr :=
  [.cellarCheckpoint badCmd, .cellarFormat badCmd media,
    .cellarRestoreDone [{ block := 0, page := 0, read := { words := [{ bits := 121, retries := 0, lost := false }], crcBad := false } }] [],
    .checkpointSeal [{ block := 0, page := 0, read := { words := [{ bits := 0, retries := 16, lost := false }], crcBad := false } }] [],
    .scrub (List.replicate 9 { bits := 0, retries := 0, lost := false }) false [], .sourceRaise 0,
    .sourceRaise 512, .bellClaim .a 8, .bellEoi .a 8 0, .bellMask .a 8 0, .bellSrcEn (.ep .a) 512 0, .faultEvent 384]

/-- Ill-formed commands, 9. -/
def illFormed8 : List Instr :=
  [.brokenWire 384 false, .levelRestored 384 true, .subBucketAdvance 384, .recovery 384, .rcntDecay 384, .windowClose 384,
    .testResult 174 0 [] [], .resetN 4 0, .powerOn 4, .protocolExceptionExit 136, .dbgAccess (.halt 4),
    .dbgAccess (.step 4)]

/-- Ill-formed commands, 10. -/
def illFormed9 : List Instr :=
  [.dbgAccess (.scan 174), .msiXTableWrite .a (.table 0x10000) 4 0, .msiXTableWrite .a (.table 0) 3 0, .tempUpdate []]

/-- The check refuses an ill-formed command for every check of WellFormed.lean. -/
theorem test_wf_refuses :
    (illFormed0 ++ illFormed1 ++ illFormed2 ++ illFormed3 ++ illFormed4 ++ illFormed5 ++
      illFormed6 ++ illFormed7 ++ illFormed8 ++ illFormed9).all
      (fun i => !i.wf) = true := by decide +kernel

/-- Well-formed commands at the ends of their ranges. -/
def wellFormed0 : List Instr :=
  [.registerWrite .mgmt 0xFFFFF8 8 0, .aliasWrite (.ep .b) 0x400000 1 0, .rxHeader 127 header 0, .rxHeader 0 { header with fmt := 1, ident := 0x1FFFFFFF } 0, .portIntegrated 135, .fgRetry 31,
    .lpStbEffect 32, .pantryLineFill 0x3fffff none, .sweepVisit [262143], .nop { cmd 0 0 with ring := 127 }]

/-- The rest. -/
def wellFormed1 : List Instr :=
  [.sealStart 15, .cellarStart (cmd 0 0) media, .endpointUsableChange .a true true true false 4 4 bars, .dbgAccess (.scan 173), .sourceRaise 1, .sourceRaise 511, .bellClaim .b 7,
    .faultEvent 383, .testResult 173 0 [] [], .powerOn 3, .tempUpdate [0, 0, 0, 0, 0, 0, 0, 0]]

/-- The check accepts them. -/
theorem test_wf_accepts : (wellFormed0 ++ wellFormed1).all Instr.wf = true := by decide +kernel

/-! ## The spec's worked examples and the standards' test vectors -/

/-- R62's example: the engine block of E130 repeats its registers, and the set alias lies 4 MiB up. -/
theorem test_alias_example :
    canonicalOff 0x120AA8 = 0x1208A8 ∧ 0x5208A8 % 0x400000 = 0x1208A8 ∧ windowOp 0x5208A8 = .set ∧ blockEngine 0x1208A8 = some 130 := by
  decide +kernel

/-- The key example of the watch table: P45, XL, priority identifier 0x2A3, SDT 0x07, VCID 0x12. -/
theorem test_key_example :
    ({ header with fmt := 4, ident := 0x2A3, sdt := 0x07, vcid := 0x12 } : BusFrame).keyWord 45 false = 0x2D800002A3071200 := by
  decide +kernel

/-- CRC-32C of the nine digits (RFC 3720's check value). -/
theorem test_crc32c : crc32c [0x31#8, 0x32#8, 0x33#8, 0x34#8, 0x35#8, 0x36#8, 0x37#8, 0x38#8, 0x39#8] = 0xE3069283#32 := by
  decide +kernel

/-- The half of the sealing example: SFORM 1, WIN 16, R 0x17FF0. -/
def exampleHalf : KeyHalf := { loaded := true, alg := 0, sform := 1, win := 16, ph := true, r := 0x17FF0 }

/-- The sealing example: FVT 5 is c = 0x18005, which moves R by 21; then 0x7FF8 is 0x17FF8, 13 below R, once. -/
theorem test_freshness_example :
    exampleHalf.candidates 5 = [0x18005] ∧ (exampleHalf.accept 0x18005).map (·.r) = some 0x18005 ∧
    ((exampleHalf.accept 0x18005).map (fun h => h.candidates 0x7FF8)) = some [0x17FF8] ∧
    ((exampleHalf.accept 0x18005).bind (fun h => h.accept 0x17FF8)).isSome = true ∧
    (((exampleHalf.accept 0x18005).bind (fun h => h.accept 0x17FF8)).bind (fun h => h.accept 0x17FF8)) = none := by
  decide +kernel

/-- The descriptors of the CANopen example: DC link voltage and motor current. -/
def voltage : Desc := (0x3DCCCCCD00000000, 0x01003C0000006BD0)
/-- The motor current's descriptor: SINT, factor 0.1, −500 to 500. -/
def current : Desc := (0x3DCCCCCD00000000, 0x20000000DFD05FD0)

/-- The CANopen example: 7,504 is 750.400011 V and lies within the deadband of 750.100011 V; −468 is −46.800001 A. -/
theorem test_decode_example :
    voltage.convert 16 7504 = (0x4087733339100000, 0) ∧ current.convert 16 0xFE2C = (0xC04766666C400000, 0) ∧
    withinDeadband 0x4087733339100000 0x408770CCCF200000 voltage.deadband = true := by
  decide +kernel

/-- The mirror example: 16 words of data make 23 words, and a record that does not fit at word 8,180 is preceded by a PAD. -/
theorem test_mirror_example :
    recordWords 128 = 23 ∧ lengthWord 12 4 true = 0x0000000C00000084 ∧ lengthWord 23 2 false = 0x0000001700000002 ∧
    headerB { header with fmt := 4, ident := 0x2A3, dlc := 1023, af := 1, sdt := 7, vcid := 0x12 } 128 = 0x0000000140008000 := by
  decide +kernel

/-- The time-step example of the epochs: 12 ms into an aligned 20 ms epoch that began at TAI 1,000 s, a step of +7.3 ms moves
the boundary to 32.7 ms after the epoch's start. -/
theorem test_stretch_example :
    (match exec .timeSetApply (withRegs [(Reg.genEpochCtl, 0x300500003)]
        { gen := { st := .running, epochNum := 7, nextAt := 20000000 }
          time := { now := 12000000, offset := 1000000000000
                    requests := [{ ep := .a, ring := 0, step := true, atPps := false, value := 7300000, since := 0 }] } }) with
      | .next t => t.gen.nextAt == 32700000
      | _ => false) = true := by
  decide +kernel

/-- The cut-through example: a classic frame at 500 kbit/s into a 2 Mbit/s data phase may start 187.804 µs after SOF. -/
theorem test_cut_through_example :
    tMin { useNbt := pack [(16, 16), (32, 63), (48, 4)] }
      { useNbt := pack [(16, 16), (32, 63), (48, 4)], useDbt := pack [(16, 5), (32, 14), (40, 4)] } 40000
      { header with dlc := 8 } 2 true = 187804000 := by
  decide +kernel

/-- The Bell Board example: T3 with sources 9 of priority 6, 7 of priority 14 and 1 of priority 10. -/
def bellExample : State :=
  withRegs [(Reg.bellSrcCfg 1, 0xa0301), (Reg.bellSrcCfg 7, 0xe0301), (Reg.bellSrcCfg 9, 0x60301)] { epA := linked }

/-- Its claims: 7 before 9, nothing deliverable under 7, and 1 nested over 9. -/
theorem test_bell_example :
    ({ bellExample with bell := { pend := [7, 9] } }).bestSource 3 = some 7 ∧
    ({ bellExample with bell := { pend := [9], stack := [(3, [(7, 14)])] } }).bestSource 3 = none ∧
    ({ bellExample with bell := { pend := [1], stack := [(3, [(9, 6)])] } }).bestSource 3 = some 1 := by
  decide +kernel

/-- The Steward example: the 16th self-abort within the window classifies F177 and suspends P41. -/
theorem test_steward_example :
    (match exec (.faultEvent 177) { up with stew := { srcs := [(177, { buckets := 15 :: List.replicate 15 0 })] } } with
      | .next t => (t.src 177).st == 1 && (t.src 177).sticky && (t.src 177).buckets.sum == 0 && (t.port 41).suspSteward
      | _ => false) = true := by
  decide +kernel

/-- FIPS 180-4's own example: the hash of "abc". -/
theorem test_sha384_abc : sha384 [0x61#8, 0x62#8, 0x63#8] =
    0xCB00753F45A35E8BB5A03D699AC65007272C32AB0EDED1631A8B605A43FF5BED8086072BA1E7CC2358BAECA134C825A7#384 := by
  decide +kernel

/-! ## What meets the obligations' hypotheses -/

/-- What meets the hypotheses of StepRunsFront. -/
theorem test_meets_StepRunsFront :
    ∃ (c : Instr) (rest : List Instr) (s : State), s.pending = c :: rest :=
  ⟨.cut, [.cut], { pending := [.cut, .cut] }, by decide +kernel⟩

/-- What meets the hypotheses of QueueAndOutcomes, clause by clause. -/
theorem test_meets_QueueAndOutcomes :
    (∃ (s : State), s.pending = []) ∧
    (∃ (c : Instr) (s : State) (t : State), exec c s = .next t) :=
  ⟨⟨.reset, by decide +kernel⟩,
    ⟨.cut, { pending := [.cut] }, { pending := [.cut] }, rfl⟩⟩

/-- What meets the hypotheses of StepKeepsMemoryCanonical. -/
theorem test_meets_StepKeepsMemoryCanonical :
    ∃ (s : State) (t : State), memoryCanonical s = true ∧ step s = .next t :=
  ⟨{ pending := [.sourceRaise 1] }, { bell := { pend := [1] } }, by decide +kernel, rfl⟩

/-- What meets the hypotheses of WriteStagesFields, clause by clause. -/
theorem test_meets_WriteStagesFields :
    (∃ (p : Path) (off : Nat) (k : Nat) (i : Nat) (val : Word) (s : State) (g : RegGroup), regAt off = some (g, i) ∧ off < 0x200000 ∧ off % 8 = 0 ∧ canonicalOff off = off ∧ hasOwnRow off = false ∧ k < 4 ∧ (g.rw ≠ 0 ∨ g.rwi ≠ 0) ∧ s.lcDataLocked off = false ∧ canWrite s p off ((windowOp (off + 0x400000 * k)).apply (s.reg off) val) = true) ∧
    (∃ (p : Path) (off : Nat) (k : Nat) (i : Nat) (val : Word) (s : State) (g : RegGroup), regAt off = some (g, i) ∧ off < 0x200000 ∧ off % 8 = 0 ∧ canonicalOff off = off ∧ hasOwnRow off = false ∧ k < 4 ∧ (g.rw ≠ 0 ∨ g.rwi ≠ 0) ∧ s.lcDataLocked off = false ∧ canWrite s p off ((windowOp (off + 0x400000 * k)).apply (s.reg off) val) = true) ∧
    (∃ (p : Path) (off : Nat) (k : Nat) (i : Nat) (val : Word) (s : State) (g : RegGroup), regAt off = some (g, i) ∧ off < 0x200000 ∧ off % 8 = 0 ∧ canonicalOff off = off ∧ hasOwnRow off = false ∧ k < 4 ∧ (g.rw ≠ 0 ∨ g.rwi ≠ 0) ∧ s.lcDataLocked off = false ∧ canWrite s p off ((windowOp (off + 0x400000 * k)).apply (s.reg off) val) = true) ∧
    (∃ (p : Path) (off : Nat) (k : Nat) (i : Nat) (val : Word) (s : State) (g : RegGroup), regAt off = some (g, i) ∧ off < 0x200000 ∧ off % 8 = 0 ∧ canonicalOff off = off ∧ hasOwnRow off = false ∧ k < 4 ∧ (g.rw ≠ 0 ∨ g.rwi ≠ 0) ∧ s.lcDataLocked off = false ∧ canWrite s p off ((windowOp (off + 0x400000 * k)).apply (s.reg off) val) = true ∧ k ≠ 0) :=
  ⟨⟨.ep .a, Reg.bellTgtCfg 15, 0, 15, 63, up, { base := 0x10200, stride := 0x8, count := 16, rw := 0x3f, live := 0xffffffffffffffc0 }, by decide +kernel⟩,
    ⟨.mgmt, 0x28, 3, 0, 1, .reset, { base := 0x28, rwi := 0x1, live := 0xfffffffffffffffe }, by decide +kernel⟩,
    ⟨.ep .a, 0x20000, 1, 0, 0x3fff, up, { base := 0x20000, rw := 0x3fff, live := 0xffffffffffffc000, guarded := true, reset := 0x32, clamps := [⟨0, 14, 1, 10000, false⟩] }, by decide +kernel⟩,
    ⟨.ep .a, Reg.bellTgtCfg 15, 3, 15, 63, up, { base := 0x10200, stride := 0x8, count := 16, rw := 0x3f, live := 0xffffffffffffffc0 }, by decide +kernel⟩⟩

/-- What meets the hypotheses of WriteIgnored, clause by clause. -/
theorem test_meets_WriteIgnored :
    (∃ (p : Path) (s : State), s.regs.waiting = [] ∧ s.isOwner p = false) ∧
    (∃ (p : Path) (off : Nat) (size : Nat) (s : State), s.regs.waiting = [] ∧ s.isOwner p = true ∧ (size ≠ 8 ∨ off % 8 ≠ 0 ∨ regAt (canonicalOff (off % 0x400000)) = none)) ∧
    (∃ (p : Path) (off : Nat) (s : State) (g : RegGroup) (i : Nat), s.regs.waiting = [] ∧ s.isOwner p = true ∧ s.unlocked p = false ∧ off < 0x200000 ∧ off % 8 = 0 ∧ regAt (canonicalOff off) = some (g, i) ∧ g.guarded = true) :=
  ⟨⟨.ep .b, .reset, by decide +kernel⟩,
    ⟨.ep .a, 4, 8, .reset, by decide +kernel⟩,
    ⟨.ep .a, Reg.genOwner, .reset, { base := 0x8, rwi := 0x1, live := 0xfffffffffffffffe, guarded := true }, 0, by decide +kernel⟩⟩

/-- What meets the hypotheses of EngineBlocksRepeat, clause by clause. -/
theorem test_meets_EngineBlocksRepeat :
    (∃ (n : Nat) (k : Nat), n < 136 ∧ 0x100 ≤ k ∧ k < 0x400) ∧
    (∃ (n : Nat) (k : Nat), n < 136 ∧ 0x100 ≤ k ∧ k < 0x400) :=
  ⟨⟨135, 0x380, by decide +kernel⟩,
    ⟨135, 0x3ff, by decide +kernel⟩⟩

/-- What meets the hypotheses of UnlockAndBeat, clause by clause. -/
theorem test_meets_UnlockAndBeat :
    (∃ (p : Path) (val : Word) (s : State), canWrite s p Reg.genUnlock val = true) ∧
    (∃ (p : Path) (val : Word) (s : State), canWrite s p Reg.genUnlock val = true) ∧
    (∃ (p : Path) (val : Word) (s : State), canWrite s p Reg.hostOwnHb val = true ∧ p = .ep s.regs.owner ∧ val.bit 0 = true) :=
  ⟨⟨.ep .a, 0x5A3C96E1, .reset, by decide +kernel⟩,
    ⟨.ep .a, 0, up, by decide +kernel⟩,
    ⟨.ep .a, 1, { time := { now := 77 } }, by decide +kernel⟩⟩

/-- What meets the hypotheses of OwnershipMoves, clause by clause. -/
theorem test_meets_OwnershipMoves :
    (∃ (p : Path) (val : Word) (s : State), canWrite s p Reg.genOwner val = true ∧ epOf (val.field 0 1) ≠ s.regs.owner) ∧
    (∃ (p : Path) (val : Word) (s : State), canWrite s p Reg.genOwner val = true ∧ epOf (val.field 0 1) = s.regs.owner) ∧
    (∃ (s : State), s.usable s.regs.owner.other = true ∧ s.usable s.regs.owner = false ∧ 1000000 * s.fld Reg.hostOwnCtl 32 16 ≤ s.time.now - (s.ep s.regs.owner).downSince) ∧
    (∃ (s : State), s.usable s.regs.owner.other = true ∧ s.usable s.regs.owner = true ∧ s.fld Reg.hostOwnCtl 0 16 ≠ 0 ∧ 1000000 * s.fld Reg.hostOwnCtl 0 16 < s.time.now - s.regs.beatAt) :=
  ⟨⟨.ep .a, 1, up, by decide +kernel⟩,
    ⟨.mgmt, 1, { regs := { owner := .b, unlockedM := true } }, by decide +kernel⟩,
    ⟨{ epB := linked, time := { now := 4000000000 } }, by decide +kernel⟩,
    ⟨withRegs [(Reg.hostOwnCtl, 0x300001)] { epA := linked, epB := linked, time := { now := 1000001 } }, by decide +kernel⟩⟩

/-- What meets the hypotheses of SnapshotsAndParity, clause by clause. -/
theorem test_meets_SnapshotsAndParity :
    (∃ (p : Path) (val : Word) (s : State), canWrite s p Reg.genSnap val = true ∧ val.bit 0 = true ∧ s.gen.snapBusy = false) ∧
    (∃ (p : Path) (val : Word) (s : State), canWrite s p Reg.genSnap val = true ∧ val.bit 0 = true ∧ s.gen.snapBusy = true ∧ s.gen.snapWrite = true) ∧
    (∃ (s : State), s.gen.snapBusy = true ∧ s.gen.snapHeld = []) ∧
    (∃ (s : State) (c : Bool) (r : List Bool), s.gen.snapBusy = true ∧ s.gen.snapHeld = c :: r) ∧
    (∃ (off : Nat) (i : Nat) (g : RegGroup) (s : State), regAt off = some (g, i) ∧ (g.rw ≠ 0 ∨ g.rwi ≠ 0) ∧ s.regs.upset = []) ∧
    (∃ (s : State), s.regs.upset = [] ∧ s.regs.badInForce = []) ∧
    (∃ (off : Nat) (s : State), off ∈ s.regs.badInForce ∧ off ∈ s.regs.reload ∧ s.regs.waiting = []) ∧
    (∃ (p : Path) (off : Nat) (size : Nat) (val : Word) (s : State), s.mustWait (.write p (decodedOff off) size val true) = true) :=
  ⟨⟨.ep .a, 3, withRegs [] { regs := { counters := [(0x48, 5)] } }, by decide +kernel⟩,
    ⟨.ep .a, 1, withRegs [] { gen := { snapBusy := true, snapWrite := true, snapHeld := [true] } }, by decide +kernel⟩,
    ⟨{ gen := { snapBusy := true }, regs := { holding := [(0x48, 5)] } }, by decide +kernel⟩,
    ⟨{ gen := { snapBusy := true, snapHeld := [true, false] }, regs := { counters := [(0x48, 5)] } }, true, [false], by decide +kernel⟩,
    ⟨Reg.genEpochCtl, 0, { base := 0x100, rw := 0x7f0fff0002, rwi := 0x5, live := 0xffffff80f000fff8, reset := 0x300500000, clamps := [⟨32, 7, 2, 64, false⟩, ⟨16, 12, 1, 4000, false⟩] }, { regs := { badInForce := [0x20000], staged := [(0x100, 5)], held := [(0x100, 7)] } }, by decide +kernel⟩,
    ⟨{ regs := { parityInForce := true, stagedLost := [0x100] } }, by decide +kernel⟩,
    ⟨Reg.genEpochCtl, { regs := { badInForce := [Reg.genEpochCtl, 0x20000], reload := [Reg.genEpochCtl] } }, by decide +kernel⟩,
    ⟨.ep .a, Reg.genEpochCtl, 8, 0x300500002, { regs := { badInForce := [Reg.genEpochCtl] } }, by decide +kernel⟩⟩

/-- What meets the hypotheses of Epochs, clause by clause. -/
theorem test_meets_Epochs :
    (∃ (s : State), s.epochsRun = true ∧ s.gen.cutDone = false) ∧
    (∃ (s : State), s.epochsRun = true ∧ s.gen.cutDone = true ∧ s.gen.freeze = false) ∧
    (∃ (s : State) (n : Nat), s.gen.thawAt = some n) ∧
    (∃ (s : State), s.gen.cutDone = true ∧ (s.gen.st = .starting ∨ s.gen.st = .running)) ∧
    (∃ (s : State), s.gen.cutDone = true ∧ s.gen.st = .stopping ∧ s.gen.startHeld = false) :=
  ⟨⟨{ gen := running }, by decide +kernel⟩,
    ⟨{ gen := { running with cutDone := true } }, by decide +kernel⟩,
    ⟨{ gen := { running with freeze := true, thawAt := some 51000000 }, regs := { held := [(0x100, 0x300500002)] } }, 51000000, by decide +kernel⟩,
    ⟨{ gen := { running with cutDone := true } }, by decide +kernel⟩,
    ⟨{ gen := { running with cutDone := true, st := .stopping } }, by decide +kernel⟩⟩

/-- What meets the hypotheses of EpochControl, clause by clause. -/
theorem test_meets_EpochControl :
    (∃ (p : Path) (val : Word) (s : State), canWrite s p Reg.genEpochCtl val = true ∧ s.gen.st = .stopped ∧ val.bit 0 = true) ∧
    (∃ (p : Path) (val : Word) (s : State), canWrite s p Reg.genEpochCtl val = true ∧ (s.gen.st = .starting ∨ s.gen.st = .running) ∧ val.bit 0 = false) ∧
    (∃ (p : Path) (val : Word) (s : State), canWrite s p Reg.genEpochCtl val = true ∧ (s.gen.st = .starting ∨ s.gen.st = .running) ∧ val.bit 0 = true) :=
  ⟨⟨.ep .a, 0x300500001, up, by decide +kernel⟩,
    ⟨.ep .a, 0x300500000, withRegs [] { gen := running }, by decide +kernel⟩,
    ⟨.ep .a, 0x300500005, withRegs [] { gen := { running with st := .starting } }, by decide +kernel⟩⟩

/-- What meets the hypotheses of CommitsAndSwaps, clause by clause. -/
theorem test_meets_CommitsAndSwaps :
    (∃ (p : Path) (val : Word) (s : State), canWrite s p Reg.genCommit val = true ∧ val.bit 0 = true ∧ s.gen.st = .stopped ∧ s.commitWaits = false) ∧
    (∃ (p : Path) (val : Word) (s : State), canWrite s p Reg.genCommit val = true ∧ val.bit 0 = true ∧ s.gen.st ≠ .stopped) ∧
    (∃ (s : State), s.gen.st = .stopped) ∧
    (∃ (p : Path) (val : Word) (s : State), canWrite s p Reg.genSwap val = true ∧ val.bit 0 = true ∧ val.bit 1 = false ∧ (s.bank s.inactiveGen).bad = false) ∧
    (∃ (p : Path) (val : Word) (s : State), canWrite s p Reg.genSwap val = true ∧ val.bit 0 = true ∧ val.bit 1 = false ∧ (s.bank s.inactiveGen).bad = true) ∧
    (∃ (p : Path) (val : Word) (s : State), canWrite s p Reg.genSwap val = true ∧ val.bit 1 = true ∧ s.swapNow = false ∧ s.gen.swapPending = true ∧ s.gen.commitHeld = false) ∧
    (∃ (s : State), s.gen.st = .stopped ∧ s.gen.commitBusy = true ∧ s.gen.swapPending = true ∧ s.swapEligible = true ∧ s.gen.commitHeld = false) ∧
    (∃ (p : Path) (val : Word) (s : State), canWrite s p Reg.genSwap val = true ∧ val.bit 1 = true ∧ s.swapNow = true) :=
  ⟨⟨.ep .a, 1, withRegs [] { regs := { staged := [(0x100, 0x300500002)] } }, by decide +kernel⟩,
    ⟨.ep .a, 1, withRegs [] { gen := running }, by decide +kernel⟩,
    ⟨.reset, by decide +kernel⟩,
    ⟨.ep .a, 1, up, by decide +kernel⟩,
    ⟨.ep .a, 1, withRegs [] { watch := { bank1 := { bad := true } } }, by decide +kernel⟩,
    ⟨.ep .a, 2, withRegs [] { gen := { swapPending := true } }, by decide +kernel⟩,
    ⟨{ gen := { commitBusy := true, swapPending := true } }, by decide +kernel⟩,
    ⟨.ep .a, 2, withRegs [] { gen := { running with swapPending := true, cutDone := true, nextAt := 5 }, time := { now := 5 } }, by decide +kernel⟩⟩

/-- What meets the hypotheses of BellBoard, clause by clause. -/
theorem test_meets_BellBoard :
    (∃ (n : Nat) (s : State), sourceUsed n = true ∧ n ∉ s.bell.pend) ∧
    (∃ (n : Nat) (s : State), sourceUsed n = true ∧ n ∈ s.bell.pend) ∧
    (∃ (e : Ep) (l : Nat) (s : State) (n : Nat), l < 8 ∧ s.regs.waiting = [] ∧ s.bestSource (targetOf e l) = some n) ∧
    (∃ (e : Ep) (l : Nat) (s : State), l < 8 ∧ s.regs.waiting = [] ∧ s.bestSource (targetOf e l) = none) ∧
    (∃ (e : Ep) (l : Nat) (val : Word) (s : State) (r : List (Nat × Nat)), l < 8 ∧ s.regs.waiting = [] ∧ stackRemove val.toNat (s.bellStack (targetOf e l)) = some r) ∧
    (∃ (e : Ep) (l : Nat) (val : Word) (s : State), l < 8 ∧ s.regs.waiting = [] ∧ stackRemove val.toNat (s.bellStack (targetOf e l)) = none) ∧
    (∃ (l : Nat) (s : State), l < 8 ∧ s.regs.waiting = []) :=
  ⟨⟨1, .reset, by decide +kernel⟩,
    ⟨351, { bell := { pend := [351] } }, by decide +kernel⟩,
    ⟨.b, 7, withRegs [(Reg.bellSrcCfg 351, 0xf0f01)] { bell := { pend := [351] } }, 351, by decide +kernel⟩,
    ⟨.a, 0, .reset, by decide +kernel⟩,
    ⟨.a, 0, 351, { bell := { stack := [(0, [(5, 9), (351, 3)])] } }, [(5, 9)], by decide +kernel⟩,
    ⟨.b, 7, 351, .reset, by decide +kernel⟩,
    ⟨7, .reset, by decide +kernel⟩⟩

/-- What meets the hypotheses of BellRegistersAndMessages, clause by clause. -/
theorem test_meets_BellRegistersAndMessages :
    (∃ (p : Path) (val : Word) (s : State), canWrite s p Reg.bellPendClr val = true) ∧
    (∃ (p : Path) (val : Word) (s : State), canWrite s p Reg.bellCtl val = true) ∧
    (∃ (p : Path) (val : Word) (s : State) (n : Nat), 1 ≤ n ∧ n < 512 ∧ canWrite s p (Reg.bellSrcCfg n) val = true) ∧
    (∃ (n : Nat) (g : Nat) (s : State), sourceUsed n = true ∧ n ∉ s.bell.pend ∧ g < 16 ∧ g ∉ s.bell.signalled ∧ s.deliverable g n = true ∧ s.usable (targetEp g) = true) ∧
    (∃ (n : Nat) (g : Nat) (s : State), sourceUsed n = true ∧ n ∉ s.bell.pend ∧ g < 16 ∧ g ∉ s.bell.signalled ∧ s.deliverable g n = true ∧ s.usable (targetEp g) = true) :=
  ⟨⟨.ep .a, 351, { bell := { pend := [351] } }, by decide +kernel⟩,
    ⟨.ep .a, 1, .reset, by decide +kernel⟩,
    ⟨.ep .a, 1, .reset, 511, by decide +kernel⟩,
    ⟨351, 15, withRegs [(Reg.bellTgtCfg 15, 63), (Reg.bellSrcCfg 351, 0xf0f01)] { epB := { linked with msix := [(4 * 63 + 3, 0)] } }, by decide +kernel⟩,
    ⟨1, 0, withRegs [(Reg.bellSrcCfg 1, 0xf0001)] { epA := linked }, by decide +kernel⟩⟩

/-- What meets the hypotheses of EndpointsAndRings, clause by clause. -/
theorem test_meets_EndpointsAndRings :
    (∃ (e : Ep) (k : Nat) (s : State), k < 128 ∧ (s.ring e k).st = .starting ∧ s.usable e = true ∧ s.stew.ringFenced.contains e = false) ∧
    (∃ (e : Ep) (k : Nat) (s : State), k < 128 ∧ ((s.ring e k).runs 1 = true ∨ (s.ring e k).runs 4 = true)) ∧
    (∃ (e : Ep) (k : Nat) (s : State), k < 128 ∧ ((s.ring e k).runs 1 = true ∨ (s.ring e k).runs 4 = true)) ∧
    (∃ (e : Ep) (k : Nat) (s : State), k < 128 ∧ (s.ring e k).st = .starting ∧ (s.usable e && !s.stew.ringFenced.contains e) = false) ∧
    (∃ (e : Ep) (k : Nat) (s : State), k < 128 ∧ (s.ring e k).st = .stopping ∧ (s.ring e k).idle = true ∧ (s.ring e k).startHeld = false) :=
  ⟨⟨.a, 127, { up with rings := [(127, { st := .starting, devPos := 4, hostPos := 3, phase := false })] }, by decide +kernel⟩,
    ⟨.a, 127, { up with rings := [(127, { ringOf 4 with devPos := 3 })] }, by decide +kernel⟩,
    ⟨.b, 0, { up with rings := [(128, { ringOf 1 with devPos := 3 })] }, by decide +kernel⟩,
    ⟨.b, 0, { up with rings := [(128, { st := .starting })], epB := {} }, by decide +kernel⟩,
    ⟨.b, 0, { up with rings := [(128, { st := .stopping })] }, by decide +kernel⟩⟩

/-- What meets the hypotheses of DoorbellsCompletionsAndVectors, clause by clause. -/
theorem test_meets_DoorbellsCompletionsAndVectors :
    (∃ (e : Ep) (k : Nat) (s : State) (off : Nat) (val : Word), k < 128 ∧ s.mustWait (.doorbell e k off val) = false ∧ off = 0 ∧ (s.ring e k).doorbellOk val = true) ∧
    (∃ (e : Ep) (k : Nat) (s : State) (off : Nat) (val : Word), k < 128 ∧ s.mustWait (.doorbell e k off val) = false ∧ off = 0 ∧ (s.ring e k).doorbellOk val = false) ∧
    (∃ (e : Ep) (k : Nat) (s : State) (off : Nat) (val : Word), k < 128 ∧ s.mustWait (.doorbell e k off val) = false ∧ off ≠ 0) ∧
    (∃ (e : Ep) (k : Nat) (s : State) (c : Completion) (r : List Completion), k < 128 ∧ (s.ring e k).heldCq = c :: r ∧ (s.ring e k).runs 2 = true ∧ 0 < (s.ring e k).free) ∧
    (∃ (e : Ep) (s : State) (off : Nat) (val : Word), s.mustWait (.msix e (.table off) 4 val) = false ∧ off % 4 = 0 ∧ off + 4 ≤ 1024) ∧
    (∃ (e : Ep) (s : State) (off : Nat) (val : Word), s.mustWait (.msix e (.table off) 4 val) = false ∧ off % 4 = 0 ∧ off + 4 ≤ 1024) ∧
    (∃ (e : Ep) (s : State) (off : Nat) (val : Word), s.mustWait (.msix e (.table off) 4 val) = false ∧ (off % 4 ≠ 0 ∨ 1024 < off + 4)) ∧
    (∃ (e : Ep) (s : State) (off : Nat) (val : Word), s.mustWait (.msix e (.table off) 8 val) = false ∧ off % 8 = 0 ∧ off + 8 ≤ 1024) ∧
    (∃ (e : Ep) (s : State) (off : Nat) (val : Word), s.mustWait (.msix e (.table off) 8 val) = false ∧ (off % 8 ≠ 0 ∨ 1024 < off + 8)) ∧
    (∃ (e : Ep) (s : State) (size : Nat) (val : Word), s.mustWait (.msix e .functionMask size val) = false) :=
  ⟨⟨.a, 0, host, 0, 63, by decide +kernel⟩,
    ⟨.a, 0, host, 0, 64, by decide +kernel⟩,
    ⟨.b, 127, host, 8, 1, by decide +kernel⟩,
    ⟨.a, 1, { up with rings := [(1, { ringOf 2 with heldCq := [{ tag := 1, detail := 2, status := 3, src := 0, kind := 1, result := 9 }] })] }, { tag := 1, detail := 2, status := 3, src := 0, kind := 1, result := 9 }, [], by decide +kernel⟩,
    ⟨.b, up, 1020, 0x100000001, by decide +kernel⟩,
    ⟨.a, { up with epA := { linked with pba := 1 } }, 12, 0, by decide +kernel⟩,
    ⟨.a, .reset, 1024, 0, by decide +kernel⟩,
    ⟨.a, { up with epA := { linked with pba := 1 } }, 1016, 0x2FFFFFFFF, by decide +kernel⟩,
    ⟨.a, .reset, 4, 0, by decide +kernel⟩,
    ⟨.a, { up with epA := { linked with pba := 1, funcMask := true, msix := [(3, 0)] } }, 2, 0, by decide +kernel⟩⟩

/-- What meets the hypotheses of CommandsThatEndOrWait, clause by clause. -/
theorem test_meets_CommandsThatEndOrWait :
    (∃ (c : CmdEntry) (s : State), s.mayStart c.ep c.ring = true ∧ cmdOpc c = 0) ∧
    (∃ (c : CmdEntry) (s : State), s.mayStart c.ep c.ring = true ∧ cmdOpc c = 0) ∧
    (∃ (c : CmdEntry) (s : State), runsCommand s c (cmdOpc c) = true ∧ 12 ≤ cmdOpc c) ∧
    (∃ (c : CmdEntry) (s : State), runsCommand s c (cmdOpc c) = true ∧ 12 ≤ cmdOpc c) ∧
    (∃ (c : CmdEntry) (s : State), runsCommand s c 2 = true ∧ cmdHeadOk c 2 = true ∧ wordsZero [c.w1, c.w2, c.w3, c.w4, c.w5, c.w6, c.w7] = true ∧ cmdFlags c = 0) ∧
    (∃ (c : CmdEntry) (s : State), runsCommand s c 2 = true ∧ cmdHeadOk c 2 = true ∧ wordsZero [c.w1, c.w2, c.w3, c.w4, c.w5, c.w6, c.w7] = true ∧ cmdFlags c = 1 ∧ (s.bank s.inactiveGen).bad = false) ∧
    (∃ (c : CmdEntry) (s : State), runsCommand s c 11 = true ∧ cmdHeadOk c 2 = true ∧ wordsZero [c.w2, c.w3, c.w4, c.w5, c.w6, c.w7] = true ∧ ((cmdFlags c).testBit 1 = true → s.flag Reg.sysTimeCtl 0 = true)) ∧
    (∃ (c : CmdEntry) (s : State), runsCommand s c 11 = true ∧ cmdHeadOk c 2 = true ∧ wordsZero [c.w2, c.w3, c.w4, c.w5, c.w6, c.w7] = true ∧ ((cmdFlags c).testBit 1 = true → s.flag Reg.sysTimeCtl 0 = true)) :=
  ⟨⟨cmd 0 0, host, by decide +kernel⟩,
    ⟨cmd 7 0, { host with regs := { host.regs with owner := .b } }, by decide +kernel⟩,
    ⟨opc 12 (cmd 0 0), host, by decide +kernel⟩,
    ⟨opc 255 (cmd 0 0), host, by decide +kernel⟩,
    ⟨opc 2 (cmd 0 0), host, by decide +kernel⟩,
    ⟨opc 0x102 (cmd 0 0), host, by decide +kernel⟩,
    ⟨opc 0x10B (cmd 77 0), host, by decide +kernel⟩,
    ⟨opc 0x20B (cmd 77 0), { host with regs := { host.regs with inForce := [(Reg.sysTimeCtl, 1)] } }, by decide +kernel⟩⟩

/-- What meets the hypotheses of EngineStates, clause by clause. -/
theorem test_meets_EngineStates :
    (∃ (n : Nat) (s : State), s.shadowedPort n = none) ∧
    (∃ (n : Nat) (p : Nat) (s : State), s.shadowedPort n = some p) ∧
    (∃ (n : Nat) (p : Nat) (s : State), s.portOf n = some p ∧ (s.engine n).st = .stopping ∧ (s.engine n).startHeld = false ∧ (s.port p).rxFrame = none ∧ (s.port p).onBus = none ∧ (s.port p).shadow = none) ∧
    (∃ (p : Nat) (s : State), (s.port p).held = true ∧ s.portUp p = false ∧ (s.engine (s.serving p)).st ≠ .stopping ∧ (s.port p).queues.length = 4) ∧
    (∃ (port : Nat) (s : State), (s.engine (s.serving port)).boWait = true ∧ (s.engine (s.serving port)).boPolicy = 1) ∧
    (∃ (port : Nat) (k : Nat) (s : State), (s.engine (s.serving port)).busOff = true ∧ (s.engine (s.serving port)).boMonitor = true ∧ (s.engine (s.serving port)).recov + k < 128) ∧
    (∃ (port : Nat) (k : Nat) (s : State), (s.engine (s.serving port)).busOff = true ∧ (s.engine (s.serving port)).boMonitor = true ∧ 128 ≤ (s.engine (s.serving port)).recov + k) ∧
    (∃ (p : Path) (n : Nat) (val : Word) (s : State), n < 136 ∧ canWrite s p (Reg.portCmd n) val = true ∧ val.bit 0 = true ∧ (s.engine n).busOff = true ∧ (s.engine n).boWait = true ∧ ((s.engine n).boPolicy = 1 ∨ (s.engine n).boPolicy = 2)) ∧
    (∃ (c : CmdEntry) (p : Nat) (s : State), runsCommand s c 4 = true ∧ p < 64 ∧ cmdHeadOk c 0 = true ∧ c.w1 = 1#64 <<< p ∧ c.w2 = 0 ∧ c.w3 = 0 ∧ wordsZero [c.w4, c.w5, c.w6, c.w7] = true ∧ s.gen.freeze = false ∧ s.serving p < 136 ∧ s.spareOf (s.serving p) = none) :=
  ⟨⟨0, { bus with engines := [(0, { st := .starting })] }, by decide +kernel⟩,
    ⟨128, 5, { bus with ports := [(5, { serving := 5, shadow := some 128, phase := 1 })] }, by decide +kernel⟩,
    ⟨127, 127, { bus with engines := [(127, { st := .stopping })] }, by decide +kernel⟩,
    ⟨1, { bus with ports := [(1, { serving := 1, held := true, heldSince := 5, queues := [[packet], [], [], []] })], dray := { cellUse := [(7, 1)] } }, by decide +kernel⟩,
    ⟨3, { bus with engines := [(3, { st := .running, busOff := true, boWait := true, boPolicy := 1, boUntil := 99 })] }, by decide +kernel⟩,
    ⟨3, 127, { bus with engines := [(3, { st := .running, busOff := true, boMonitor := true })] }, by decide +kernel⟩,
    ⟨3, 128, { bus with engines := [(3, { st := .running, busOff := true, boMonitor := true, tec := 256, rxErr := 7 })] }, by decide +kernel⟩,
    ⟨.ep .a, 135, 1, { bus with engines := [(135, { st := .running, busOff := true, boWait := true, boPolicy := 2, tec := 256 })] }, by decide +kernel⟩,
    ⟨opc 4 (cmd (1#64 <<< 63) 0), 63, host, by decide +kernel⟩⟩

/-- What meets the hypotheses of TimeBase, clause by clause. -/
theorem test_meets_TimeBase :
    (∃ (q : TimeReq) (s : State), s.time.requests.find? (fun x => !x.atPps) = some q ∧ q.step = false) ∧
    (∃ (q : TimeReq) (s : State), s.time.requests.find? (fun x => !x.atPps) = some q ∧ q.step = true) ∧
    (∃ (q : TimeReq) (s : State), s.time.requests.find? (fun x => x.atPps) = some q) ∧
    (∃ (s : State), s.flag Reg.sysTimeCtl 0 = true ∧ s.time.ppsLost = false) ∧
    (∃ (rising : Bool) (s : State), (rising != s.flag Reg.sysTimeCtl 1) = true ∧ s.time.requests.find? (fun q => q.atPps) = none) ∧
    (∃ (rising : Bool) (s : State), (rising != s.flag Reg.sysTimeCtl 1) = true ∧ s.time.requests.find? (fun q => q.atPps) = none) ∧
    (∃ (rising : Bool) (s : State) (q : TimeReq), (rising != s.flag Reg.sysTimeCtl 1) = true ∧ s.time.requests.find? (fun q => q.atPps) = some q ∧ q.step = false ∧ s.stepAllowed = true) :=
  ⟨⟨{ ep := .a, ring := 0, step := false, atPps := false, value := 1000, since := 0 }, { host with time := { requests := [{ ep := .a, ring := 0, step := false, atPps := false, value := 1000, since := 0 }], now := 5, stepAt := some 3 } }, by decide +kernel⟩,
    ⟨{ ep := .a, ring := 0, step := true, atPps := false, value := 1000, since := 0 }, { host with time := { requests := [{ ep := .a, ring := 0, step := true, atPps := false, value := 1000, since := 0 }], now := 5, offset := 20000 } }, by decide +kernel⟩,
    ⟨{ ep := .a, ring := 0, step := true, atPps := true, value := 1000, since := 0 }, { host with time := { requests := [{ ep := .a, ring := 0, step := true, atPps := true, value := 1000, since := 0 }], now := 5, offset := 20000 } }, by decide +kernel⟩,
    ⟨withRegs [(Reg.sysTimeCtl, 1)] { time := { ppsUsed := 4, ppsRef := true, ppsBase := 7 } }, by decide +kernel⟩,
    ⟨true, withRegs [(Reg.sysTimeCtl, 1)] { time := { ppsLost := true, now := 40, offset := 60 } }, by decide +kernel⟩,
    ⟨false, withRegs [(Reg.sysTimeCtl, 3)] { time := { ppsLast := some 7, ppsRef := true, now := 1000000007, offset := 60 } }, by decide +kernel⟩,
    ⟨true, withRegs [(Reg.sysTimeCtl, 1)] { time := { now := 40, requests := [{ ep := .a, ring := 0, step := false, atPps := true, value := 5000, since := 0 }] } }, { ep := .a, ring := 0, step := false, atPps := true, value := 5000, since := 0 }, by decide +kernel⟩⟩

/-- What meets the hypotheses of BusErrorsAndEndings, clause by clause. -/
theorem test_meets_BusErrorsAndEndings :
    (∃ (p : Nat) (o : OnBus) (s : State), (s.port p).onBus = some o ∧ s.modeOf (s.serving p) ≠ 3 ∧ (o = .lane → (s.port p).lane.isSome = true)) ∧
    (∃ (p : Nat) (o : OnBus) (s : State), (s.port p).onBus = some o ∧ s.modeOf (s.serving p) ≠ 3 ∧ (o = .lane → (s.port p).lane.isSome = true)) ∧
    (∃ (p : Nat) (e : BusErr) (ph : BitPhase) (s : State), e ∈ [BusErr.stuff, .form, .ack, .bitRecessive, .bitDominant, .crc] ∧ ph ≠ .xlData ∧ (s.engine (s.serving p)).takesPart = true ∧ s.seesBus p = true ∧ s.actingMode p = 0 ∧ (s.port p).shadow = none ∧ (s.engine (s.serving p)).tec ≤ 255 ∧ (s.engine (s.serving p)).rxErr < 255 ∧ (s.port p).onBus = none ∧ (s.engine (s.serving p)).tec + 8 ≤ 255) ∧
    (∃ (p : Nat) (e : BusErr) (ph : BitPhase) (s : State), e ∈ [BusErr.stuff, .form, .ack, .bitRecessive, .bitDominant, .crc] ∧ ph ≠ .xlData ∧ (s.engine (s.serving p)).takesPart = true ∧ s.seesBus p = true ∧ s.actingMode p = 0 ∧ (s.port p).shadow = none ∧ (s.engine (s.serving p)).tec ≤ 255 ∧ (s.engine (s.serving p)).rxErr < 255 ∧ (s.port p).onBus = none ∧ 255 < (s.engine (s.serving p)).tec + 8 ∧ (s.engine (s.serving p)).st = .running) ∧
    (∃ (p : Nat) (e : BusErr) (ph : BitPhase) (s : State), e ∈ [BusErr.stuff, .form, .ack, .bitRecessive, .bitDominant, .crc] ∧ ph ≠ .xlData ∧ (s.engine (s.serving p)).takesPart = true ∧ s.seesBus p = true ∧ s.actingMode p = 0 ∧ (s.port p).shadow = none ∧ (s.engine (s.serving p)).tec ≤ 255 ∧ (s.engine (s.serving p)).rxErr < 255 ∧ (s.engine (s.serving p)).tec + 8 ≤ 255) ∧
    (∃ (p : Nat) (e : BusErr) (ph : BitPhase) (s : State) (c : Nat) (k : Packet) (r : List Packet), e ∈ [BusErr.stuff, .form, .ack, .bitRecessive, .bitDominant, .crc] ∧ ph ≠ .xlData ∧ (s.engine (s.serving p)).takesPart = true ∧ s.seesBus p = true ∧ s.actingMode p = 0 ∧ (s.port p).shadow = none ∧ (s.engine (s.serving p)).tec ≤ 255 ∧ (s.engine (s.serving p)).rxErr < 255 ∧ (s.port p).onBus = some (.cls c) ∧ (s.port p).queue c = k :: r ∧ (s.port p).queues.length = 4 ∧ k.dropNext = false ∧ (s.engine (s.serving p)).tec + 8 ≤ 255 ∧ (s.engine (s.serving p)).heldWords = [] ∧ s.portUp p = true ∧ (s.fld (Reg.portCtl (s.serving p)) 12 4 = 0 ∨ k.attempts + 1 < s.fld (Reg.portCtl (s.serving p)) 12 4)) ∧
    (∃ (p : Nat) (fid : Nat) (s : State), (s.port p).rxFrame = some fid) ∧
    (∃ (p : Nat) (fid : Nat) (s : State), (s.port p).rxFrame = some fid) ∧
    (∃ (p : Nat) (fid : Nat) (s : State), (s.port p).rxFrame = some fid) ∧
    (∃ (p : Nat) (s : State), (s.port p).onBus.isSome = true ∧ (s.busFrame? p).isSome = true) ∧
    (∃ (p : Nat) (s : State), (s.port p).onBus.isSome = true ∧ (s.busFrame? p).isSome = true) :=
  ⟨⟨0, .cls 3, { bus with ports := [(0, { serving := 0, onBus := some (.cls 3), queues := [[], [], [], [packet]] })] }, by decide +kernel⟩,
    ⟨0, .lane, { bus with ports := [(0, { serving := 0, onBus := some .lane, lane := some { fid := 3, copy := 0, tMinPs := 0, started := true } })], frames := [(3, { flying with copies := [{ copy with dest := .port 0, stage := .lane }] })] }, by decide +kernel⟩,
    ⟨0, .stuff, .nominal, { bus with engines := [(0, { st := .running, tec := 247, rxErr := 94 })] }, by decide +kernel⟩,
    ⟨0, .form, .fdData, { bus with engines := [(0, { st := .running, tec := 248, rxErr := 94 })] }, by decide +kernel⟩,
    ⟨0, .crc, .fdData, { bus with engines := [(0, { st := .running, tec := 80, rxErr := 254 })], ports := [(0, { serving := 0, rxFrame := some 0 })], frames := [(0, { flying with verdict := none })] }, by decide +kernel⟩,
    ⟨0, .ack, .nominal, { bus with ports := [(0, { serving := 0, onBus := some (.cls 0), queues := [[packet], [], [], []] })], regs := { inForce := [(Reg.portCtl 0, 0x2000)] } }, 0, packet, [], by decide +kernel⟩,
    ⟨0, 0, { bus with ports := [(0, { serving := 0, rxFrame := some 0 })], frames := [(0, { flying with verdict := none })] }, by decide +kernel⟩,
    ⟨0, 0, { bus with ports := [(0, { serving := 0, rxFrame := some 0 })] }, by decide +kernel⟩,
    ⟨0, 0, { bus with ports := [(0, { serving := 0, rxFrame := some 0 })], frames := [(0, { flying with verdict := none })] }, by decide +kernel⟩,
    ⟨0, { bus with ports := [(0, { serving := 0, onBus := some (.cls 0), queues := [[packet], [], [], []] })], dray := { cellUse := [(7, 1)] } }, by decide +kernel⟩,
    ⟨0, { bus with ports := [(0, { serving := 0, onBus := some .lane, lane := some { fid := 3, copy := 0, tMinPs := 0, started := true } })], frames := [(3, { flying with copies := [{ copy with dest := .port 0, stage := .lane }] })] }, by decide +kernel⟩⟩

/-- What meets the hypotheses of HeadersEnterFlight, clause by clause. -/
theorem test_meets_HeadersEnterFlight :
    (∃ (p : Nat) (ago : Nat) (f : BusFrame) (s : State), s.receives p = true ∧ (s.port p).rxFrame = none ∧ (s.port p).onBus = none ∧ ((s.frameBegins p (((s.time.now : Int) - ago) : Int)).engine (s.serving p)).enables f.fmt = true) ∧
    (∃ (p : Nat) (ago : Nat) (f : BusFrame) (s : State), s.receives p = true ∧ (s.port p).rxFrame = none ∧ (s.port p).onBus = none ∧ ((s.frameBegins p (((s.time.now : Int) - ago) : Int)).engine (s.serving p)).enables f.fmt = false ∧ ((s.frameBegins p (((s.time.now : Int) - ago) : Int)).portWord (s.serving p) (Reg.portCtl (s.serving p))).bit 6 = true) ∧
    (∃ (p : Nat) (ago : Nat) (f : BusFrame) (s : State), s.receives p = true ∧ (s.port p).rxFrame = none ∧ (s.port p).onBus = none ∧ ((s.frameBegins p (((s.time.now : Int) - ago) : Int)).engine (s.serving p)).enables f.fmt = false ∧ ((s.frameBegins p (((s.time.now : Int) - ago) : Int)).portWord (s.serving p) (Reg.portCtl (s.serving p))).bit 6 = false) :=
  ⟨⟨0, 12, header, bus, by decide +kernel⟩,
    ⟨0, 12, { header with fmt := 2 }, { bus with regs := { bus.regs with inForce := [(Reg.portCtl 0, 0x40)] } }, by decide +kernel⟩,
    ⟨0, 0, { header with fmt := 2 }, { bus with regs := { bus.regs with inForce := [(Reg.portCtl 0, 0x2)] } }, by decide +kernel⟩⟩

/-- What meets the hypotheses of ChoicesAndSelfAborts, clause by clause. -/
theorem test_meets_ChoicesAndSelfAborts :
    (∃ (p : Nat) (c : Nat) (k : Packet) (r : List Packet) (s : State), s.portUp p = true ∧ (s.port p).onBus = none ∧ (s.port p).rxFrame = none ∧ (s.engine (s.serving p)).takesPart = true ∧ (s.engine (s.serving p)).heldWords = [] ∧ (s.port p).lane = none ∧ c < 4 ∧ (s.port p).queues.length = 4 ∧ (s.port p).queue c = k :: r ∧ (∀ d : Nat, d ≠ c → (s.port p).queue d = []) ∧ k.closed = true ∧ k.abandon = false ∧ s.expired k = false ∧ (s.engine (s.serving p)).enables k.fmt = true) ∧
    (∃ (p : Nat) (l : LaneCopy) (f : Machine.Frame) (c : Copy) (s : State), (s.port p).onBus = some .lane ∧ s.laneCopy? p = some (l, f, c) ∧ f.dead = true) ∧
    (∃ (p : Nat) (l : LaneCopy) (f : Machine.Frame) (c : Copy) (s : State), (s.port p).onBus = some .lane ∧ s.laneCopy? p = some (l, f, c)) ∧
    (∃ (p : Nat) (c : Nat) (k : Packet) (r : List Packet) (s : State), s.portUp p = true ∧ (s.port p).onBus = none ∧ (s.port p).rxFrame = none ∧ (s.engine (s.serving p)).takesPart = true ∧ (s.engine (s.serving p)).heldWords = [] ∧ (s.port p).lane = none ∧ c < 4 ∧ (s.port p).queues.length = 4 ∧ (s.port p).queue c = k :: r ∧ (∀ d : Nat, d ≠ c → (s.port p).queue d = []) ∧ k.closed = true ∧ k.abandon = false ∧ s.expired k = false ∧ (s.engine (s.serving p)).enables k.fmt = true) :=
  ⟨⟨0, 3, packet, [packet], { bus with ports := [(0, { serving := 0, queues := [[], [], [], [packet, packet]] })] }, by decide +kernel, by decide +kernel, by decide +kernel, by decide +kernel, by decide +kernel, by decide +kernel, by decide +kernel, by decide +kernel, by decide +kernel, by intro d h; match d with | 0 | 1 | 2 => rfl | 3 => exact absurd rfl h | n + 4 => rfl, by decide +kernel, by decide +kernel, by decide +kernel, by decide +kernel⟩,
    ⟨0, { fid := 3, copy := 0, tMinPs := 0, started := true }, { flying with verdict := some .invalid, copies := [{ copy with dest := .port 0, stage := .lane }] }, { copy with dest := .port 0, stage := .lane }, { bus with ports := [(0, { serving := 0, onBus := some .lane, lane := some { fid := 3, copy := 0, tMinPs := 0, started := true } })], frames := [(3, { flying with verdict := some .invalid, copies := [{ copy with dest := .port 0, stage := .lane }] })] }, by decide +kernel⟩,
    ⟨0, { fid := 3, copy := 0, tMinPs := 0, started := true }, { flying with copies := [{ copy with dest := .port 0, stage := .lane }] }, { copy with dest := .port 0, stage := .lane }, { bus with ports := [(0, { serving := 0, onBus := some .lane, lane := some { fid := 3, copy := 0, tMinPs := 0, started := true } })], frames := [(3, { flying with copies := [{ copy with dest := .port 0, stage := .lane }] })] }, by decide +kernel⟩,
    ⟨0, 3, packet, [], { bus with ports := [(0, { serving := 0, queues := [[], [], [], [packet]] })], regs := { inForce := [(Reg.portCtl 0, 0x6)] } }, by decide +kernel, by decide +kernel, by decide +kernel, by decide +kernel, by decide +kernel, by decide +kernel, by decide +kernel, by decide +kernel, by decide +kernel, by intro d h; match d with | 0 | 1 | 2 => rfl | 3 => exact absurd rfl h | n + 4 => rfl, by decide +kernel, by decide +kernel, by decide +kernel, by decide +kernel⟩⟩

/-- What meets the hypotheses of ModesAndSupplies, clause by clause. -/
theorem test_meets_ModesAndSupplies :
    (∃ (p : Nat) (s : State), s.busIdle p = true ∧ ipModeOf (s.fld (Reg.xcvrIpCtl p) 0 3) ≠ (s.ip p).modeEff) ∧
    (∃ (p : Nat) (s : State), s.busIdle p = true ∧ ipModeOf (s.fld (Reg.xcvrIpCtl p) 0 3) ≠ (s.ip p).modeEff) ∧
    (∃ (p : Nat) (at' : Nat) (s : State), (s.ip p).settleAt = some at') ∧
    (∃ (p : Nat) (s : State), s.busIdle p = true) ∧
    (∃ (p : Nat) (s : State), s.busIdle p = true) ∧
    (∃ (b : Nat) (s : State), b < 12 ∧ s.xcvr.lUnpowered.length = 12) ∧
    (∃ (b : Nat) (s : State), b < 4 ∧ s.xcvr.uv.length = 4 ∧ s.xcvr.unpowered.length = 4) ∧
    (∃ (b : Nat) (s : State), b < 4 ∧ s.xcvr.uv.length = 4 ∧ s.xcvr.unpowered.length = 4) ∧
    (∃ (b : Nat) (s : State), b < 4 ∧ s.xcvr.uv.length = 4 ∧ s.xcvr.unpowered.length = 4) :=
  ⟨⟨0, withRegs [(Reg.xcvrIpCtl 0, 0x3)] { xcvr := { ip := [(0, { modeEff := 0 })] } }, by decide +kernel⟩,
    ⟨0, { bus with regs := { bus.regs with inForce := [(Reg.xcvrIpCtl 0, 1)] } }, by decide +kernel⟩,
    ⟨31, 77, { xcvr := { ip := [(31, { modeEff := 3, settleAt := some 77 })] } }, by decide +kernel⟩,
    ⟨127, .reset, by decide +kernel⟩,
    ⟨32, withRegs [(Reg.xcvrLpCtl 32, 1)] { xcvr := { stbLow := [32] } }, by decide +kernel⟩,
    ⟨11, .reset, by decide +kernel⟩,
    ⟨0, { bus with xcvr := { bus.xcvr with uv := [true, false, true, false] } }, by decide +kernel⟩,
    ⟨3, .reset, by decide +kernel⟩,
    ⟨1, bus, by decide +kernel⟩⟩

/-- What meets the hypotheses of Fireguard, clause by clause. -/
theorem test_meets_Fireguard :
    (∃ (p : Nat) (mv : Nat) (ua : Nat) (s : State), (((s.ip p).addSample (sampleEnergy mv ua)).energy) ≤ 1000 * s.fld (Reg.xcvrFgCtl p) 32 11) ∧
    (∃ (p : Nat) (mv : Nat) (ua : Nat) (s : State), (((s.ip p).addSample (sampleEnergy mv ua)).energy) ≤ 1000 * s.fld (Reg.xcvrFgCtl p) 32 11) ∧
    (∃ (p : Nat) (mv : Nat) (ua : Nat) (s : State), 1000 * s.fld (Reg.xcvrFgCtl p) 32 11 < (((s.ip p).addSample (sampleEnergy mv ua)).energy) ∧ (s.ip p).tripped = false) ∧
    (∃ (p : Nat) (s : State), (s.ip p).tripped = true ∧ (s.ip p).cooled = false) ∧
    (∃ (p : Nat) (s : State), (s.ip p).tripped = true ∧ (s.ip p).cooled = true ∧ (s.ip p).latched = false ∧ s.busIdle p = true) ∧
    (∃ (w : Path) (val : Word) (s : State), canWrite s w Reg.xcvrCmd val = true ∧ val.bit 16 = true ∧ val.bit 17 = false ∧ val.field 0 8 < 32 ∧ (s.ip (val.field 0 8)).latched = true) :=
  ⟨⟨31, 5000, 2000, { xcvr := { ip := [(31, { windows := [3, 4], current := 5, samples := 9 })] } }, by decide +kernel⟩,
    ⟨0, 5000, 20000000, { xcvr := { ip := [(0, { samples := 4, tripSeq := 3, lastRetry := some 0 })] } }, by decide +kernel⟩,
    ⟨0, 40000, 800000000, { up with xcvr := { ip := [(0, { samples := 4, tripSeq := 3, lastRetry := some 0 })] } }, by decide +kernel⟩,
    ⟨31, { xcvr := { ip := [(31, { tripped := true, coolUntil := 99 })] } }, by decide +kernel⟩,
    ⟨31, { xcvr := { ip := [(31, { tripped := true, cooled := true, tripSeq := 1, windows := [5, 6], current := 9 })] } }, by decide +kernel⟩,
    ⟨.ep .a, 0x1001f, withRegs [] { xcvr := { ip := [(31, { tripped := true, cooled := false, latched := true, tripSeq := 4 })] } }, by decide +kernel⟩⟩

/-- What meets the hypotheses of Takeover, clause by clause. -/
theorem test_meets_Takeover :
    (∃ (p : Nat) (n : Nat) (s : State), (s.port p).shadow = some n ∧ s.sys.roll ≠ 1 ∧ s.tink.tests = [] ∧ (s.port p).phase = 1 ∧ (s.port p).proved = true ∧ (s.engine (s.port p).serving).busOff = false) ∧
    (∃ (p : Nat) (n : Nat) (s : State), (s.port p).shadow = some n ∧ s.sys.roll ≠ 1 ∧ s.tink.tests = [] ∧ (s.port p).phase = 2) ∧
    (∃ (p : Nat) (n : Nat) (s : State), (s.port p).shadow = some n ∧ s.sys.roll ≠ 1 ∧ s.tink.tests = [] ∧ (s.port p).phase = 2) ∧
    (∃ (p : Nat) (n : Nat) (s : State), (s.port p).shadow = some n ∧ s.sys.roll ≠ 1 ∧ s.tink.tests = [] ∧ (s.port p).phase = 1 ∧ (s.port p).everProved = false) :=
  ⟨⟨127, 128, { bus with ports := [(127, { serving := 127, shadow := some 128, phase := 1, proved := true })] }, by decide +kernel⟩,
    ⟨0, 128, { bus with ports := [(0, { serving := 0, shadow := some 128, phase := 2, queues := [[packet], [], [], []] })] }, by decide +kernel⟩,
    ⟨0, 135, { bus with ports := [(0, { serving := 0, shadow := some 135, phase := 2, proved := true })] }, by decide +kernel⟩,
    ⟨0, 3, { bus with ports := [(0, { serving := 0, shadow := some 3, phase := 1, hoUntil := 99 }), (3, { serving := 130 })] }, by decide +kernel⟩⟩

/-- What meets the hypotheses of SweepsAndDeadlines, clause by clause. -/
theorem test_meets_SweepsAndDeadlines :
    (∃ (s : State), s.watch.fenced = false ∧ s.watch.sweepPos < 16384) ∧
    (∃ (s : State), s.watch.fenced = false ∧ s.watch.sweepPos < 16384) ∧
    (∃ (s : State), s.watch.fenced = false ∧ 16384 ≤ s.watch.sweepPos) ∧
    (∃ (s : State), s.watch.fenced = false ∧ s.watch.stalled = false) ∧
    (∃ (k : Nat) (x : Int) (s : State), s.watch.fenced = false ∧ s.watch.sweepPos < 16384 ∧ k < 16 ∧ s.watch.swapNo = 0 ∧ (s.watchOf (16 * s.watch.sweepPos + k)).st = 1 ∧ (s.watchOf (16 * s.watch.sweepPos + k)).tLast = some x ∧ x + ((s.bank s.gen.activeGen).entry (16 * s.watch.sweepPos + k)).window < s.time.now) ∧
    (∃ (k : Nat) (x : Int) (s : State), s.watch.fenced = false ∧ s.watch.sweepPos < 16384 ∧ k < 16 ∧ s.watch.swapNo = 0 ∧ (s.watchOf (16 * s.watch.sweepPos + k)).st = 1 ∧ (s.watchOf (16 * s.watch.sweepPos + k)).tLast = some x ∧ (s.time.now : Int) ≤ x + ((s.bank s.gen.activeGen).entry (16 * s.watch.sweepPos + k)).window) :=
  ⟨⟨{ up with watch := { watching with sweepPos := 16383, uncheckedLeft := 1, swapNo := 1 } }, by decide +kernel⟩,
    ⟨{ up with watch := { watching with sweepPos := 0, uncheckedLeft := 16384, swapNo := 1, states := [(3, { st := 1, tLast := some 5, deadline := 10 })] }, time := { now := 99999 } }, by decide +kernel⟩,
    ⟨{ up with watch := { sweepPos := 16384, stalled := true, sweepAfterCut := true } }, by decide +kernel⟩,
    ⟨{ up with watch := { sweepBegan := 5 } }, by decide +kernel⟩,
    ⟨3, 7, { up with watch := { watching with states := [(3, { st := 1, tLast := some 7, deadline := 10007 })] }, time := { now := 10008 } }, by decide +kernel⟩,
    ⟨3, 7, { up with watch := { watching with states := [(3, { st := 1, tLast := some 7, deadline := 10007 })] }, time := { now := 10007 } }, by decide +kernel⟩⟩

/-- What meets the hypotheses of Walks, clause by clause. -/
theorem test_meets_Walks :
    (∃ (k : Walk) (r : List Walk) (s : State), s.watch.walks = k :: r ∧ s.watch.fenced = false ∧ k.pos < k.opCount ∧ k.pos + 1 < k.opCount) ∧
    (∃ (k : Walk) (r : List Walk) (s : State), s.watch.walks = k :: r ∧ s.watch.fenced = false ∧ k.pos < k.opCount ∧ k.kind = .deadline ∧ (s.opWord (k.opBase + k.pos)).field 62 2 = 0 ∧ s.crier.cutSet = [] ∧ ((s.recOf ((s.opWord (k.opBase + k.pos)).field 0 23)).state = qFresh ∨ (s.recOf ((s.opWord (k.opBase + k.pos)).field 0 23)).state = qInvalid) ∧ (s.recOf ((s.opWord (k.opBase + k.pos)).field 0 23)).lastWatch = k.watch ∧ (s.recOf ((s.opWord (k.opBase + k.pos)).field 0 23)).stamp.toNat ≤ k.cutoff.toNat) ∧
    (∃ (k : Walk) (r : List Walk) (s : State), s.watch.walks = k :: r ∧ s.watch.fenced = false ∧ k.pos < k.opCount ∧ k.kind = .deadline ∧ (s.opWord (k.opBase + k.pos)).field 62 2 = 0 ∧ s.crier.cutSet = [] ∧ k.cutoff.toNat < (s.recOf ((s.opWord (k.opBase + k.pos)).field 0 23)).stamp.toNat) ∧
    (∃ (k : Walk) (r : List Walk) (s : State), s.watch.walks = k :: r ∧ s.watch.fenced = false ∧ k.pos < k.opCount ∧ k.opCount = k.pos + 1 ∧ (s.opWord (k.opBase + k.pos)).field 62 2 ≠ 0 ∧ r.all (fun q => q.watch != k.watch) = true ∧ (s.watchOf k.watch).tLast = none) ∧
    (∃ (k : Walk) (r : List Walk) (s : State), s.watch.walks = k :: r ∧ s.watch.fenced = false ∧ k.pos < k.opCount ∧ k.opCount = k.pos + 1 ∧ (s.opWord (k.opBase + k.pos)).field 62 2 ≠ 0 ∧ r.all (fun q => q.watch != k.watch) = true ∧ (s.watchOf k.watch).tLast = none) :=
  ⟨⟨{ kind := .deadline, watch := 3, gen := false, opBase := 0, opCount := 2, pos := 0, begun := false, cutoff := 5 }, [], { up with watch := { watching with walks := [{ kind := .deadline, watch := 3, gen := false, opBase := 0, opCount := 2, pos := 0, begun := false, cutoff := 5 }] }, scriv := { ops := [(0, 0x4000000000000000)] } }, by decide +kernel⟩,
    ⟨{ kind := .deadline, watch := 3, gen := false, opBase := 0, opCount := 2, pos := 1, begun := true, cutoff := 5 }, [], { up with watch := { watching with walks := [{ kind := .deadline, watch := 3, gen := false, opBase := 0, opCount := 2, pos := 1, begun := true, cutoff := 5 }], states := [(3, { st := 2, tLast := some 1 })] }, scriv := { ops := [(1, 9)], records := [(9, { state := 1, lastWatch := 3, stamp := 5, value := 7 })] } }, by decide +kernel⟩,
    ⟨{ kind := .deadline, watch := 3, gen := false, opBase := 0, opCount := 2, pos := 1, begun := true, cutoff := 5 }, [], { up with watch := { watching with walks := [{ kind := .deadline, watch := 3, gen := false, opBase := 0, opCount := 2, pos := 1, begun := true, cutoff := 5 }], states := [(3, { st := 2, tLast := some 1 })] }, scriv := { ops := [(1, 9)], records := [(9, { state := 1, lastWatch := 3, stamp := 6, value := 7 })] } }, by decide +kernel⟩,
    ⟨{ kind := .floor, watch := 3, gen := false, opBase := 0, opCount := 2, pos := 1, begun := true, cutoff := 5 }, [], { up with watch := { watching with walks := [{ kind := .floor, watch := 3, gen := false, opBase := 0, opCount := 2, pos := 1, begun := true, cutoff := 5 }], states := [(3, { st := 2 })] }, scriv := { ops := [(1, 0x4000000000000000)] } }, by decide +kernel⟩,
    ⟨{ kind := .retire, watch := 3, gen := false, opBase := 0, opCount := 2, pos := 1, begun := true, cutoff := 5 }, [{ kind := .retire, watch := 4, gen := false, opBase := 0, opCount := 2, pos := 0, begun := false, cutoff := 5 }], { up with watch := { watching with walks := [{ kind := .retire, watch := 3, gen := false, opBase := 0, opCount := 2, pos := 1, begun := true, cutoff := 5 }, { kind := .retire, watch := 4, gen := false, opBase := 0, opCount := 2, pos := 0, begun := false, cutoff := 5 }], states := [(3, { st := 2 })] }, scriv := { ops := [(1, 0x4000000000000000)] } }, by decide +kernel⟩⟩

/-- What meets the hypotheses of Captures, clause by clause. -/
theorem test_meets_Captures :
    (∃ (p : Path) (val : Word) (s : State), canWrite s p Reg.watchWsel val = true) ∧
    (∃ (p : Path) (val : Word) (s : State), canWrite s p Reg.scrivRecSel val = true) ∧
    (∃ (p : Path) (val : Word) (s : State), canWrite s p Reg.scrivHashIn val = true) :=
  ⟨⟨.ep .a, 262143, { up with watch := { states := [(262143, { st := 2 })] } }, by decide +kernel⟩,
    ⟨.ep .a, 0x7fffff, { up with scriv := { records := [(0x7fffff, { value := 5, stamp := 6, state := 1, pubVal := 4 })] } }, by decide +kernel⟩,
    ⟨.ep .a, 0xfffffffff, .reset, by decide +kernel⟩⟩

/-- What meets the hypotheses of Forces, clause by clause. -/
theorem test_meets_Forces :
    (∃ (p : Path) (val : Word) (s : State), canWrite s p Reg.watchForceCmd val = true ∧ s.crier.cutSet = [] ∧ s.atCut = false ∧ Desc.nsrc ((s.bank s.gen.activeGen).desc ((s.fld Reg.watchForceSel 0 23) - (s.fld Reg.watchForceSel 0 23) % 8)) = 0 ∧ Desc.pclass ((s.bank s.gen.activeGen).desc (s.fld Reg.watchForceSel 0 23)) = 0 ∧ Desc.nsrc ((s.bank s.gen.activeGen).desc (s.fld Reg.watchForceSel 0 23)) = 0 ∧ val.bit 0 = true ∧ val.bit 1 = false) ∧
    (∃ (p : Path) (val : Word) (s : State), canWrite s p Reg.watchForceCmd val = true ∧ s.crier.cutSet = [] ∧ s.atCut = false ∧ Desc.nsrc ((s.bank s.gen.activeGen).desc ((s.fld Reg.watchForceSel 0 23) - (s.fld Reg.watchForceSel 0 23) % 8)) = 0 ∧ Desc.pclass ((s.bank s.gen.activeGen).desc (s.fld Reg.watchForceSel 0 23)) = 0 ∧ Desc.nsrc ((s.bank s.gen.activeGen).desc (s.fld Reg.watchForceSel 0 23)) = 0 ∧ val.bit 0 = false ∧ val.bit 1 = true ∧ (s.recOf (s.fld Reg.watchForceSel 0 23)).state = qForced ∧ (s.recOf (s.fld Reg.watchForceSel 0 23)).hand = true) ∧
    (∃ (p : Path) (val : Word) (s : State), canWrite s p Reg.watchForceCmd val = true ∧ s.crier.cutSet = [] ∧ s.atCut = false ∧ Desc.nsrc ((s.bank s.gen.activeGen).desc ((s.fld Reg.watchForceSel 0 23) - (s.fld Reg.watchForceSel 0 23) % 8)) = 0 ∧ Desc.pclass ((s.bank s.gen.activeGen).desc (s.fld Reg.watchForceSel 0 23)) = 0 ∧ Desc.nsrc ((s.bank s.gen.activeGen).desc (s.fld Reg.watchForceSel 0 23)) = 0 ∧ val.bit 0 = true ∧ val.bit 1 = true) :=
  ⟨⟨.ep .a, 1, { up with regs := { inForce := [(Reg.watchForceSel, 0x7fffff), (Reg.watchForceVal, 77)], unlockedA := true } }, by decide +kernel⟩,
    ⟨.ep .a, 2, { up with regs := { inForce := [(Reg.watchForceSel, 9)], unlockedA := true }, scriv := { records := [(9, { state := 6, hand := true, value := 5 })] } }, by decide +kernel⟩,
    ⟨.ep .a, 3, { up with regs := { inForce := [(Reg.watchForceSel, 9)], unlockedA := true } }, by decide +kernel⟩⟩

/-- What meets the hypotheses of Lookups, clause by clause. -/
theorem test_meets_Lookups :
    (∃ (fid : Nat) (f : Machine.Frame) (s : State) (w : Nat) (st : Bool), s.frame? fid = some f ∧ f.looked = false ∧ f.verdict = none ∧ s.cellar.pfail = false ∧ (s.bank s.gen.activeGen).slotError (f.f.keyWord f.port (s.flag (Reg.watchPortCtl f.port) 2)) = false ∧ (s.bank s.gen.activeGen).lookup (f.f.keyWord f.port (s.flag (Reg.watchPortCtl f.port) 2)) = some (w, st)) ∧
    (∃ (fid : Nat) (f : Machine.Frame) (s : State), s.frame? fid = some f ∧ f.looked = false ∧ f.verdict = none ∧ s.cellar.pfail = false ∧ (s.bank s.gen.activeGen).slotError (f.f.keyWord f.port (s.flag (Reg.watchPortCtl f.port) 2)) = false ∧ (s.bank s.gen.activeGen).lookup (f.f.keyWord f.port (s.flag (Reg.watchPortCtl f.port) 2)) = none ∧ f.watch = none) ∧
    (∃ (fid : Nat) (f : Machine.Frame) (s : State) (x : Nat × Bool), s.frame? fid = some f ∧ f.looked = false ∧ f.verdict = none ∧ s.cellar.pfail = false ∧ x ∈ (s.bank s.gen.activeGen).slots (f.f.keyWord f.port (s.flag (Reg.watchPortCtl f.port) 2))) :=
  ⟨⟨5, { flying with looked := false, verdict := none, watch := none }, { received with frames := [(5, { flying with looked := false, verdict := none, watch := none })] }, 3, true, by decide +kernel⟩,
    ⟨5, { flying with looked := false, verdict := none, watch := none }, { up with frames := [(5, { flying with looked := false, verdict := none, watch := none })] }, by decide +kernel⟩,
    ⟨5, { flying with looked := false, verdict := none, watch := none }, { received with frames := [(5, { flying with looked := false, verdict := none, watch := none })] }, (received.bank false).slots 0x123000000 |>.head!, by decide +kernel⟩⟩

/-- What meets the hypotheses of DecodeAndCommit, clause by clause. -/
theorem test_meets_DecodeAndCommit :
    (∃ (fid : Nat) (w : Nat) (f : Machine.Frame) (s : State), s.frame? fid = some f ∧ f.watch = some w ∧ f.looked = true ∧ f.valid = true ∧ f.committed = false ∧ f.sealed = false ∧ s.scriv.fenced.contains f.pipe = false ∧ s.earlierInStream fid f (fun _ => true) = false ∧ s.programDone f = true ∧ f.badOp = false ∧ f.results = [] ∧ s.watch.fenced = false ∧ s.watch.swapNo = 0 ∧ f.gen = s.gen.activeGen) ∧
    (∃ (fid : Nat) (w : Nat) (i : Nat) (v : Word) (r : List Result) (f : Machine.Frame) (s : State), s.frame? fid = some f ∧ f.watch = some w ∧ f.looked = true ∧ f.valid = true ∧ f.committed = false ∧ f.sealed = false ∧ s.scriv.fenced.contains f.pipe = false ∧ s.earlierInStream fid f (fun _ => true) = false ∧ s.programDone f = true ∧ f.results = .value i v 0 :: r ∧ s.crier.cutSet = [] ∧ s.atCut = false ∧ Desc.nsrc ((s.bank f.gen).desc (i - i % 8)) = 0 ∧ (s.recOf i).state ≠ qFresh ∧ (s.recOf i).state ≠ qForced) ∧
    (∃ (fid : Nat) (f : Machine.Frame) (s : State), s.frame? fid = some f ∧ s.mayDecode fid f = true) ∧
    (∃ (fid : Nat) (w : Nat) (i : Nat) (v : Word) (r : List Result) (f : Machine.Frame) (s : State), s.frame? fid = some f ∧ f.watch = some w ∧ f.looked = true ∧ f.valid = true ∧ f.committed = false ∧ f.sealed = false ∧ s.scriv.fenced.contains f.pipe = false ∧ s.earlierInStream fid f (fun _ => true) = false ∧ s.programDone f = true ∧ f.results = .value i v 0 :: r ∧ s.crier.cutSet = [] ∧ s.atCut = false ∧ Desc.nsrc ((s.bank f.gen).desc (i - i % 8)) = 0 ∧ (s.recOf i).state = qForced) :=
  ⟨⟨5, 3, { flying with opPos := 2 }, { received with frames := [(5, { flying with opPos := 2 })] }, by decide +kernel⟩,
    ⟨5, 3, 0x7fffff, 77, [], { flying with opPos := 2, results := [.value 0x7fffff 77 0] }, { received with frames := [(5, { flying with opPos := 2, results := [.value 0x7fffff 77 0] })] }, by decide +kernel⟩,
    ⟨5, flying, { received with scriv := { ops := [(0, 0x3800000000000010)] } }, by decide +kernel⟩,
    ⟨5, 3, 0x7fffff, 77, [], { flying with opPos := 2, results := [.value 0x7fffff 77 0] }, { received with frames := [(5, { flying with opPos := 2, results := [.value 0x7fffff 77 0] })], scriv := { records := [(0x7fffff, { state := 6, value := 4 })] } }, by decide +kernel⟩⟩

/-- What meets the hypotheses of PantryFills, clause by clause. -/
theorem test_meets_PantryFills :
    (∃ (line : Nat) (s : State), line < 0x400000 ∧ 0 < s.pantryWays (line % 16384)) ∧
    (∃ (line : Nat) (s : State), line < 0x400000 ∧ s.crier.cutSet = [] ∧ s.atCut = false ∧ Desc.nsrc ((s.bank s.gen.activeGen).desc (2 * line - 2 * line % 8)) = 0) :=
  ⟨⟨0x3fffff, { up with scriv := { records := [(5, { state := 1 })] } }, by decide +kernel⟩,
    ⟨0x3fffff, { up with scriv := { records := [(0x7fffff, { state := 1 })] } }, by decide +kernel⟩⟩

/-- What meets the hypotheses of Publication, clause by clause. -/
theorem test_meets_Publication :
    (∃ (i : Nat) (kind : Nat) (c : CloseInfo) (done : Bool) (s : State), i < 32 ∧ s.watch.cutSwept = true ∧ s.watch.fenced = false ∧ s.cellar.pfail = false ∧ (∀ j : Nat, j ≠ i → (s.sub j).closeDue = none) ∧ (s.sub i).closeDue = some (c, kind, done) ∧ (s.sub i).waitSpace = false ∧ (s.sub i).st = .running ∧ s.crier.fenced = false ∧ s.subCarried i = true ∧ 0 < (s.subRing i).free) ∧
    (∃ (c : CmdEntry) (s : State), runsCommand s c 3 = true ∧ cmdHeadOk c 0 = true ∧ c.w1.field 5 3 = 0 ∧ c.w1.field 10 54 = 0 ∧ c.w1.field 8 2 < 3 ∧ c.w2.toNat < mapWords ∧ c.w3 = 1 ∧ wordsZero [c.w5, c.w6, c.w7] = true ∧ s.crier.staged = []) ∧
    (∃ (c : CmdEntry) (s : State), runsCommand s c 3 = true ∧ cmdHeadOk c 0 = true ∧ c.w1.field 5 3 = 0 ∧ c.w1.field 10 54 = 0 ∧ c.w1.field 8 2 < 3 ∧ c.w2.toNat < mapWords ∧ c.w3 = 1 ∧ wordsZero [c.w5, c.w6, c.w7] = true ∧ s.crier.staged = []) :=
  ⟨⟨31, 0, { epoch := 6, tai := 5, lease := 2, leaseNs := 9, set := true }, false, { up with watch := { cutSwept := true }, rings := [(128, ringOf 3)], regs := { up.regs with inForce := [(Reg.crierSubCtl 31, 1)] }, crier := { subs := [(31, { st := .running, closeDue := some ({ epoch := 6, tai := 5, lease := 2, leaseNs := 9, set := true }, 0, false) })] } }, by decide +kernel, by decide +kernel, by decide +kernel, by decide +kernel, by intro j h; simp [State.sub, Table.get, Table.find?, Ne.symm h], by decide +kernel, by decide +kernel, by decide +kernel, by decide +kernel, by decide +kernel, by decide +kernel⟩,
    ⟨{ opc 3 (cmd 31 131071) with w3 := 1 }, { host with crier := { bitmaps := [(131072 * 31 + 131071, 0xf00)] } }, by decide +kernel⟩,
    ⟨{ opc 3 (cmd 0x11f 0) with w3 := 1 }, { host with crier := { bitmaps := [(131072 * 31, 0xf0f)] } }, by decide +kernel⟩⟩

/-- What meets the hypotheses of Copies, clause by clause. -/
theorem test_meets_Copies :
    (∃ (fid : Nat) (i : Nat) (p : Nat) (f : Machine.Frame) (c : Copy) (s : State), s.frame? fid = some f ∧ f.copies[i]? = some c ∧ s.cellar.pfail = false ∧ f.looked = true ∧ f.valid = true ∧ f.sealed = false ∧ c.stage = .waiting ∧ c.dest = .port p ∧ (f.copies.take i).all (fun x => x.stage != .waiting) = true ∧ c.fallback = false ∧ s.judgeCopy f c = none ∧ c.eslot = none ∧ c.cls < 4 ∧ (s.port p).queues.length = 4) ∧
    (∃ (fid : Nat) (i : Nat) (p : Nat) (f : Machine.Frame) (c : Copy) (s : State) (slot : Nat), s.frame? fid = some f ∧ f.copies[i]? = some c ∧ s.cellar.pfail = false ∧ f.looked = true ∧ f.valid = true ∧ f.sealed = false ∧ c.stage = .waiting ∧ c.dest = .port p ∧ (f.copies.take i).all (fun x => x.stage != .waiting) = true ∧ c.fallback = false ∧ s.judgeCopy f c = none ∧ c.eslot = some slot) ∧
    (∃ (fid : Nat) (i : Nat) (p : Nat) (f : Machine.Frame) (c : Copy) (s : State) (o : CopyOutcome), s.frame? fid = some f ∧ f.copies[i]? = some c ∧ s.cellar.pfail = false ∧ f.looked = true ∧ f.valid = true ∧ f.sealed = false ∧ c.stage = .waiting ∧ c.dest = .port p ∧ (f.copies.take i).all (fun x => x.stage != .waiting) = true ∧ c.fallback = false ∧ s.judgeCopy f c = some o) ∧
    (∃ (fid : Nat) (i : Nat) (k : Nat) (e : Ep) (f : Machine.Frame) (c : Copy) (s : State) (sp : Nat × Nat × Bool), s.frame? fid = some f ∧ f.copies[i]? = some c ∧ c.dest = .capture e k ∧ c.stage = .placed ∧ f.valid = true ∧ (f.sealed = false ∨ f.verdictCode.isSome = true) ∧ c.space = some sp) ∧
    (∃ (fid : Nat) (i : Nat) (k : Nat) (e : Ep) (f : Machine.Frame) (c : Copy) (s : State), s.frame? fid = some f ∧ f.copies[i]? = some c ∧ c.dest = .capture e k ∧ c.stage = .placed ∧ f.valid = true ∧ (f.sealed = false ∨ f.verdictCode.isSome = true) ∧ c.space = none) :=
  ⟨⟨5, 0, 1, { flying with copies := [copy], cells := [7] }, copy, { bus with engines := [(1, { st := .running })], frames := [(5, { flying with copies := [copy], cells := [7] })], xcvr := { bus.xcvr with ip := [(1, { modeEff := 3 })] }, dray := { cellUse := [(7, 1)] } }, by decide +kernel⟩,
    ⟨5, 0, 1, { flying with copies := [{ copy with eslot := some 1023, fmt := 2 }], cells := [7] }, { copy with eslot := some 1023, fmt := 2 }, { bus with engines := [(1, { st := .running, useFd := true })], frames := [(5, { flying with copies := [{ copy with eslot := some 1023, fmt := 2 }], cells := [7] })], xcvr := { bus.xcvr with ip := [(1, { modeEff := 3 })] }, dray := { cellUse := [(7, 1)] } }, 1023, by decide +kernel⟩,
    ⟨5, 0, 1, { flying with copies := [copy], cells := [7] }, copy, { bus with frames := [(5, { flying with copies := [copy], cells := [7] })], dray := { cellUse := [(7, 1)] } }, .down, by decide +kernel⟩,
    ⟨5, 0, 3, .a, { flying with copies := [{ copy with dest := .capture .a 3, stage := .placed, space := some (0, 10, true) }] }, { copy with dest := .capture .a 3, stage := .placed, space := some (0, 10, true) }, { up with rings := [(3, { ringOf 5 with devPos := 10, ahead := [(0, 10, false)] })], frames := [(5, { flying with copies := [{ copy with dest := .capture .a 3, stage := .placed, space := some (0, 10, true) }] })] }, (0, 10, true), by decide +kernel⟩,
    ⟨5, 0, 3, .a, { flying with copies := [{ copy with dest := .capture .a 3, stage := .placed, space := none }] }, { copy with dest := .capture .a 3, stage := .placed, space := none }, { up with frames := [(5, { flying with copies := [{ copy with dest := .capture .a 3, stage := .placed, space := none }] })] }, by decide +kernel⟩⟩

/-- What meets the hypotheses of ClassQueues, clause by clause. -/
theorem test_meets_ClassQueues :
    (∃ (w : Path) (val : Word) (k : Packet) (r : List Packet) (s : State), canWrite s w Reg.drayTxqCmd val = true ∧ val.bit 16 = true ∧ (s.port (val.field 0 7)).queue (val.field 8 2) = k :: r ∧ (s.port (val.field 0 7)).queues.length = 4 ∧ (s.port (val.field 0 7)).onBus = some (.cls (val.field 8 2))) ∧
    (∃ (w : Path) (val : Word) (k : Packet) (r : List Packet) (s : State), canWrite s w Reg.drayTxqCmd val = true ∧ val.bit 16 = true ∧ (s.port (val.field 0 7)).queue (val.field 8 2) = k :: r ∧ (s.port (val.field 0 7)).queues.length = 4 ∧ (s.port (val.field 0 7)).onBus = none) ∧
    (∃ (p : Nat) (tag : Nat) (k : Packet) (s : State) (d : Bytes), (s.port p).zombies.any (fun z => z.tag == tag) = false ∧ s.openPacket? p tag = some k ∧ s.sealUnderWay p tag = false ∧ k.host.bind (·.slot) = none ∧ d.length = k.len) ∧
    (∃ (p : Nat) (tag : Nat) (k : Packet) (s : State), (s.port p).zombies.any (fun z => z.tag == tag) = false ∧ s.openPacket? p tag = some k ∧ s.sealUnderWay p tag = false ∧ k.host.bind (·.slot) = none) :=
  ⟨⟨.ep .a, 0x10300, packet, [], { bus with ports := [(0, { serving := 0, onBus := some (.cls 3), queues := [[], [], [], [packet]] })] }, by decide +kernel⟩,
    ⟨.ep .a, 0x10000, { packet with host := some { ep := .a, ring := 2, tag := 9, slot := none } }, [openPacket], { sending with ports := [(0, { serving := 0, queues := [[{ packet with host := some { ep := .a, ring := 2, tag := 9, slot := none } }, openPacket], [], [], []] })], dray := { cellUse := [(7, 1)], hostCells := 1 } }, by decide +kernel⟩,
    ⟨0, 4, openPacket, { sending with ports := [(0, { serving := 0, queues := [[packet], [], [openPacket], []] })], dray := { storeroom := [(3, 5#8), (1793, 6#8)] } }, [0xAA#8], by decide +kernel⟩,
    ⟨0, 4, openPacket, { sending with ports := [(0, { serving := 0, queues := [[packet], [], [openPacket], []] })] }, by decide +kernel⟩⟩

/-- What meets the hypotheses of TransmitEntries, clause by clause. -/
theorem test_meets_TransmitEntries :
    (∃ (e : Ep) (k : Nat) (w0 : Word) (w1 : Word) (w2 : Word) (w3 : Word) (s : State), (s.ring e k).runs 4 = true ∧ ((s.ring e k).hostPos == (s.ring e k).devPos) = false ∧ (s.ring e k).txWait = none ∧ s.cqBlocked e k = false ∧ s.flag (Reg.hostEpCtl e.idx) 0 = true ∧ (({ w0 := w0, w1 := w1, w2 := w2, w3 := w3 }) : TxEntry).bad = false ∧ s.portUp (({ w0 := w0, w1 := w1, w2 := w2, w3 := w3 }) : TxEntry).port = true ∧ s.dray.fenced = false ∧ (s.port (({ w0 := w0, w1 := w1, w2 := w2, w3 := w3 }) : TxEntry).port).held = false ∧ (s.port (({ w0 := w0, w1 := w1, w2 := w2, w3 := w3 }) : TxEntry).port).queues.length = 4 ∧ s.txFits (({ port := (({ w0 := w0, w1 := w1, w2 := w2, w3 := w3 }) : TxEntry).port, cls := (({ w0 := w0, w1 := w1, w2 := w2, w3 := w3 }) : TxEntry).cls, pkt := (({ w0 := w0, w1 := w1, w2 := w2, w3 := w3 }) : TxEntry).packet (({ ep := e, ring := k, tag := (({ w0 := w0, w1 := w1, w2 := w2, w3 := w3 }) : TxEntry).tag, slot := if (({ w0 := w0, w1 := w1, w2 := w2, w3 := w3 }) : TxEntry).sealed then some (({ w0 := w0, w1 := w1, w2 := w2, w3 := w3 }) : TxEntry).slot else none }) : HostTx) s }) : TxWait) = true ∧ (s.allocCells (({ port := (({ w0 := w0, w1 := w1, w2 := w2, w3 := w3 }) : TxEntry).port, cls := (({ w0 := w0, w1 := w1, w2 := w2, w3 := w3 }) : TxEntry).cls, pkt := (({ w0 := w0, w1 := w1, w2 := w2, w3 := w3 }) : TxEntry).packet (({ ep := e, ring := k, tag := (({ w0 := w0, w1 := w1, w2 := w2, w3 := w3 }) : TxEntry).tag, slot := if (({ w0 := w0, w1 := w1, w2 := w2, w3 := w3 }) : TxEntry).sealed then some (({ w0 := w0, w1 := w1, w2 := w2, w3 := w3 }) : TxEntry).slot else none }) : HostTx) s }) : TxWait).pkt.ncell 1).isSome = true) ∧
    (∃ (e : Ep) (k : Nat) (w0 : Word) (w1 : Word) (w2 : Word) (w3 : Word) (s : State), (s.ring e k).runs 4 = true ∧ ((s.ring e k).hostPos == (s.ring e k).devPos) = false ∧ (s.ring e k).txWait = none ∧ s.cqBlocked e k = false ∧ s.flag (Reg.hostEpCtl e.idx) 0 = true ∧ (({ w0 := w0, w1 := w1, w2 := w2, w3 := w3 }) : TxEntry).bad = false ∧ s.portUp (({ w0 := w0, w1 := w1, w2 := w2, w3 := w3 }) : TxEntry).port = true ∧ s.dray.fenced = false ∧ (s.port (({ w0 := w0, w1 := w1, w2 := w2, w3 := w3 }) : TxEntry).port).held = false ∧ (s.port (({ w0 := w0, w1 := w1, w2 := w2, w3 := w3 }) : TxEntry).port).queues.length = 4 ∧ s.txFits (({ port := (({ w0 := w0, w1 := w1, w2 := w2, w3 := w3 }) : TxEntry).port, cls := (({ w0 := w0, w1 := w1, w2 := w2, w3 := w3 }) : TxEntry).cls, pkt := (({ w0 := w0, w1 := w1, w2 := w2, w3 := w3 }) : TxEntry).packet (({ ep := e, ring := k, tag := (({ w0 := w0, w1 := w1, w2 := w2, w3 := w3 }) : TxEntry).tag, slot := if (({ w0 := w0, w1 := w1, w2 := w2, w3 := w3 }) : TxEntry).sealed then some (({ w0 := w0, w1 := w1, w2 := w2, w3 := w3 }) : TxEntry).slot else none }) : HostTx) s }) : TxWait) = false) ∧
    (∃ (e : Ep) (k : Nat) (q : TxWait) (s : State), (s.ring e k).txWait = some q ∧ s.txFits q = true ∧ (s.allocCells q.pkt.ncell 1).isSome = true ∧ q.cls < 4 ∧ (s.port q.port).queues.length = 4) :=
  ⟨⟨.a, 2, 0x600000, 0x500001001, 0, 0, sending, by decide +kernel⟩,
    ⟨.a, 2, 0x600000, 0x500001001, 0, 0, { sending with ports := [(0, { serving := 0, queues := [[], [], [], [{ packet with words := 31 }]] })] }, by decide +kernel⟩,
    ⟨.a, 2, { port := 0, cls := 3, pkt := openPacket }, { sending with rings := [(1, ringOf 2), (2, { ringOf 4 with txWait := some { port := 0, cls := 3, pkt := openPacket } })] }, by decide +kernel⟩⟩

/-- What meets the hypotheses of Images, clause by clause. -/
theorem test_meets_Images :
    (∃ (ws : List Word) (s : State), s.watch.loader.st = .waiting ∧ s.genBusy s.inactiveGen = false ∧ headerError s.watch.loader.length ((fun i => (ws[i]?).getD 0) : Nat → Word) = none ∧ (((fun i => (ws[i]?).getD 0) : Nat → Word) 0).field 48 8 = 0) ∧
    (∃ (ws : List Word) (s : State), s.watch.loader.st = .waiting ∧ s.genBusy s.inactiveGen = false ∧ headerError s.watch.loader.length ((fun i => (ws[i]?).getD 0) : Nat → Word) = none ∧ (((fun i => (ws[i]?).getD 0) : Nat → Word) 0).field 48 8 ≠ 0) ∧
    (∃ (s : State), s.watch.loader.st = .copying) ∧
    (∃ (w0 : Word) (w1 : Word) (w2 : Word) (w3 : Word) (s : State), s.watch.loader.st = .writing ∧ s.watch.loader.section? = some 0 ∧ s.recordError 0 [w0, w1, w2, w3] = none) ∧
    (∃ (w0 : Word) (w1 : Word) (w2 : Word) (w3 : Word) (s : State), s.watch.loader.st = .writing ∧ s.watch.loader.section? = some 0 ∧ s.recordError 0 [w0, w1, w2, w3] = none) ∧
    (∃ (s : State), s.watch.loader.st = .checking ∧ s.watch.loader.queue = [] ∧ s.bankError = none) ∧
    (∃ (s : State) (e : Nat) (r : Nat), s.watch.loader.st = .checking ∧ s.watch.loader.queue = [] ∧ s.bankError = some (e, r)) ∧
    (∃ (c : CmdEntry) (s : State), runsCommand s c 1 = true ∧ cmdHeadOk c 0 = true ∧ c.w1.field 0 3 = 0 ∧ wordsZero [c.w3, c.w4, c.w5, c.w6, c.w7] = true ∧ s.watch.loader.st = .idle) ∧
    (∃ (s : State), s.watch.loader.st = .writing ∧ s.watch.loader.section? = none ∧ s.watch.loader.length ≤ s.watch.loader.pos ∧ s.watch.loader.crc = s.watch.loader.crcWant ^^^ 0xFFFFFFFF) ∧
    (∃ (s : State), s.watch.loader.st = .writing ∧ s.watch.loader.section? = none ∧ s.watch.loader.length ≤ s.watch.loader.pos ∧ s.watch.loader.crc ≠ s.watch.loader.crcWant ^^^ 0xFFFFFFFF ∧ s.watch.loader.queue = []) :=
  ⟨⟨[0x000000015754424C, 0x200000001, 0, 0, 0, 77, 0, 0], { up with watch := { watching with bank1 := { entries := [(9, 1, 1, 1)], bad := false }, loader := { st := .waiting, length := 64, cmd := some (.a, 0) } } }, by decide +kernel⟩,
    ⟨[0x000100015754424C, 0x200000001, 0, 0, 0, 77, 0, 0], { up with watch := { watching with loader := { st := .waiting, length := 64, cmd := some (.a, 0) } } }, by decide +kernel⟩,
    ⟨{ up with watch := { watching with loader := { st := .copying } } }, by decide +kernel⟩,
    ⟨3, 0x8000000123000000, 5, 6, { up with watch := { watching with loader := { st := .writing, counts := [1, 0, 0, 0, 0], length := 96, pos := 64 } } }, by decide +kernel⟩,
    ⟨262143, 0x123000000, 5, 6, { up with watch := { watching with bank1 := { entries := [(262143, 1, 1, 1)] }, loader := { st := .writing, counts := [1, 0, 0, 0, 0], length := 96, pos := 64 } } }, by decide +kernel⟩,
    ⟨{ host with watch := { loader := { st := .checking, imageId := 77, cmd := some (.a, 0) } } }, by decide +kernel⟩,
    ⟨{ host with watch := { bank1 := { stash := [(0, 9)] }, loader := { st := .checking, imageId := 77, cmd := some (.a, 0), nStash := 1 } } }, 3, 0, by decide +kernel⟩,
    ⟨opc 1 (cmd 8 64), host, by decide +kernel⟩,
    ⟨{ up with watch := { watching with loader := { st := .writing, length := 64, pos := 64, crc := 0xFFFFFFFF } } }, by decide +kernel⟩,
    ⟨{ up with watch := { watching with loader := { st := .writing, length := 64, pos := 64, crc := 0xFFFFFFFE } } }, by decide +kernel⟩⟩

/-- What meets the hypotheses of SealedReception, clause by clause. -/
theorem test_meets_SealedReception :
    (∃ (fid : Nat) (w : Nat) (f : Machine.Frame) (s : State), s.frame? fid = some f ∧ f.looked = true ∧ f.sealed = true ∧ f.fArrived = false ∧ f.verdictCode = none ∧ f.f.data ≠ [] ∧ f.dead = false ∧ s.selectHalf (s.frameEntry f).keySlot ((byteAt f.f.data 0).getLsbD 7) = some w) ∧
    (∃ (fid : Nat) (w : Nat) (f : Machine.Frame) (s : State), s.frame? fid = some f ∧ f.looked = true ∧ f.sealed = true ∧ f.fArrived = false ∧ f.verdictCode = none ∧ f.f.data ≠ [] ∧ f.dead = false ∧ s.selectHalf (s.frameEntry f).keySlot ((byteAt f.f.data 0).getLsbD 7) = some w) ∧
    (∃ (fid : Nat) (f : Machine.Frame) (s : State), s.frame? fid = some f ∧ f.looked = true ∧ f.sealed = true ∧ f.valid = true ∧ f.eccLost = false ∧ f.verdictCode = none ∧ f.fArrived = true ∧ f.keyGone = false ∧ f.half = none ∧ f.f.data ≠ [] ∧ isFd f.f.fmt = true ∧ s.tink.tests = []) :=
  ⟨⟨5, 0, { flying with sealed := true, verdict := none, f := { header with fmt := 2 }, watch := none }, { up with frames := [(5, { flying with sealed := true, verdict := none, f := { header with fmt := 2 }, watch := none })], lock := { halves := [(0, keyHalf)] } }, by decide +kernel⟩,
    ⟨5, 1, { flying with sealed := true, verdict := none, f := { header with fmt := 2, data := [0x80#8] }, watch := none }, { up with frames := [(5, { flying with sealed := true, verdict := none, f := { header with fmt := 2, data := [0x80#8] }, watch := none })], lock := { halves := [(0, keyHalf), (1, { keyHalf with ph := true })] } }, by decide +kernel⟩,
    ⟨5, { flying with sealed := true, fArrived := true, f := { header with fmt := 2 }, lane := some 0 }, { received with frames := [(5, { flying with sealed := true, fArrived := true, f := { header with fmt := 2 }, lane := some 0 })], lock := { lanes := { verify := some 5 } :: List.replicate 15 {} } }, by decide +kernel⟩⟩

/-- What meets the hypotheses of Seals, clause by clause. -/
theorem test_meets_Seals :
    (∃ (i : Nat) (p : Nat) (tag : Nat) (slot : Nat) (n : Nat) (d : Bytes) (k : Packet) (r : List (SealSource × Nat)) (l : Lane) (s : State), s.lock.lanes[i]? = some l ∧ l.fenced = false ∧ l.testing = false ∧ l.verify = none ∧ l.job = none ∧ s.lock.drbgReady = true ∧ s.lock.waiting = (.host p tag d, slot) :: r ∧ s.openPacket? p tag = some k ∧ (s.half slot 0).cannotSeal = false ∧ ((s.half slot 0).alg = 2 → k.fmt = 4) ∧ sealedLen k.fmt (s.half slot 0).sform d.length = some n ∧ cellsFor n ≤ k.cells.length) ∧
    (∃ (i : Nat) (p : Nat) (tag : Nat) (d : Bytes) (k : Packet) (l : Lane) (j : SealJob) (s : State), s.lock.lanes[i]? = some l ∧ l.job = some j ∧ j.src = .host p tag d ∧ j.keyGone = false ∧ s.openPacket? p tag = some k ∧ s.tink.tests = []) :=
  ⟨⟨15, 0, 4, 1023, 16, [0xAA#8], { openPacket with fmt := 2, host := some { ep := .a, ring := 2, tag := 9, slot := some 1023 } }, [], {}, { sending with ports := [(0, { serving := 0, queues := [[{ openPacket with fmt := 2, host := some { ep := .a, ring := 2, tag := 9, slot := some 1023 } }], [], [], []] })], lock := { halves := [(2046, keyHalf)], drbgReady := true, waiting := [(.host 0 4 [0xAA#8], 1023)] } }, by decide +kernel⟩,
    ⟨0, 0, 4, [0xAA#8], { openPacket with fmt := 2, host := some { ep := .a, ring := 2, tag := 9, slot := some 1023 } }, { job := some { src := .host 0 4 [0xAA#8], slot := 1023, half := keyHalf, which := 0, fv := 41, keyGone := false, cells := [] } }, { src := .host 0 4 [0xAA#8], slot := 1023, half := keyHalf, which := 0, fv := 41, keyGone := false, cells := [] }, { sending with ports := [(0, { serving := 0, queues := [[{ openPacket with fmt := 2, host := some { ep := .a, ring := 2, tag := 9, slot := some 1023 } }], [], [], []] })], lock := { halves := [(2046, keyHalf)], lanes := { job := some { src := .host 0 4 [0xAA#8], slot := 1023, half := keyHalf, which := 0, fv := 41, keyGone := false, cells := [] } } :: List.replicate 15 {} } }, by decide +kernel⟩⟩

/-- What meets the hypotheses of KeyCommands, clause by clause. -/
theorem test_meets_KeyCommands :
    (∃ (c : CmdEntry) (s : State) (k : List Byte), s.lock.holder = holderCode (.ep c.ep) ∧ cmdHeadOk c 0 = true ∧ runsCommand s c 5 = true ∧ c.w1.field 10 6 = 0 ∧ c.w1.field 18 46 = 0 ∧ (c.w3.toNat = 40 ∨ c.w3.toNat = 56) ∧ wordsZero [c.w4, c.w5, c.w6, c.w7] = true ∧ s.kek (c.w1.field 16 2) = some k ∧ s.nextLatched (c.w1.field 0 10) = false) ∧
    (∃ (c : CmdEntry) (s : State) (k : List Byte), s.lock.holder = holderCode (.ep c.ep) ∧ cmdHeadOk c 0 = true ∧ runsCommand s c 6 = true ∧ 1 ≤ c.w1.toNat ∧ c.w1.toNat ≤ 3 ∧ wordsZero [c.w3, c.w4, c.w5, c.w6, c.w7] = true ∧ s.kek 0 = some k) ∧
    (∃ (c : CmdEntry) (s : State), s.lock.holder = holderCode (.ep c.ep) ∧ cmdHeadOk c 0 = true ∧ runsCommand s c 7 = true ∧ c.w1.toNat < 1024 ∧ wordsZero [c.w2, c.w3, c.w4, c.w5, c.w6, c.w7] = true ∧ s.nextLatched (c.w1.field 0 10) = false) ∧
    (∃ (c : CmdEntry) (s : State), s.lock.holder = holderCode (.ep c.ep) ∧ cmdHeadOk c 0 = true ∧ runsCommand s c 8 = true ∧ c.w1.toNat < 1024 ∧ wordsZero [c.w2, c.w3, c.w4, c.w5, c.w6, c.w7] = true) ∧
    (∃ (c : CmdEntry) (b : Option Bytes) (s : State) (x : Nat × Instr), s.lock.holder ≠ holderCode (.ep c.ep) ∧ x ∈ [(5, Instr.keyLoad c b), (6, .kekLoad c b), (7, .keyClear c), (8, .keySwap c)] ∧ runsCommand s c x.1 = true) ∧
    (∃ (c : CmdEntry) (b : Option Bytes) (s : State) (x : Nat × Instr), s.lock.holder ≠ holderCode (.ep c.ep) ∧ x ∈ [(5, Instr.keyLoad c b), (6, .kekLoad c b), (7, .keyClear c), (8, .keySwap c)] ∧ runsCommand s c x.1 = true) :=
  ⟨⟨{ opc 5 (cmd 0x10005 0) with w3 := 40 }, keyed, beBytes 32 0, by decide +kernel⟩,
    ⟨opc 6 (cmd 3 0), keyed, beBytes 32 (Config.kek0 0).toNat, by decide +kernel, by decide +kernel, by decide +kernel, by decide +kernel, by decide +kernel, by decide +kernel, rfl⟩,
    ⟨opc 7 (cmd 1023 0), { keyed with lock := { keyed.lock with halves := [(2047, keyHalf)] } }, by decide +kernel⟩,
    ⟨opc 8 (cmd 1023 0), { keyed with lock := { keyed.lock with halves := [(2047, keyHalf)] } }, by decide +kernel⟩,
    ⟨opc 5 (cmd 0 0), none, { keyed with lock := { keyed.lock with holder := 2 } }, (5, .keyLoad (opc 5 (cmd 0 0)) none), by decide +kernel⟩,
    ⟨opc 8 (cmd 0 0), none, { keyed with lock := { keyed.lock with holder := 2 } }, (8, .keySwap (opc 8 (cmd 0 0))), by decide +kernel⟩⟩

/-- What meets the hypotheses of EraseAndWaitingWrites, clause by clause. -/
theorem test_meets_EraseAndWaitingWrites :
    (∃ (slot : Nat) (x : Nat × KeyHalf × Ep × Nat) (s : State), s.lock.pending.find? (fun y => y.1 == slot) = some x ∧ s.nextLatched slot = false) ∧
    (∃ (p : Path) (val : Word) (s : State), canWrite s p Reg.lockZeroize val = true ∧ val.bit 0 = true) ∧
    (∃ (code : Nat) (s : State), (¬ (s.sys.pwr = 3 ∧ (code = 1 ∨ code = 2)))) ∧
    (∃ (s : State), s.lock.drbgReady = true) ∧
    (∃ (c : CmdEntry) (s : State), runsCommand s c 9 = true ∧ cmdHeadOk c 0 = true ∧ wordsZero [c.w1, c.w2, c.w3, c.w4, c.w5, c.w6, c.w7] = true) :=
  ⟨⟨5, (5, keyHalf, .a, 0), { keyed with lock := { keyed.lock with pending := [(5, keyHalf, .a, 0)] } }, by decide +kernel⟩,
    ⟨.ep .a, 1, { keyed with lock := { keyed.lock with halves := [(5, keyHalf)] } }, by decide +kernel⟩,
    ⟨3, { keyed with lock := { keyed.lock with halves := [(5, keyHalf)] } }, by decide +kernel⟩,
    ⟨{ keyed with lock := { keyed.lock with halves := [(5, keyHalf)], drbgReady := true } }, by decide +kernel⟩,
    ⟨opc 9 (cmd 0 0), { keyed with lock := { keyed.lock with halves := [(5, keyHalf)] } }, by decide +kernel⟩⟩

/-- What meets the hypotheses of KeyLockAndDrbg, clause by clause. -/
theorem test_meets_KeyLockAndDrbg :
    (∃ (s : State), (s.sys.lifecycle = 1 ∨ s.sys.lifecycle = 2) ∧ s.lock.withheld = false ∧ s.lock.kek0 = none ∧ s.sys.secretGone = false) ∧
    (∃ (p : Path) (val : Word) (s : State), canWrite s p Reg.lockCmd val = true ∧ val.bit 0 = true) ∧
    (∃ (p : Path) (val : Word) (s : State), canWrite s p Reg.lockKmLock val = true ∧ val.bit 8 = true ∧ val.bit 9 = false ∧ s.lock.holder = 0) ∧
    (∃ (p : Path) (val : Word) (s : State), canWrite s p Reg.lockKmLock val = true ∧ val.bit 8 = false ∧ val.bit 9 = true ∧ s.lock.holder = holderCode p ∧ s.keyBusy .a = false ∧ s.keyBusy .b = false) ∧
    (∃ (p : Path) (val : Word) (s : State), canWrite s p Reg.lockSlotSel val = true) ∧
    (∃ (s : State), s.lock.holder ≠ 0 ∧ s.keyBusy .a = false ∧ s.keyBusy .b = false) ∧
    (∃ (s : State), s.lock.drbgReady = false) ∧
    (∃ (s : State), s.lock.drbgReady = true ∧ s.lock.healthFail = false) ∧
    (∃ (s : State), s.lock.healthFail = true) ∧
    (∃ (s : State), s.lock.healthFail = true) :=
  ⟨⟨{ up with sys := { lifecycle := 1, secretNo := 3 } }, by decide +kernel⟩,
    ⟨.ep .a, 1, { up with lock := { erased := true, alarm := 6 } }, by decide +kernel⟩,
    ⟨.ep .a, 0x100, { up with time := { now := 7 } }, by decide +kernel⟩,
    ⟨.ep .a, 0x200, keyed, by decide +kernel⟩,
    ⟨.ep .a, 0x7ff, { keyed with lock := { keyed.lock with halves := [(2047, keyHalf)] } }, by decide +kernel⟩,
    ⟨keyed, by decide +kernel⟩,
    ⟨.reset, by decide +kernel⟩,
    ⟨{ time := { now := 7 }, lock := { drbgReady := true } }, by decide +kernel⟩,
    ⟨{ lock := { healthFail := true, retryAt := 9 } }, by decide +kernel⟩,
    ⟨{ lock := { healthFail := true, retryAt := 9 }, time := { now := 10 } }, by decide +kernel⟩⟩

/-- What meets the hypotheses of FaultEvents, clause by clause. -/
theorem test_meets_FaultEvents :
    (∃ (f : Nat) (s : State), faultUsed f = true ∧ (s.src f).level = 0 ∧ (s.src f).st = 0 ∧ (s.src f).window = none ∧ f ≠ 291 ∧ f ≠ 292 ∧ (listMod (fun n => min (n + 1) 255) 0 (s.src f).buckets).sum < s.threshOf f) ∧
    (∃ (f : Nat) (s : State), faultUsed f = true ∧ (s.src f).level = 0 ∧ (s.src f).st = 0 ∧ (s.src f).window.isSome = true ∧ f ≠ 291 ∧ f ≠ 292) ∧
    (∃ (f : Nat) (s : State), faultUsed f = true ∧ (s.src f).level ≠ 2 ∧ ((s.src f).st = 1 ∨ (s.src f).st = 2)) ∧
    (∃ (f : Nat) (s : State), faultUsed f = true ∧ (s.src f).level = 2) ∧
    (∃ (f : Nat) (s : State), faultUsed f = true ∧ (s.src f).level = 2) :=
  ⟨⟨135, { up with stew := { srcs := [(135, { buckets := 1 :: List.replicate 15 0 })] }, regs := { up.regs with inForce := [(Reg.stewSrcCfg 135, 3)] } }, by decide +kernel⟩,
    ⟨360, { up with stew := { srcs := [(360, { window := some 9 })] } }, by decide +kernel⟩,
    ⟨361, { up with stew := { srcs := [(361, { st := 2 })] } }, by decide +kernel⟩,
    ⟨0, { up with stew := { srcs := [(0, { level := 2, rails := 3 })] }, time := { now := 8 } }, by decide +kernel⟩,
    ⟨318, { up with stew := { srcs := [(300, { level := 2 }), (318, { level := 2 })] }, time := { now := 8 } }, by decide +kernel⟩⟩

/-- What meets the hypotheses of FaultTimes, clause by clause. -/
theorem test_meets_FaultTimes :
    (∃ (f : Nat), faultUsed f = true) ∧
    (∃ (f : Nat) (s : State), (s.src f).st = 0 ∧ 0 < (s.src f).rcnt) ∧
    (∃ (f : Nat) (s : State) (e : Nat), (s.src f).window = some e ∧ (s.src f).level ≠ 1) ∧
    (∃ (f : Nat) (s : State), (s.src f).st = 1 ∧ (s.src f).level = 0) ∧
    (∃ (f : Nat) (s : State), (s.src f).st = 1 ∧ (s.src f).level = 0) :=
  ⟨⟨361, by decide +kernel⟩,
    ⟨7, { stew := { srcs := [(7, { rcnt := 15, normalAt := 5 })] } }, by decide +kernel⟩,
    ⟨7, { stew := { srcs := [(7, { window := some 88 })] } }, 88, by decide +kernel⟩,
    ⟨7, { up with stew := { srcs := [(7, { st := 1, react := 1, quietAt := 5, rcnt := 15 })] } }, by decide +kernel⟩,
    ⟨300, { up with stew := { srcs := [(300, { st := 1, react := 1, quietAt := 5, rcnt := 2 })] } }, by decide +kernel⟩⟩

/-- What meets the hypotheses of StewardCommandsAndPins, clause by clause. -/
theorem test_meets_StewardCommandsAndPins :
    (∃ (p : Path) (val : Word) (s : State), canWrite s p Reg.stewCmd val = true ∧ val.bit 16 = true ∧ val.bit 17 = false ∧ val.bit 18 = false ∧ val.bit 19 = false) ∧
    (∃ (p : Path) (val : Word) (s : State), canWrite s p Reg.stewCmd val = true ∧ val.bit 16 = false ∧ val.bit 17 = false ∧ val.bit 18 = true) ∧
    (∃ (p : Path) (val : Word) (s : State), canWrite s p Reg.stewCmd val = true ∧ val.bit 16 = false ∧ val.bit 17 = true ∧ val.bit 18 = false ∧ (s.src (val.field 0 9)).st = 2) ∧
    (∃ (s : State), s.sys.pwr = 0) ∧
    (∃ (s : State), s.sys.pwr = 0 ∧ s.stew.flt = true ∧ s.fltDue = false ∧ s.stew.alert = false ∧ (s.stew.started && s.alertDue) = false) :=
  ⟨⟨.ep .a, 0x10168, { up with stew := { srcs := [(3, { sticky := true }), (360, { st := 2, sticky := true, broken := true })] } }, by decide +kernel⟩,
    ⟨.ep .a, 0x40007, { up with stew := { srcs := [(7, { rcnt := 9 })] } }, by decide +kernel⟩,
    ⟨.ep .a, 0x20007, { up with stew := { srcs := [(7, { st := 2, rcnt := 9, react := 2 })] }, engines := [(7, { fenced := true })] }, by decide +kernel⟩,
    ⟨bus, by decide +kernel⟩,
    ⟨{ stew := { started := true, fltAt := 5 } }, by decide +kernel⟩⟩

/-- What meets the hypotheses of CellarStates, clause by clause. -/
theorem test_meets_CellarStates :
    (∃ (s : State), s.cellar.st = .stopping ∧ s.cellar.checkpoint = none ∧ s.cellar.flush = [] ∧ s.cellar.heldRecs = [] ∧ s.cellar.program = none ∧ s.cellar.pfail = false ∧ s.cellar.startHeld = false) ∧
    (∃ (g : NandGeometry) (s : State), s.cellar.formatting = some g ∧ g.short (((g.factoryBad.filter (fun b => b % g.blocks != 0)).foldl (fun l b => setInsert b l) [])) = false) ∧
    (∃ (c : CmdEntry) (s : State) (g : NandGeometry) (r : RootBody), runsCommand s c 10 = true ∧ cmdHeadOk c 0 = true ∧ wordsZero [c.w3, c.w4, c.w5, c.w6, c.w7] = true ∧ c.w1 = 0 ∧ c.w2.toNat < 2 ∧ s.cellar.st = .stopped ∧ s.cellar.formatting = none ∧ s.mount g = .inr r) ∧
    (∃ (c : CmdEntry) (s : State) (g : NandGeometry) (f : Nat), runsCommand s c 10 = true ∧ cmdHeadOk c 0 = true ∧ wordsZero [c.w3, c.w4, c.w5, c.w6, c.w7] = true ∧ c.w1 = 0 ∧ c.w2.toNat < 2 ∧ s.cellar.st = .stopped ∧ s.cellar.formatting = none ∧ s.mount g = .inl f) ∧
    (∃ (c : CmdEntry) (s : State) (g : NandGeometry) (f : Nat), runsCommand s c 10 = true ∧ cmdHeadOk c 0 = true ∧ wordsZero [c.w3, c.w4, c.w5, c.w6, c.w7] = true ∧ c.w1 = 0 ∧ c.w2.toNat < 2 ∧ s.cellar.st = .stopped ∧ s.cellar.formatting = none ∧ s.mount g = .inl f) ∧
    (∃ (c : CmdEntry) (s : State), runsCommand s c 10 = true ∧ cmdHeadOk c 0 = true ∧ wordsZero [c.w3, c.w4, c.w5, c.w6, c.w7] = true ∧ c.w1 = 1 ∧ c.w2 = 0 ∧ s.cellar.st = .running) ∧
    (∃ (c : CmdEntry) (s : State) (g : NandGeometry), runsCommand s c 10 = true ∧ cmdHeadOk c 0 = true ∧ wordsZero [c.w3, c.w4, c.w5, c.w6, c.w7] = true ∧ c.w1 = 3 ∧ c.w2 = 0x464D5421 ∧ s.cellar.st = .stopped ∧ s.cellar.formatting = none ∧ s.identify g = 0) ∧
    (∃ (g : NandGeometry) (s : State), s.cellar.geom = some g ∧ s.cellar.st = .starting ∧ s.cellar.pfail = false ∧ s.cellar.noRestore = true ∧ s.cellar.stopHeld = false) ∧
    (∃ (g : NandGeometry) (r : StoreRec) (s : State), s.cellar.geom = some g ∧ s.cellar.st = .starting ∧ s.cellar.pfail = false ∧ s.cellar.noRestore = false ∧ s.cellar.stopHeld = false ∧ (newestRecs (s.storeRecs s.cellar.store.restorePages)).map (·.2) = [r] ∧ s.crier.cutSet = [] ∧ (s.recOf r.signal).state = qNever ∧ Desc.pclass ((s.bank s.gen.activeGen).desc r.signal) ≠ 0 ∧ Desc.type ((s.bank s.gen.activeGen).desc r.signal) = r.type ∧ Desc.nsrc ((s.bank s.gen.activeGen).desc (r.signal - r.signal % 8)) = 0) :=
  ⟨⟨{ host with cellar := { cellaring with st := .stopping, flush := [] } }, by decide +kernel⟩,
    ⟨media, { host with cellar := { cellaring with st := .stopped, formatting := some media } }, by decide +kernel⟩,
    ⟨opc 10 (cmd 0 1), { host with cellar := { store := formatted } }, media, rootBody, by decide +kernel⟩,
    ⟨opc 10 (cmd 0 0), { host with cellar := { store := formatted } }, { media with badRoots := [0] }, 2, by decide +kernel⟩,
    ⟨opc 10 (cmd 0 1), { host with cellar := { store := formatted } }, { media with targets := 16 }, 1, by decide +kernel⟩,
    ⟨opc 10 (cmd 1 0), { host with cellar := cellaring }, by decide +kernel⟩,
    ⟨opc 10 (cmd 3 0x464D5421), host, media, by decide +kernel⟩,
    ⟨media, { host with cellar := { cellaring with st := .starting, noRestore := true } }, by decide +kernel⟩,
    ⟨media, stored, { host with cellar := { cellaring with st := .starting, startSeq := 2 }, watch := { bank0 := { descs := [(9, 0, 0x80000000000000)] } } }, by decide +kernel⟩⟩

/-- What meets the hypotheses of JournalPages, clause by clause. -/
theorem test_meets_JournalPages :
    (∃ (x : StoreRec × Nat) (r : List (StoreRec × Nat)) (s : State), s.cellar.flush = x :: r) ∧
    (∃ (g : NandGeometry) (s : State), s.cellar.geom = some g ∧ s.fillBucket.journalDue g = true ∧ 1000000 * (g.pageBytes : Int) ≤ s.fillBucket.cellar.tokens ∧ s.cellar.heldRecs = [] ∧ (s.cellar.store.openBlock g .journal 0 (s.cellar.nextTarget % g.nTargets)).isSome = true) ∧
    (∃ (g : NandGeometry) (q : PageProgram) (s : State), s.cellar.geom = some g ∧ s.cellar.program = some q ∧ s.cellar.store.bad.contains q.block = false ∧ s.cellar.st = .stopping) ∧
    (∃ (g : NandGeometry) (q : PageProgram) (s : State), s.cellar.geom = some g ∧ s.cellar.program = some q ∧ s.cellar.store.bad.contains q.block = false) :=
  ⟨⟨(stored, 7), [], { host with cellar := { cellaring with flush := [(stored, 7)] } }, by decide +kernel⟩,
    ⟨media, { host with cellar := cellaring, time := { now := 1000000000 } }, by decide +kernel⟩,
    ⟨media, { target := 0, block := 5, page := storedPage }, { host with cellar := { cellaring with st := .stopping, program := some { target := 0, block := 5, page := storedPage } } }, by decide +kernel⟩,
    ⟨media, { target := 0, block := 5, page := storedPage }, { host with cellar := { cellaring with program := some { target := 0, block := 5, page := storedPage } } }, by decide +kernel⟩⟩

/-- What meets the hypotheses of Checkpoints, clause 1. -/
theorem test_meets_Checkpoints_1 :
    ∃ (s : State), s.cellar.st = .running ∧ s.cellar.checkpoint = none ∧ s.cellar.pfail = false :=
  ⟨{ host with cellar := cellaring }, by decide +kernel⟩

/-- What meets the hypotheses of Checkpoints, clause 2. -/
theorem test_meets_Checkpoints_2 :
    ∃ (c : CmdEntry) (s : State), runsCommand s c 10 = true ∧ cmdHeadOk c 0 = true ∧ c.w1 = 2 ∧ c.w2 = 0 ∧ wordsZero [c.w3, c.w4, c.w5, c.w6, c.w7] = true ∧ s.cellar.st = .running ∧ s.cellar.checkpoint = none :=
  ⟨opc 10 (cmd 2 0), { host with cellar := cellaring }, by decide +kernel⟩

/-- What meets the hypotheses of Checkpoints, clause 3. -/
theorem test_meets_Checkpoints_3 :
    ∃ (g : NandGeometry) (k : Checkpoint) (s : State), s.cellar.geom = some g ∧ s.cellar.checkpoint = some k ∧ s.cellar.pfail = false ∧ s.cellar.failing = [] ∧ (s.sealWrites g k).2 = true :=
  ⟨smallMedia, { ckptId := 1, s := 5 }, sealing, by decide +kernel⟩

/-- What meets the hypotheses of Checkpoints, clause 4. -/
theorem test_meets_Checkpoints_4 :
    ∃ (g : NandGeometry) (k : Checkpoint) (s : State) (reads : List PageOutcome) (x : Nat × Nat × StorePage), s.cellar.geom = some g ∧ s.cellar.checkpoint = some k ∧ s.cellar.pfail = false ∧ s.cellar.failing = [] ∧ (s.sealWrites g k).2 = true ∧ x ∈ (s.sealWrites g k).1.cellar.store.checkpointPlaces k.ckptId ∧ PageRead.fails (readOutcome reads x.1 x.2.1) = true :=
  ⟨smallMedia, { ckptId := 1, s := 5 }, sealing, [{ block := sealPlace.1, page := sealPlace.2.1, read := { words := [], crcBad := true } }], sealPlace, by decide +kernel⟩

/-- What meets the hypotheses of Checkpoints, clause 5. -/
theorem test_meets_Checkpoints_5 :
    ∃ (g : NandGeometry) (b : Nat) (i : Nat) (p : StorePage) (anew : Bool) (read : PageRead) (s : State), s.cellar.geom = some g ∧ s.scrubNext = some ((b, i, p), anew) ∧ s.cellar.st ≠ .stopped ∧ s.cellar.pfail = false ∧ PageRead.fails read = false ∧ read.words.any (fun w => decide (s.fld Reg.cellMedia 24 8 ≤ w.bits)) = false ∧ (s.cellar.store.block b).reads + 1 < 1000 * s.fld Reg.cellMedia 0 8 :=
  ⟨media, 5, 0, storedPage, false, { words := [{ bits := 3, retries := 0, lost := false }], crcBad := false }, cellarHost, by decide +kernel⟩

/-- What meets the hypotheses of Tinker, clause by clause. -/
theorem test_meets_Tinker :
    (∃ (s : State) (r : Nat), s.tink.st = .running ∧ s.cellar.pfail = false ∧ s.sys.pwr = 0 ∧ s.sys.moving = none ∧ s.tink.tests = [] ∧ 0 < s.fld Reg.tinkCtl 8 2 ∧ s.tink.next < 173 ∧ s.skipReason s.tink.next = some r) ∧
    (∃ (s : State) (r : Nat), s.tink.st = .running ∧ s.cellar.pfail = false ∧ s.sys.pwr = 0 ∧ s.sys.moving = none ∧ s.tink.tests = [] ∧ 0 < s.fld Reg.tinkCtl 8 2 ∧ s.tink.next < 173 ∧ s.skipReason s.tink.next = some r) ∧
    (∃ (s : State), s.tink.st = .running ∧ s.cellar.pfail = false ∧ s.sys.pwr = 0 ∧ s.sys.moving = none ∧ s.tink.tests = [] ∧ 0 < s.fld Reg.tinkCtl 8 2 ∧ s.tink.next < 136 ∧ s.skipReason s.tink.next = none ∧ s.engineFree s.tink.next = true) ∧
    (∃ (x : SliceTest) (saved : Bytes) (reloaded : Bytes) (s : State), s.tink.tests = [x] ∧ x.held = true ∧ x.slice < 136 ∧ x.bad = 0 ∧ crc32c saved = crc32c reloaded) ∧
    (∃ (x : SliceTest) (saved : Bytes) (reloaded : Bytes) (s : State) (misr : Word), s.tink.tests = [x] ∧ x.held = true ∧ x.slice < 136 ∧ x.bad = 0 ∧ crc32c saved = crc32c reloaded ∧ misr ≠ (Config.goldenSignature (sliceType x.slice) s.tink.seedset)) ∧
    (∃ (x : SliceTest) (saved : Bytes) (reloaded : Bytes) (s : State), s.tink.tests = [x] ∧ x.held = true ∧ x.slice < 136 ∧ x.bad = 0 ∧ crc32c saved ≠ crc32c reloaded) ∧
    (∃ (s : State), s.tink.st = .starting) ∧
    (∃ (p : Path) (val : Word) (s : State), canWrite s p Reg.tinkSliceSel val = true ∧ val.field 0 8 < 174) ∧
    (∃ (s : State), s.fld Reg.tinkCtl2 0 16 ≠ 0 ∧ s.standbyReady = true ∧ s.sys.confirmPend = false ∧ s.sys.switchReq = none ∧ s.sys.safe = false ∧ ([168 + 2 * (1 - s.sys.pair), 169 + 2 * (1 - s.sys.pair), 172 + (1 - s.sys.pair)].all (fun n => (Table.get (fun _ => {}) s.tink.outcomes n).result == 1)) = true) :=
  ⟨⟨{ up with tink := { st := .running, next := 3 }, regs := { up.regs with inForce := [(Reg.tinkExcl0, 8)] } }, 1, by decide +kernel⟩,
    ⟨{ up with tink := { st := .running, next := 135, notBefore := 6 }, regs := { up.regs with inForce := [(Reg.tinkCtl, 0x6400080100)] } }, 2, by decide +kernel⟩,
    ⟨{ up with tink := { st := .running, next := 135 } }, by decide +kernel⟩,
    ⟨{ slice := 135, held := true, port := none, since := 0, bad := 0 }, [1#8], [1#8], { up with tink := { st := .running, next := 136, tests := [{ slice := 135, held := true, port := none, since := 0, bad := 0 }] }, engines := [(135, { tested := true })], stew := { srcs := [(135, { st := 3 })] } }, by decide +kernel⟩,
    ⟨{ slice := 135, held := true, port := none, since := 0, bad := 0 }, [1#8], [1#8], { up with tink := { st := .running, next := 136, tests := [{ slice := 135, held := true, port := none, since := 0, bad := 0 }] }, engines := [(135, { tested := true })], stew := { srcs := [(135, { st := 3 })] } }, 1 + Config.goldenSignature (sliceType 135) 0, by decide +kernel, by decide +kernel, by decide +kernel, by decide +kernel, by decide +kernel, by show (1 : Word) + Config.goldenSignature (sliceType 135) 0 ≠ Config.goldenSignature (sliceType 135) 0; intro h; rw [BitVec.add_comm] at h; exact absurd (BitVec.self_eq_add_right.mp h.symm) (by decide)⟩,
    ⟨{ slice := 135, held := true, port := none, since := 0, bad := 0 }, [1#8], [2#8], { up with tink := { st := .running, next := 136, tests := [{ slice := 135, held := true, port := none, since := 0, bad := 0 }] }, engines := [(135, { tested := true })], stew := { srcs := [(135, { st := 3 })] } }, by decide +kernel⟩,
    ⟨{ up with tink := { st := .starting, next := 9, goldErr := true } }, by decide +kernel⟩,
    ⟨.ep .a, 173, { up with tink := { outcomes := [(173, { misr := 7, tai := 9 })] } }, by decide +kernel⟩,
    ⟨{ up with tink := { outcomes := [(170, { result := 1 }), (171, { result := 1 }), (173, { result := 1 })] }, sys := { standby := true } }, by decide +kernel⟩⟩

/-- What meets the hypotheses of Wakes, clause by clause. -/
theorem test_meets_Wakes :
    (∃ (p : Path) (val : Word) (s : State), canWrite s p Reg.xcvrCmd val = true ∧ val.bit 16 = false ∧ val.bit 17 = true) ∧
    (∃ (s : State) (p : Nat) (dom1 : Nat) (rec' : Nat) (dom2 : Nat) (total : Nat), s.sys.pwr = 0 ∧ s.sys.moving = none ∧ s.xcvr.wakeCause = 0 ∧ s.detects p 8 = true ∧ wakeFilterNs p ≤ dom1 ∧ wakeFilterNs p ≤ rec' ∧ wakeFilterNs p ≤ dom2 ∧ total ≤ wakeTimeNs p) ∧
    (∃ (s : State) (p : Nat) (ident : Nat) (dlc : Nat) (ide : Bool) (data : Word), s.sys.pwr = 0 ∧ s.sys.moving = none ∧ s.xcvr.wakeCause = 0 ∧ s.detects p 9 = true ∧ s.wakeMatch p ide ident dlc data = true) ∧
    (∃ (s : State), s.sys.pwr = 0 ∧ s.sys.moving = none ∧ s.xcvr.wakeCause = 0 ∧ s.sys.powered = true) ∧
    (∃ (s : State), s.sys.pwr = 0 ∧ s.sys.moving = none ∧ s.sys.powered = true ∧ s.xcvr.wakeCause ≠ 0) ∧
    (∃ (p : Nat) (s : State), s.detects p 9 = true ∧ (s.ip p).wufErr < 31) :=
  ⟨⟨.ep .a, 0x20000, { up with xcvr := { wakePort := 3, wakeCause := 1 } }, by decide +kernel⟩,
    ⟨{ up with regs := { up.regs with inForce := [(Reg.xcvrIpCtl 31, 0x880100)] }, xcvr := { ip := [(31, { modeEff := 1 })], unpowered := [false, false, false, false] } }, 31, 1801, 1801, 1801, 5403, by decide +kernel, by decide +kernel, by decide +kernel, by decide +kernel, by unfold wakeFilterNs; omega, by unfold wakeFilterNs; omega, by unfold wakeFilterNs; omega, by unfold wakeTimeNs; omega⟩,
    ⟨{ up with regs := { up.regs with inForce := [(Reg.xcvrIpCtl 31, 0x880200), (Reg.xcvrWufId 31, 0x1fffffff00000123)] }, xcvr := { ip := [(31, { modeEff := 1, wufErr := 1 })], unpowered := [false, false, false, false] } }, 31, 0x123, 8, false, 1, by decide +kernel⟩,
    ⟨up, by decide +kernel⟩,
    ⟨{ up with xcvr := { wakePort := 3, wakeCause := 1 } }, by decide +kernel⟩,
    ⟨31, { up with regs := { up.regs with inForce := [(Reg.xcvrIpCtl 31, 0x880200), (Reg.xcvrWufId 31, 0x1fffffff00000123)] }, xcvr := { ip := [(31, { modeEff := 1, wufErr := 30 })], unpowered := [false, false, false, false] } }, by decide +kernel⟩⟩

/-- What meets the hypotheses of PowerStates, clause by clause. -/
theorem test_meets_PowerStates :
    (∃ (p : Path) (val : Word) (s : State), canWrite s p Reg.sysPwrCtl val = true ∧ s.sys.pwr < 2 ∧ s.sys.moving = none ∧ s.sys.lcBusy = none ∧ val.field 0 2 ≠ s.sys.pwr) ∧
    (∃ (s : State), s.cellar.pfail = false ∧ s.sys.targetHeld = none ∧ s.xcvr.wakeHeld = [] ∧ s.sys.moving = some 1 ∧ s.sys.pwr = 0 ∧ s.tink.tests = [] ∧ s.sys.switchReq = none) ∧
    (∃ (s : State), s.cellar.pfail = false ∧ s.sys.targetHeld = none ∧ s.xcvr.wakeHeld = [] ∧ s.sys.moving = some 0 ∧ s.sys.pwr = 1) ∧
    (∃ (s : State), s.cellar.pfail = false ∧ s.sys.pwr ≠ 3 ∧ s.sys.powered = true) ∧
    (∃ (s : State) (n : Nat), s.cellar.pfail = false ∧ s.sys.targetHeld = none ∧ s.xcvr.wakeHeld = [] ∧ (n = 2 ∨ n = 3) ∧ s.sys.moving = some n ∧ s.restReady = true) ∧
    (∃ (s : State) (n : Nat), s.cellar.pfail = false ∧ s.sys.targetHeld = none ∧ s.xcvr.wakeHeld = [] ∧ (n = 2 ∨ n = 3) ∧ s.sys.moving = some n ∧ s.restReady = true) ∧
    (∃ (s : State), s.cellar.pfail = true ∧ s.cellar.flushDone = false) :=
  ⟨⟨.ep .a, 3, { up with sys := { pwr := 1 } }, by decide +kernel⟩,
    ⟨{ up with sys := { moving := some 1, standby := true } }, by decide +kernel⟩,
    ⟨{ up with sys := { moving := some 0, pwr := 1 } }, by decide +kernel⟩,
    ⟨{ bus with cellar := cellaring, sys := { pwr := 2 } }, by decide +kernel⟩,
    ⟨{ up with sys := { moving := some 2 } }, 2, by decide +kernel⟩,
    ⟨{ up with sys := { moving := some 3, pwr := 1 }, lock := { halves := [(5, keyHalf)] } }, 3, by decide +kernel⟩,
    ⟨{ bus with cellar := { cellaring with pfail := true } }, by decide +kernel⟩⟩

/-- What meets the hypotheses of LifecycleAndSessions, clause by clause. -/
theorem test_meets_LifecycleAndSessions :
    (∃ (p : Path) (val : Word) (s : State), canWrite s p Reg.sysLcCmd val = true ∧ val.bit 0 = true ∧ s.sys.lcBusy = none ∧ s.sys.lcPending = false ∧ s.sys.pwr = 0 ∧ s.sys.moving = none ∧ s.sys.lifecycle = 1 ∧ val.field 2 2 = 2) ∧
    (∃ (p : Path) (val : Word) (s : State), canWrite s p Reg.sysDbgCtl val = true ∧ val.bit 1 = true ∧ s.sys.level ≠ 1) ∧
    (∃ (n : Nat) (s : State), s.sys.lcBusy = some n ∧ s.sys.targetHeld = none) :=
  ⟨⟨.ep .a, 9, { up with sys := { lifecycle := 1, fuseState := 1 }, lock := { halves := [(5, keyHalf)] } }, by decide +kernel⟩,
    ⟨.ep .a, 2, { up with sys := { level := 2, auth := true, ir := 0x22 } }, by decide +kernel⟩,
    ⟨3, { up with sys := { lifecycle := 2, fuseState := 2, lcBusy := some 3 } }, by decide +kernel⟩⟩

/-- What meets the hypotheses of TestAccessPort, clause by clause. -/
theorem test_meets_TestAccessPort :
    (∃ (s : State), s.sys.powered = true) ∧
    (∃ (s : State) (op : Nat), s.sys.powered = true ∧ op ∉ [0x00, 0x01, 0x02, 0x20, 0x21, 0x22]) ∧
    (∃ (s : State) (op : Nat), s.sys.powered = true ∧ op ∉ [0x00, 0x01, 0x02, 0x20, 0x21, 0x22]) ∧
    (∃ (s : State), s.sys.powered = true ∧ s.sys.pwr < 2) ∧
    (∃ (s : State), s.sys.powered = true ∧ s.sys.pwr < 2) ∧
    (∃ (s : State), s.sys.powered = true ∧ s.sys.pwr < 2 ∧ s.sys.level = 1) ∧
    (∃ (s : State), s.sys.powered = true ∧ s.sys.pwr < 2 ∧ s.sys.level ≠ 1) ∧
    (∃ (s : State) (a : Nat) (op : DbgOp), s.sys.powered = true ∧ s.sys.pwr < 2 ∧ s.sys.level = 2 ∧ op ∈ [DbgOp.read a, .scan a]) ∧
    (∃ (s : State) (a : Nat) (op : DbgOp), s.sys.powered = true ∧ s.sys.pwr < 2 ∧ s.sys.level = 2 ∧ op ∈ [DbgOp.read a, .scan a]) ∧
    (∃ (s : State), s.sys.powered = true ∧ s.sys.pwr < 2 ∧ s.sys.level = 2) :=
  ⟨⟨up, by decide +kernel⟩,
    ⟨up, 0x03, by decide +kernel⟩,
    ⟨up, 0xFF, by decide +kernel⟩,
    ⟨{ up with sys := { pwr := 1 } }, by decide +kernel⟩,
    ⟨{ up with sys := { pwr := 0, level := 2 } }, by decide +kernel⟩,
    ⟨{ up with sys := { pwr := 1, level := 1 } }, by decide +kernel⟩,
    ⟨{ up with sys := { pwr := 1, level := 2 } }, by decide +kernel⟩,
    ⟨{ up with sys := { pwr := 1, level := 2 } }, 0xffffffff, .read 0xffffffff, by decide +kernel⟩,
    ⟨{ up with sys := { pwr := 0, level := 2 } }, 173, .scan 173, by decide +kernel⟩,
    ⟨{ up with sys := { pwr := 1, level := 2 } }, by decide +kernel⟩⟩

/-- What meets the hypotheses of DebugAuthentication, clause by clause. -/
theorem test_meets_DebugAuthentication :
    (∃ (r : Nat) (s : State), s.debugUp = true ∧ s.sys.lockout = false ∧ s.sys.level = 0 ∧ (r % 4 = 1 ∨ r % 4 = 2)) ∧
    (∃ (r : Nat) (s : State), s.debugUp = true ∧ s.sys.lockout = false ∧ s.sys.level = 0 ∧ (r % 4 = 1 ∨ r % 4 = 2)) ∧
    (∃ (s : State), s.debugUp = true ∧ s.sys.challenge.isSome = true ∧ s.sys.response = none) ∧
    (∃ (c : Challenge) (r : Bytes × Bytes) (s : State), s.sys.challenge = some c ∧ s.sys.response = some r) ∧
    (∃ (c : Challenge) (s : State), s.sys.challenge = some c ∧ s.sys.response = none) :=
  ⟨⟨6, { up with sys := { lifecycle := 1, nonceNo := 4 } }, by decide +kernel⟩,
    ⟨5, { up with sys := { lifecycle := 2 } }, by decide +kernel⟩,
    ⟨{ up with sys := { lifecycle := 2, challenge := some { level := 1, key := 1, nonce := 0, issued := 0 } } }, by decide +kernel⟩,
    ⟨{ level := 1, key := 1, nonce := 0, issued := 0 }, ([], []), { up with sys := { lifecycle := 2, fails := 3, challenge := some { level := 1, key := 1, nonce := 0, issued := 0 }, response := some ([], []) } }, by decide +kernel⟩,
    ⟨{ level := 1, key := 1, nonce := 0, issued := 5 }, { up with sys := { lifecycle := 2, fails := 3, challenge := some { level := 1, key := 1, nonce := 0, issued := 5 } } }, by decide +kernel⟩⟩

/-- What meets the hypotheses of Resets, clause by clause. -/
theorem test_meets_Resets :
    (∃ (s : State), s.sys.powered = true) ∧
    (∃ (p : Path) (val : Word) (s : State), canWrite s p Reg.sysRstCmd val = true ∧ val.bit 0 = true) ∧
    (∃ (s : State), s.cellar.pfail = true ∧ s.cellar.flushDone = true) :=
  ⟨⟨{ bus with xcvr := { wakePort := 3, wakeCause := 1 } }, by decide +kernel⟩,
    ⟨.ep .a, 1, { bus with xcvr := { wakePort := 3, wakeCause := 1 } }, by decide +kernel⟩,
    ⟨{ bus with cellar := { cellaring with st := .flushed, pfail := true, flushDone := true } }, by decide +kernel⟩⟩

/-- What meets the hypotheses of BootsEnd, clause by clause. -/
theorem test_meets_BootsEnd :
    (∃ (s : State), s.sys.phase = 2) ∧
    (∃ (s : State), s.sys.phase = 2) :=
  ⟨⟨{ sys := { phase := 2, bootFails := 3, record := { fails := 255 } } }, by decide +kernel⟩,
    ⟨{ sys := { phase := 2, trial := true, runMgmt := some 3, runMicro := some 7, bootFails := 3, record := { fails := 25 } } }, by decide +kernel⟩⟩

/-- What meets the hypotheses of FirmwareCommands, clause by clause. -/
theorem test_meets_FirmwareCommands :
    (∃ (p : Path) (val : Word) (s : State), canWrite s p Reg.sysFwCmd val = true ∧ val.field 0 3 = 1 ∧ s.sys.safe = false ∧ (val.field 8 3) < 4 ∧ s.runningMicrocode.all (fun v => s.lists (val.field 8 3) v) = true ∧ s.sys.roll ≠ 1 ∧ s.sys.busyOp ≠ 1 ∧ s.sys.confirmPend = false ∧ s.sys.pwr = 0 ∧ s.standbyReady = true) ∧
    (∃ (p : Path) (val : Word) (s : State), canWrite s p Reg.sysFwCmd val = true ∧ val.field 0 3 = 2 ∧ s.sys.confirmPend = true ∧ s.sys.confirmRoll = false) ∧
    (∃ (p : Path) (val : Word) (s : State), canWrite s p Reg.sysFwCmd val = true ∧ val.field 0 3 = 3 ∧ s.sys.confirmPend = true ∧ s.sys.confirmRoll = false ∧ s.sys.switchReq = none) ∧
    (∃ (p : Path) (val : Word) (s : State) (m : Nat), canWrite s p Reg.sysFwCmd val = true ∧ val.field 0 3 = 4 ∧ s.sys.runMgmt = some m ∧ s.sys.safe = false ∧ 4 ≤ (val.field 8 3) ∧ s.lists (val.field 8 3) (s.slotVersion m) = true ∧ s.lists m (s.slotVersion (val.field 8 3)) = true ∧ s.runningMicrocode.all (fun v => s.lists m v) = true ∧ s.sys.busyOp ≠ 1 ∧ s.sys.confirmPend = false ∧ s.sys.roll ≠ 1) :=
  ⟨⟨.ep .a, 0x301, { up with sys := { standby := true, flash := [(slotBase 3 + 6, 1), (slotBase 3 + 7, 0), (slotBase 3 + 0x50, 0), (slotBase 3 + 0x51, 0), (slotBase 3 + 0x52, 0), (slotBase 3 + 0x53, 0)] } }, by decide +kernel⟩,
    ⟨.ep .a, 2, { up with sys := { confirmPend := true, runMgmt := some 1, runMicro := some 4 } }, by decide +kernel⟩,
    ⟨.ep .a, 3, { up with sys := { confirmPend := true, runMgmt := some 1, runMicro := some 4 } }, by decide +kernel⟩,
    ⟨.ep .a, 0x404, { up with sys := { runMgmt := some 1, flash := [(slotBase 1 + 6, 1), (slotBase 1 + 7, 0), (slotBase 1 + 0x50, 0), (slotBase 1 + 0x51, 0), (slotBase 1 + 0x52, 0), (slotBase 1 + 0x53, 0),
  (slotBase 4 + 6, 1), (slotBase 4 + 7, 0), (slotBase 4 + 8, 0), (slotBase 4 + 9, 0), (slotBase 4 + 10, 0), (slotBase 4 + 11, 0)] } }, 1, by decide +kernel⟩⟩

/-- What meets the hypotheses of BootFlash, clause by clause. -/
theorem test_meets_BootFlash :
    (∃ (p : Path) (val : Word) (s : State), canWrite s p Reg.sysFlData val = true ∧ s.sys.bufIdx < 32) ∧
    (∃ (p : Path) (val : Word) (s : State), canWrite s p Reg.sysFlAddr val = true) ∧
    (∃ (p : Path) (val : Word) (s : State), canWrite s p Reg.sysFwCmd val = true ∧ val.field 0 3 = 6 ∧ s.flag Reg.sysFlAddr 22 = false ∧ s.slotInUse (val.field 8 3) = false) ∧
    (∃ (p : Path) (val : Word) (s : State), canWrite s p Reg.sysFwCmd val = true ∧ val.field 0 3 = 5 ∧ s.slotInUse (val.field 8 3) = false) ∧
    (∃ (p : Path) (val : Word) (s : State), canWrite s p Reg.sysFwSel val = true) :=
  ⟨⟨.ep .a, 0x1122334455667788, { up with sys := { bufIdx := 31, pageBuf := [(3, 4), (255, 9)] } }, by decide +kernel⟩,
    ⟨.ep .a, 0, { up with sys := { bufIdx := 31 } }, by decide +kernel⟩,
    ⟨.ep .a, 0x706, { up with regs := { up.regs with inForce := [(Reg.sysFlAddr, 0x3fff00)] }, sys := { pageBuf := [(3, 4), (255, 9)] } }, by decide +kernel⟩,
    ⟨.ep .a, 0x705, { up with sys := { flash := [(3, 4), (slotBase 7, 4)] } }, by decide +kernel⟩,
    ⟨.ep .a, 7, { up with sys := { flash := [(3, 4), (slotBase 7 + 8, 4)] } }, by decide +kernel⟩⟩

/-- What meets the hypotheses of PairSwitches, clause by clause. -/
theorem test_meets_PairSwitches :
    (∃ (c : SwitchCause) (d : Nat) (s : State), s.commandsQuiet = true ∧ s.sys.switchReq = some (c, d)) ∧
    (∃ (c : SwitchCause) (d : Nat) (s : State), s.commandsQuiet = true ∧ s.sys.switchReq = some (c, d)) ∧
    (∃ (c : SwitchCause) (d : Nat) (s : State), s.commandsQuiet = true ∧ s.sys.switchReq = some (c, d)) ∧
    (∃ (s : State), s.sys.confirmPend = true ∧ s.sys.confirmRoll = false ∧ s.sys.switchReq = none) ∧
    (∃ (c : SwitchCause) (d : Nat) (s : State), s.sys.switchReq = some (c, d)) ∧
    (∃ (c : SwitchCause) (d : Nat) (s : State), s.sys.switchReq = some (c, d)) ∧
    (∃ (c : SwitchCause) (d : Nat) (s : State), s.sys.switchReq = some (c, d)) :=
  ⟨⟨.activate, 9, { up with sys := { switchReq := some (.activate, 9), standby := true, runMgmt := some 0, actSlot := 2 } }, by decide +kernel⟩,
    ⟨.revert, 9, { up with sys := { switchReq := some (.revert, 9), pair := 1, standby := true, runMgmt := some 0, oldMgmt := some 2, confirmPend := true } }, by decide +kernel⟩,
    ⟨.periodic, 9, { up with sys := { switchReq := some (.periodic, 9), standby := true } }, by decide +kernel⟩,
    ⟨{ up with sys := { confirmPend := true, confirmAt := 77 } }, by decide +kernel⟩,
    ⟨.activate, 9, { up with sys := { switchReq := some (.activate, 9), busyOp := 1 } }, by decide +kernel⟩,
    ⟨.periodic, 9, { up with sys := { switchReq := some (.periodic, 9), busyOp := 0 } }, by decide +kernel⟩,
    ⟨.revert, 9, { up with sys := { switchReq := some (.revert, 9), pair := 1, runMgmt := some 0, oldMgmt := some 2, confirmPend := true } }, by decide +kernel⟩⟩

end Sys2Proof.Tests
end

/-! SUPPORT. Register behaviour: the repeated images of an engine's block (R78), and the writes of registers that hold only WC
fields, among them the unlock key and the owner's beat (R67, R327). -/

namespace Sys2Proof.Proofs.RegisterBehaviour

open Sys2Proof.Machine Sys2Proof.Safety Sys2Proof.Laws

/-! ## The images of an engine's block (R78) -/

/-- Inside an engine's block, an offset decodes to its place modulo 0x100. -/
theorem canonicalOff_engineBlock {n k : Nat} (hn : n < 136) (hk : k < 0x400) :
    canonicalOff (0x100000 + 0x400 * n + k) = 0x100000 + 0x400 * n + k % 0x100 := by
  rw [canonicalOff, if_pos (by omega)]
  omega

/-- A write reaches the same offset through every image, in the normal window (w = 0) and in the alias windows. -/
theorem decodedOff_engineBlock {n k : Nat} (w : Nat) (hn : n < 136) (hk : k < 0x400) :
    decodedOff (0x100000 + 0x400 * n + k + 0x400000 * w) = 0x100000 + 0x400 * n + k % 0x100 + 0x400000 * w := by
  have hin : (0x100000 + 0x400 * n + k + 0x400000 * w) % 0x400000 = 0x100000 + 0x400 * n + k := by omega
  rw [decodedOff, hin, canonicalOff_engineBlock hn hk]
  omega

theorem busWrite_congr {off off' : Nat} (h : decodedOff off = decodedOff off') (s : State) (p : Path) (size : Nat)
    (val : Word) (f : Bool) : s.busWrite p off size val f = s.busWrite p off' size val f := by
  rw [State.busWrite, State.busWrite, h]

/-- All images of an engine's register take a write in the same way. -/
theorem busWrite_engineBlock {n k : Nat} (w : Nat) (hn : n < 136) (hk : k < 0x400) (s : State) (p : Path) (size : Nat)
    (val : Word) (f : Bool) :
    s.busWrite p (0x100000 + 0x400 * n + k + 0x400000 * w) size val f =
      s.busWrite p (0x100000 + 0x400 * n + k % 0x100 + 0x400000 * w) size val f := by
  refine busWrite_congr ?_ s p size val f
  rw [decodedOff_engineBlock w hn hk, decodedOff_engineBlock w hn (by omega), Nat.mod_mod]

/-- A read takes its part of a word by the offset's place within the 8 bytes alone. -/
theorem readPart_congr {off off' : Nat} (h : off % 8 = off' % 8) (w : Word) (size : Nat) :
    readPart w off size = readPart w off' size := by
  by_cases hs : size = 8 ∨ size = 4
  · have hmod : off % size = off' % size := by
      rcases hs with rfl | rfl
      · exact h
      · omega
    simp only [readPart, hmod, h]
  · simp only [readPart, hs, not_false_eq_true, true_or, if_true]

/-- The register that an offset in an engine's block reads, in the normal window (v = 0) and in the in-force view (v = 1). -/
theorem readAt_engineBlock {n k v : Nat} (hn : n < 136) (hk : k < 0x400) (hv : v < 2) :
    readAt (0x100000 + 0x400 * n + k + 0x200000 * v) = (0x100000 + 0x400 * n + k % 0x100 / 8 * 8, decide (v = 1)) := by
  have hat : (0x100000 + 0x400 * n + k + 0x200000 * v) % 0x400000 / 8 * 8 = 0x100000 + 0x400 * n + k / 8 * 8 + 0x200000 * v := by
    omega
  have hin : (0x100000 + 0x400 * n + k / 8 * 8 + 0x200000 * v) % 0x200000 = 0x100000 + 0x400 * n + k / 8 * 8 := by omega
  have hplace : k / 8 * 8 % 0x100 = k % 0x100 / 8 * 8 := by omega
  have hview : 0x200000 ≤ 0x100000 + 0x400 * n + k / 8 * 8 + 0x200000 * v ↔ v = 1 := by omega
  simp only [readAt, hat, hin, canonicalOff_engineBlock hn (show k / 8 * 8 < 0x400 by omega), hplace, hview]

/-- All images of an engine's register give the same to a read. -/
theorem busRead_engineBlock {n k v : Nat} (hn : n < 136) (hk : k < 0x400) (hv : v < 2) (s : State) (p : Path) (size : Nat) :
    s.busRead p (0x100000 + 0x400 * n + k + 0x200000 * v) size =
      s.busRead p (0x100000 + 0x400 * n + k % 0x100 + 0x200000 * v) size := by
  rw [State.busRead, State.busRead, if_neg (by omega), if_neg (by omega), readAt_engineBlock hn hk hv,
    readAt_engineBlock hn (by omega) hv, Nat.mod_mod]
  exact readPart_congr (by omega) _ _

/-- Settles O7: an offset and its place modulo 0x100 decode to one offset for a write, and to one word and one part of it
for a read. -/
theorem engineBlocksRepeat : Obligations.EngineBlocksRepeat := by
  intro p n k size val s hn _ hk here there
  refine ⟨?_, fun w _ _ => ?_, ?_, ?_⟩
  · exact busWrite_engineBlock 0 hn hk s p size val true
  · exact busWrite_engineBlock w hn hk s p size val true
  · exact busRead_engineBlock (v := 0) hn hk (by decide) s p size
  · exact busRead_engineBlock (v := 1) hn hk (by decide) s p size

/-! ## Writes of registers that hold only WC fields (R61, R68) -/

/-- A write of such a register re-arms the path's lock, ends the report of a lost copy, and has its effect. -/
theorem write_reaches_wc {s : State} {p : Path} {off i : Nat} {val : Word} {g : RegGroup} (hr : regAt off = some (g, i))
    (hrw : g.rw = 0) (hrwi : g.rwi = 0) (hwc : g.wc ≠ 0) (ho : canonicalOff off = off) (hlt : off < 0x200000)
    (h8 : off % 8 = 0) (h : canWrite s p off val = true) (hl : s.lcDataLocked off = false) :
    s.write p off val = .next (((s.setLock p false).clearLost p off).writeEffect
      { path := p, off := off, op := .plain, val := val, flashOk := true } (s.flag Reg.genEpochCtl 2)) := by
  have ht : g.takes .plain = true := by simp [RegGroup.takes, hwc]
  refine (write_reaches hr ho hlt h8 ht h hl).trans ?_
  rw [writeFields_wc _ _ _ hrw hrwi]

/-- What the fabric itself does with such a write: the path's lock is armed, and nothing but locks and parity changes. -/
theorem keeps_setLock_clearLost (s : State) (p : Path) (b : Bool) (off : Nat) :
    Keeps [.locks, .parity] s ((s.setLock p b).clearLost p off) :=
  Keeps.step (keeps_clearLost _ _ _) rfl (Keeps.mono (keeps_setLock _ _ _) rfl)

theorem setLock_clearLost_unlocked (s : State) (p : Path) (b : Bool) (off : Nat) :
    ((s.setLock p b).clearLost p off).unlocked p = b := by
  rw [Keeps.unlocked (keeps_clearLost _ _ _) rfl, setLock_unlocked, if_pos rfl]

/-! ## The unlock key (R67) -/

theorem regAt_genUnlock : regAt Reg.genUnlock = some ({ base := 0x10, wc := 0xffffffff }, 0) := by decide

/-- A write of GEN.UNLOCK that reaches it is judged by R67 after the lock is armed by R68. -/
theorem write_genUnlock {s : State} {p : Path} {val : Word} (h : canWrite s p Reg.genUnlock val = true) :
    s.write p Reg.genUnlock val = .next (((s.setLock p false).clearLost p Reg.genUnlock).unlock p val) :=
  write_reaches_wc regAt_genUnlock rfl rfl (by decide) rfl (by decide) rfl h rfl

theorem unlock_key {s : State} {p : Path} {val : Word} (h : val.field 0 32 = 0x5A3C96E1) :
    s.unlock p val = s.setLock p true := if_pos h

theorem unlock_wrongKey {s : State} {p : Path} {val : Word} (h : val.field 0 32 ≠ 0x5A3C96E1) :
    s.unlock p val = (s.setLock p false).count Reg.genUnlockFail := if_neg h

/-! ## The owner's beat (R327) -/

theorem regAt_hostOwnHb : regAt Reg.hostOwnHb = some ({ base := 0x60028, wc := 0x1 }, 0) := by decide

/-- The heartbeat timer restarted. -/
def beatNow (s : State) : State := { s with regs := { s.regs with beatAt := s.time.now } }

@[simp] theorem beatNow_beatAt (s : State) : (beatNow s).regs.beatAt = s.time.now := rfl
@[simp] theorem beatNow_owner (s : State) : (beatNow s).regs.owner = s.regs.owner := rfl

theorem keeps_beatNow (s : State) : Keeps [.owner] s (beatNow s) :=
  Keeps.with_regs (.inr rfl) (.inr rfl) (.inr rfl) (.inr rfl) (.inr ⟨rfl, rfl⟩) (.inr ⟨rfl, rfl, rfl⟩)
    (.inr ⟨rfl, rfl, rfl, rfl, rfl, rfl, rfl⟩) (.inl rfl) (Keeps.refl _ _)

/-- The effect of BEAT in HOST.OWN_HB, written by the owner. -/
theorem writeEffect_beat {s : State} {a : Access} (ho : a.off = Reg.hostOwnHb) (hop : a.op = .plain)
    (hp : a.path = .ep s.regs.owner) (hb : a.val.bit 0 = true) (hold : Bool) : s.writeEffect a hold = beatNow s := by
  simp [State.writeEffect, State.unitEffect, beatNow, ho, hop, hp, hb, Reg.hostOwnHb, Reg.scrivRecSel, Reg.scrivHashIn,
    Reg.lockZeroize, Reg.lockCmd, Reg.lockKmLock, Reg.lockSlotSel]

theorem write_beat {s : State} {p : Path} {val : Word} (h : canWrite s p Reg.hostOwnHb val = true)
    (hp : p = .ep s.regs.owner) (hb : val.bit 0 = true) :
    s.write p Reg.hostOwnHb val = .next (beatNow ((s.setLock p false).clearLost p Reg.hostOwnHb)) := by
  have howner := Keeps.regs_owner (keeps_setLock_clearLost s p false Reg.hostOwnHb) rfl
  rw [write_reaches_wc regAt_hostOwnHb rfl rfl (by decide) rfl (by decide) rfl h rfl,
    writeEffect_beat rfl rfl (hp.trans (by rw [howner])) hb]

/-- Settles O8: both registers hold only WC fields, so what the fabric leaves (the lock armed) meets the judgement of the key
or the restart of the timer. -/
theorem unlockAndBeat : Obligations.UnlockAndBeat := by
  intro p val s
  refine ⟨fun h => ⟨_, write_genUnlock h, fun hkey => ?_, fun hwrong => ?_⟩, fun h hp hb => ⟨_, write_beat h hp hb, ?_⟩⟩
  · have hk := keeps_setLock_clearLost s p false Reg.genUnlock
    rw [unlock_key hkey]
    exact ⟨by simp, Keeps.step (keeps_setLock _ _ _) rfl hk⟩
  · have hk := keeps_setLock_clearLost s p false Reg.genUnlock
    have hkeeps := Keeps.step (m := [.locks, .counters, .parity]) (keeps_unlock _ p val) rfl (Keeps.mono hk rfl)
    rw [unlock_wrongKey hwrong] at hkeeps ⊢
    refine ⟨?_, ?_, hkeeps⟩
    · rw [Keeps.unlocked (keeps_count _ _) rfl, setLock_unlocked, if_pos rfl]
    · rw [count_counter, if_pos rfl, setLock_counter_eq, Keeps.counter hk rfl]
  · have hk := keeps_setLock_clearLost s p false Reg.hostOwnHb
    refine ⟨?_, ?_, ?_, Keeps.step (keeps_beatNow _) rfl (Keeps.mono hk rfl)⟩
    · rw [beatNow_beatAt, Keeps.time_now hk rfl]
    · rw [beatNow_owner, Keeps.regs_owner hk rfl]
    · rw [Keeps.unlocked (keeps_beatNow _) rfl, setLock_clearLost_unlocked]

end Sys2Proof.Proofs.RegisterBehaviour

/-! SUPPORT. Ownership of the configuration: what a move does (R328), the judgement that makes one (R327), and the write of
GEN.OWNER (R326), whose RWI field is updated before the write is judged. -/

namespace Sys2Proof.Proofs.Ownership

open Sys2Proof.Machine Sys2Proof.Safety Sys2Proof.Laws

/-! ## A move of ownership (R328) -/

/-- The registers of a move: the new owner, the cause, both endpoints' locks armed, the heartbeat timer restarted. What
the move does after that tells others of it: the key lock, the counter, the events and the source. -/
def ownerMoved (s : State) (next : Ep) (cause : Nat) : State :=
  { s with regs := { (s.setFld Reg.genOwner 0 1 next.idx).regs with
      owner := next, ownCause := cause, unlockedA := false, unlockedB := false, beatAt := s.time.now } }

theorem keeps_ownerMoved_ownerMove (s : State) (next : Ep) (cause : Nat) :
    Keeps (andBell [.lock, .rings]) (ownerMoved s next cause) (s.ownerMove next cause) :=
  Keeps.step (keeps_raise _ _) rfl <| Keeps.step (keeps_postEvent _ _ _ _) rfl <|
    Keeps.step (keeps_postEvent _ _ _ _) rfl <| Keeps.step (keeps_count _ _) rfl <|
      Keeps.ite (Keeps.mono (keeps_kmRelease _) rfl) (Keeps.refl _ _)

/-- What a move leaves behind, with its frame. -/
theorem ownerMove_moves (s : State) (next : Ep) (cause : Nat) :
    let t := s.ownerMove next cause
    t.regs.owner = next ∧ t.regs.ownCause = cause ∧ t.regs.unlockedA = false ∧ t.regs.unlockedB = false ∧
      t.regs.beatAt = s.time.now ∧ Keeps (andBell [.inForce, .locks, .owner, .lock, .rings]) s t :=
  have h := keeps_ownerMoved_ownerMove s next cause
  ⟨Keeps.regs_owner h rfl, Keeps.regs_ownCause h rfl, Keeps.regs_unlockedA h rfl, Keeps.regs_unlockedB h rfl,
    Keeps.regs_beatAt h rfl, keeps_ownerMove s next cause⟩

/-! ## The judgement of the owner (R327) -/

theorem execOwnerJudge_linkLost {s : State} (hother : s.usable s.regs.owner.other = true)
    (hown : s.usable s.regs.owner = false)
    (hdown : 1000000 * s.fld Reg.hostOwnCtl 32 16 ≤ s.time.now - (s.ep s.regs.owner).downSince) :
    execOwnerJudge s = .next (s.ownerMove s.regs.owner.other 2) := by
  simp [execOwnerJudge, hother, hown, hdown]

theorem execOwnerJudge_beatMissed {s : State} (hother : s.usable s.regs.owner.other = true)
    (hown : s.usable s.regs.owner = true) (hon : s.fld Reg.hostOwnCtl 0 16 ≠ 0)
    (hlate : 1000000 * s.fld Reg.hostOwnCtl 0 16 < s.time.now - s.regs.beatAt) :
    execOwnerJudge s = .next (s.ownerMove s.regs.owner.other 3) := by
  simp [execOwnerJudge, hother, hown, hon, hlate]

/-! ## The write of GEN.OWNER in its register (R61, R83) -/

/-- GEN.OWNER: one RWI bit, guarded. -/
def ownerGroup : RegGroup := { base := 0x8, rwi := 0x1, live := 0xfffffffffffffffe, guarded := true }

theorem regAt_genOwner : regAt Reg.genOwner = some (ownerGroup, 0) := by decide

/-- The access that a 64-bit write in the normal window makes. -/
def ownerAccess (p : Path) (val : Word) : Access :=
  { path := p, off := Reg.genOwner, op := .plain, val := val, flashOk := true }

/-- A write of GEN.OWNER before its effect is judged: the path's lock armed and the field updated. -/
def ownerStored (s : State) (p : Path) (val : Word) : State :=
  (s.setLock p false).writeFields (ownerAccess p val) ownerGroup

/-- A register without RW fields stages nothing. -/
theorem keeps_writeFields_rwi (s : State) (a : Access) {g : RegGroup} (h : g.rw = 0) :
    Keeps [.inForce, .parity] s (s.writeFields a g) := by
  simp only [State.writeFields, h, if_true]
  exact Keeps.step (keeps_clearLost _ _ _) rfl (Keeps.ite (Keeps.refl _ _) (Keeps.mono (keeps_setReg _ _ _) rfl))

theorem keeps_ownerStored (s : State) (p : Path) (val : Word) : Keeps [.inForce, .locks, .parity] s (ownerStored s p val) :=
  Keeps.step (keeps_writeFields_rwi _ _ rfl) rfl (Keeps.mono (keeps_setLock _ _ _) rfl)

theorem ownerStored_reg_other (s : State) (p : Path) (val : Word) {off : Nat} (h : off ≠ Reg.genOwner) :
    (ownerStored s p val).reg off = s.reg off := by
  rw [ownerStored, writeFields_reg, if_neg (fun e => h e.1), setLock_reg_eq]

theorem ownerStored_field (s : State) (p : Path) (val : Word) :
    (ownerStored s p val).fld Reg.genOwner 0 1 = val.field 0 1 := by
  have hclear : ¬ (0x151000 ≤ Reg.genOwner ∧ Reg.genOwner < 0x153600) := by decide
  rw [State.fld, ownerStored, writeFields_reg, if_pos ⟨rfl, by decide⟩, newWord_plain _ _ _ rfl rfl hclear]
  exact field_mixWord (by decide)

/-! ## Its effect (R326) -/

/-- The effect of GEN.OWNER is judged by its field as it now stands. -/
theorem writeEffect_ownerAccess (s : State) (p : Path) (val : Word) (hold : Bool) :
    s.writeEffect (ownerAccess p val) hold = if epOf (s.fld Reg.genOwner 0 1) = s.regs.owner then s
      else s.ownerMove (epOf (s.fld Reg.genOwner 0 1)) 1 := rfl

/-- A write of GEN.OWNER that is performed judges the field it has updated: naming the owner, it is over; naming the other
endpoint, it moves ownership. -/
theorem write_genOwner {s : State} {p : Path} {val : Word} (h : canWrite s p Reg.genOwner val = true) :
    s.write p Reg.genOwner val = .next (if epOf (val.field 0 1) = s.regs.owner then ownerStored s p val
      else (ownerStored s p val).ownerMove (epOf (val.field 0 1)) 1) := by
  have howner := Keeps.regs_owner (keeps_ownerStored s p val) rfl
  refine (write_reaches regAt_genOwner rfl (by decide) rfl (by decide) h rfl).trans (congrArg _ ?_)
  rw [← howner, ← ownerStored_field s p val]
  exact writeEffect_ownerAccess _ _ _ _

/-- The endpoint that a one-bit field names has the field's value as its number. -/
theorem idx_epOf_field_one (w : Word) (lo : Nat) : (epOf (w.field lo 1)).idx = w.field lo 1 := by
  rw [field_one]
  cases w.bit lo <;> rfl

theorem exec_genOwnerWrite_other {s : State} {p : Path} {val : Word} (h : canWrite s p Reg.genOwner val = true)
    (hne : epOf (val.field 0 1) ≠ s.regs.owner) :
    exec (.genOwnerWrite p val) s = .next ((ownerStored s p val).ownerMove (epOf (val.field 0 1)) 1) :=
  (write_genOwner h).trans (by rw [if_neg hne])

theorem exec_genOwnerWrite_owner {s : State} {p : Path} {val : Word} (h : canWrite s p Reg.genOwner val = true)
    (heq : epOf (val.field 0 1) = s.regs.owner) : exec (.genOwnerWrite p val) s = .next (ownerStored s p val) :=
  (write_genOwner h).trans (by rw [if_pos heq])

/-- Settles O9: every way in which ownership moves is one operation, whose effect and frame are proved once; a write that
names the owner ends with its field updated. -/
theorem ownershipMoves : Obligations.OwnershipMoves := by
  refine ⟨fun p val s h hne => ⟨_, exec_genOwnerWrite_other h hne, ?_⟩,
    fun p val s h heq => ⟨_, exec_genOwnerWrite_owner h heq, ?_⟩,
    fun s hother hown hdown => ⟨_, execOwnerJudge_linkLost hother hown hdown, ownerMove_moves _ _ _⟩,
    fun s hother hown hon hlate => ⟨_, execOwnerJudge_beatMissed hother hown hon hlate, ownerMove_moves _ _ _⟩⟩
  · have hk := keeps_ownerStored s p val
    obtain ⟨howner, hcause, hA, hB, hbeat, hmove⟩ := ownerMove_moves (ownerStored s p val) (epOf (val.field 0 1)) 1
    exact ⟨howner, hcause, hA, hB, hbeat.trans (Keeps.time_now hk rfl), Keeps.step hmove rfl (Keeps.mono hk rfl)⟩
  · have hk := keeps_ownerStored s p val
    refine ⟨Keeps.regs_owner hk rfl, Keeps.regs_ownCause hk rfl, ?_, fun off => ownerStored_reg_other s p val, hk⟩
    rw [ownerStored_field, ← heq, idx_epOf_field_one]

end Sys2Proof.Proofs.Ownership

/-! SUPPORT. The step function, and the byte memories right after reset. -/

namespace Sys2Proof.Proofs.Steps

open Sys2Proof.Machine Sys2Proof.Safety Sys2Proof.Laws

/-- Settles O1: step matches on the queue. -/
theorem stepRunsFront : Obligations.StepRunsFront := by
  unfold Obligations.StepRunsFront
  intro c rest s h
  rw [step, h]

/-- Settles O3: after reset the three memories are empty tables, and no slot's erase has failed. -/
theorem resetMemoryCanonical : Obligations.ResetMemoryCanonical := by
  unfold Obligations.ResetMemoryCanonical
  decide

end Sys2Proof.Proofs.Steps

/-! SUPPORT. The queue (log entry 11): every command's frame leaves it, no command's answer is a fault, and an empty queue
idles. -/

namespace Sys2Proof.Proofs.Queue

open Sys2Proof.Machine Sys2Proof.Safety Sys2Proof.Laws

/-- A frame without the queue leaves it. -/
theorem AnswerKeeps.pending {l : List Part} {s t : State} {x : Answer} (h : AnswerKeeps l s x)
    (hp : l.contains .pending = false) (e : x = .next t) : t.pending = s.pending := Keeps.pending (h t e) hp

/-- No command touches the queue behind it: what passes through the fabric by the frame of its arrival, every other command by
its own. -/
theorem exec_pending {c : Instr} {s t : State} (h : exec c s = .next t) : t.pending = s.pending := by
  cases c
  case registerWrite | aliasWrite | genUnlock | genOwnerWrite | ownHbBeat | genSnapTake | genCommit | epochCtlRunStart |
      epochCtlRunStop | epochCtlHold | genSwapReq | genSwapCancel | portCmdRecover | fgClear | wakeAck | watchWsel |
      forceCmdForce | forceCmdRelease | scrivRecSel | scrivHashIn | txqDropHead | lockZeroize | lockCmdAck | kmLockClaim |
      kmLockRelease | doorbell | bellPendClr | bellClaim | bellEoi | bellMask | bellGdis | bellSrcEn | stewCmdAck |
      stewCmdRecover | stewCmdRclr | lcCmdGo | dbgCtlEnd | pwrCtlTarget | rstCmdFull | fwCmdActivate | fwCmdConfirm |
      fwCmdRevert | fwCmdRoll | fwCmdErase | fwCmdProgram | flData | flAddr | fwSel | lockSlotSel | tinkSliceSel |
      msiXTableWrite => exact AnswerKeeps.pending (keeps_arrive s _) rfl h
  case configReload off => exact AnswerKeeps.pending (keeps_execConfigReload off s) rfl h
  case ownerJudge => exact AnswerKeeps.pending (keeps_execOwnerJudge s) rfl h
  case snapshotComplete => exact AnswerKeeps.pending (keeps_execSnapshotComplete s) rfl h
  case parityScan bad later => exact AnswerKeeps.pending (keeps_execParityScan bad s later) rfl h
  case cut => exact AnswerKeeps.pending (keeps_execCut s) rfl h
  case stagingFreeze => exact AnswerKeeps.pending (keeps_execStagingFreeze s) rfl h
  case epochBoundary => exact AnswerKeeps.pending (keeps_execEpochBoundary s) rfl h
  case freezeEnd => exact AnswerKeeps.pending (keeps_execFreezeEnd s) rfl h
  case closeRecord => exact AnswerKeeps.pending (keeps_execCloseRecord s) rfl h
  case silentBoundary => exact AnswerKeeps.pending (keeps_execSilentBoundary s) rfl h
  case commitSwapEligible => exact AnswerKeeps.pending (keeps_execCommitSwapEligible s) rfl h
  case rxHeader port f sofAgo => exact AnswerKeeps.pending (keeps_execRxHeader port f sofAgo s) rfl h
  case rxFrameEnd port v sv toAck => exact AnswerKeeps.pending (keeps_execRxFrameEnd port v sv s toAck) rfl h
  case busError port e transmitter ph loop sv => exact AnswerKeeps.pending (keeps_execBusError port e transmitter ph s loop sv) rfl h
  case boDelayExpire port => exact AnswerKeeps.pending (keeps_execBoDelayExpire port s) rfl h
  case busOffRecovery port occurrences => exact AnswerKeeps.pending (keeps_execBusOffRecovery port occurrences s) rfl h
  case portIntegrated eng => exact AnswerKeeps.pending (keeps_execPortIntegrated eng s) rfl h
  case portStopComplete eng => exact AnswerKeeps.pending (keeps_execPortStopComplete eng s) rfl h
  case portHoldExpire port => exact AnswerKeeps.pending (keeps_execPortHoldExpire port s) rfl h
  case txChoice port => exact AnswerKeeps.pending (keeps_execTxChoice port s) rfl h
  case txSuccess port loopMtq sv => exact AnswerKeeps.pending (keeps_execTxSuccess port loopMtq sv s) rfl h
  case arbLost port => exact AnswerKeeps.pending (keeps_execArbLost port s) rfl h
  case selfAbort port ph loop sv => exact AnswerKeeps.pending (keeps_execSelfAbort port ph s loop sv) rfl h
  case ctUnderrun port ph loop sv => exact AnswerKeeps.pending (keeps_execCtUnderrun port ph s loop sv) rfl h
  case xcvrModeEffect port => exact AnswerKeeps.pending (keeps_execXcvrModeEffect port s) rfl h
  case xcvrSettled port => exact AnswerKeeps.pending (keeps_execXcvrSettled port s) rfl h
  case lpStbEffect port => exact AnswerKeeps.pending (keeps_execLpStbEffect port s) rfl h
  case vbusUndervoltage bank mv => exact AnswerKeeps.pending (keeps_execVbusUndervoltage bank mv s) rfl h
  case violUnpowered bank mv => exact AnswerKeeps.pending (keeps_execViolUnpowered bank mv s) rfl h
  case fgSample port mv ua => exact AnswerKeeps.pending (keeps_execFgSample port mv ua s) rfl h
  case fgCoolExpire port => exact AnswerKeeps.pending (keeps_execFgCoolExpire port s) rfl h
  case fgRetry port => exact AnswerKeeps.pending (keeps_execFgRetry port s) rfl h
  case wakeUpPattern port dom1 rec dom2 total => exact AnswerKeeps.pending (keeps_execWakeUpPattern port dom1 rec dom2 total s) rfl h
  case wakeUpFrame port ide ident dlc remote fd erroneous data => exact AnswerKeeps.pending (keeps_execWakeUpFrame port ide ident dlc remote fd erroneous data s) rfl h
  case wakeN => exact AnswerKeeps.pending (keeps_execWakeN s) rfl h
  case takeoverCopy port => exact AnswerKeeps.pending (keeps_execTakeoverCopy port s) rfl h
  case takeoverSwitch port overload => exact AnswerKeeps.pending (keeps_execTakeoverSwitch port overload s) rfl h
  case hoTimeout port => exact AnswerKeeps.pending (keeps_execHoTimeout port s) rfl h
  case lookup fid eccSlot => exact AnswerKeeps.pending (keeps_execLookup fid eccSlot s) rfl h
  case decodeOp fid => exact AnswerKeeps.pending (keeps_execDecodeOp fid s) rfl h
  case recordCommit fid => exact AnswerKeeps.pending (keeps_execRecordCommit fid s) rfl h
  case pantryLineFill line lost => exact AnswerKeeps.pending (keeps_execPantryLineFill line lost s) rfl h
  case sweepVisit eccBad => exact AnswerKeeps.pending (keeps_execSweepVisit eccBad s) rfl h
  case sweepComplete => exact AnswerKeeps.pending (keeps_execSweepComplete s) rfl h
  case sweepStall => exact AnswerKeeps.pending (keeps_execSweepStall s) rfl h
  case walkOp => exact AnswerKeeps.pending (keeps_execWalkOp s) rfl h
  case loadImage c => exact AnswerKeeps.pending (keeps_execLoadImage c s) rfl h
  case imageWaitEnd header => exact AnswerKeeps.pending (keeps_execImageWaitEnd header s) rfl h
  case imageCopyDone => exact AnswerKeeps.pending (keeps_execImageCopyDone s) rfl h
  case imageRecordRead words => exact AnswerKeeps.pending (keeps_execImageRecordRead words s) rfl h
  case imageEndCheck readOk => exact AnswerKeeps.pending (keeps_execImageEndCheck s readOk) rfl h
  case imageBankCheck => exact AnswerKeeps.pending (keeps_execImageBankCheck s) rfl h
  case subscribe c words => exact AnswerKeeps.pending (keeps_execSubscribe c words s) rfl h
  case copyPlacement fid copy => exact AnswerKeeps.pending (keeps_execCopyPlacement fid copy s) rfl h
  case txBackfill port tag fetched => exact AnswerKeeps.pending (keeps_execTxBackfill port tag fetched s) rfl h
  case sealFArrival fid => exact AnswerKeeps.pending (keeps_execSealFArrival fid s) rfl h
  case locksmithVerdict fid => exact AnswerKeeps.pending (keeps_execLocksmithVerdict fid s) rfl h
  case sealStart lane => exact AnswerKeeps.pending (keeps_execSealStart lane s) rfl h
  case sealComplete lane => exact AnswerKeeps.pending (keeps_execSealComplete lane s) rfl h
  case keyLoad c blob => exact AnswerKeeps.pending (keeps_execKeyLoad c blob s) rfl h
  case kekLoad c blob => exact AnswerKeeps.pending (keeps_execKekLoad c blob s) rfl h
  case keyClear c => exact AnswerKeeps.pending (keeps_execKeyClear c s) rfl h
  case nextHalfWrite slot => exact AnswerKeeps.pending (keeps_execNextHalfWrite slot s) rfl h
  case keySwap c => exact AnswerKeeps.pending (keeps_execKeySwap c s) rfl h
  case zeroize c => exact AnswerKeeps.pending (keeps_execZeroize c s) rfl h
  case alarm code => exact AnswerKeeps.pending (keeps_execAlarm code s) rfl h
  case kek0Derive => exact AnswerKeeps.pending (keeps_execKek0Derive s) rfl h
  case kmTimeout => exact AnswerKeeps.pending (keeps_execKmTimeout s) rfl h
  case drbgInstantiate => exact AnswerKeeps.pending (keeps_execDrbgInstantiate s) rfl h
  case drbgReseed => exact AnswerKeeps.pending (keeps_execDrbgReseed s) rfl h
  case healthTestFail => exact AnswerKeeps.pending (keeps_execHealthTestFail s) rfl h
  case entropyRetry passes => exact AnswerKeeps.pending (keeps_execEntropyRetry passes s) rfl h
  case drbgAlarm => exact AnswerKeeps.pending (keeps_execDrbgAlarm s) rfl h
  case endpointUsableChange e link mse bme d3 width speed bars => exact AnswerKeeps.pending (keeps_execEndpointUsableChange e link mse bme d3 width speed s bars) rfl h
  case endpointReset e active fundamental => exact AnswerKeeps.pending (keeps_execEndpointReset e active s fundamental) rfl h
  case d3hotEntry e => exact AnswerKeeps.pending (keeps_execD3hotEntry e s) rfl h
  case ringRunning e ring => exact AnswerKeeps.pending (keeps_execRingRunning e ring s) rfl h
  case ringStopComplete e ring => exact AnswerKeeps.pending (keeps_execRingStopComplete e ring s) rfl h
  case completionWrite e ring => exact AnswerKeeps.pending (keeps_execCompletionWrite e ring s) rfl h
  case nop c => exact AnswerKeeps.pending (keeps_execNop c s) rfl h
  case opcodeUnknown c => exact AnswerKeeps.pending (keeps_execOpcodeUnknown c s) rfl h
  case commit c => exact AnswerKeeps.pending (keeps_execCommit c s) rfl h
  case portCtl c => exact AnswerKeeps.pending (keeps_execPortCtl c s) rfl h
  case timeSet c => exact AnswerKeeps.pending (keeps_execTimeSet c s) rfl h
  case timeSetApply => exact AnswerKeeps.pending (keeps_execTimeSetApply s) rfl h
  case timeSetTimeout => exact AnswerKeeps.pending (keeps_execTimeSetTimeout s) rfl h
  case transmitEntry e ring w0 w1 w2 w3 => exact AnswerKeeps.pending (keeps_execTransmitEntry e ring w0 w1 w2 w3 s) rfl h
  case txResourcesReady e ring => exact AnswerKeeps.pending (keeps_execTxResourcesReady e ring s) rfl h
  case captureRecordFinish fid copy => exact AnswerKeeps.pending (keeps_execCaptureRecordFinish fid copy s) rfl h
  case cellarStart c media => exact AnswerKeeps.pending (keeps_execCellarStart c media s) rfl h
  case cellarRestoreDone reads failing => exact AnswerKeeps.pending (keeps_execCellarRestoreDone s reads failing) rfl h
  case cellarStop c => exact AnswerKeeps.pending (keeps_execCellarStop c s) rfl h
  case cellarStopped => exact AnswerKeeps.pending (keeps_execCellarStopped s) rfl h
  case cellarCheckpoint c => exact AnswerKeeps.pending (keeps_execCellarCheckpoint c s) rfl h
  case cellarFormat c media => exact AnswerKeeps.pending (keeps_execCellarFormat c media s) rfl h
  case cellarFormatDone failed => exact AnswerKeeps.pending (keeps_execCellarFormatDone failed s) rfl h
  case batchExpire => exact AnswerKeeps.pending (keeps_execBatchExpire s) rfl h
  case journalPageProgram failing => exact AnswerKeeps.pending (keeps_execJournalPageProgram s failing) rfl h
  case pageProgramDone target ok failing => exact AnswerKeeps.pending (keeps_execPageProgramDone target ok s failing) rfl h
  case checkpointTimer => exact AnswerKeeps.pending (keeps_execCheckpointTimer s) rfl h
  case checkpointSeal reads failing => exact AnswerKeeps.pending (keeps_execCheckpointSeal s reads failing) rfl h
  case scrub words crcBad failing => exact AnswerKeeps.pending (keeps_execScrub words crcBad failing s) rfl h
  case pfail => exact AnswerKeeps.pending (keeps_execPfail s) rfl h
  case flushComplete failing => exact AnswerKeeps.pending (keeps_execFlushComplete s failing) rfl h
  case pfailRelease => exact AnswerKeeps.pending (keeps_execPfailRelease s) rfl h
  case sourceRaise src => exact AnswerKeeps.pending (keeps_execSourceRaise src s) rfl h
  case faultEvent f => exact AnswerKeeps.pending (keeps_execFaultEvent f s) rfl h
  case brokenWire f high => exact AnswerKeeps.pending (keeps_execBrokenWire f s high) rfl h
  case levelRestored f fault => exact AnswerKeeps.pending (keeps_execLevelRestored f fault s) rfl h
  case subBucketAdvance f => exact AnswerKeeps.pending (keeps_execSubBucketAdvance f s) rfl h
  case recovery f => exact AnswerKeeps.pending (keeps_execRecovery f s) rfl h
  case rcntDecay f => exact AnswerKeeps.pending (keeps_execRcntDecay f s) rfl h
  case windowClose f => exact AnswerKeeps.pending (keeps_execWindowClose f s) rfl h
  case watchdogTrip => exact AnswerKeeps.pending (keeps_execWatchdogTrip s) rfl h
  case sliceSelect => exact AnswerKeeps.pending (keeps_execSliceSelect s) rfl h
  case testResult slice misr saved reloaded => exact AnswerKeeps.pending (keeps_execTestResult slice misr saved s reloaded) rfl h
  case goldenCheck good => exact AnswerKeeps.pending (keeps_execGoldenCheck good s) rfl h
  case pairHandoverTimer => exact AnswerKeeps.pending (keeps_execPairHandoverTimer s) rfl h
  case lcProgramDone verified => exact AnswerKeeps.pending (keeps_execLcProgramDone verified s) rfl h
  case idcode => exact AnswerKeeps.pending (keeps_execIdcode s) rfl h
  case bypass opcode => exact AnswerKeeps.pending (keeps_execBypass opcode s) rfl h
  case samplePreload preload => exact AnswerKeeps.pending (keeps_execSamplePreload preload s) rfl h
  case extest vector => exact AnswerKeeps.pending (keeps_execExtest vector s) rfl h
  case dbgChal request => exact AnswerKeeps.pending (keeps_execDbgChal request s) rfl h
  case dbgResp key sig => exact AnswerKeeps.pending (keeps_execDbgResp key sig s) rfl h
  case debugAuthResult => exact AnswerKeeps.pending (keeps_execDebugAuthResult s) rfl h
  case dbgAccess op => exact AnswerKeeps.pending (keeps_execDbgAccess op s) rfl h
  case nonceLapse => exact AnswerKeeps.pending (keeps_execNonceLapse s) rfl h
  case tapReset => exact AnswerKeeps.pending (keeps_execTapReset s) rfl h
  case powerMoveStart => exact AnswerKeeps.pending (keeps_execPowerMoveStart s) rfl h
  case powerOn bootSel => exact AnswerKeeps.pending (keeps_execPowerOn bootSel s) rfl h
  case resetN bootSel lowNs => exact AnswerKeeps.pending (keeps_execResetN bootSel lowNs s) rfl h
  case firmwareReady => exact AnswerKeeps.pending (keeps_execFirmwareReady s) rfl h
  case bootReadyTimeout => exact AnswerKeeps.pending (keeps_execBootReadyTimeout s) rfl h
  case pairSwitch => exact AnswerKeeps.pending (keeps_execPairSwitch s) rfl h
  case switchTimeout => exact AnswerKeeps.pending (keeps_execSwitchTimeout s) rfl h
  case confirmTimeout => exact AnswerKeeps.pending (keeps_execConfirmTimeout s) rfl h
  case ppsEdge rising => exact AnswerKeeps.pending (keeps_execPpsEdge rising s) rfl h
  case ppsLost => exact AnswerKeeps.pending (keeps_execPpsLost s) rfl h
  case protocolExceptionExit eng => exact AnswerKeeps.pending (keeps_execProtocolExceptionExit eng s) rfl h
  case ringReadFailure e ring => exact AnswerKeeps.pending (keeps_execRingReadFailure e ring s) rfl h
  case minimumLowTime => exact AnswerKeeps.pending (keeps_execMinimumLowTime s) rfl h
  case lossOfPower => exact AnswerKeeps.pending (keeps_execLossOfPower s) rfl h
  case tempUpdate sensors => exact AnswerKeeps.pending (keeps_execTempUpdate sensors s) rfl h

/-! ## No command faults -/

/-- The outcome is a fault. -/
def faults : Answer → Bool
  | .fault _ => true
  | _ => false

theorem ne_fault {a : Answer} (h : faults a = false) (f : Fault) : a ≠ .fault f := by
  rintro rfl
  cases h

theorem access_faults (s : State) (a : Access) : faults (s.access a) = false := by
  unfold State.access
  split
  · rfl
  · split <;> rfl

theorem performPosted_faults (s : State) (x : Posted) : faults (s.performPosted x) = false := by
  cases x with
  | write p off size val ok =>
    unfold State.performPosted
    dsimp only
    split
    · rfl
    · exact access_faults _ _
  | _ => rfl

theorem arrive_faults (s : State) (x : Posted) : faults (s.arrive x) = false := by
  unfold State.arrive
  split
  · rfl
  · exact performPosted_faults s x

theorem replay_faults (xs : List Posted) (s : State) : faults (s.replay xs) = false := by
  induction xs generalizing s with
  | nil => rfl
  | cons x xs ih =>
    have hx := performPosted_faults s x
    unfold State.replay
    split
    · rfl
    · split
      · exact ih _
      · exact hx

theorem execConfigReload_faults (off : Nat) (s : State) : faults (execConfigReload off s) = false := by
  unfold execConfigReload
  split
  · exact replay_faults _ _
  · rfl

theorem exec_faults (c : Instr) (s : State) : faults (exec c s) = false := by
  cases c
  case configReload off => exact execConfigReload_faults off s
  case registerWrite | aliasWrite | genUnlock | genOwnerWrite | ownHbBeat | genSnapTake | genCommit | epochCtlRunStart |
      epochCtlRunStop | epochCtlHold | genSwapReq | genSwapCancel | portCmdRecover | fgClear | wakeAck | watchWsel |
      forceCmdForce | forceCmdRelease | scrivRecSel | scrivHashIn | txqDropHead | lockZeroize | lockCmdAck | kmLockClaim |
      kmLockRelease | doorbell | bellPendClr | bellClaim | bellEoi | bellMask | bellGdis | bellSrcEn | stewCmdAck |
      stewCmdRecover | stewCmdRclr | lcCmdGo | dbgCtlEnd | pwrCtlTarget | rstCmdFull | fwCmdActivate | fwCmdConfirm |
      fwCmdRevert | fwCmdRoll | fwCmdErase | fwCmdProgram | flData | flAddr | fwSel | lockSlotSel | tinkSliceSel |
      msiXTableWrite => exact arrive_faults _ _
  all_goals rfl

/-- Settles O2: the idle tick is step on an empty queue; for the commands, the frame and the outcome of each. -/
theorem queueAndOutcomes : Obligations.QueueAndOutcomes := by
  refine ⟨fun s hs => ⟨_, by rw [step, hs], ?_, keeps_advanceTo s _⟩, fun c s => ⟨ne_fault (exec_faults c s), fun t ht => ?_⟩⟩
  · simp
  · exact exec_pending ht

end Sys2Proof.Proofs.Queue

/-! SUPPORT. A write that stages (R61, R63, R66, R152): which copies it replaces, and that a register without a row of its own
has no effect beyond its fields but the Bell Board's service. -/

namespace Sys2Proof.Proofs.Staging

open Sys2Proof.Machine Sys2Proof.Safety Sys2Proof.Laws

/-! ## The copies of a register -/

theorem keeps_stage_gen (s : State) (off : Nat) (w : Word) : (s.stage off w).gen = s.gen :=
  Keeps.gen (keeps_stage s off w) rfl rfl rfl rfl

/-- Within the freeze a word goes to the held copy, else to the staged one. -/
theorem stage_held (s : State) (off : Nat) (w : Word) : (s.stage off w).regs.held =
    if s.gen.freeze then Table.insert off (w &&& rwMask off) s.regs.held else s.regs.held := by
  unfold State.stage
  split <;> rfl

theorem stage_staged (s : State) (off : Nat) (w : Word) : (s.stage off w).regs.staged =
    if s.gen.freeze then s.regs.staged else Table.insert off (w &&& rwMask off) s.regs.staged := by
  unfold State.stage
  split <;> rfl

/-- The register of the spare that shadows the port of the engine whose block holds an offset (R152). -/
def mirrorOf (s : State) (off : Nat) : Option Nat :=
  (blockEngine off).bind (fun n => (s.spareOf n).map (fun m => off - 0x400 * n + 0x400 * m))

theorem spareOf_congr {l : List Part} {s t : State} (h : Keeps l s t) (hp : l.contains .ports = false) (n : Nat) :
    t.spareOf n = s.spareOf n := by
  simp only [State.spareOf, Keeps.portOf h hp, Keeps.port h hp]

/-- The state before the mirror: the write counted within the freeze, the copy taken, the report of a lost copy ended. -/
def stagedOwn (s : State) (p : Path) (off : Nat) (w : Word) : State :=
  ((s.countIf s.gen.freeze Reg.genHeldWrites).stage off w).clearLost p off

theorem keeps_stagedOwn (s : State) (p : Path) (off : Nat) (w : Word) :
    Keeps [.staged, .held, .counters, .parity] s (stagedOwn s p off w) :=
  Keeps.step (keeps_clearLost _ _ _) rfl (Keeps.step (keeps_stage _ _ _) rfl (Keeps.mono (keeps_countIf _ _ _) rfl))

theorem stagedOwn_held (s : State) (p : Path) (off : Nat) (w : Word) : (stagedOwn s p off w).regs.held =
    if s.gen.freeze then Table.insert off (w &&& rwMask off) s.regs.held else s.regs.held := by
  have hc := keeps_countIf s s.gen.freeze Reg.genHeldWrites
  rw [stagedOwn, Keeps.regs_held (keeps_clearLost _ _ _) rfl, stage_held, Keeps.gen_freeze hc rfl, Keeps.regs_held hc rfl]

theorem stagedOwn_staged (s : State) (p : Path) (off : Nat) (w : Word) : (stagedOwn s p off w).regs.staged =
    if s.gen.freeze then s.regs.staged else Table.insert off (w &&& rwMask off) s.regs.staged := by
  have hc := keeps_countIf s s.gen.freeze Reg.genHeldWrites
  rw [stagedOwn, Keeps.regs_staged (keeps_clearLost _ _ _) rfl, stage_staged, Keeps.gen_freeze hc rfl, Keeps.regs_staged hc rfl]

theorem stageWrite_eq (s : State) (p : Path) (off : Nat) (w : Word) : s.stageWrite p off w =
    match mirrorOf s off with
    | some o => (stagedOwn s p off w).stage o w
    | none => stagedOwn s p off w := by
  unfold State.stageWrite mirrorOf
  dsimp only
  split
  · rename_i n hn
    have hs := spareOf_congr (keeps_stagedOwn s p off w) rfl n
    rw [show ((s.countIf s.gen.freeze Reg.genHeldWrites).stage off w).clearLost p off = stagedOwn s p off w from rfl, hs, hn, Option.bind_some]
    cases s.spareOf n <;> rfl
  · rename_i hn
    rw [hn]
    rfl

/-- The copies that a write replaces: its register's, and the mirror's. -/
theorem stageWrite_held (s : State) (p : Path) (off : Nat) (w : Word) (o : Nat) :
    Table.find? o (s.stageWrite p off w).regs.held =
      if s.gen.freeze ∧ (o = off ∨ mirrorOf s off = some o) then some (w &&& rwMask o) else Table.find? o s.regs.held := by
  have hf := Keeps.gen_freeze (keeps_stagedOwn s p off w) rfl
  rw [stageWrite_eq]
  cases mirrorOf s off <;> cases hz : s.gen.freeze <;> simp [stage_held, stagedOwn_held, hf, hz] <;> grind

theorem stageWrite_staged (s : State) (p : Path) (off : Nat) (w : Word) (o : Nat) :
    Table.find? o (s.stageWrite p off w).regs.staged =
      if s.gen.freeze = false ∧ (o = off ∨ mirrorOf s off = some o) then some (w &&& rwMask o)
      else Table.find? o s.regs.staged := by
  have hf := Keeps.gen_freeze (keeps_stagedOwn s p off w) rfl
  rw [stageWrite_eq]
  cases mirrorOf s off <;> cases hz : s.gen.freeze <;> simp [stage_staged, stagedOwn_staged, hf, hz] <;> grind


/-! ## The write in its register -/

/-- The state with the RWI fields of a write taken over. -/
def rwiTaken (s : State) (a : Access) (g : RegGroup) : State :=
  if g.rwi = 0 then s else s.setReg a.off (mixWord (BitVec.ofNat 64 g.rwi) (s.reg a.off) (s.newWord a g))

theorem keeps_rwiTaken (s : State) (a : Access) (g : RegGroup) : Keeps [.inForce] s (rwiTaken s a g) :=
  Keeps.ite (Keeps.refl _ _) (keeps_setReg _ _ _)

theorem writeFields_eq (s : State) (a : Access) (g : RegGroup) : s.writeFields a g =
    (if g.rw = 0 then rwiTaken s a g else (rwiTaken s a g).stageWrite a.path a.off (s.newWord a g)).clearLost a.path a.off := rfl

theorem mirrorOf_congr {l : List Part} {s t : State} (h : Keeps l s t) (hp : l.contains .ports = false) (off : Nat) :
    mirrorOf t off = mirrorOf s off := by
  simp only [mirrorOf, spareOf_congr h hp]

theorem writeFields_held (s : State) (a : Access) (g : RegGroup) (o : Nat) :
    Table.find? o (s.writeFields a g).regs.held =
      if g.rw ≠ 0 ∧ s.gen.freeze ∧ (o = a.off ∨ mirrorOf s a.off = some o) then some (s.newWord a g &&& rwMask o)
      else Table.find? o s.regs.held := by
  have hk := keeps_rwiTaken s a g
  rw [writeFields_eq, Keeps.regs_held (keeps_clearLost _ _ _) rfl]
  split
  · simp [*, Keeps.regs_held hk rfl]
  · simp only [stageWrite_held, Keeps.gen_freeze hk rfl, mirrorOf_congr hk rfl, Keeps.regs_held hk rfl]
    simp [*]

theorem writeFields_staged (s : State) (a : Access) (g : RegGroup) (o : Nat) :
    Table.find? o (s.writeFields a g).regs.staged =
      if g.rw ≠ 0 ∧ s.gen.freeze = false ∧ (o = a.off ∨ mirrorOf s a.off = some o) then some (s.newWord a g &&& rwMask o)
      else Table.find? o s.regs.staged := by
  have hk := keeps_rwiTaken s a g
  rw [writeFields_eq, Keeps.regs_staged (keeps_clearLost _ _ _) rfl]
  split
  · simp [*, Keeps.regs_staged hk rfl]
  · simp only [stageWrite_staged, Keeps.gen_freeze hk rfl, mirrorOf_congr hk rfl, Keeps.regs_staged hk rfl]
    simp [*]

theorem blockEngine_lt {off n : Nat} (h : blockEngine off = some n) : n < 136 := by
  unfold blockEngine at h
  split at h
  · injection h
    omega
  · cases h

/-- A register without a row of its own has no effect beyond its fields, but that the Bell Board looks again at what is due. -/
theorem writeEffect_noRow {s : State} {a : Access} (h : hasOwnRow a.off = false) (hold : Bool) :
    s.writeEffect a hold = s ∨ s.writeEffect a hold = s.bellService := by
  simp only [hasOwnRow, Bool.or_eq_false_iff, List.contains_eq_mem, List.mem_cons, List.not_mem_nil, or_false, decide_eq_false_iff_not,
    not_or, List.any_eq_false, List.mem_range, beq_iff_eq] at h
  obtain ⟨⟨h, -⟩, hport⟩ := h
  have hunit : ∀ v, s.unitEffect a v = s ∨ s.unitEffect a v = s.bellService := by
    intro v
    unfold State.unitEffect
    simp only [h, if_false]
    split
    · rename_i n hn
      have : a.off ≠ Reg.portCmd n := hport n (blockEngine_lt hn)
      simp [this]
    · split
      · exact .inr rfl
      · exact .inl rfl
  unfold State.writeEffect State.genEffect State.watchEffect State.lockEffect State.sysEffect
  simp only [h, or_self, if_false]
  grind

/-- A write through any window of a register without a row of its own: its fields, and at most the Bell Board's service. -/
theorem busWrite_noRow {s : State} {p : Path} {off k i : Nat} {val : Word} {g : RegGroup} (hr : regAt off = some (g, i))
    (hlt : off < 0x200000) (h8 : off % 8 = 0) (ho : canonicalOff off = off) (hrow : hasOwnRow off = false) (hk : k < 4)
    (hrw : g.rw ≠ 0 ∨ g.rwi ≠ 0) (hl : s.lcDataLocked off = false)
    (h : canWrite s p off ((windowOp (off + 0x400000 * k)).apply (s.reg off) val) = true) {a : Access}
    (ha : a = { path := p, off := off, op := windowOp (off + 0x400000 * k), val := val, flashOk := true }) :
    ∃ t : State, s.busWrite p (off + 0x400000 * k) 8 val true = .next t ∧
      Keeps bellParts ((s.setLock p false).writeFields a g) t := by
  have ht : g.takes (windowOp (off + 0x400000 * k)) = true := by
    rcases hrw with h | h <;> simp [RegGroup.takes, h]
  refine ⟨_, busWrite_reaches (f := true) hr ho hlt h8 hk ht h hl, ?_⟩
  rw [← ha]
  rcases writeEffect_noRow (s := (s.setLock p false).writeFields a g) (a := a) (by rw [ha]; exact hrow)
    (s.flag Reg.genEpochCtl 2) with e | e
  · rw [e]
    exact Keeps.refl _ _
  · rw [e]
    exact keeps_bellService _

theorem mixWord_zero (old new : Word) : mixWord 0#64 old new = old := by
  rw [mixWord, BitVec.not_zero, BitVec.and_allOnes, BitVec.and_zero, BitVec.or_zero]

/-- Settles O5: a write that reaches such a register is setLock, writeFields and at most bellService, in every window. -/
theorem writeStagesFields : Obligations.WriteStagesFields := by
  intro p off k i val s g hr hlt h8 ho hrow hk hrw hl hc a mirror copies done
  obtain ⟨t, ht, hbell⟩ := busWrite_noRow hr hlt h8 ho hrow hk hrw hl hc (a := a) rfl
  have hlock := keeps_setLock s p false
  have hfields := keeps_writeFields (s.setLock p false) a g
  have hm : mirrorOf (s.setLock p false) a.off = mirror := mirrorOf_congr hlock rfl off
  have hstaged : ∀ o, Table.find? o t.regs.staged = _ := fun o => by
    rw [Keeps.regs_staged hbell rfl, writeFields_staged, setLock_newWord, hm, setLock_gen, setLock_regs_staged]
  have hheld : ∀ o, Table.find? o t.regs.held = _ := fun o => by
    rw [Keeps.regs_held hbell rfl, writeFields_held, setLock_newWord, hm, setLock_gen, setLock_regs_held]
  have hdone : done t := by
    refine ⟨?_, fun o hne => ?_, fun hne => ?_, fun o hne hnm => ?_, ?_, ?_⟩
    · rw [Keeps.reg hbell rfl, writeFields_reg, setLock_newWord, setLock_reg_eq]
      by_cases hz : g.rwi = 0
      · simp [hz, a, mixWord_zero]
      · simp [hz, a]
    · rw [Keeps.reg hbell rfl, writeFields_reg, if_neg (fun e => hne e.1), setLock_reg_eq]
    · cases hz : s.gen.freeze <;> simp [copies, hz, hstaged, hheld, hne, a]
      all_goals exact fun o ho _ hn => absurd ho hn
    · rw [hstaged, hheld]
      simp [hne, hnm, a]
    · rw [Keeps.unlocked hbell rfl, Keeps.unlocked hfields rfl, setLock_unlocked, if_pos rfl]
    · exact Keeps.step hbell rfl (Keeps.step hfields rfl (Keeps.mono hlock rfl))
  refine ⟨fun hz => ⟨t, ?_, hdone⟩, fun _ => ⟨t, ht, hdone⟩⟩
  subst hz
  exact ht

end Sys2Proof.Proofs.Staging

/-! SUPPORT. Writes that reach no register (R58, R59, R65, R66): what the fabric's judgement of each leaves, while nothing waits
at the fabric. -/

namespace Sys2Proof.Proofs.IgnoredWrites

open Sys2Proof.Machine Sys2Proof.Safety Sys2Proof.Laws

/-! ## Decoding an offset twice (R78) -/

theorem canonicalOff_lt {off : Nat} (h : off < 0x400000) : canonicalOff off < 0x400000 := by
  unfold canonicalOff
  split <;> omega

theorem canonicalOff_idem (off : Nat) : canonicalOff (canonicalOff off) = canonicalOff off := by
  unfold canonicalOff
  by_cases h : 0x100000 ≤ off ∧ off < 0x122000
  · rw [if_pos h, if_pos (by omega)]
    omega
  · rw [if_neg h, if_neg h]

theorem decodedOff_mod (off : Nat) : decodedOff off % 0x400000 = canonicalOff (off % 0x400000) := by
  have := canonicalOff_lt (Nat.mod_lt off (show 0 < 0x400000 by decide))
  unfold decodedOff
  omega

theorem decodedOff_mod_eight (off : Nat) : decodedOff off % 8 = off % 8 := by
  unfold decodedOff canonicalOff
  split <;> omega

theorem decodedOff_low {off : Nat} (h : off < 0x200000) : decodedOff off = canonicalOff off ∧ canonicalOff off < 0x200000 := by
  have hin : off % 0x400000 = off := by omega
  have hz : off / 0x400000 = 0 := by omega
  rw [decodedOff, hin, hz]
  unfold canonicalOff
  constructor <;> split <;> omega

/-! ## The judgement -/

theorem accept_nonowner {s : State} {p : Path} (h : s.isOwner p = false) (off size : Nat) (val : Word) (f : Bool) :
    s.accept p off size val f = (s.count Reg.genNonownerWrites, none) := by
  simp [State.accept, h]

/-- A write that is not 64 bits wide, not aligned, or of no register. -/
theorem accept_malformed {s : State} {p : Path} (h : s.isOwner p = true) {off size : Nat}
    (hbad : size ≠ 8 ∨ off % 8 ≠ 0 ∨ regAt (canonicalOff (off % 0x400000)) = none) (val : Word) (f : Bool) :
    s.accept p off size val f = ((s.setLock p false).count Reg.genBadAccess, none) := by
  unfold State.accept
  dsimp only
  rw [h, if_neg (by decide)]
  split
  · rfl
  · rename_i hplaced
    have hr : regAt (canonicalOff (off % 0x400000)) = none := by tauto
    rw [hr]

/-- A write of a guarded register by a path whose lock is armed. -/
theorem accept_guarded {s : State} {p : Path} (h : s.isOwner p = true) (hlock : s.unlocked p = false) {off i : Nat} {g : RegGroup}
    (hlt : off < 0x200000) (h8 : off % 8 = 0) (hr : regAt (canonicalOff off) = some (g, i)) (hg : g.guarded = true) (val : Word)
    (f : Bool) : s.accept p off 8 val f = (((s.setLock p false).count Reg.genGuardRefused).raise 2, none) := by
  unfold State.accept
  dsimp only
  have hin : off % 0x400000 = off := by omega
  rw [h, if_neg (by decide), if_neg (by omega), hin, hr]
  simp [hg, hlock]

/-- What the fabric does not take is over at once, while nothing waits there. -/
theorem busWrite_ignored {s t : State} {p : Path} {off size : Nat} {val : Word} {f : Bool} (hw : s.regs.waiting = [])
    (h : s.accept p (decodedOff off) size val f = (t, none)) : s.busWrite p off size val f = .next t := by
  simp [State.busWrite, State.arrive, State.mustWait, State.meetsBad, State.performPosted, h, hw]

/-- Settles O6: each kind of write is one branch of the fabric's judgement. -/
theorem writeIgnored : Obligations.WriteIgnored := by
  intro p off size val s hw
  refine ⟨fun h => busWrite_ignored hw (accept_nonowner h _ _ _ _), fun h hbad => busWrite_ignored hw (accept_malformed h ?_ _ _),
    fun h hlock hlt h8 g i hr hg => busWrite_ignored hw ?_⟩
  · rwa [decodedOff_mod_eight, decodedOff_mod, canonicalOff_idem]
  · obtain ⟨heq, hlow⟩ := decodedOff_low hlt
    exact accept_guarded h hlock (heq ▸ hlow) (by rw [decodedOff_mod_eight, h8]) (by rw [heq, canonicalOff_idem, hr]) hg _ _

end Sys2Proof.Proofs.IgnoredWrites

/-! SUPPORT. Snapshots of the counters (R69 to R71), and the parity of the registers' copies with the reload that mends them
(R72 to R74). -/

namespace Sys2Proof.Proofs.Snapshots

open Sys2Proof.Machine Sys2Proof.Safety Sys2Proof.Laws Sys2Proof.Proofs.RegisterBehaviour

/-! ## Snapshots -/

theorem regAt_genSnap : regAt Reg.genSnap = some ({ base := 0x20, wc := 3 }, 0) := by decide

/-- TAKE written to GEN.SNAP asks for a snapshot after the fabric has armed the lock. -/
theorem write_snapTake {s : State} {p : Path} {val : Word} (h : canWrite s p Reg.genSnap val = true) (hb : val.bit 0 = true) :
    exec (.genSnapTake p val) s = .next (((s.setLock p false).clearLost p Reg.genSnap).snapshot false (val.bit 1)) := by
  refine (write_reaches_wc regAt_genSnap rfl rfl (by decide) rfl (by decide) rfl h rfl).trans ?_
  simp [State.writeEffect, State.genEffect, Reg.genSnap, Reg.genUnlock, Reg.genOwner, hb]

theorem snapshot_idle {s : State} (h : s.gen.snapBusy = false) (auto clear : Bool) :
    s.snapshot auto clear = s.snapStrobe auto (!auto) clear := by
  simp [State.snapshot, h]

/-- A write's snapshot is held while another that a write asked for is in progress. -/
theorem snapshot_held {s : State} (h : s.gen.snapBusy = true) (hw : s.gen.snapWrite = true) (clear : Bool) :
    s.snapshot false clear = { s with gen := { s.gen with snapHeld := s.gen.snapHeld ++ [clear] } } := by
  simp [State.snapshot, h, hw]

/-- The holding registers move into the RS registers, and SEQ counts. -/
def snapDone (s : State) : State :=
  { s with
    gen := { s.gen with snapBusy := false, snapSeq := s.gen.snapSeq + 1 }
    regs := { s.regs with visible := s.regs.holding, holding := [] } }

theorem keeps_snapDone (s : State) : Keeps [.snap, .snapCopies] s (snapDone s) :=
  Keeps.with_gen_regs (.inr ⟨rfl, rfl, rfl, rfl, rfl, rfl, rfl, rfl, rfl⟩) (.inr ⟨rfl, rfl, rfl⟩)
    (.inr ⟨rfl, rfl, rfl, rfl, rfl⟩) (.inl rfl) (.inr rfl) (.inr rfl) (.inr rfl) (.inr rfl) (.inl rfl)
    (.inr ⟨rfl, rfl, rfl⟩) (.inr ⟨rfl, rfl, rfl, rfl, rfl, rfl, rfl⟩) (.inr ⟨rfl, rfl, rfl⟩) (Keeps.refl _ _)

theorem snapshotComplete_last {s : State} (hb : s.gen.snapBusy = true) (hh : s.gen.snapHeld = []) :
    exec .snapshotComplete s = .next (snapDone s) := by
  simp [exec, execSnapshotComplete, hb, hh, snapDone]

/-- Where a snapshot is held, the next begins. -/
theorem snapshotComplete_held {s : State} {c : Bool} {r : List Bool} (hb : s.gen.snapBusy = true)
    (hh : s.gen.snapHeld = c :: r) :
    exec .snapshotComplete s =
      .next (State.snapStrobe { snapDone s with gen := { (snapDone s).gen with snapHeld := r } } true true c) := by
  simp [exec, execSnapshotComplete, hb, hh, snapDone]

/-! ## Parity -/

/-- What the parity of the copies speaks of is the same in both states. -/
def SameCopies (s t : State) : Prop :=
  t.regs.badInForce = s.regs.badInForce ∧ t.regs.stagedLost = s.regs.stagedLost ∧
  t.regs.parityInForce = s.regs.parityInForce ∧ t.regs.parityAddr = s.regs.parityAddr ∧
  t.regs.staged = s.regs.staged ∧ t.regs.held = s.regs.held ∧ t.regs.upset = s.regs.upset

theorem SameCopies.refl (s : State) : SameCopies s s := ⟨rfl, rfl, rfl, rfl, rfl, rfl, rfl⟩

theorem SameCopies.trans {s t u : State} (h : SameCopies s t) (k : SameCopies t u) : SameCopies s u := by
  obtain ⟨h1, h2, h3, h4, h5, h6, h7⟩ := h
  obtain ⟨k1, k2, k3, k4, k5, k6, k7⟩ := k
  exact ⟨k1.trans h1, k2.trans h2, k3.trans h3, k4.trans h4, k5.trans h5, k6.trans h6, k7.trans h7⟩

theorem SameCopies.of_keeps {l : List Part} {s t : State} (h : Keeps l s t) (hp : l.contains .parity = false)
    (hs : l.contains .staged = false) (hh : l.contains .held = false) : SameCopies s t :=
  ⟨Keeps.regs_badInForce h hp, Keeps.regs_stagedLost h hp, Keeps.regs_parityInForce h hp, Keeps.regs_parityAddr h hp,
    Keeps.regs_staged h hs, Keeps.regs_held h hh, Keeps.regs_upset h hp⟩

/-- The two fault sources of the parity pass, F360 and F361, allow no reaction but NONE and, F360, RELOAD (R406). -/
theorem reactOf_parity (s : State) {f : Nat} (hf : f = 360 ∨ f = 361) : s.reactOf f = 0 ∨ s.reactOf f = 3 := by
  unfold State.reactOf
  generalize s.fld (Reg.stewSrcCfg f) 39 3 = r
  obtain rfl | rfl := hf <;> by_cases h : r = 3 <;> simp [reactAllowed, h]

/-- Classifying either source marks registers for their reload at most. -/
theorem classify_parity (s : State) {f : Nat} (hf : f = 360 ∨ f = 361) (syn : Nat) : SameCopies s (s.classify f syn) := by
  have hreact : ∀ u : State, SameCopies u (u.react f (s.reactOf f) syn) := fun u => by
    obtain h | h := reactOf_parity s hf <;> rw [h] <;> exact ⟨rfl, rfl, rfl, rfl, rfl, rfl, rfl⟩
  have hopens : ((s.reactOf f == 1 || s.reactOf f == 2) && !s.coreKept f) = false := by
    obtain h | h := reactOf_parity s hf <;> simp [h]
  simp only [State.classify, hopens, Bool.false_eq_true, if_false]
  refine SameCopies.trans ?_ (.of_keeps (keeps_stewPins _) rfl rfl rfl)
  refine SameCopies.trans ?_ (.of_keeps (keeps_raise _ _) rfl rfl rfl)
  refine SameCopies.trans ?_ (.of_keeps (keeps_count _ _) rfl rfl rfl)
  exact SameCopies.trans (.of_keeps (keeps_modSrc s _ _) rfl rfl rfl) (hreact _)

/-- An event of either source leaves the copies as they are. -/
theorem unitFault_parity (s : State) {f : Nat} (hf : f = 360 ∨ f = 361) (syn : Nat) : SameCopies s (s.unitFault f syn) := by
  unfold State.unitFault State.stewEvent
  have hc := SameCopies.of_keeps (keeps_count s (Reg.stewEvents f)) rfl rfl rfl
  have hm : ∀ (u : State) (g : FaultSrc → FaultSrc), SameCopies u (u.modSrc f g) :=
    fun u g => .of_keeps (keeps_modSrc u f g) rfl rfl rfl
  split
  · dsimp only
    split
    · exact .refl s
    · split
      · exact (hm s _).trans (.of_keeps (keeps_count _ _) rfl rfl rfl)
      · split
        · exact hc.trans (hm _ _)
        · split
          · exact (hc.trans (hm _ _)).trans (classify_parity _ hf syn)
          · exact hc.trans (hm _ _)
  · exact .refl s

/-- A register that keeps a value, found bad in force. -/
theorem parityBad_inForce {s : State} {off i : Nat} {g : RegGroup} (hr : regAt off = some (g, i)) (hg : g.rw ≠ 0 ∨ g.rwi ≠ 0) :
    SameCopies { s with regs := { s.regs with
        badInForce := setInsert off s.regs.badInForce, parityInForce := true, parityAddr := off } }
      (s.parityBad (.inForce, off)) := by
  have hk : ¬ (g.rw = 0 ∧ g.rwi = 0) := by omega
  simp only [State.parityBad, hr, if_neg hk]
  exact unitFault_parity _ (.inl rfl) 0

/-- A register that keeps a value, its staged copy found bad. -/
theorem parityBad_staged {s : State} {off i : Nat} {g : RegGroup} (hr : regAt off = some (g, i)) (hg : g.rw ≠ 0 ∨ g.rwi ≠ 0) :
    SameCopies { s with regs := { s.regs with
        staged := Table.erase off s.regs.staged, stagedLost := setInsert off s.regs.stagedLost, parityAddr := off } }
      (s.parityBad (.staged, off)) := by
  have hk : ¬ (g.rw = 0 ∧ g.rwi = 0) := by omega
  simp only [State.parityBad, hr, if_neg hk]
  exact (unitFault_parity _ (.inr rfl) 0).trans (.of_keeps (keeps_raise _ _) rfl rfl rfl)

/-- The end of a pass: what goes bad later waits, and INFORCE is clear where no register is bad. -/
def scanEnd (s : State) (later : List (RegCopy × Nat)) : State :=
  if s.regs.badInForce = [] then { s with regs := { s.regs with upset := later, parityInForce := false } }
  else { s with regs := { s.regs with upset := later } }

/-- A pass that names one bad copy, with none waiting to be met. -/
theorem parityScan_one {s : State} (hu : s.regs.upset = []) (x : RegCopy × Nat) (later : List (RegCopy × Nat)) :
    exec (.parityScan [x] later) s = .next (scanEnd (s.parityBad x) later.eraseDups) := by
  simp [exec, execParityScan, hu, List.eraseDups_cons, scanEnd]

theorem parityScan_none {s : State} (hu : s.regs.upset = []) (later : List (RegCopy × Nat)) :
    exec (.parityScan [] later) s = .next (scanEnd s later.eraseDups) := by
  simp [exec, execParityScan, hu, scanEnd]

/-- What the end of a pass leaves of the copies. -/
theorem scanEnd_copies (s : State) (later : List (RegCopy × Nat)) :
    (scanEnd s later).regs.badInForce = s.regs.badInForce ∧ (scanEnd s later).regs.stagedLost = s.regs.stagedLost ∧
    (scanEnd s later).regs.parityAddr = s.regs.parityAddr ∧ (scanEnd s later).regs.staged = s.regs.staged ∧
    (scanEnd s later).regs.held = s.regs.held ∧
    (scanEnd s later).regs.parityInForce = (!s.regs.badInForce.isEmpty && s.regs.parityInForce) := by
  unfold scanEnd
  split
  · next h => simp [h]
  · next h => simp [h]

theorem keeps_scanEnd (s : State) (later : List (RegCopy × Nat)) : Keeps [.parity] s (scanEnd s later) :=
  Keeps.ite
    (Keeps.with_regs (.inr rfl) (.inr rfl) (.inr rfl) (.inr rfl) (.inr ⟨rfl, rfl⟩) (.inr ⟨rfl, rfl, rfl⟩) (.inl rfl)
      (.inr ⟨rfl, rfl, rfl⟩) (Keeps.refl _ _))
    (Keeps.with_regs (.inr rfl) (.inr rfl) (.inr rfl) (.inr rfl) (.inr ⟨rfl, rfl⟩) (.inr ⟨rfl, rfl, rfl⟩) (.inl rfl)
      (.inr ⟨rfl, rfl, rfl⟩) (Keeps.refl _ _))

/-- The rewrite of a register that awaits it, with nothing waiting behind it. -/
theorem configReload_mends {s : State} {off : Nat} (hb : off ∈ s.regs.badInForce) (hr : off ∈ s.regs.reload)
    (hw : s.regs.waiting = []) : exec (.configReload off) s = .next { s with regs := { s.regs with
      badInForce := setErase off s.regs.badInForce, reload := setErase off s.regs.reload,
      upset := s.regs.upset.filter (fun y => y != (.inForce, off)) } } := by
  simp [exec, execConfigReload, hb, hr, hw, State.replay, State.mendCopy]

/-- Settles O10: a snapshot by whether one is in progress, a parity pass by the copy it names, whose fault source leaves the
copies as they are. -/
theorem snapshotsAndParity : Obligations.SnapshotsAndParity := by
  unfold Obligations.SnapshotsAndParity
  refine ⟨⟨fun p val s hw hb => ?_, fun s hbusy => ⟨fun hh => ?_, fun c r hh => ?_⟩⟩,
    fun off i g later s hr hg hu => ⟨?_, ?_⟩, fun later s hu hbad => ?_, fun off s hbad hre hwait => ?_,
    fun p off size val s hwait => ?_⟩
  · have hk := keeps_setLock_clearLost s p false Reg.genSnap
    have hbusy := Keeps.gen_snapBusy hk rfl
    have hseq := Keeps.gen_snapSeq hk rfl
    have hvis := Keeps.regs_visible hk rfl
    refine ⟨fun h => ?_, fun h hwr => ?_⟩
    · rw [write_snapTake hw hb, snapshot_idle (hbusy.trans h)]
      refine ⟨_, rfl, rfl, Keeps.regs_counters hk rfl, hvis, ?_, hseq,
        Keeps.step (keeps_snapStrobe _ _ _ _) rfl (Keeps.mono hk rfl)⟩
      rw [← Keeps.regs_counters hk rfl]; rfl
    · rw [write_snapTake hw hb, snapshot_held (hbusy.trans h) ((Keeps.gen_snapWrite hk rfl).trans hwr)]
      refine ⟨_, rfl, ?_, hbusy.trans h, hseq, ?_⟩
      · rw [← Keeps.gen_snapHeld hk rfl]
      · exact Keeps.with_gen (.inr ⟨rfl, rfl, rfl, rfl, rfl, rfl, rfl, rfl, rfl⟩) (.inr ⟨rfl, rfl, rfl⟩)
          (.inr ⟨rfl, rfl, rfl, rfl, rfl⟩) (.inl rfl) (Keeps.mono hk rfl)
  · exact ⟨_, snapshotComplete_last hbusy hh, rfl, rfl, rfl, keeps_snapDone s⟩
  · refine ⟨_, snapshotComplete_held hbusy hh, rfl, rfl, rfl, rfl, rfl, rfl, ?_⟩
    exact Keeps.step (keeps_snapStrobe _ _ _ _) rfl
      (Keeps.with_gen (.inr ⟨rfl, rfl, rfl, rfl, rfl, rfl, rfl, rfl, rfl⟩) (.inr ⟨rfl, rfl, rfl⟩)
        (.inr ⟨rfl, rfl, rfl, rfl, rfl⟩) (.inl rfl) (Keeps.mono (keeps_snapDone s) rfl))
  · obtain ⟨h1, h2, h3, h4, h5, h6, -⟩ := parityBad_inForce (s := s) hr hg
    obtain ⟨k1, k2, k3, k4, k5, k6⟩ := scanEnd_copies (s.parityBad (.inForce, off)) later.eraseDups
    have hmem : off ∈ (s.parityBad (.inForce, off)).regs.badInForce := by rw [h1]; simp
    refine ⟨_, parityScan_one hu _ _, by rwa [k1], ?_, by rw [k3, h4],
      Keeps.step (keeps_scanEnd _ _) rfl (keeps_parityBad s _)⟩
    rw [k6, h3, List.isEmpty_eq_false_iff.mpr (List.ne_nil_of_mem hmem)]; rfl
  · obtain ⟨h1, h2, h3, h4, h5, h6, -⟩ := parityBad_staged (s := s) hr hg
    obtain ⟨k1, k2, k3, k4, k5, k6⟩ := scanEnd_copies (s.parityBad (.staged, off)) later.eraseDups
    exact ⟨_, parityScan_one hu _ _, by rw [k2, h2]; simp, by rw [k3, h4], by rw [k4, h5], by rw [k5, h6],
      Keeps.step (keeps_scanEnd _ _) rfl (keeps_parityBad s _)⟩
  · obtain ⟨k1, k2, k3, k4, k5, k6⟩ := scanEnd_copies s later.eraseDups
    exact ⟨_, parityScan_none hu _, by rw [k6, hbad]; rfl, k1.trans hbad, k2, k3, keeps_scanEnd _ _⟩
  · refine ⟨_, configReload_mends hbad hre hwait, by simp, fun o ho => by simp [ho], ?_⟩
    exact Keeps.with_regs (.inr rfl) (.inr rfl) (.inr rfl) (.inr rfl) (.inr ⟨rfl, rfl⟩) (.inr ⟨rfl, rfl, rfl⟩) (.inl rfl)
      (.inr ⟨rfl, rfl, rfl⟩) (Keeps.refl _ _)
  · exact if_pos hwait

end Sys2Proof.Proofs.Snapshots

/-! SUPPORT. The epochs' own instants (R32, R39, R42): the cut, the staging freeze and its end, and the boundary, whose work on
the epoch that ends leaves the epoch counters to the new epoch. -/

namespace Sys2Proof.Proofs.Epochs

open Sys2Proof.Machine Sys2Proof.Safety Sys2Proof.Laws

/-- The parts that the work of a boundary or a start may change before the new epoch begins. -/
def commitParts : List Part :=
  faultParts ++ [.freeze, .snap, .snapCopies, .owner, .records, .subs, .bitmaps, .halves, .cellar]

/-- The generator stops. -/
def stopNow (s : State) : State :=
  { s with gen := { s.gen with
      st := .stopped, boundaryTai := s.tai, cutDone := false, silentAt := s.time.now + s.periodNs } }

/-- What a boundary does before the generator moves on: the counts, the snapshot, the publication, the commits, and the end of
the freeze scheduled. It leaves the epoch and the clock. -/
theorem boundary_work (s : State) : ∃ u : State, Keeps commitParts s u ∧
    s.boundary = if s.gen.st = .stopping then
        (if ((stopNow u).raise 1).gen.startHeld then ((stopNow u).raise 1).epochStart else (stopNow u).raise 1)
      else (u.newEpoch .running).raise 1 := by
  unfold State.boundary
  extract_lets p lease s1 s2 s3 stopping s4 s5 g s6 g' v
  have k1 : Keeps commitParts s s1 := Keeps.mono (keeps_countIf s _ _) rfl
  have k2 : Keeps commitParts s s2 := Keeps.step (keeps_countDeferred s1 _) rfl k1
  have k3 : Keeps commitParts s s3 := Keeps.ite (Keeps.step (keeps_snapshot s2 _ _) rfl k2) k2
  have k4 : Keeps commitParts s s4 := Keeps.step (keeps_publish s3 _ _) rfl k3
  have k5 : Keeps commitParts s s5 := Keeps.step (keeps_openCommits _) rfl (Keeps.step (keeps_commitPoint s4 _ _) rfl k4)
  clear_value s5
  have k6 : Keeps commitParts s s6 := by
    refine Keeps.with_gen (.inr ?_) (.inl rfl) (.inr ?_) (.inl rfl) k5
    · exact ⟨rfl, rfl, rfl, rfl, rfl, rfl, rfl, rfl, rfl⟩
    · exact ⟨rfl, rfl, rfl, rfl, rfl⟩
  refine ⟨s6, k6, ?_⟩
  have hv : v = (stopNow s6).raise 1 := rfl
  clear_value v s6
  simp only [stopping, Keeps.gen_st k3 rfl, decide_eq_true_eq, hv]

/-- A boundary after the epoch's cut. -/
theorem epochBoundary_at {s : State} (hr : s.gen.st ≠ .stopped) (hc : s.gen.cutDone = true) :
    exec .epochBoundary s = .next (s.advanceTo s.gen.nextAt).boundary := by
  simp [exec, execEpochBoundary, State.epochsRun, hr, hc]

theorem boundary_newEpoch {s : State} (h : s.gen.st ≠ .stopping) :
    s.boundary.gen.st = .running ∧ s.boundary.gen.epochNum = s.gen.epochNum + 1 ∧
    s.boundary.gen.epochStart = s.time.now ∧ s.boundary.time.now = s.time.now ∧ s.boundary.gen.cutDone = false := by
  obtain ⟨u, hu, he⟩ := boundary_work s
  rw [he, if_neg h]
  have hr := keeps_raise (u.newEpoch .running) 1
  refine ⟨Keeps.gen_st hr rfl, ?_, ?_, ?_, Keeps.gen_cutDone hr rfl⟩
  · rw [Keeps.gen_epochNum hr rfl, ← Keeps.gen_epochNum hu rfl]; rfl
  · rw [Keeps.gen_epochStart hr rfl, ← Keeps.time_now hu rfl]; rfl
  · rw [Keeps.time_now hr rfl, ← Keeps.time_now hu rfl]; rfl

theorem boundary_stops {s : State} (h : s.gen.st = .stopping) (hh : s.gen.startHeld = false) :
    s.boundary.gen.st = .stopped ∧ s.boundary.gen.epochNum = s.gen.epochNum ∧ s.boundary.time.now = s.time.now := by
  obtain ⟨u, hu, he⟩ := boundary_work s
  have hr := keeps_raise (stopNow u) 1
  have hheld : ((stopNow u).raise 1).gen.startHeld = false :=
    (Keeps.gen_startHeld hr rfl).trans ((Keeps.gen_startHeld hu rfl).trans hh)
  rw [he, if_pos h, if_neg (by simp [hheld])]
  have hst := Keeps.gen_st hr rfl
  have hnum := Keeps.gen_epochNum hr rfl
  have hnow := Keeps.time_now hr rfl
  have hnum' := Keeps.gen_epochNum hu rfl
  have hnow' := Keeps.time_now hu rfl
  exact ⟨hst, hnum.trans hnum', hnow.trans hnow'⟩

/-- The cut takes the TAI of its instant and leaves the epoch's number. -/
theorem doCut_gen (s : State) :
    s.doCut.gen.cutDone = true ∧ s.doCut.gen.cutTai = s.doCut.tai ∧ s.doCut.gen.epochNum = s.gen.epochNum := by
  have hk := Keeps.gen_epochNum (keeps_crierCut s) rfl
  unfold State.doCut
  generalize s.crierCut = u at hk
  exact ⟨rfl, rfl, hk⟩

/-- Settles O11: each of the four commands by its condition; the boundary by what its work leaves. -/
theorem epochs : Obligations.Epochs := by
  unfold Obligations.Epochs
  refine ⟨fun s => ⟨fun hr hc => ?_, fun hr hc hf => ?_, fun n hn => ?_⟩, fun s hc => ⟨fun hst => ?_, fun hst hh => ?_⟩⟩
  · have he : exec .cut s = .next (s.advanceTo (s.gen.nextAt - 50000)).doCut := by simp [exec, execCut, hr, hc]
    have hnow := Keeps.time_now (keeps_doCut (s.advanceTo (s.gen.nextAt - 50000))) rfl
    obtain ⟨hdone, htai, hnum⟩ := doCut_gen (s.advanceTo (s.gen.nextAt - 50000))
    exact ⟨_, he, hdone, hnow, htai, hnum, Keeps.mono (keeps_execCut s _ he) rfl⟩
  · have he : exec .stagingFreeze s = .next { s.advanceTo (s.gen.nextAt - 1000) with
        gen := { (s.advanceTo (s.gen.nextAt - 1000)).gen with freeze := true } } := by
      simp [exec, execStagingFreeze, hr, hc, hf]
    exact ⟨_, he, rfl, rfl, Keeps.mono (keeps_execStagingFreeze s _ he) rfl⟩
  · have he : exec .freezeEnd s = .next (s.advanceTo n).thaw := by simp [exec, execFreezeEnd, hn]
    exact ⟨_, he, rfl, rfl, rfl, rfl, Keeps.mono (keeps_execFreezeEnd s _ he) rfl⟩
  · have he := epochBoundary_at (s := s) (by obtain h | h := hst <;> simp [h]) hc
    obtain ⟨h1, h2, h3, h4, h5⟩ := boundary_newEpoch (s := s.advanceTo s.gen.nextAt) (by obtain h | h := hst <;> simp [h])
    exact ⟨_, he, h1, h2, h3, h4, h5, keeps_execEpochBoundary s _ he⟩
  · have he := epochBoundary_at (s := s) (by simp [hst]) hc
    obtain ⟨h1, h2, h3⟩ := boundary_stops (s := s.advanceTo s.gen.nextAt) hst hh
    exact ⟨_, he, h1, h2, h3, keeps_execEpochBoundary s _ he⟩

end Sys2Proof.Proofs.Epochs

/-! SUPPORT. GEN.EPOCH_CTL (R43, R52, R53): what its fields hold after a write, and what RUN does in each state of the
generator. -/

namespace Sys2Proof.Proofs.EpochControl

open Sys2Proof.Machine Sys2Proof.Safety Sys2Proof.Laws Sys2Proof.Proofs.RegisterBehaviour

/-! ## What the write leaves in the register -/

/-- GEN.EPOCH_CTL: RUN and HOLD are RWI, the other fields RW, two of them ranged. -/
def epochCtlGroup : RegGroup :=
  { base := 0x100, rw := 0x7f0fff0002, rwi := 5, live := 18446743527980335096, reset := 12890144768
    clamps := [{ lo := 32, len := 7, min := 2, max := 64, zero := false },
      { lo := 16, len := 12, min := 1, max := 4000, zero := false }] }

theorem regAt_epochCtl : regAt Reg.genEpochCtl = some (epochCtlGroup, 0) := by decide

/-- What the fabric leaves of a write that has reached GEN.EPOCH_CTL. -/
def epochCtlWritten (s : State) (p : Path) (val : Word) : State :=
  (s.setLock p false).writeFields { path := p, off := Reg.genEpochCtl, op := .plain, val := val, flashOk := true } epochCtlGroup

theorem keeps_epochCtlWritten (s : State) (p : Path) (val : Word) :
    Keeps [.locks, .inForce, .staged, .held, .counters, .parity] s (epochCtlWritten s p val) :=
  Keeps.step (keeps_writeFields _ _ _) rfl (Keeps.mono (keeps_setLock s p false) rfl)

/-- RUN and HOLD read what was written. -/
theorem epochCtlWritten_flag (s : State) (p : Path) (val : Word) {i : Nat} (hi : i = 0 ∨ i = 2) :
    (epochCtlWritten s p val).flag Reg.genEpochCtl i = val.bit i := by
  have hmask : (BitVec.ofNat 64 epochCtlGroup.rwi).getLsbD i = true := by obtain rfl | rfl := hi <;> decide
  have hnew : ∀ u : State, (u.newWord { path := p, off := Reg.genEpochCtl, op := .plain, val := val, flashOk := true }
      epochCtlGroup).bit i = val.bit i := fun u => by
    have hout : i < 16 := by omega
    simp only [State.newWord, epochCtlGroup, List.foldl_cons, List.foldl_nil, WriteOp.apply, afterClamp, Reg.genEpochCtl]
    rw [if_neg (by omega), if_neg (by omega), bit_clamp_out _ _ _ (by decide) (.inl hout),
      bit_clamp_out _ _ _ (by decide) (.inl (by show i < 32; omega))]
  unfold State.flag epochCtlWritten
  rw [writeFields_reg, if_pos ⟨rfl, by decide⟩, bit_mixWord hmask, hnew]

/-- A write of GEN.EPOCH_CTL that reaches it: RUN and HOLD as written are judged. -/
theorem write_epochCtl {s : State} {p : Path} {val : Word} (h : canWrite s p Reg.genEpochCtl val = true) :
    s.write p Reg.genEpochCtl val = .next ((epochCtlWritten s p val).epochCtl (s.flag Reg.genEpochCtl 2)) := by
  refine (write_reaches regAt_epochCtl rfl (by decide) rfl (by decide) h rfl).trans ?_
  simp [State.writeEffect, State.genEffect, Reg.genEpochCtl, Reg.genUnlock, Reg.genOwner, Reg.genSnap, epochCtlWritten]

/-! ## What RUN does -/

/-- HOLD released in a freeze whose boundary is still to come is late for it. -/
def noteHold (s : State) (oldHold : Bool) : State :=
  if oldHold && !s.flag Reg.genEpochCtl 2 && s.gen.freeze && s.gen.thawAt.isNone then
    { s with gen := { s.gen with holdLate := true } } else s

theorem keeps_noteHold (s : State) (oldHold : Bool) : Keeps [.freeze] s (noteHold s oldHold) :=
  Keeps.ite (Keeps.with_gen (.inr ⟨rfl, rfl, rfl, rfl, rfl, rfl, rfl, rfl, rfl⟩) (.inl rfl)
    (.inr ⟨rfl, rfl, rfl, rfl, rfl⟩) (.inr ⟨rfl, rfl, rfl, rfl, rfl, rfl, rfl⟩) (Keeps.refl _ _)) (Keeps.refl _ _)

/-- What RUN does in each state of the generator. -/
def actOnRun (s : State) : State :=
  if s.flag Reg.genEpochCtl 0 then
    match s.gen.st with
    | .stopped => s.epochStart
    | .stopping => { s with gen := { s.gen with startHeld := true } }
    | .starting | .running => s
  else
    match s.gen.st with
    | .starting | .running => { s with gen := { s.gen with st := .stopping } }
    | .stopping => { s with gen := { s.gen with startHeld := false } }
    | .stopped => s

theorem epochCtl_eq (s : State) (hold : Bool) : s.epochCtl hold = actOnRun (noteHold s hold) := rfl

theorem actOnRun_start {s : State} (hr : s.flag Reg.genEpochCtl 0 = true) (hst : s.gen.st = .stopped) :
    actOnRun s = s.epochStart := by
  unfold actOnRun
  rw [if_pos hr, hst]

/-- A generator that runs and is told to stop. -/
theorem actOnRun_stop {s : State} (hr : s.flag Reg.genEpochCtl 0 = false) (hst : s.gen.st = .starting ∨ s.gen.st = .running) :
    actOnRun s = { s with gen := { s.gen with st := .stopping } } := by
  unfold actOnRun
  rw [if_neg (by simp [hr])]
  obtain h | h := hst <;> rw [h]

/-- A generator that runs and is told to run. -/
theorem actOnRun_run {s : State} (hr : s.flag Reg.genEpochCtl 0 = true) (hst : s.gen.st = .starting ∨ s.gen.st = .running) :
    actOnRun s = s := by
  unfold actOnRun
  rw [if_pos hr]
  obtain h | h := hst <;> rw [h]

/-- The start instant: what commits there leaves the epoch to the new epoch (R52). -/
theorem epochStart_gen (s : State) :
    s.epochStart.gen.st = .starting ∧ s.epochStart.gen.epochNum = s.gen.epochNum + 1 ∧
    s.epochStart.gen.epochStart = s.time.now ∧ s.epochStart.gen.boundaryTai = s.epochStart.tai := by
  unfold State.epochStart
  extract_lets s1 s2 g s3
  have k1 : Keeps (faultParts ++ [.snap, .snapCopies]) s s1 := Keeps.mono (keeps_countDeferred s _) rfl
  have k2 : Keeps (faultParts ++ [.snap, .snapCopies]) s s2 := Keeps.ite (Keeps.step (keeps_snapshot s1 _ _) rfl k1) k1
  clear_value s2
  have hnum : s3.gen.epochNum = s.gen.epochNum := (Keeps.gen_epochNum k2 rfl :)
  have hnow : s3.time.now = s.time.now := (Keeps.time_now k2 rfl :)
  clear_value s3
  have kc := keeps_commitPoint s3 .start (s3.gen.epochNum + 1)
  have hnum' := (Keeps.gen_epochNum kc rfl).trans hnum
  have hnow' := (Keeps.time_now kc rfl).trans hnow
  generalize s3.commitPoint .start (s3.gen.epochNum + 1) = u at hnum' hnow'
  have hr := keeps_raise (u.newEpoch .starting) 1
  rw [Keeps.gen_st hr rfl, Keeps.gen_epochNum hr rfl, Keeps.gen_epochStart hr rfl, Keeps.gen_boundaryTai hr rfl,
    Keeps.tai hr rfl rfl, ← hnum', ← hnow']
  exact ⟨rfl, rfl, rfl, rfl⟩

/-- Settles O12: RUN and HOLD read what was written, and the generator's state decides. -/
theorem epochControl : Obligations.EpochControl := by
  intro p val s h
  have hw := keeps_epochCtlWritten s p val
  have hn := keeps_noteHold (epochCtlWritten s p val) (s.flag Reg.genEpochCtl 2)
  have hflag : ∀ i : Nat, i = 0 ∨ i = 2 →
      (noteHold (epochCtlWritten s p val) (s.flag Reg.genEpochCtl 2)).flag Reg.genEpochCtl i = val.bit i :=
    fun i hi => (Keeps.flag hn rfl _ _).trans (epochCtlWritten_flag s p val hi)
  have he := write_epochCtl h
  rw [epochCtl_eq] at he
  have hu : Keeps [.freeze, .locks, .inForce, .staged, .held, .counters, .parity] s
      (noteHold (epochCtlWritten s p val) (s.flag Reg.genEpochCtl 2)) := Keeps.step hn rfl (Keeps.mono hw rfl)
  generalize noteHold (epochCtlWritten s p val) (s.flag Reg.genEpochCtl 2) = u at he hflag hu
  have hst := Keeps.gen_st hu rfl
  have hnum := Keeps.gen_epochNum hu rfl
  have hnow := Keeps.time_now hu rfl
  refine ⟨fun hs hb => ?_, fun hs hb => ?_, fun hs hb => ?_⟩
  · rw [actOnRun_start ((hflag 0 (.inl rfl)).trans hb) (hst.trans hs)] at he
    obtain ⟨h1, h2, h3, h4⟩ := epochStart_gen u
    rw [hnum] at h2
    rw [hnow] at h3
    exact ⟨_, he, h1, h2, h3, h4, Keeps.step (keeps_epochStart _) rfl (Keeps.mono hu rfl)⟩
  · rw [actOnRun_stop ((hflag 0 (.inl rfl)).trans hb) (hst.symm ▸ hs)] at he
    exact ⟨_, he, rfl, hnum, Keeps.with_gen (.inl rfl) (.inl rfl) (.inr ⟨rfl, rfl, rfl, rfl, rfl⟩)
      (.inr ⟨rfl, rfl, rfl, rfl, rfl, rfl, rfl⟩) (Keeps.mono hu rfl)⟩
  · rw [actOnRun_run ((hflag 0 (.inl rfl)).trans hb) (hst.symm ▸ hs)] at he
    exact ⟨_, he, hflag 2 (.inr rfl), hst, Keeps.mono hu rfl⟩

end Sys2Proof.Proofs.EpochControl

/-! SUPPORT. GEN.COMMIT, the silent boundary, and the swaps of the generations (R45, R46, R50, R51, R54). -/

namespace Sys2Proof.Proofs.Commits

open Sys2Proof.Machine Sys2Proof.Safety Sys2Proof.Laws Sys2Proof.Proofs.RegisterBehaviour Sys2Proof.Proofs.Snapshots

/-! ## What a commit checks depends on the staged copies and on the parity errors not met yet -/

/-- What a commit's check reads of the staged copies is the same in both states. -/
def SameStaged (s u : State) : Prop := u.regs.staged = s.regs.staged ∧ u.regs.upset = s.regs.upset

/-- The check of one copy finds the same in both states. -/
theorem parityBad_sameStaged {s u : State} (h : SameStaged s u) (x : RegCopy × Nat) :
    SameStaged (s.parityBad x) (u.parityBad x) := by
  obtain ⟨hst, hup⟩ := h
  have hs : ∀ {v w v' w' : State}, SameCopies v v' → SameCopies w w' → SameStaged v w → SameStaged v' w' :=
    fun hv hw h => by
      obtain ⟨-, -, -, -, v5, -, v7⟩ := hv
      obtain ⟨-, -, -, -, w5, -, w7⟩ := hw
      exact ⟨by rw [v5, w5]; exact h.1, by rw [v7, w7]; exact h.2⟩
  have hf : ∀ v : State, SameCopies v ((v.unitFault 361 0).raise 2) := fun v =>
    (unitFault_parity v (.inr rfl) 0).trans (.of_keeps (keeps_raise _ _) rfl rfl rfl)
  unfold State.parityBad
  split
  · exact ⟨hst, hup⟩
  · split
    · exact ⟨hst, hup⟩
    · split
      · exact hs (unitFault_parity _ (.inl rfl) 0) (unitFault_parity _ (.inl rfl) 0) ⟨hst, hup⟩
      · exact hs (hf _) (hf _) ⟨by simp only [hst], hup⟩
      · exact hs (hf _) (hf _) ⟨hst, hup⟩

theorem touchCopy_sameStaged {s u : State} (h : SameStaged s u) (x : RegCopy × Nat) :
    SameStaged (s.touchCopy x) (u.touchCopy x) := by
  obtain ⟨hst, hup⟩ := h
  unfold State.touchCopy
  rw [hup]
  split
  · have hm : SameStaged (s.mendCopy x) (u.mendCopy x) := ⟨hst, by simp only [State.mendCopy, hup]⟩
    exact parityBad_sameStaged hm x
  · exact ⟨hst, hup⟩

theorem checkCommit_sameStaged {s u : State} (h : SameStaged s u) : SameStaged s.checkCommit u.checkCommit := by
  unfold State.checkCommit
  rw [h.1]
  generalize s.regs.staged = l
  induction l generalizing s u with
  | nil => exact h
  | cons x l ih => exact ih (touchCopy_sameStaged (touchCopy_sameStaged h _) _)

/-! ## GEN.COMMIT and GEN.SWAP -/

theorem regAt_genCommit : regAt Reg.genCommit = some ({ base := 0x130, wc := 1 }, 0) := by decide

theorem regAt_genSwap : regAt Reg.genSwap = some ({ base := 0x138, wc := 3 }, 0) := by decide

/-- What the fabric leaves of a write to a register that keeps nothing: the lock armed, a lost copy's report ended. -/
def fabric (s : State) (p : Path) (off : Nat) : State := (s.setLock p false).clearLost p off

theorem keeps_fabric (s : State) (p : Path) (off : Nat) : Keeps [.locks, .parity] s (fabric s p off) :=
  keeps_setLock_clearLost s p false off

theorem fabric_upset (s : State) (p : Path) (off : Nat) : (fabric s p off).regs.upset = s.regs.upset := by
  cases p with
  | mgmt => rfl
  | ep e => cases e <;> rfl

theorem fabric_swapNow (s : State) (p : Path) (off : Nat) : (fabric s p off).swapNow = s.swapNow := by
  cases p with
  | mgmt => rfl
  | ep e => cases e <;> rfl

theorem write_genCommit {s : State} {p : Path} {val : Word} (h : canWrite s p Reg.genCommit val = true)
    (hb : val.bit 0 = true) : exec (.genCommit p val) s = .next (fabric s p Reg.genCommit).genCommit := by
  refine (write_reaches_wc regAt_genCommit rfl rfl (by decide) rfl (by decide) rfl h rfl).trans ?_
  simp [State.writeEffect, State.genEffect, Reg.genCommit, Reg.genUnlock, Reg.genOwner, Reg.genSnap, Reg.genEpochCtl, hb, fabric]

/-- GEN.SWAP: CANCEL before REQ. -/
theorem write_genSwap {s : State} {p : Path} {val : Word} (h : canWrite s p Reg.genSwap val = true) :
    s.write p Reg.genSwap val = .next
      (if val.bit 1 then (fabric s p Reg.genSwap).cancelSwap
        else if val.bit 0 then (fabric s p Reg.genSwap).requestSwap else fabric s p Reg.genSwap) := by
  refine (write_reaches_wc regAt_genSwap rfl rfl (by decide) rfl (by decide) rfl h rfl).trans ?_
  simp [State.writeEffect, State.genEffect, Reg.genSwap, Reg.genCommit, Reg.genUnlock, Reg.genOwner, Reg.genSnap,
    Reg.genEpochCtl, fabric]

theorem genCommit_stopped {s : State} (hst : s.gen.st = .stopped) (hw : s.commitWaits = false) :
    s.genCommit = s.notBusy.manualCommit := by
  simp [State.genCommit, State.epochsRun, hst, hw]

theorem genCommit_ignored {s : State} (hst : s.gen.st ≠ .stopped) : s.genCommit = s.count Reg.genCommitIgnored := by
  simp [State.genCommit, State.epochsRun, hst]

theorem manualCommit_staged (s : State) : s.manualCommit.regs.staged = [] := by
  unfold State.manualCommit
  exact commitPoint_staged s .manual _ rfl

theorem manualCommit_lastCommit {s : State} (hs : s.checkCommit.regs.staged ≠ []) :
    s.manualCommit.gen.lastCommit = s.gen.epochNum + 1 := by
  unfold State.manualCommit
  exact commitPoint_lastCommit s .manual _ rfl hs

/-- Neither a manual commit nor a GEN.COMMIT waits. -/
def clearBusy (s : State) : State := { s with gen := { s.gen with commitBusy := false, commitHeld := false } }

/-- COMMIT_BUSY clears with no GEN.COMMIT held. -/
theorem unbusy_noHeld {s : State} (hw : s.commitWaits = false) (hh : s.gen.commitHeld = false) :
    s.unbusy = (clearBusy s).endManual := by
  simp [State.unbusy, hw, hh, clearBusy]

theorem keeps_clearBusy (s : State) :
    Keeps [.commit] s (clearBusy s) :=
  Keeps.with_gen (.inr ⟨rfl, rfl, rfl, rfl, rfl, rfl, rfl, rfl, rfl⟩) (.inr ⟨rfl, rfl, rfl⟩) (.inl rfl)
    (.inr ⟨rfl, rfl, rfl, rfl, rfl, rfl, rfl⟩) (Keeps.refl _ _)

/-- A silent boundary commits nothing that host software asked for. -/
theorem commitPoint_silent (s : State) (w : Word) : (s.commitPoint .silent w).gen.lastCommit = s.gen.lastCommit ∧
    (s.commitPoint .silent w).gen.activeGen = s.gen.activeGen := by
  have he : s.commitPoint .silent w = (s.commitUnits false [] w).commitEnds .silent false false w := by
    simp [State.commitPoint, State.hostCommits]
  have hk : Keeps (andBell [.tai, .inForce, .staged, .held, .owner, .engines, .ports, .frames, .scriv, .subs, .bitmaps, .halves,
      .lock, .rings, .cells, .cellar, .srcs, .stew, .tink, .firmware, .flash]) s (s.commitPoint .silent w) := by
    rw [he]
    exact Keeps.step (keeps_commitEnds _ _ _ _ _) rfl (keeps_commitUnits s _ _ _)
  exact ⟨Keeps.gen_lastCommit hk rfl, Keeps.gen_activeGen hk rfl⟩

theorem silentBoundary_stopped {s : State} (hst : s.gen.st = .stopped) : ∃ u : State,
    Keeps [.counters] ((s.advanceTo s.gen.silentAt).commitPoint .silent (s.gen.epochNum + 1)) u ∧
    exec .silentBoundary s = .next { u with gen := { u.gen with silentAt := s.gen.silentAt + s.periodNs } } := by
  have hr : ¬ s.epochsRun = true := by simp [State.epochsRun, hst]
  simp only [exec, execSilentBoundary, if_neg hr]
  exact ⟨_, keeps_countIf _ _ _, rfl⟩

/-- The eligible swap that a manual commit awaits. -/
theorem commitSwapEligible_due {s : State} (hst : s.gen.st = .stopped) (hb : s.gen.commitBusy = true)
    (hp : s.gen.swapPending = true) (he : s.swapEligible = true) : exec .commitSwapEligible s =
      .next ((s.swapBanks.setLastCommit (s.gen.epochNum + 1)).endSwapCommands 0 (s.gen.epochNum + 1)).unbusy := by
  simp only [exec, execCommitSwapEligible, State.epochsRun, hst, hb, hp, he, ne_eq, not_true_eq_false, decide_false, Bool.true_or,
    Bool.not_true, Bool.or_self, Bool.false_eq_true, if_false, if_true]
  rfl

/-- A pending swap withdrawn, with no GEN.COMMIT held. -/
theorem cancelSwap_pending {s : State} (hn : s.swapNow = false) (hp : s.gen.swapPending = true) (hh : s.gen.commitHeld = false) :
    s.cancelSwap.gen.swapPending = false ∧ s.cancelSwap.gen.activeGen = s.gen.activeGen ∧
    Keeps (andBell [.commit, .lock, .rings]) s s.cancelSwap := by
  have hk := keeps_endSwapCommands { s with gen := { s.gen with swapPending := false, commitBusy := false } } 9 0
  have hw : s.withdrawSwap = State.endSwapCommands { s with gen := { s.gen with swapPending := false, commitBusy := false } } 9 0 := by
    simp [State.withdrawSwap, hp]
  have hkw := keeps_withdrawSwap s
  rw [← hw] at hk
  have hpend : s.withdrawSwap.gen.swapPending = false := (Keeps.gen_swapPending hk rfl :)
  have hheld : s.withdrawSwap.gen.commitHeld = false := (Keeps.gen_commitHeld hk rfl :).trans hh
  have hgen : s.withdrawSwap.gen.activeGen = s.gen.activeGen := (Keeps.gen_activeGen hk rfl :)
  have he : s.cancelSwap = s.withdrawSwap.unbusy := by simp [State.cancelSwap, hn]
  rw [he, unbusy_noHeld (by simp [State.commitWaits, hpend]) hheld]
  generalize s.withdrawSwap = u at hpend hgen hkw ⊢
  have hm := keeps_endManual (clearBusy u)
  have hpend' := (Keeps.gen_swapPending hm rfl).trans hpend
  have hgen' := (Keeps.gen_activeGen hm rfl).trans hgen
  exact ⟨hpend', hgen', Keeps.step hm rfl (Keeps.step (keeps_clearBusy u) rfl hkw)⟩

/-- Settles O13, command by command. -/
theorem commitsAndSwaps : Obligations.CommitsAndSwaps := by
  unfold Obligations.CommitsAndSwaps
  refine ⟨⟨fun p val s h hb => ⟨fun hst hw => ?_, fun hst => ?_⟩, fun s hst => ?_⟩, fun p val s h hb hc => ⟨fun hbad => ?_, fun hbad => ?_⟩,
    fun p val s h hc => ⟨fun hn hp hh => ?_, fun hn => ?_⟩, fun s hst hb hp he hh => ?_⟩
  · have hk := keeps_fabric s p Reg.genCommit
    have hst' := (Keeps.gen_st hk rfl).trans hst
    have hw' : (fabric s p Reg.genCommit).commitWaits = false := by
      rw [State.commitWaits, Keeps.gen_commitBusy hk rfl, Keeps.gen_swapPending hk rfl]; exact hw
    have hsame : SameStaged s (fabric s p Reg.genCommit).notBusy := ⟨(Keeps.regs_staged hk rfl :), fabric_upset s p _⟩
    have he := write_genCommit h hb
    rw [genCommit_stopped hst' hw'] at he
    have hkb : Keeps [.locks, .parity, .commit] s (fabric s p Reg.genCommit).notBusy :=
      Keeps.step (keeps_notBusy _) rfl (Keeps.mono hk rfl)
    generalize (fabric s p Reg.genCommit).notBusy = u at he hkb hsame
    have hkm := keeps_manualCommit u
    refine ⟨_, he, ?_, ?_, fun hne => ?_, manualCommit_staged u, Keeps.step hkm rfl (Keeps.mono hkb rfl)⟩
    · rw [Keeps.gen_st hkm rfl, Keeps.gen_st hkb rfl, hst]
    · rw [Keeps.gen_epochNum hkm rfl, Keeps.gen_epochNum hkb rfl]
    · rw [← Keeps.gen_epochNum hkb rfl]
      exact manualCommit_lastCommit (by rw [(checkCommit_sameStaged hsame).1]; exact hne)
  · have hk := keeps_fabric s p Reg.genCommit
    have he := write_genCommit h hb
    rw [genCommit_ignored (by rw [Keeps.gen_st hk rfl]; exact hst)] at he
    refine ⟨_, he, ?_, Keeps.step (keeps_count _ _) rfl (Keeps.mono hk rfl)⟩
    rw [count_counter, if_pos rfl, Keeps.counter hk rfl]
  · obtain ⟨u, hu, he⟩ := silentBoundary_stopped hst
    obtain ⟨hlast, hact⟩ := commitPoint_silent (s.advanceTo s.gen.silentAt) (s.gen.epochNum + 1)
    have hnow := Keeps.time_now (keeps_commitPoint (s.advanceTo s.gen.silentAt) .silent (s.gen.epochNum + 1)) rfl
    exact ⟨_, he, rfl, (Keeps.time_now hu rfl :).trans hnow, (Keeps.gen_lastCommit hu rfl :).trans hlast,
      (Keeps.gen_activeGen hu rfl :).trans hact, keeps_execSilentBoundary s _ he⟩
  · have hk := keeps_fabric s p Reg.genSwap
    have he := write_genSwap h
    have hbad' : ((fabric s p Reg.genSwap).bank (fabric s p Reg.genSwap).inactiveGen).bad = false := by
      rw [State.inactiveGen, Keeps.gen_activeGen hk rfl, Keeps.bank hk rfl]; exact hbad
    rw [hc, hb, if_neg (by decide), if_pos rfl, State.requestSwap, if_neg (by rw [hbad']; decide)] at he
    exact ⟨_, he, rfl, (Keeps.gen_activeGen hk rfl :), Keeps.with_gen (.inr ⟨rfl, rfl, rfl, rfl, rfl, rfl, rfl, rfl, rfl⟩)
      (.inr ⟨rfl, rfl, rfl⟩) (.inl rfl) (.inr ⟨rfl, rfl, rfl, rfl, rfl, rfl, rfl⟩) (Keeps.mono hk rfl)⟩
  · have hk := keeps_fabric s p Reg.genSwap
    have he := write_genSwap h
    have hbad' : ((fabric s p Reg.genSwap).bank (fabric s p Reg.genSwap).inactiveGen).bad = true := by
      rw [State.inactiveGen, Keeps.gen_activeGen hk rfl, Keeps.bank hk rfl]; exact hbad
    rw [hc, hb, if_neg (by decide), if_pos rfl, State.requestSwap, if_pos hbad'] at he
    refine ⟨_, he, ?_, Keeps.step (keeps_count _ _) rfl (Keeps.mono hk rfl)⟩
    rw [count_counter, if_pos rfl, Keeps.counter hk rfl]
  · have hk := keeps_fabric s p Reg.genSwap
    have he := write_genSwap h
    rw [hc, if_pos rfl] at he
    obtain ⟨h1, h2, h3⟩ := cancelSwap_pending ((fabric_swapNow s p _).trans hn) ((Keeps.gen_swapPending hk rfl).trans hp)
      ((Keeps.gen_commitHeld hk rfl).trans hh)
    exact ⟨_, he, h1, h2.trans (Keeps.gen_activeGen hk rfl), Keeps.step h3 rfl (Keeps.mono hk rfl)⟩
  · have hk := keeps_fabric s p Reg.genSwap
    have he := write_genSwap h
    rw [hc, if_pos rfl, State.cancelSwap, if_pos ((fabric_swapNow s p _).trans hn)] at he
    exact ⟨_, he, Keeps.gen hk rfl rfl rfl rfl, hk⟩
  · have hx := commitSwapEligible_due hst hb hp he
    have hk := keeps_endSwapCommands (s.swapBanks.setLastCommit (s.gen.epochNum + 1)) 0 (s.gen.epochNum + 1)
    have hpend := (Keeps.gen_swapPending hk rfl :)
    have hheld := (Keeps.gen_commitHeld hk rfl :).trans hh
    have hact := (Keeps.gen_activeGen hk rfl :)
    have hlast := (Keeps.gen_lastCommit hk rfl :)
    have hwatch := (Keeps.watch_swapNo hk rfl :)
    have hframe := keeps_execCommitSwapEligible s _ hx
    generalize (s.swapBanks.setLastCommit (s.gen.epochNum + 1)).endSwapCommands 0 (s.gen.epochNum + 1) = u at hx hpend hheld hact hlast hwatch
    have hpend' : u.gen.swapPending = false := hpend
    rw [unbusy_noHeld (by simp [State.commitWaits, hpend']) hheld] at hx
    have hm := keeps_endManual (clearBusy u)
    have h1 := (Keeps.gen_activeGen hm rfl).trans hact
    have h2 := (Keeps.gen_swapPending hm rfl).trans hpend
    have h3 := (Keeps.gen_lastCommit hm rfl).trans hlast
    have h4 := Keeps.gen_commitBusy hm rfl
    have h5 := (Keeps.watch_swapNo hm rfl).trans hwatch
    generalize State.endManual _ = v at *
    exact ⟨_, hx, h1, h2, h3, h4, h5, keeps_execCommitSwapEligible s _ hx⟩

end Sys2Proof.Proofs.Commits

/-! SUPPORT. The Bell Board: what a raise, a claim, an end of interrupt and a mask do (R389 to R398). -/

namespace Sys2Proof.Proofs.BellBoard

open Sys2Proof.Machine Sys2Proof.Safety Sys2Proof.Laws

/-- The pending bit of a source set. -/
def pended (s : State) (n : Nat) : State := { s with bell := { s.bell with pend := setInsert n s.bell.pend } }

theorem sourceRaise_eq (n : Nat) (s : State) : exec (.sourceRaise n) s = .next (s.raise n) := rfl

/-- A raise of a source that is not pending sets its pending bit and serves the targets. -/
theorem raise_new {s : State} {n : Nat} (hu : sourceUsed n = true) (hn : n ∉ s.bell.pend) :
    s.raise n = (pended s n).bellService := by
  simp [State.raise, hu, hn, pended]

theorem raise_pending {s : State} {n : Nat} (hu : sourceUsed n = true) (hn : n ∈ s.bell.pend) :
    s.raise n = s.count Reg.bellCoalesced := by
  simp [State.raise, hu, hn]

/-- What is no register write, sent while nothing waits, is performed at once. -/
theorem arrive_now {s : State} {x : Posted} (hx : s.meetsBad x = false) (hw : s.regs.waiting = []) :
    s.arrive x = s.performPosted x := by
  simp [State.arrive, State.mustWait, hx, hw]

theorem bellClaim_best {s : State} {t n : Nat} (h : s.bestSource t = some n) :
    (s.bellClaim t).1.bell = { s.bell with
      pend := setErase n s.bell.pend
      stack := Table.set (fun _ => []) s.bell.stack t ((n, s.bellPrio n) :: s.bellStack t)
      signalled := setErase t s.bell.signalled } ∧
    (s.bellClaim t).2 = pack [(0, n), (16, s.bellPrio n), (24, (s.bellStack t).length + 1)] := by
  simp only [State.bellClaim, h, and_self]

theorem bellClaim_spurious {s : State} {t : Nat} (h : s.bestSource t = none) :
    s.bellClaim t = ({ s.count (Reg.bellSpurious t) with bell := { s.bell with signalled := setErase t s.bell.signalled } },
      pack [(24, (s.bellStack t).length)]) := by
  simp only [State.bellClaim, h]

/-- The stack of a target as an end of interrupt leaves it. -/
def popped (s : State) (t : Nat) (r : List (Nat × Nat)) : State :=
  { s with bell := { s.bell with stack := Table.set (fun _ => []) s.bell.stack t r } }

theorem bellEoi_found {s : State} {t n : Nat} {r : List (Nat × Nat)} (h : stackRemove n (s.bellStack t) = some r) :
    s.bellEoi t n = (popped s t r).bellService := by
  simp only [State.bellEoi, h, popped]

theorem bellSetMask_masked (s : State) (t : Nat) (m : Bool) :
    (s.bellSetMask t m).bell.masked = if m then setInsert t s.bell.masked else setErase t s.bell.masked := by
  unfold State.bellSetMask
  rw [(served_bellService _).masked]

theorem bellSetMask_pend (s : State) (t : Nat) (m : Bool) : (s.bellSetMask t m).bell.pend = s.bell.pend := by
  unfold State.bellSetMask
  rw [(served_bellService _).pend]

/-- What a claim sends out follows what was sent before it. -/
theorem bellClaim_out (s : State) (t : Nat) : (s.bellClaim t).1.out = s.out := Keeps.out (keeps_bellClaim s t) rfl

/-- Settles O14, command by command. -/
theorem bellBoard : Obligations.BellBoard := by
  unfold Obligations.BellBoard
  refine ⟨fun n s hu => ⟨fun hn => ?_, fun hn => ?_⟩, fun e l s _ hw => ⟨fun n hb => ?_, fun hb => ?_⟩,
    fun e l val s _ hw => ⟨fun r hr => ?_, fun hr => ?_, ?_⟩⟩
  · have hs := served_bellService (pended s n)
    have hk := keeps_raise s n
    rw [raise_new hu hn] at hk
    exact ⟨_, (sourceRaise_eq n s).trans (congrArg _ (raise_new hu hn)), hs.pend, hs.stack, hk⟩
  · exact ⟨_, (sourceRaise_eq n s).trans (congrArg _ (raise_pending hu hn)), by rw [count_counter, if_pos rfl], rfl,
      keeps_count _ _⟩
  · obtain ⟨hbell, hval⟩ := bellClaim_best hb
    have he : exec (.bellClaim e l) s =
        .next ((s.bellClaim (targetOf e l)).1.emit (.claim e (s.bellClaim (targetOf e l)).2)) := arrive_now rfl hw
    have hk := keeps_bellClaim s (targetOf e l)
    refine ⟨_, he, ?_, ?_, ?_, ?_, Keeps.step (keeps_emit _ _) rfl (Keeps.mono hk rfl)⟩
    · exact congrArg (·.pend) hbell
    · show Table.get _ (s.bellClaim (targetOf e l)).1.bell.stack _ = _
      rw [hbell, get_set, if_pos rfl]
    · show _ ∉ (s.bellClaim (targetOf e l)).1.bell.signalled
      rw [hbell]
      simp
    · show _ :: (s.bellClaim (targetOf e l)).1.out = _
      rw [hval, bellClaim_out]
  · have he : exec (.bellClaim e l) s =
        .next ((s.bellClaim (targetOf e l)).1.emit (.claim e (s.bellClaim (targetOf e l)).2)) := arrive_now rfl hw
    have hk := Keeps.step (m := [.bell, .counters, .out]) (keeps_emit (s.bellClaim (targetOf e l)).1
      (.claim e (s.bellClaim (targetOf e l)).2)) rfl (Keeps.mono (keeps_bellClaim s (targetOf e l)) rfl)
    rw [bellClaim_spurious hb] at he hk
    refine ⟨_, he, rfl, rfl, ?_, rfl, hk⟩
    show (s.count (Reg.bellSpurious (targetOf e l))).counter _ = _
    rw [count_counter, if_pos rfl]
  · have he : exec (.bellEoi e l val) s = .next (s.bellEoi (targetOf e l) val.toNat) := arrive_now rfl hw
    have hk := keeps_bellEoi s (targetOf e l) val.toNat
    rw [bellEoi_found hr] at he hk
    have hs := served_bellService (popped s (targetOf e l) r)
    refine ⟨_, he, ?_, hs.pend, hk⟩
    rw [State.bellStack, hs.stack, popped, get_set, if_pos rfl]
  · have he : exec (.bellEoi e l val) s = .next (s.bellEoi (targetOf e l) val.toNat) := arrive_now rfl hw
    simpa only [State.bellEoi, hr] using he
  · have he : exec (.bellMask e l val) s = .next (s.bellSetMask (targetOf e l) (val.bit 0)) := arrive_now rfl hw
    exact ⟨_, he, bellSetMask_masked _ _ _, bellSetMask_pend _ _ _, keeps_bellSetMask _ _ _⟩

end Sys2Proof.Proofs.BellBoard

/-! SUPPORT. The Bell Board's registers (R389, R390, R397), and the message of a target that a raise signals (R391 to R393). -/

namespace Sys2Proof.Proofs.BellRegisters

open Sys2Proof.Machine Sys2Proof.Safety Sys2Proof.Laws Sys2Proof.Proofs.RegisterBehaviour Sys2Proof.Proofs.BellBoard

theorem regAt_bellPendClr : regAt Reg.bellPendClr = some ({ base := 0x10180, wc := 511 }, 0) := by decide

/-- BELL.CTL: GDIS. -/
def bellCtlGroup : RegGroup := { base := 0x10000, rwi := 1, live := 0xfffffffffffffffe }

theorem regAt_bellCtl : regAt Reg.bellCtl = some (bellCtlGroup, 0) := by decide

/-- BELL.SRC_CFG of the sources: EN is RWI, target and priority RW. -/
def srcCfgGroup : RegGroup :=
  { base := 0x11008, stride := 0x8, count := 511, first := 1, rw := 0xf0f00, rwi := 0x1, live := 0xfffffffffff0f0fe }

/-- PEND_CLR written. -/
theorem write_bellPendClr {s : State} {p : Path} {val : Word} (h : canWrite s p Reg.bellPendClr val = true) :
    exec (.bellPendClr p val) s = .next (((s.setLock p false).clearLost p Reg.bellPendClr).bellPendClr (val.field 0 9)) := by
  refine (write_reaches_wc regAt_bellPendClr rfl rfl (by decide) rfl (by decide) rfl h rfl).trans ?_
  simp [State.writeEffect, State.unitEffect, Reg.bellPendClr, Reg.hostOwnHb, Reg.drayTxqCmd, Reg.scrivRecSel, Reg.scrivHashIn,
    Reg.lockZeroize, Reg.lockCmd, Reg.lockKmLock, Reg.lockSlotSel]

/-- A register of the Bell Board that is no PEND_CLR: the targets are served. -/
theorem writeEffect_bell {s : State} {a : Access} (h1 : 0x10000 ≤ a.off) (h2 : a.off < 0x20000) (h3 : a.off ≠ Reg.bellPendClr)
    (hold : Bool) : s.writeEffect a hold = s.bellService := by
  have hb : blockEngine a.off = none := by simp [blockEngine]; omega
  simp only [Reg.bellPendClr] at h3
  have hne : a.off ≠ Reg.scrivRecSel ∧ a.off ≠ Reg.scrivHashIn ∧ a.off ≠ Reg.lockZeroize ∧ a.off ≠ Reg.lockCmd ∧
      a.off ≠ Reg.lockKmLock ∧ a.off ≠ Reg.lockSlotSel ∧ a.off ≠ Reg.hostOwnHb ∧ a.off ≠ Reg.drayTxqCmd ∧
      a.off ≠ Reg.stewCmd ∧ a.off ≠ Reg.tinkSliceSel ∧ a.off ≠ Reg.xcvrCmd ∧ a.off ≠ Reg.bellPendClr := by
    simp only [Reg.scrivRecSel, Reg.scrivHashIn, Reg.lockZeroize, Reg.lockCmd, Reg.lockKmLock, Reg.lockSlotSel, Reg.hostOwnHb,
      Reg.drayTxqCmd, Reg.stewCmd, Reg.tinkSliceSel, Reg.xcvrCmd, Reg.bellPendClr]
    omega
  have hw : ¬ (0x80000 ≤ a.off ∧ a.off < 0xA0000) := by omega
  have hc : ¬ (0xC0000 ≤ a.off ∧ a.off < 0xD0000) := by omega
  simp [State.writeEffect, State.unitEffect, hb, hne, hw, hc, h1, h2, show ¬ a.off < 0x10000 by omega]

/-- What the fabric and the service leave of a write whose RWI field is bit 0 alone. -/
theorem write_enable {s : State} {p : Path} {off i : Nat} {val : Word} {g : RegGroup} (hr : regAt off = some (g, i))
    (hg : g.rwi = 1) (hc : g.clamps = []) (h1 : 0x10000 ≤ off) (h2 : off < 0x20000) (h8 : off % 8 = 0)
    (h3 : off ≠ Reg.bellPendClr) (h : canWrite s p off val = true) :
    ∃ u : State, s.write p off val = .next u.bellService ∧ u.flag off 0 = val.bit 0 ∧ u.bell = s.bell ∧
      u = (s.setLock p false).writeFields { path := p, off := off, op := .plain, val := val, flashOk := true } g := by
  have ht : g.takes .plain = true := by simp [RegGroup.takes, hg]
  have hl : s.lcDataLocked off = false := by
    have hn : ¬ (Reg.sysLcData 0 ≤ off ∧ off ≤ Reg.sysLcData 5) := by simp only [Reg.sysLcData]; omega
    simp [State.lcDataLocked, hn]
  have ho : canonicalOff off = off := by rw [canonicalOff, if_neg (by omega)]
  refine ⟨_, (write_reaches hr ho (by omega) h8 ht h hl).trans (congrArg _ (writeEffect_bell h1 h2 h3 _)), ?_, ?_, rfl⟩
  · unfold State.flag
    rw [writeFields_reg, if_pos ⟨rfl, by omega⟩, bit_mixWord (by rw [hg]; decide),
      newWord_plain _ _ _ rfl hc (by show ¬ (_ ≤ off ∧ _); omega)]
  · exact Keeps.bell (Keeps.step (m := [.locks, .inForce, .staged, .held, .counters, .parity]) (keeps_writeFields _ _ g) rfl
      (Keeps.mono (keeps_setLock s p false) rfl)) rfl

theorem Served.flag {s t : State} (h : Served s t) (o a : Nat) : t.flag o a = s.flag o a := Keeps.flag h.keeps rfl o a

/-- Settles O15: what the fabric leaves of each register, and the service that follows a raise. -/
theorem bellRegistersAndMessages : Obligations.BellRegistersAndMessages := by
  unfold Obligations.BellRegistersAndMessages
  refine ⟨fun p val s => ⟨fun h => ?_, fun h => ?_, fun n h1 h2 h => ?_⟩, fun n g s hu hn hg hsig hd hus => ?_⟩
  · have hk := keeps_setLock_clearLost s p false Reg.bellPendClr
    refine ⟨_, write_bellPendClr h, ?_, Keeps.step (keeps_bellPendClr _ _) rfl (Keeps.mono hk rfl)⟩
    rw [← Keeps.bell hk rfl]
    rfl
  · obtain ⟨u, he, hf, hb, hu⟩ := write_enable regAt_bellCtl rfl rfl (by decide) (by decide) rfl (by decide) h
    have hs := served_bellService u
    have hk : Keeps [.inForce, .locks, .parity] s u := by
      rw [hu]
      exact Keeps.step (Ownership.keeps_writeFields_rwi _ _ rfl) rfl (Keeps.mono (keeps_setLock s p false) rfl)
    exact ⟨_, he, (Served.flag hs _ _).trans hf, hs.pend.trans (congrArg (·.pend) hb),
      Keeps.step hs.keeps rfl (Keeps.mono hk rfl)⟩
  · have hne : Reg.bellSrcCfg n ≠ Reg.bellPendClr := by simp only [Reg.bellSrcCfg, Reg.bellPendClr]; omega
    obtain ⟨u, he, hf, hb, hu⟩ := write_enable (regAt_bellSrcCfg n h1 h2) rfl rfl (by simp only [Reg.bellSrcCfg]; omega)
      (by simp only [Reg.bellSrcCfg]; omega) (by simp only [Reg.bellSrcCfg]; omega) hne h
    have hs := served_bellService u
    have hk : Keeps [.inForce, .staged, .held, .locks, .counters, .parity] s u := by
      rw [hu]
      exact Keeps.step (keeps_writeFields _ _ _) rfl (Keeps.mono (keeps_setLock s p false) rfl)
    exact ⟨_, he, (Served.flag hs _ _).trans hf, hs.pend.trans (congrArg (·.pend) hb),
      Keeps.step hs.keeps rfl (Keeps.mono hk rfl)⟩
  · have he := (sourceRaise_eq n s).trans (congrArg _ (raise_new hu hn))
    obtain ⟨hm, hout, hpba⟩ := bellService_signals (pended s n) g n hg hsig (by simp [pended]) hd hus
    have hr := keeps_raise s n
    rw [raise_new hu hn] at hr
    exact ⟨_, he, hm, hout, hpba, hr⟩

end Sys2Proof.Proofs.BellRegisters

/-! SUPPORT. Endpoints and host rings (R323 to R342): what the messages that follow a change leave of an endpoint and of a ring,
a change of an endpoint's conditions, and the states of a ring. -/

namespace Sys2Proof.Proofs.Rings

open Sys2Proof.Machine Sys2Proof.Safety Sys2Proof.Laws

/-! ## What follows a change leaves each endpoint but for its pending bits -/

/-- Endpoints keep all but their pending bits, and one that is not usable keeps those, too. -/
def EpStep (s t : State) : Prop :=
  ∀ d : Ep, { t.ep d with pba := 0 } = { s.ep d with pba := 0 } ∧ (s.usable d = false → t.ep d = s.ep d)

theorem EpStep.refl (s : State) : EpStep s s := fun _ => ⟨rfl, fun _ => rfl⟩

theorem EpStep.trans {s t u : State} (h : EpStep s t) (k : EpStep t u) : EpStep s u := fun d => by
  obtain ⟨h1, h2⟩ := h d
  obtain ⟨k1, k2⟩ := k d
  exact ⟨k1.trans h1, fun hu => (k2 ((usable_of_ep h1).trans hu)).trans (h2 hu)⟩

theorem EpStep.of_keeps {l : List Part} {s t : State} (h : Keeps l s t) (ha : l.contains .epA = false)
    (hb : l.contains .epB = false) : EpStep s t := fun d => by
  rw [Keeps.ep h ha hb]
  exact ⟨rfl, fun _ => rfl⟩

theorem EpStep.foldl {α : Type} {f : State → α → State} (hf : ∀ (u : State) (x : α), EpStep u (f u x)) (l : List α) (s : State) :
    EpStep s (l.foldl f s) := by
  induction l generalizing s with
  | nil => exact .refl s
  | cons a l ih => exact (hf s a).trans (ih _)

theorem raise_epStep (s : State) (n : Nat) : EpStep s (s.raise n) := fun d => ⟨raise_ep s n d, raise_away s n d⟩

theorem bellService_epStep (s : State) : EpStep s s.bellService :=
  fun d => ⟨(served_bellService s).ep d, (served_bellService s).away d⟩

theorem ringNotify_epStep (s : State) (e : Ep) (k : Nat) : EpStep s (s.ringNotify e k) := by
  unfold State.ringNotify
  dsimp only
  split
  · exact (EpStep.of_keeps (keeps_modRing s e k _) rfl rfl).trans (raise_epStep _ _)
  · exact .refl s

theorem ringWrite_epStep (s : State) (e : Ep) (k : Nat) (w : Word) (ws : List Word) : EpStep s (s.ringWrite e k w ws) := by
  unfold State.ringWrite
  exact ((EpStep.of_keeps (keeps_emit s _) rfl rfl).trans ((EpStep.of_keeps (keeps_modRing _ e k _) rfl rfl).trans
    (EpStep.of_keeps (keeps_count _ _) rfl rfl))).trans (ringNotify_epStep _ _ _)

theorem postEvent_epStep (s : State) (e : Ep) (code arg : Nat) : EpStep s (s.postEvent e code arg) := by
  unfold State.postEvent
  split
  · dsimp only
    split
    · exact (EpStep.of_keeps (keeps_modRing s e _ _) rfl rfl).trans (ringWrite_epStep _ _ _ _ _)
    · exact (EpStep.of_keeps (keeps_count s _) rfl rfl).trans (EpStep.of_keeps (keeps_modRing _ e _ _) rfl rfl)
  · exact .refl s

/-- A pending message that goes out changes its endpoint's pending bits alone, and the other endpoint not at all. -/
theorem msixFlush_ep (s : State) (e : Ep) (v : Nat) :
    { (s.msixFlush e v).ep e with pba := 0 } = { s.ep e with pba := 0 } ∧ (s.msixFlush e v).ep e.other = s.ep e.other := by
  have ho : e.other ≠ e := by cases e <;> decide
  unfold State.msixFlush
  split
  · simp [State.sendVector, ho]
  · exact ⟨rfl, rfl⟩

theorem msixFlush_epStep (s : State) (e : Ep) (v : Nat) : EpStep s (s.msixFlush e v) := fun d => by
  obtain ⟨h1, h2⟩ := msixFlush_ep s e v
  by_cases hd : d = e
  · subst hd
    refine ⟨h1, fun hu => ?_⟩
    simp [State.msixFlush, hu]
  · have hd' : d = e.other := by revert hd; cases e <;> cases d <;> decide
    rw [hd', h2]
    exact ⟨rfl, fun _ => rfl⟩

theorem msixFlushAll_epStep (s : State) (e : Ep) : EpStep s (s.msixFlushAll e) := .foldl (fun u v => msixFlush_epStep u e v) _ s

/-! ## A change of an endpoint's conditions -/

/-- What follows the loss of an endpoint leaves it as it is, but for the time of the loss. -/
theorem endpointLost_step (s : State) (e : Ep) :
    EpStep (s.modEp e (fun p => { p with downSince := s.time.now })) (s.endpointLost e) := by
  unfold State.endpointLost
  refine EpStep.trans ?_ (postEvent_epStep _ _ _ _)
  refine EpStep.trans ?_ (.of_keeps (keeps_bellEndpointLost _ _) rfl rfl)
  refine EpStep.trans ?_ (.of_keeps (keeps_captureVoid _ _) rfl rfl)
  exact .foldl (fun u k => .of_keeps (keeps_ringFail u e k 3) rfl rfl) _ _

/-- The endpoint takes the conditions of the change: all but its pending bits and the time of its loss, and the pending bits,
too, where it is not usable after it. -/
theorem endpointChange_ep (s : State) (e : Ep) (f : Endpoint → Endpoint) :
    { (s.endpointChange e f).ep e with pba := 0, downSince := 0 } = { f (s.ep e) with pba := 0, downSince := 0 } ∧
    ((f (s.ep e)).usable = false → { (s.endpointChange e f).ep e with downSince := 0 } = { f (s.ep e) with downSince := 0 }) := by
  have hep : (s.modEp e f).ep e = f (s.ep e) := by simp
  have hus : (s.modEp e f).usable e = (f (s.ep e)).usable := congrArg Endpoint.usable hep
  unfold State.endpointChange
  dsimp only
  split
  · next h =>
    have hu : (s.modEp e f).usable e = false := by
      simp only [Bool.and_eq_true, Bool.not_eq_true'] at h
      exact h.2
    obtain ⟨h1, h2⟩ := endpointLost_step (s.modEp e f) e e
    have hd : ((s.modEp e f).modEp e (fun p => { p with downSince := (s.modEp e f).time.now })).ep e =
        { f (s.ep e) with downSince := (s.modEp e f).time.now } := by simp
    have hu' : ((s.modEp e f).modEp e (fun p => { p with downSince := (s.modEp e f).time.now })).usable e = false := by
      unfold State.usable
      rw [hd]
      exact hus.symm.trans hu
    have hall := (h2 hu').trans hd
    exact ⟨congrArg (fun p => { p with pba := 0, downSince := 0 }) hall, fun _ => congrArg (fun p => { p with downSince := 0 }) hall⟩
  · split
    · next h =>
      have hu : (s.modEp e f).usable e = true := (Bool.and_eq_true _ _ ▸ h).2
      have hst : EpStep (s.modEp e f) ((((s.modEp e f).postEvent e.other 3 1).msixFlushAll e).bellService) :=
        ((postEvent_epStep _ _ _ _).trans (msixFlushAll_epStep _ _)).trans (bellService_epStep _)
      obtain ⟨h1, -⟩ := hst e
      rw [hep] at h1
      exact ⟨congrArg (fun p : Endpoint => { p with downSince := 0 }) h1, fun hn => by rw [hus, hn] at hu; cases hu⟩
    · rw [hep]
      exact ⟨rfl, fun _ => rfl⟩

/-! ## The states of a ring -/

theorem ringRunning_starts {e : Ep} {k : Nat} {s : State} (hst : (s.ring e k).st = .starting) :
    exec (.ringRunning e k) s = .next
      (let u := s.modRing e k (fun r => { r with
        st := .running, devPos := 0, hostPos := 0, phase := true, ahead := [], armed := r.deviceProduced && r.useCtl.bit 39 })
      if s.usable e && !s.stew.ringFenced.contains e then u else u.ringFail e k 3) := by
  simp only [exec, execRingRunning, hst, if_true]
  rfl

/-- A change that leaves what g sees of every ring leaves it, whichever key the ring has. -/
theorem modRing_sees {β : Type} (g : Ring → β) {f : Ring → Ring} (hf : ∀ r : Ring, g (f r) = g r) (s : State) (e : Ep) (k : Nat)
    (d : Ep) (j : Nat) : g ((s.modRing e k f).ring d j) = g (s.ring d j) := by
  simp only [State.ring, State.modRing, get_set]
  split
  · next h => rw [hf, h]
  · rfl

theorem advance_st (r : Ring) (n : Nat) : (r.advance n).st = r.st := by
  unfold Ring.advance
  split <;> rfl

/-- A notification disarms its ring and changes nothing else of any. -/
theorem ringNotify_sees {β : Type} (g : Ring → β) (hg : ∀ r : Ring, g { r with armed := false } = g r) (s : State) (e : Ep) (k : Nat)
    (d : Ep) (j : Nat) : g ((s.ringNotify e k).ring d j) = g (s.ring d j) := by
  unfold State.ringNotify
  dsimp only
  split
  · rw [Keeps.ring (keeps_raise _ _) rfl]
    exact modRing_sees g hg s e k d j
  · rfl

/-- An entry written moves its ring's position on. -/
theorem ringWrite_sees {β : Type} (g : Ring → β) (hg : ∀ r : Ring, g { r with armed := false } = g r)
    (ha : ∀ r : Ring, g (r.advance 1) = g r) (s : State) (e : Ep) (k : Nat) (w : Word) (ws : List Word) (d : Ep) (j : Nat) :
    g ((s.ringWrite e k w ws).ring d j) = g (s.ring d j) := by
  unfold State.ringWrite
  rw [ringNotify_sees g hg, Keeps.ring (keeps_count _ _) rfl, modRing_sees g ha, Keeps.ring (keeps_emit _ _) rfl]

theorem postEvent_st (s : State) (e : Ep) (code arg : Nat) (d : Ep) (j : Nat) :
    ((s.postEvent e code arg).ring d j).st = (s.ring d j).st := by
  have hm := fun (b : Bool) => modRing_sees (f := fun r => { r with evLost := b }) (fun r => r.st) (fun _ => rfl)
  unfold State.postEvent
  split
  · dsimp only
    split
    · exact (ringWrite_sees (fun r => r.st) (fun _ => rfl) (fun r => advance_st r 1) _ _ _ _ _ d j).trans (hm false s e _ d j)
    · exact (hm true _ e _ d j).trans (congrArg (·.st) (Keeps.ring (keeps_count _ _) rfl d j))
  · rfl

/-- A ring with nothing begun and no start held stops. -/
theorem ringStopComplete_stops {e : Ep} {k : Nat} {s : State} (hst : (s.ring e k).st = .stopping) (hi : (s.ring e k).idle = true)
    (hh : (s.ring e k).startHeld = false) : ∃ t : State, exec (.ringStopComplete e k) s = .next t ∧ (t.ring e k).st = .stopped := by
  simp only [exec, execRingStopComplete, hst, hi, hh, true_and, if_true, Bool.false_eq_true, if_false]
  refine ⟨_, rfl, ?_⟩
  split
  · rw [postEvent_st, modRing_ring_same]
  · rw [modRing_ring_same]

theorem ringFail_running {s : State} {e : Ep} {k : Nat} (h : (s.ring e k).st = .running) (err : Nat) :
    ((s.ringFail e k err).ring e k).st = .stopping ∧ ((s.ringFail e k err).ring e k).err = err := by
  unfold State.ringFail
  simp [h]

theorem runs_st {r : Ring} {ty : Nat} (h : r.runs ty = true) : r.st = .running := by
  simp only [Ring.runs, Bool.and_eq_true, decide_eq_true_eq] at h
  exact h.1

/-- Settles O16: the endpoint's commands by the conditions they leave, the ring's by the ring's state. -/
theorem endpointsAndRings : Obligations.EndpointsAndRings := by
  unfold Obligations.EndpointsAndRings
  refine ⟨fun e s => ⟨fun link mse bme d3 width speed bars => ?_, fun fundamental => ⟨?_, ?_⟩, ?_⟩,
    fun e k s _ => ⟨fun hst hu hf => ?_, fun hst hu => ?_, fun hst hi hh => ?_, fun hr => ?_⟩⟩
  · have hk := keeps_execEndpointUsableChange e link mse bme d3 width speed s bars _ rfl
    obtain ⟨h, -⟩ := endpointChange_ep s e (fun p => { p with
      link := link, mse := s.configServed && mse, bme := s.configServed && bme, d3 := s.configServed && d3
      bar0 := if s.configServed then bars.bar0 else p.bar0, bar2 := if s.configServed then bars.bar2 else p.bar2
      bar4 := if s.configServed then bars.bar4 else p.bar4, width := if link then width else 0, speed := if link then speed else 0 })
    exact ⟨_, rfl, congrArg (·.link) h, congrArg (·.mse) h, congrArg (·.bme) h, congrArg (·.d3) h, congrArg (·.bar0) h,
      congrArg (·.bar2) h, congrArg (·.bar4) h, congrArg (·.width) h, congrArg (·.speed) h, hk⟩
  · have hk := keeps_execEndpointReset e true s fundamental _ rfl
    obtain ⟨-, h⟩ := endpointChange_ep s e (fun p => { p with
      flr := p.flr || !fundamental, fundamental := p.fundamental || fundamental, mse := false, bme := false, d3 := false
      bar0 := 0, bar2 := 0, bar4 := 0, msix := [], pba := 0, funcMask := false })
    have h := h (by simp [Endpoint.usable])
    exact ⟨_, rfl, (congrArg Endpoint.usable h :).trans (by simp [Endpoint.usable]), congrArg (·.mse) h, congrArg (·.bme) h,
      congrArg (·.d3) h, congrArg (·.bar0) h, congrArg (·.bar2) h, congrArg (·.bar4) h, congrArg (·.msix) h, congrArg (·.pba) h,
      congrArg (·.funcMask) h, hk⟩
  · have hk := keeps_execEndpointReset e false s fundamental _ rfl
    obtain ⟨h, -⟩ := endpointChange_ep s e (fun p => { p with flr := p.flr && fundamental, fundamental := p.fundamental && !fundamental })
    exact ⟨_, rfl, congrArg (·.flr) h, congrArg (·.fundamental) h, hk⟩
  · have hk := keeps_execD3hotEntry e s _ rfl
    obtain ⟨h, -⟩ := endpointChange_ep s e (fun p => { p with d3 := true })
    exact ⟨_, rfl, (congrArg Endpoint.usable h :).trans (by simp [Endpoint.usable]), congrArg (·.d3) h, hk⟩
  · have he := ringRunning_starts hst
    simp only [hu, hf, Bool.not_false, Bool.and_self, if_true] at he
    exact ⟨_, he, by simp, by simp, by simp, by simp, keeps_execRingRunning e k s _ he⟩
  · have he := ringRunning_starts hst
    simp only [hu, Bool.false_eq_true, if_false] at he
    obtain ⟨h1, h2⟩ := ringFail_running (s := s.modRing e k (fun r => { r with
      st := .running, devPos := 0, hostPos := 0, phase := true, ahead := [], armed := r.deviceProduced && r.useCtl.bit 39 }))
      (e := e) (k := k) (by simp) 3
    exact ⟨_, he, h1, h2, keeps_execRingRunning e k s _ he⟩
  · obtain ⟨t, he, h⟩ := ringStopComplete_stops hst hi hh
    exact ⟨t, he, h, keeps_execRingStopComplete e k s _ he⟩
  · have hst : (s.ring e k).st = .running := hr.elim runs_st runs_st
    have he : exec (.ringReadFailure e k) s = .next ((s.count (Reg.hostRingMemErr e.idx k)).ringFail e k 2) := by
      have hr' : ((s.ring e k).runs 1 || (s.ring e k).runs 4) = true := by simpa using hr
      simp only [exec, execRingReadFailure, hr', if_true]
    obtain ⟨h1, h2⟩ := ringFail_running (s := s.count (Reg.hostRingMemErr e.idx k)) (e := e) (k := k) hst 2
    refine ⟨_, he, h1, h2, ?_, Keeps.mono (keeps_execRingReadFailure e k s _ he) rfl⟩
    rw [Keeps.counter (keeps_ringFail _ e k 2) rfl, count_counter, if_pos rfl]

end Sys2Proof.Proofs.Rings

/-! SUPPORT. Doorbells, completion writes and the MSI-X structures (R82, R336, R342, R393). -/

namespace Sys2Proof.Proofs.Doorbells

open Sys2Proof.Machine Sys2Proof.Safety Sys2Proof.Laws Sys2Proof.Proofs.Rings

/-- What need not wait is performed at once. -/
theorem arrive_performs {s : State} {x : Posted} (h : s.mustWait x = false) : s.arrive x = s.performPosted x := by
  simp [State.arrive, h]

/-! ## Doorbells -/

/-- An acceptable position is the host's; its ring's state stays. -/
theorem doorbell_accepted {s : State} {e : Ep} {k : Nat} {val : Word} (hk : k < 128) (h : (s.ring e k).doorbellOk val = true) :
    ((s.doorbell e k 0 val).ring e k).hostPos = val.toNat ∧ ((s.doorbell e k 0 val).ring e k).st = (s.ring e k).st := by
  have hoff : ¬ ((0 : Nat) ≠ 0 ∨ 128 ≤ k) := by omega
  simp only [State.doorbell, if_neg hoff, h, Bool.not_true, Bool.false_eq_true, if_false]
  split
  · split
    · rw [modRing_ring_same]
      exact ⟨rfl, rfl⟩
    · rw [ringNotify_sees (fun r => r.hostPos) (fun _ => rfl), ringNotify_sees (fun r => r.st) (fun _ => rfl), modRing_ring_same]
      exact ⟨rfl, rfl⟩
  · rw [modRing_ring_same]
    exact ⟨rfl, rfl⟩

theorem doorbell_bad {s : State} {e : Ep} {k : Nat} {val : Word} (hk : k < 128) (h : (s.ring e k).doorbellOk val = false) :
    s.doorbell e k 0 val = (s.count (Reg.hostRingBadDb e.idx k)).raise 10 := by
  have hoff : ¬ ((0 : Nat) ≠ 0 ∨ 128 ≤ k) := by omega
  simp only [State.doorbell, if_neg hoff, h, Bool.not_false, if_true]

theorem doorbell_elsewhere {s : State} {e : Ep} {k off : Nat} {val : Word} (h : off ≠ 0) :
    s.doorbell e k off val = s.count Reg.genBadAccess := by
  simp [State.doorbell, h]

/-! ## Completion writes -/

theorem ringNotify_out (s : State) (e : Ep) (k : Nat) {o : Out} (h : o ∈ s.out) : o ∈ (s.ringNotify e k).out := by
  unfold State.ringNotify
  dsimp only
  split
  · exact raise_out _ _ _ ((Keeps.out (keeps_modRing s e k _) rfl).symm ▸ h)
  · exact h

/-- An entry goes out at the device's position, with the phase of its round. -/
theorem ringWrite_out (s : State) (e : Ep) (k : Nat) (w : Word) (ws : List Word) :
    .ring e k (s.ring e k).devPos (withPhase (s.ring e k).phase w :: ws) ∈ (s.ringWrite e k w ws).out := by
  unfold State.ringWrite
  refine ringNotify_out _ _ _ ?_
  rw [Keeps.out (keeps_count _ _) rfl, Keeps.out (keeps_modRing _ _ _ _) rfl, emit_out]
  exact List.mem_cons_self

theorem advance_heldCq (r : Ring) (n : Nat) : (r.advance n).heldCq = r.heldCq := by
  unfold Ring.advance
  split <;> rfl

theorem completionWrite_oldest {s : State} {e : Ep} {k : Nat} {c : Completion} {r : List Completion}
    (hh : (s.ring e k).heldCq = c :: r) (hr : (s.ring e k).runs 2 = true) (hf : 0 < (s.ring e k).free) :
    exec (.completionWrite e k) s =
      .next ((s.modRing e k (fun x => { x with heldCq := r })).ringWrite e k c.word0 [c.result]) := by
  simp [exec, execCompletionWrite, hh, hr, hf]

/-! ## The MSI-X structures -/

/-- A word of the table written: it reads what was written, the other words and the other endpoint stay. -/
theorem msixWord_word (s : State) (e : Ep) (i : Nat) (w : BitVec 32) :
    (∀ j : Nat, ((s.msixWord e i w).ep e).msixWord j = if j = i then w else (s.ep e).msixWord j) ∧
    (s.msixWord e i w).ep e.other = s.ep e.other := by
  have ho : e.other ≠ e := by cases e <;> decide
  obtain ⟨h1, h2⟩ := msixFlush_ep (s.modEp e (fun p => { p with msix := Table.set msixDefault p.msix i w })) e (i / 4)
  unfold State.msixWord
  refine ⟨fun j => ?_, h2.trans (by simp [ho])⟩
  have h := congrArg (·.msix) h1
  simp only [modEp_ep, if_true] at h
  simp only [Endpoint.msixWord, h, get_set]

/-- The function mask written: the table and the other endpoint stay. -/
theorem functionMask_written (s : State) (e : Ep) (size : Nat) (val : Word) :
    ((s.msixWrite e .functionMask size val).ep e).funcMask = val.bit 0 ∧
    ((s.msixWrite e .functionMask size val).ep e).msix = (s.ep e).msix ∧
    (s.msixWrite e .functionMask size val).ep e.other = s.ep e.other := by
  have ho : e.other ≠ e := by cases e <;> decide
  have hall : ∀ (l : List Nat) (u : State), { (l.foldl (fun u v => u.msixFlush e v) u).ep e with pba := 0 } = { u.ep e with pba := 0 } ∧
      (l.foldl (fun u v => u.msixFlush e v) u).ep e.other = u.ep e.other := fun l => by
    induction l with
    | nil => exact fun u => ⟨rfl, rfl⟩
    | cons v l ih =>
      intro u
      obtain ⟨h1, h2⟩ := ih (u.msixFlush e v)
      obtain ⟨k1, k2⟩ := msixFlush_ep u e v
      exact ⟨h1.trans k1, h2.trans k2⟩
  obtain ⟨h1, h2⟩ := hall (List.range 64) (s.modEp e (fun p => { p with funcMask := val.bit 0 }))
  simp only [modEp_ep, if_true, ho, if_false] at h1 h2
  exact ⟨(congrArg (·.funcMask) h1 :), (congrArg (·.msix) h1 :), h2⟩

theorem msixWrite_table {s : State} {e : Ep} {off size : Nat} {val : Word} (h1 : off + size ≤ 1024) (h2 : off % size = 0)
    (h3 : size = 4 ∨ size = 8) : s.msixWrite e (.table off) size val =
      if size = 8 then (s.msixWord e (off / 4) (val.setWidth 32)).msixWord e (off / 4 + 1) ((val >>> 32).setWidth 32)
      else s.msixWord e (off / 4) (val.setWidth 32) := by
  simp only [State.msixWrite, if_pos (show _ ∧ _ ∧ _ from ⟨h1, h2, h3⟩)]

theorem msixWrite_bad {s : State} {e : Ep} {off size : Nat} {val : Word} (h : off % size ≠ 0 ∨ 1024 < off + size) :
    s.msixWrite e (.table off) size val = s.count Reg.genBadAccess := by
  have hn : ¬ (off + size ≤ 1024 ∧ off % size = 0 ∧ (size = 4 ∨ size = 8)) := by
    rintro ⟨h1, h2, -⟩
    rcases h with h | h
    · exact h h2
    · omega
  simp only [State.msixWrite, if_neg hn]

theorem msixTableWrite_performs {s : State} {e : Ep} {w : MsixPlace} {size : Nat} {val : Word}
    (h : s.mustWait (.msix e w size val) = false) : exec (.msiXTableWrite e w size val) s = .next (s.msixWrite e w size val) :=
  arrive_performs h

/-- Settles O17, command by command. -/
theorem doorbellsCompletionsAndVectors : Obligations.DoorbellsCompletionsAndVectors := by
  unfold Obligations.DoorbellsCompletionsAndVectors
  refine ⟨fun e k s hk => ⟨fun off val hw => ?_, fun c r hh hr hf => ?_⟩,
    fun e s => ⟨fun off val hw => ⟨fun ha hb => ?_, fun hb => ?_⟩, fun off val hw => ⟨fun ha hb => ?_, fun hb => ?_⟩,
      fun size val hw => ?_⟩⟩
  · have he : exec (.doorbell e k off val) s = .next (s.doorbell e k off val) := arrive_performs hw
    refine ⟨fun h0 hok => ?_, fun h0 hok => ?_, fun h0 => ?_⟩
    · subst h0
      obtain ⟨h1, h2⟩ := doorbell_accepted hk hok
      exact ⟨_, he, h1, h2, keeps_doorbell _ _ _ _ _⟩
    · subst h0
      rw [he, doorbell_bad hk hok]
    · rw [he, doorbell_elsewhere h0]
  · have he := completionWrite_oldest hh hr hf
    refine ⟨_, he, ?_, ?_, keeps_execCompletionWrite e k s _ he⟩
    · rw [ringWrite_sees (fun r => r.heldCq) (fun _ => rfl) (fun r => advance_heldCq r 1), modRing_ring_same]
    · have hout := ringWrite_out (s.modRing e k (fun x => { x with heldCq := r })) e k c.word0 [c.result]
      rwa [modRing_ring_same] at hout
  · have he := msixTableWrite_performs hw
    rw [msixWrite_table hb ha (.inl rfl), if_neg (by decide)] at he
    obtain ⟨h1, h2⟩ := msixWord_word s e (off / 4) (val.setWidth 32)
    exact ⟨_, he, by rw [h1, if_pos rfl], fun i hi => by rw [h1, if_neg hi], h2, keeps_msixWord _ _ _ _⟩
  · rw [msixTableWrite_performs hw, msixWrite_bad hb]
  · have he := msixTableWrite_performs hw
    rw [msixWrite_table hb ha (.inr rfl), if_pos rfl] at he
    obtain ⟨h1, h2⟩ := msixWord_word s e (off / 4) (val.setWidth 32)
    obtain ⟨k1, k2⟩ := msixWord_word (s.msixWord e (off / 4) (val.setWidth 32)) e (off / 4 + 1) ((val >>> 32).setWidth 32)
    refine ⟨_, he, ?_, ?_, fun i hi hj => ?_, k2.trans h2, Keeps.step (keeps_msixWord _ _ _ _) rfl (keeps_msixWord _ _ _ _)⟩
    · rw [k1, if_neg (by omega), h1, if_pos rfl]
    · rw [k1, if_pos rfl]
    · rw [k1, if_neg hj, h1, if_neg hi]
  · rw [msixTableWrite_performs hw, msixWrite_bad hb]
  · obtain ⟨h1, h2, h3⟩ := functionMask_written s e size val
    have hk : Keeps [.epA, .epB, .out] s (s.msixWrite e .functionMask size val) :=
      Keeps.step (keeps_msixFlushAll _ e) rfl (Keeps.mono (keeps_modEp s e _) rfl)
    exact ⟨_, msixTableWrite_performs hw, h1, h2, h3, hk⟩

end Sys2Proof.Proofs.Doorbells

/-! SUPPORT. The commands of a command ring (R342 to R345): a command that runs, a command that executes, and its end with a
completion; then the commands that end at once or wait for a commit or a time (R346 to R348). -/

namespace Sys2Proof.Proofs.Commands

open Sys2Proof.Machine Sys2Proof.Safety Sys2Proof.Laws Sys2Proof.Proofs.Rings Sys2Proof.Proofs.Doorbells

/-! ## A command runs -/

/-- A command that runs is taken, and runs on the state that leaves. -/
theorem startCommand_runs {s : State} {c : CmdEntry} {opc : Nat} (h : runsCommand s c opc = true) (run : State → State) :
    s.startCommand c opc run = run (s.takeCommand c opc) := by
  simp only [runsCommand, Bool.and_eq_true, beq_iff_eq, decide_eq_true_eq, Bool.not_eq_true'] at h
  obtain ⟨⟨⟨hm, hopc⟩, hown⟩, hsafe⟩ := h
  have ho : (s.takeCommand c opc).regs.owner = c.ep := hown
  have hs : (s.takeCommand c opc).sys.safe = false := hsafe
  simp [State.startCommand, hm, hopc, ho, hs]

/-- The command of an entry executes on its ring, whose completion ring is still the one it had. -/
def Executing (s u : State) (c : CmdEntry) : Prop :=
  (u.ring c.ep c.ring).running.map (·.cmd) = some c ∧ (u.ring c.ep c.ring).cq = (s.ring c.ep c.ring).cq

theorem Executing.of_keeps {l : List Part} {s u v : State} {c : CmdEntry} (h : Executing s u c) (hk : Keeps l u v)
    (hr : l.contains .rings = false) : Executing s v c := by
  rw [Executing, Keeps.ring hk hr]
  exact h

theorem takeCommand_ring (s : State) (c : CmdEntry) (opc : Nat) :
    (s.takeCommand c opc).ring c.ep c.ring = { s.ring c.ep c.ring with
      devPos := ((s.ring c.ep c.ring).devPos + 1) % (s.ring c.ep c.ring).size
      running := some { cmd := c, opc := opc, inFreeze := s.gen.freeze, swap := false, arg := 0 } } := by
  simp [State.takeCommand]

theorem executing_takeCommand (s : State) (c : CmdEntry) (opc : Nat) : Executing s (s.takeCommand c opc) c := by
  rw [Executing, takeCommand_ring]
  exact ⟨rfl, rfl⟩

/-! ## A command ends -/

theorem advance_running (r : Ring) (n : Nat) : (r.advance n).running = r.running := by
  unfold Ring.advance
  split <;> rfl

/-- A completion falls due: it is written, or held, and no ring's command changes. -/
theorem postCompletion_falls (s : State) (e : Ep) (q : Nat) (k : Completion) :
    (k ∈ ((s.postCompletion e q k).ring e q).heldCq ∨
      ∃ (pos : Nat) (ph : Bool), .ring e q pos [withPhase ph k.word0, k.result] ∈ (s.postCompletion e q k).out) ∧
    ∀ (d : Ep) (j : Nat), ((s.postCompletion e q k).ring d j).running = (s.ring d j).running := by
  unfold State.postCompletion
  dsimp only
  split
  · exact ⟨.inr ⟨_, _, ringWrite_out s e q k.word0 [k.result]⟩,
      ringWrite_sees (fun r => r.running) (fun _ => rfl) (fun r => advance_running r 1) _ _ _ _ _⟩
  · exact ⟨.inl (by simp), modRing_sees (fun r => r.running) (by intro r; rfl) s e q⟩

/-- The end of a command that executes. -/
theorem endCmd_ended {s u : State} {c : CmdEntry} (h : Executing s u c) (status detail : Nat) (result : Word) :
    commandEnded s (u.endCmd c status detail result) c status detail result := by
  obtain ⟨hrun, hcq⟩ := h
  obtain ⟨x, hx, hcmd⟩ := Option.map_eq_some_iff.mp hrun
  obtain ⟨hfalls, hrings⟩ := postCompletion_falls (u.modRing c.ep c.ring (fun r => { r with running := none })) c.ep
    (s.ring c.ep c.ring).cq
    { tag := c.w0.field 32 32, detail := detail, status := status, src := c.ring, kind := 1, result := result }
  have hnone := hrings c.ep c.ring
  rw [modRing_ring_same] at hnone
  have hcq' : ((u.modRing c.ep c.ring (fun r => { r with running := none })).ring c.ep c.ring).cq = (s.ring c.ep c.ring).cq := by
    rw [modRing_ring_same]
    exact hcq
  simp only [State.endCmd, State.endCommand, hx, hcq', hcmd]
  split
  · rw [commandEnded, Keeps.ring (keeps_kmRelease _) rfl, Keeps.ring (keeps_kmRelease _) rfl, Keeps.out (keeps_kmRelease _) rfl]
    exact ⟨hnone, hfalls⟩
  · exact ⟨hnone, hfalls⟩

/-- The end of the command that has just been taken. -/
theorem endCmd_taken (s : State) (c : CmdEntry) (opc status detail : Nat) (result : Word) :
    commandEnded s ((s.takeCommand c opc).endCmd c status detail result) c status detail result :=
  endCmd_ended (executing_takeCommand s c opc) status detail result

/-! ## NOP, unknown opcodes, COMMIT and TIME_SET -/

theorem nop_runs {s : State} {c : CmdEntry} (hm : s.mayStart c.ep c.ring = true) (ho : cmdOpc c = 0) :
    exec (.nop c) s = .next ((s.takeCommand c 0).endCmd c
      (if cmdHeadOk c 0 && wordsZero [c.w1, c.w2, c.w3, c.w4, c.w5, c.w6, c.w7] then 0 else 3) 0 0) := by
  simp [exec, execNop, hm, ho]

theorem opcodeUnknown_runs {s : State} {c : CmdEntry} (h : runsCommand s c (cmdOpc c) = true) (ho : 12 ≤ cmdOpc c) :
    exec (.opcodeUnknown c) s = .next ((s.takeCommand c (cmdOpc c)).endCmd c 2 0 0) := by
  simp only [exec, execOpcodeUnknown, if_neg (show ¬ cmdOpc c < 12 by omega), startCommand_runs h]

/-- COMMIT without flags waits for a commit point. -/
theorem commit_plain {s : State} {c : CmdEntry} (h : runsCommand s c 2 = true) (hh : cmdHeadOk c 2 = true)
    (hz : wordsZero [c.w1, c.w2, c.w3, c.w4, c.w5, c.w6, c.w7] = true) (hf : cmdFlags c = 0) :
    exec (.commit c) s = .next (s.takeCommand c 2) := by
  simp only [exec, execCommit, startCommand_runs h, hh, hz, hf, Bool.not_true, Bool.or_self, Nat.zero_testBit, Bool.false_eq_true,
    if_false]

/-- The command of a ring has asked for a swap. -/
def swapAsked (s : State) (e : Ep) (k : Nat) : State :=
  s.modRing e k (fun r => { r with running := r.running.map (fun (x : Running) => { x with swap := true }) })

/-- COMMIT with SWAP, where the inactive bank can become active. -/
theorem commit_swap {s : State} {c : CmdEntry} (h : runsCommand s c 2 = true) (hh : cmdHeadOk c 2 = true)
    (hz : wordsZero [c.w1, c.w2, c.w3, c.w4, c.w5, c.w6, c.w7] = true) (hf : cmdFlags c = 1)
    (hb : (s.bank s.inactiveGen).bad = false) :
    exec (.commit c) s = .next (swapAsked { s.takeCommand c 2 with gen := { s.gen with swapPending := true } } c.ep c.ring) := by
  have hr : (s.takeCommand c 2).requestSwap = { s.takeCommand c 2 with gen := { s.gen with swapPending := true } } := by
    have hb' : ((s.takeCommand c 2).bank (s.takeCommand c 2).inactiveGen).bad = false := hb
    simp only [State.requestSwap, hb', Bool.false_eq_true, if_false]
    rfl
  have h0 : Nat.testBit 1 0 = true := by decide
  have h1 : Nat.testBit 1 1 = false := by decide
  simp only [exec, execCommit, startCommand_runs h, hh, hz, hf, hr, h0, h1, Bool.not_true, Bool.or_self, Bool.false_eq_true,
    if_false, if_true, swapAsked]

/-- A TIME_SET that waits. -/
theorem timeSet_waits {s : State} {c : CmdEntry} (h : runsCommand s c 11 = true) (hh : cmdHeadOk c 2 = true)
    (hz : wordsZero [c.w2, c.w3, c.w4, c.w5, c.w6, c.w7] = true)
    (hp : (cmdFlags c).testBit 1 = true → s.flag Reg.sysTimeCtl 0 = true) :
    exec (.timeSet c) s = .next { s.takeCommand c 11 with time := { s.time with requests := s.time.requests ++
        [{ ep := c.ep, ring := c.ring, step := (cmdFlags c).testBit 0, atPps := (cmdFlags c).testBit 1, value := c.w1
           since := s.time.now }] } } := by
  have hp' : ((cmdFlags c).testBit 1 && !(s.takeCommand c 11).flag Reg.sysTimeCtl 0) = false := by
    have : (s.takeCommand c 11).flag Reg.sysTimeCtl 0 = s.flag Reg.sysTimeCtl 0 := Keeps.flag (keeps_takeCommand s c 11) rfl _ _
    rw [this]
    cases hb : (cmdFlags c).testBit 1
    · rfl
    · simp [hp hb]
  simp only [exec, execTimeSet, startCommand_runs h, hh, hz, hp', Bool.not_true, Bool.or_self, Bool.false_eq_true, if_false]
  rfl

/-- Settles O18: each command by what it leaves of its ring. -/
theorem commandsThatEndOrWait : Obligations.CommandsThatEndOrWait := by
  unfold Obligations.CommandsThatEndOrWait
  refine ⟨fun c s => ⟨fun hm ho => ?_, fun h ho => ?_⟩, fun c s => ⟨fun h hh hz => ⟨fun hf => ?_, fun hf hb => ?_⟩,
    fun h hh hz hp => ?_⟩⟩
  · have he := nop_runs hm ho
    have hend := endCmd_taken s c 0 (if cmdHeadOk c 0 && wordsZero [c.w1, c.w2, c.w3, c.w4, c.w5, c.w6, c.w7] then 0 else 3) 0 0
    exact ⟨_, he, hend, hend.1, Keeps.mono (keeps_execNop c s _ he) rfl⟩
  · have he := opcodeUnknown_runs h ho
    exact ⟨_, he, endCmd_taken s c _ 2 0 0, Keeps.mono (keeps_execOpcodeUnknown c s _ he) rfl⟩
  · refine ⟨_, commit_plain h hh hz hf, ?_, Keeps.mono (keeps_takeCommand s c 2) rfl⟩
    rw [takeCommand_ring]
    rfl
  · refine ⟨_, commit_swap h hh hz hf hb, rfl, ?_, Keeps.step (keeps_modRing _ _ _ _) rfl ?_⟩
    · simp only [swapAsked, modRing_ring_same]
      exact congrArg (fun r : Ring => (r.running.map (fun (x : Running) => { x with swap := true })).map (·.swap))
        (takeCommand_ring s c 2)
    · exact Keeps.with_gen (.inr ⟨rfl, rfl, rfl, rfl, rfl, rfl, rfl, rfl, rfl⟩) (.inr ⟨rfl, rfl, rfl⟩) (.inl rfl)
        (.inr ⟨rfl, rfl, rfl, rfl, rfl, rfl, rfl⟩) (Keeps.mono (keeps_takeCommand s c 2) rfl)
  · refine ⟨_, timeSet_waits h hh hz hp, rfl, ?_, ?_⟩
    · exact congrArg (fun r : Ring => r.running.map (·.opc)) (takeCommand_ring s c 11)
    · exact Keeps.with_time (.inr rfl) (.inl rfl) (Keeps.mono (keeps_takeCommand s c 11) rfl)

end Sys2Proof.Proofs.Commands

/-! SUPPORT. Port engines: PORT_CTL (R346), integration, protocol exceptions, stopping and HOLD (R89, R100, R112, R113, R273), and
bus-off (R98, R99); with what flushing a port does to its class queues (R287, R290). -/

namespace Sys2Proof.Proofs.Engines

open Sys2Proof.Machine Sys2Proof.Safety Sys2Proof.Laws Sys2Proof.Proofs.RegisterBehaviour Sys2Proof.Proofs.Commands
  Sys2Proof.Proofs.Staging

/-! ## Class queues emptied -/

/-- All of a port but its queues, the open packets that wait for their backfill, and the two marks that follow a flush. -/
def portRest (x : Port) : Port := { x with queues := [], zombies := [], held := false, armed := false }

/-- A packet that leaves touches of the ports no more than the open packets that wait for their backfill. -/
theorem packetGone_port (s : State) (p c : Nat) (k : Packet) (o : CopyOutcome) (status detail : Nat) (result : Word) (q : Nat) :
    { (s.packetGone p c k o status detail result).port q with zombies := [] } = { s.port q with zombies := [] } := by
  unfold State.packetGone
  dsimp only
  split
  · rw [Keeps.port (keeps_countOutcome _ _ _ _) rfl, Keeps.port (keeps_releaseCells s _) rfl]
  · rw [Keeps.port (keeps_txCompletion _ _ _ _ _) rfl]
    split
    · rfl
    · rw [modPort_port]
      split
      · next h => rw [h]; rfl
      · rfl

theorem retireHead_nil {s : State} {p c : Nat} (h : (s.port p).queue c = []) (o : CopyOutcome) (status detail : Nat)
    (result : Word) : s.retireHead p c o status detail result = s := by
  simp only [State.retireHead, h]

/-- The head of a class leaves its queue; the port's other queues and its other parts stay, and so do other ports' queues. -/
theorem retireHead_port (s : State) (p c : Nat) (o : CopyOutcome) (status detail : Nat) (result : Word) :
    ((s.retireHead p c o status detail result).port p).queues = listMod List.tail c (s.port p).queues ∧
    ∀ q : Nat, portRest ((s.retireHead p c o status detail result).port q) = portRest (s.port q) := by
  cases hq : (s.port p).queue c with
  | nil =>
    rw [retireHead_nil hq]
    refine ⟨?_, fun _ => rfl⟩
    refine List.ext_getElem? fun i => ?_
    rw [getElem?_listMod]
    split
    · next hi =>
      subst hi
      simp only [Port.queue] at hq
      cases hx : (s.port p).queues[i]? with
      | none => rfl
      | some l => rw [hx] at hq; simp only [Option.getD_some] at hq; rw [hq]; rfl
    · rfl
  | cons k t =>
    simp only [State.retireHead, hq]
    have hset : ∀ x : Port, (Port.settleHeld x).queues = x.queues ∧ portRest (Port.settleHeld x) = portRest x := fun x => by
      unfold Port.settleHeld
      split <;> exact ⟨rfl, rfl⟩
    have hgone := packetGone_port (s.modPort p (fun q => Port.settleHeld { q with queues := listMod (fun _ => t) c q.queues }))
      p c k o status detail result
    refine ⟨?_, fun q => ?_⟩
    · refine (congrArg (·.queues) (hgone p) :).trans ?_
      rw [modPort_port, if_pos rfl]
      refine (hset _).1.trans (List.ext_getElem? fun i => ?_)
      rw [getElem?_listMod, getElem?_listMod]
      split
      · next hi =>
        subst hi
        simp only [Port.queue] at hq
        cases hx : (s.port p).queues[i]? with
        | none => rfl
        | some l => rw [hx] at hq; simp only [Option.getD_some] at hq; rw [hq]; rfl
      · rfl
    · refine (congrArg portRest (hgone q) :).trans ?_
      rw [modPort_port]
      split
      · next h => rw [h]; exact (hset _).2
      · rfl

/-- A class retired as often as the list is long loses that many packets. -/
theorem retireHeads_port {α : Type} (l : List α) (s : State) (p c : Nat) (o : CopyOutcome) (status detail : Nat) (result : Word) :
    ((l.foldl (fun (s : State) _ => s.retireHead p c o status detail result) s).port p).queues =
      listMod (List.drop l.length) c (s.port p).queues ∧
    ∀ q : Nat, portRest ((l.foldl (fun (s : State) _ => s.retireHead p c o status detail result) s).port q) = portRest (s.port q) := by
  induction l generalizing s with
  | nil =>
    refine ⟨List.ext_getElem? fun i => ?_, fun _ => rfl⟩
    rw [getElem?_listMod]
    rw [List.foldl_nil]
    split
    · cases (s.port p).queues[i]? <;> rfl
    · rfl
  | cons a l ih =>
    obtain ⟨h1, h2⟩ := ih (s.retireHead p c o status detail result)
    obtain ⟨k1, k2⟩ := retireHead_port s p c o status detail result
    refine ⟨?_, fun q => (h2 q).trans (k2 q)⟩
    rw [List.foldl_cons, h1, k1]
    refine List.ext_getElem? fun i => ?_
    simp only [getElem?_listMod]
    split
    · cases (s.port p).queues[i]? with
      | none => rfl
      | some x => simp [List.drop_tail]
    · rfl

theorem flushClass_port (s : State) (p c : Nat) :
    ((s.flushClass p c).port p).queues = listMod (fun _ => []) c (s.port p).queues ∧
    ∀ q : Nat, portRest ((s.flushClass p c).port q) = portRest (s.port q) := by
  obtain ⟨h1, h2⟩ := retireHeads_port ((s.port p).queue c) s p c .flushed 7 0 0
  refine ⟨h1.trans (List.ext_getElem? fun i => ?_), h2⟩
  simp only [getElem?_listMod]
  split
  · next hi =>
    subst hi
    cases hx : (s.port p).queues[i]? with
    | none => rfl
    | some l => simp [Port.queue, hx]
  · rfl

/-- A flush leaves nothing queued at a port of four classes, and of its ports' other parts only the marks change. -/
theorem flushPort_port (s : State) (p : Nat) :
    ((s.port p).queues.length = 4 → ((s.flushPort p).port p).queuesEmpty = true) ∧ ((s.flushPort p).port p).held = false ∧
    ∀ q : Nat, portRest ((s.flushPort p).port q) = portRest (s.port q) := by
  have hfold : ∀ (l : List Nat) (u : State),
      (∀ i : Nat, ((l.foldl (fun s c => State.flushClass s p c) u).port p).queues[i]? =
        if i ∈ l then ((u.port p).queues[i]?).map (fun _ => []) else (u.port p).queues[i]?) ∧
      ∀ q : Nat, portRest ((l.foldl (fun s c => State.flushClass s p c) u).port q) = portRest (u.port q) := fun l => by
    induction l with
    | nil => exact fun u => ⟨fun i => by simp, fun _ => rfl⟩
    | cons c l ih =>
      intro u
      obtain ⟨h1, h2⟩ := ih (u.flushClass p c)
      obtain ⟨k1, k2⟩ := flushClass_port u p c
      refine ⟨fun i => ?_, fun q => (h2 q).trans (k2 q)⟩
      rw [List.foldl_cons, h1, k1, getElem?_listMod]
      by_cases hi : i = c
      · subst hi
        cases (u.port p).queues[i]? <;> simp
      · simp [hi]
  obtain ⟨h1, h2⟩ := hfold (List.range 4) s
  unfold State.flushPort
  generalize (List.range 4).foldl (fun s c => State.flushClass s p c) s = u at h1 h2
  refine ⟨fun hlen => ?_, by rw [modPort_port, if_pos rfl], fun q => ?_⟩
  · rw [modPort_port, if_pos rfl]
    show (u.port p).queues.all _ = true
    rw [List.all_eq_true]
    intro l hl
    obtain ⟨i, hi⟩ := List.mem_iff_getElem?.mp hl
    rw [h1 i] at hi
    have hi4 : i < 4 := by
      by_contra hn
      rw [if_neg (by simpa using hn), List.getElem?_eq_none (by omega)] at hi
      cases hi
    rw [if_pos (by simpa using hi4)] at hi
    obtain ⟨x, -, rfl⟩ := Option.map_eq_some_iff.mp hi
    rfl
  · refine Eq.trans ?_ (h2 q)
    rw [modPort_port]
    split
    · next h => rw [h]; rfl
    · rfl

/-! ## PORT_CTL -/

theorem regAt_portCtl (n : Nat) (h : n < 136) :
    regAt (Reg.portCtl n) = some ({ base := 0x100080, stride := 0x400, count := 136, rw := 0xf3f7 }, n) := by
  have hb : blockGroups (Reg.portCtl n) = portGroups := by
    have : Reg.portCtl n / 0x10000 = 16 ∨ Reg.portCtl n / 0x10000 = 17 ∨ Reg.portCtl n / 0x10000 = 18 := by
      simp only [Reg.portCtl]
      omega
    rcases this with e | e | e <;> simp [blockGroups, e]
  rw [regAt, hb, portGroups, portGroups0]
  iterate 7 rw [List.cons_append, findGroup_miss (by simp only [Reg.portCtl]; omega)]
  rw [List.cons_append, findGroup_hit (indexOf_hit (by simp only [Reg.portCtl]; omega))]
  simp only [Reg.portCtl]
  congr 2
  omega

/-- EN can be staged in an engine's CTL. -/
theorem rwMask_portCtl {n : Nat} (h : n < 136) : (rwMask (Reg.portCtl n)).bit 0 = true := by
  simp only [rwMask, regAt_portCtl n h]
  decide

/-- One bit names one port. -/
theorem named_one {p : Nat} (h : p < 64) :
    (List.range 128).filter (fun q => (if q < 64 then Word.bit (1#64 <<< p) q else Word.bit 0 (q - 64)) && ((0 : Nat) != 3 || decide (q < 32))) =
      [p] := by
  have hbit : ∀ q : Nat, ((if q < 64 then Word.bit (1#64 <<< p) q else Word.bit 0 (q - 64)) && ((0 : Nat) != 3 || decide (q < 32))) =
      (q == p) := fun q => by
    have hz : Word.bit 0 (q - 64) = false := by simp [Word.bit]
    rw [hz]
    by_cases hq : q = p
    · subst hq
      simp [Word.bit, h]
    · simp only [Word.bit, BitVec.getLsbD_shiftLeft, BitVec.getLsbD_one]
      have hz' : ¬ (¬ q < p ∧ q - p = 0) := by omega
      by_cases hlt : q < p <;> by_cases h0 : q - p = 0 <;> simp_all
  simp only [hbit]
  rw [List.filter_beq, List.count_eq_one_of_mem List.nodup_range (by simp; omega)]
  rfl

/-- PORT_CTL with action 0 of one port. -/
theorem portCtl_one {s : State} {c : CmdEntry} {p : Nat} (h : runsCommand s c 4 = true) (hp : p < 64) (hh : cmdHeadOk c 0 = true)
    (h1 : c.w1 = 1#64 <<< p) (h2 : c.w2 = 0) (h3 : c.w3 = 0) (hz : wordsZero [c.w4, c.w5, c.w6, c.w7] = true) :
    exec (.portCtl c) s = .next (((s.takeCommand c 4).stageWrite (.ep c.ep) (Reg.portCtl (s.serving p))
      ((s.takeCommand c 4).latest (Reg.portCtl (s.serving p)) ||| 1#64)).endCmd c 0 0 1) := by
  have hf : ∀ lo len : Nat, (0 : Word).field lo len = 0 := fun lo len => by simp [Word.field, natField]
  simp only [exec, execPortCtl, startCommand_runs h, hh, hz, h1, h2, h3, hf, Bool.not_true, Bool.or_self, bne_self_eq_false,
    Bool.false_eq_true, if_false, named_one hp]
  rfl

/-! ## Engines and bus-off -/

theorem write_recover {s : State} {p : Path} {n : Nat} {val : Word} (hn : n < 136) (h : canWrite s p (Reg.portCmd n) val = true)
    (hb : val.bit 0 = true) :
    exec (.portCmdRecover p n val) s = .next (((s.setLock p false).clearLost p (Reg.portCmd n)).recover n) := by
  have hoff : Reg.portCmd n = 0x100030 + 0x400 * n := rfl
  have ho : canonicalOff (Reg.portCmd n) = Reg.portCmd n := by
    rw [canonicalOff, hoff, if_pos (by omega)]
    omega
  have hl : s.lcDataLocked (Reg.portCmd n) = false := by
    have hn : ¬ (Reg.sysLcData 0 ≤ Reg.portCmd n ∧ Reg.portCmd n ≤ Reg.sysLcData 5) := by simp only [Reg.sysLcData, hoff]; omega
    simp [State.lcDataLocked, hn]
  refine (write_reaches_wc (regAt_portCmd n hn) rfl rfl (by decide) ho (by omega) (by omega) h hl).trans ?_
  have he : blockEngine (Reg.portCmd n) = some n := by
    rw [blockEngine, hoff, if_pos (by omega)]
    congr 1
    omega
  have hne : Reg.portCmd n ≠ Reg.scrivRecSel ∧ Reg.portCmd n ≠ Reg.scrivHashIn ∧ Reg.portCmd n ≠ Reg.lockZeroize ∧
      Reg.portCmd n ≠ Reg.lockCmd ∧ Reg.portCmd n ≠ Reg.lockKmLock ∧ Reg.portCmd n ≠ Reg.lockSlotSel ∧
      Reg.portCmd n ≠ Reg.hostOwnHb ∧ Reg.portCmd n ≠ Reg.drayTxqCmd ∧ Reg.portCmd n ≠ Reg.bellPendClr ∧
      Reg.portCmd n ≠ Reg.stewCmd ∧ Reg.portCmd n ≠ Reg.tinkSliceSel ∧ Reg.portCmd n ≠ Reg.xcvrCmd := by
    simp only [hoff, Reg.scrivRecSel, Reg.scrivHashIn, Reg.lockZeroize, Reg.lockCmd, Reg.lockKmLock, Reg.lockSlotSel, Reg.hostOwnHb,
      Reg.drayTxqCmd, Reg.bellPendClr, Reg.stewCmd, Reg.tinkSliceSel, Reg.xcvrCmd]
    omega
  have hr : ¬ Reg.portCmd n < 0x10000 ∧ ¬ (0x80000 ≤ Reg.portCmd n ∧ Reg.portCmd n < 0xA0000) ∧
      ¬ (0xC0000 ≤ Reg.portCmd n ∧ Reg.portCmd n < 0xD0000) := by omega
  simp [State.writeEffect, State.unitEffect, hne, hr, he, hb]

/-- Settles O19, command by command. -/
theorem engineStates : Obligations.EngineStates := by
  unfold Obligations.EngineStates
  refine ⟨fun c p s h hp hh h1 h2 h3 hz hfr hn hsp => ?_, ⟨fun n s hsh => ⟨fun hst hpo => ?_, fun hst => ?_⟩, fun n p s hsh => ?_,
    fun n s => ?_, fun n p s hpo hst hh hrx hbus hsh => ?_, fun p s hh hup hst hlen => ?_⟩,
    fun port s hw hpol => ?_, fun port k s hoff hmon => ⟨fun hk => ?_, fun hk => ?_⟩, fun p n val s hn h hb hoff hw hpol => ?_⟩
  · have he := portCtl_one h hp hh h1 h2 h3 hz
    have hk := keeps_stageWrite (s.takeCommand c 4) (.ep c.ep) (Reg.portCtl (s.serving p))
      ((s.takeCommand c 4).latest (Reg.portCtl (s.serving p)) ||| 1#64)
    have hfr' : (s.takeCommand c 4).gen.freeze = false := (Keeps.gen_freeze (keeps_takeCommand s c 4) rfl).trans hfr
    refine ⟨_, he, endCmd_ended ((executing_takeCommand s c 4).of_keeps hk rfl) 0 0 1,
      ⟨((s.takeCommand c 4).latest (Reg.portCtl (s.serving p)) ||| 1#64) &&& rwMask (Reg.portCtl (s.serving p)), ?_, ?_⟩,
      Keeps.step (keeps_endCmd _ _ _ _ _) rfl (Keeps.step hk rfl (Keeps.mono (keeps_takeCommand s c 4) rfl))⟩
    · rw [Keeps.regs_staged (keeps_endCmd _ _ _ _ _) rfl, stageWrite_staged, if_pos ⟨hfr', .inl rfl⟩]
    · have hm := rwMask_portCtl hn
      simp only [Word.bit, BitVec.getLsbD_and, BitVec.getLsbD_or, Bool.and_eq_true] at hm ⊢
      exact ⟨by simp, hm⟩
  · have he : exec (.portIntegrated n) s = .next (s.modEngine n (fun e => { e with st := .running })) := by
      simp only [exec, execPortIntegrated, hsh, if_pos (show _ ∧ _ from ⟨hst, hpo⟩)]
    exact ⟨_, he, by simp, fun m hm => by simp [hm], keeps_modEngine _ _ _⟩
  · have he : exec (.portIntegrated n) s = .next (s.modEngine n (fun e => { e with idleWait := false })) := by
      simp only [exec, execPortIntegrated, hsh, if_neg (show ¬ (_ ∧ _) from fun h => hst h.1)]
    exact ⟨_, he, by simp, by simp, fun m hm => by simp [hm], keeps_modEngine _ _ _⟩
  · have he : exec (.portIntegrated n) s = .next (s.modPort p (fun q => { q with spareReady := true })) := by
      simp only [exec, execPortIntegrated, hsh]
    exact ⟨_, he, by simp, keeps_modPort _ _ _⟩
  · exact ⟨_, rfl, by simp, by simp, fun m hm => by simp [hm], keeps_modEngine _ _ _⟩
  · have he : exec (.portStopComplete n) s = .next (s.engineStopped n) := by
      simp only [exec, execPortStopComplete, hpo, if_pos (show _ ∧ _ ∧ _ from ⟨hst, hrx, hbus⟩)]
    have hstop : s.engineStopped n = (s.modEngine n (fun e => { e with
        st := .stopped, startHeld := false, boWait := false, boMonitor := false })).flushPort p := by
      have hpo' : (s.modEngine n (fun e => { e with
        st := .stopped, startHeld := false, boWait := false, boMonitor := false })).portOf n = some p := hpo
      obtain ⟨-, -, hrest⟩ := flushPort_port (s.modEngine n (fun e => { e with
        st := .stopped, startHeld := false, boWait := false, boMonitor := false })) p
      have hsh' := (congrArg (·.shadow) (hrest p) :).trans (congrArg (·.shadow) (modEngine_port_eq s n _ p))
      have hsh'' := hsh'.trans hsh
      simp only [portRest] at hsh''
      simp only [State.engineStopped, hpo', hh, hsh'', Bool.false_eq_true, if_false]
    rw [hstop] at he
    refine ⟨_, he, ?_, Keeps.mono (keeps_execPortStopComplete n s _ he) rfl⟩
    rw [Keeps.engine (keeps_flushPort _ p) rfl]
    simp
  · have he : exec (.portHoldExpire p) s =
        .next ((s.advanceTo ((s.port p).heldSince + 1000000 * s.fld (Reg.drayPortCtl p) 16 8)).flushPort p) := by
      simp [exec, execPortHoldExpire, hh, hup, hst]
    obtain ⟨h1, h2, -⟩ := flushPort_port (s.advanceTo ((s.port p).heldSince + 1000000 * s.fld (Reg.drayPortCtl p) 16 8)) p
    refine ⟨_, he, h2, h1 hlen, ?_, Keeps.mono (keeps_execPortHoldExpire p s _ he) rfl⟩
    rw [Keeps.time_now (keeps_flushPort _ p) rfl]
    rfl
  · have he : exec (.boDelayExpire port) s = .next ((s.advanceTo (s.engine (s.serving port)).boUntil).modEngine (s.serving port)
        (fun e => { e with boWait := false, boMonitor := true })) := by
      simp [exec, execBoDelayExpire, hw, hpol]
    exact ⟨_, he, by simp, by simp, by simp, rfl, fun m hm => by simp [hm], keeps_execBoDelayExpire port s _ he⟩
  · have he : exec (.busOffRecovery port k) s = .next (s.modEngine (s.serving port)
        (fun e => { e with recov := e.recov + k })) := by
      simp [exec, execBusOffRecovery, hoff, hmon, hk]
    exact ⟨_, he, by simp [hoff], by simp, fun m hm => by simp [hm], keeps_modEngine _ _ _⟩
  · have he : exec (.busOffRecovery port k) s = .next ((s.modEngine (s.serving port) (fun e => { e with
        tec := 0, rxErr := 0, busOff := false, boMonitor := false, recov := 0, ewarn := false })).raisePort (s.serving port)) := by
      simp [exec, execBusOffRecovery, hoff, hmon, show ¬ (s.engine (s.serving port)).recov + k < 128 by omega]
    have heng := fun m => Keeps.engine (keeps_raisePort (s.modEngine (s.serving port) (fun e => { e with
        tec := 0, rxErr := 0, busOff := false, boMonitor := false, recov := 0, ewarn := false })) (s.serving port)) rfl m
    exact ⟨_, he, by rw [heng]; simp, by rw [heng]; simp, by rw [heng]; simp, fun m hm => by rw [heng]; simp [hm],
      keeps_execBusOffRecovery port k s _ he⟩
  · have hk := keeps_setLock_clearLost s p false (Reg.portCmd n)
    have heng := fun m => Keeps.engine hk rfl m
    refine ⟨_, write_recover hn h hb, ?_, ?_, ?_, fun m hm => ?_, Keeps.step (keeps_recover _ n) rfl (Keeps.mono hk rfl)⟩
    · simp [State.recover, heng, hoff, hw, hpol]
    · simp [State.recover, heng, hoff, hw, hpol]
    · simp [State.recover, heng, hoff, hw, hpol]
    · simp [State.recover, heng, hm]

end Sys2Proof.Proofs.Engines

/-! SUPPORT. The time base (R31, R84, R210, R348, R482): a step of TAI, the TIME_SET that takes effect or is given up, and the
edges of PPS_IN. -/

namespace Sys2Proof.Proofs.TimeSet

open Sys2Proof.Machine Sys2Proof.Safety Sys2Proof.Laws

/-! ## A step of TAI -/

/-- The time base as a step leaves it, before the events and the realignment that follow. -/
def stepped (s : State) (offset : Int) : State :=
  let step := BitVec.ofInt 64 (offset - s.time.offset)
  let s := { s with time := { s.time with
    prevOffset := s.time.offset, offset := offset, stepAt := some s.time.now, set := true, stepLast := step } }
  { s with time := { s.time with stepTai := s.tai } }

/-- What follows a step leaves the time base. -/
theorem stepTime_time (s : State) (offset : Int) : (s.stepTime offset).time = (stepped s offset).time := by
  have he : s.stepTime offset = (((stepped s offset).postEvent .a 4 (BitVec.ofInt 64 (offset - s.time.offset)).toNat).postEvent .b 4
      (BitVec.ofInt 64 (offset - s.time.offset)).toNat).realign := rfl
  rw [he, Keeps.time (keeps_realign _) rfl rfl, Keeps.time (keeps_postEvent _ _ _ _) rfl rfl,
    Keeps.time (keeps_postEvent _ _ _ _) rfl rfl]

/-- The state without a request. -/
def answered (s : State) (q : TimeReq) : State :=
  { s with time := { s.time with requests := s.time.requests.filter (fun (x : TimeReq) => x != q) } }

/-- The offset that a TIME_SET gives TAI. -/
def newOffset (s : State) (q : TimeReq) : Int :=
  if q.step then s.time.offset + q.value.toInt else (q.value.toNat : Int) - s.time.now

/-- A TIME_SET that takes effect steps TAI to its offset and no longer waits. -/
theorem applyTime_time (s : State) (q : TimeReq) :
    (s.applyTime q).time = (stepped (answered s q) (newOffset s q)).time := by
  unfold State.applyTime
  dsimp only
  rw [Keeps.time (keeps_endCommand _ _ _ _ _ _) rfl rfl, stepTime_time]
  rfl

theorem answered_requests (s : State) (q : TimeReq) : q ∉ (answered s q).time.requests := by
  simp [answered]

/-- After an absolute TIME_SET TAI is its value. -/
theorem applyTime_absolute {s : State} {q : TimeReq} (h : q.step = false) : (s.applyTime q).tai = q.value := by
  have ht := applyTime_time s q
  have hnow : (s.applyTime q).time.now = s.time.now := by rw [ht]; rfl
  have hoff : (s.applyTime q).time.offset = (q.value.toNat : Int) - s.time.now := by
    rw [ht]
    show newOffset s q = _
    simp [newOffset, h]
  rw [State.tai, State.taiAt, hnow, hoff, show (s.time.now : Int) + ((q.value.toNat : Int) - s.time.now) = q.value.toNat by omega]
  simp

/-! ## The commands of the time base -/

/-- The instant at which a TIME_SET may take effect: 1 ms after the previous step, or now. -/
def applyAt (s : State) : Nat := match s.time.stepAt with | some n => n + 1000000 | none => s.time.now

theorem timeSetApply_oldest {s : State} {q : TimeReq} (h : s.time.requests.find? (fun x => !x.atPps) = some q) :
    exec .timeSetApply s = .next ((s.advanceTo (applyAt s)).applyTime q) := by
  simp only [exec, execTimeSetApply, h]
  rfl

theorem timeSetTimeout_oldest {s : State} {q : TimeReq} (h : s.time.requests.find? (fun x => x.atPps) = some q) :
    exec .timeSetTimeout s =
      .next ((answered (s.advanceTo (q.since + 1500000000)) q).endCommand q.ep q.ring 8 0 0) := by
  simp only [exec, execTimeSetTimeout, h]
  rfl

/-- The discipline takes note of an edge, where PPS_EN is 1. -/
def edgeUsed (s : State) : State :=
  if s.flag Reg.sysTimeCtl 0 then
    { s with time := { s.time with
      ppsUsed := if s.time.ppsRef && decide (999900000 ≤ s.time.now - s.time.ppsLast.getD 0 ∧ s.time.now - s.time.ppsLast.getD 0 ≤ 1000100000)
        then min (s.time.ppsUsed + 1) 3 else 0
      ppsRef := true, ppsLost := false, ppsBase := s.time.now } }
  else s

theorem edgeUsed_time (s : State) : (edgeUsed s).time.now = s.time.now ∧ (edgeUsed s).time.offset = s.time.offset ∧
    (edgeUsed s).time.stepAt = s.time.stepAt ∧ (edgeUsed s).time.requests = s.time.requests ∧
    (s.flag Reg.sysTimeCtl 0 = true → (edgeUsed s).time.ppsLost = false ∧ (edgeUsed s).time.ppsRef = true) := by
  unfold edgeUsed
  split
  · exact ⟨rfl, rfl, rfl, rfl, fun _ => ⟨rfl, rfl⟩⟩
  · next h => exact ⟨rfl, rfl, rfl, rfl, fun h' => absurd h' h⟩

theorem keeps_edgeUsed (s : State) : Keeps [.tai] s (edgeUsed s) :=
  Keeps.ite (Keeps.with_time (.inr rfl) (.inl rfl) (Keeps.refl _ _)) (Keeps.refl _ _)

/-- The edge captured. -/
def captured (s : State) (now : Nat) : State :=
  { s with time := { s.time with ppsLast := some now, ppsCapture := s.tai } }

theorem ppsEdge_noRequest {s : State} (h : s.time.requests.find? (fun q => q.atPps) = none) :
    s.ppsEdge = captured (edgeUsed s) s.time.now := by
  obtain ⟨-, -, -, hreq, -⟩ := edgeUsed_time s
  rw [← hreq] at h
  unfold State.ppsEdge
  dsimp only
  rw [show (if s.flag Reg.sysTimeCtl 0 = true then _ else s) = edgeUsed s from rfl, h]
  rfl

theorem ppsEdge_request {s : State} {q : TimeReq} (h : s.time.requests.find? (fun q => q.atPps) = some q)
    (ha : s.stepAllowed = true) : s.ppsEdge = captured ((edgeUsed s).applyTime q) s.time.now := by
  obtain ⟨hnow, -, hstep, hreq, -⟩ := edgeUsed_time s
  rw [← hreq] at h
  have ha' : (edgeUsed s).stepAllowed = true := by rw [State.stepAllowed, hnow, hstep]; exact ha
  unfold State.ppsEdge
  dsimp only
  rw [show (if s.flag Reg.sysTimeCtl 0 = true then _ else s) = edgeUsed s from rfl, h]
  simp only [ha', if_true]
  rfl

theorem ppsEdge_selected {s : State} {rising : Bool} (h : (rising != s.flag Reg.sysTimeCtl 1) = true) :
    exec (.ppsEdge rising) s = .next s.ppsEdge := congrArg _ (if_pos h)

/-- Settles O20, command by command. -/
theorem timeBase : Obligations.TimeBase := by
  unfold Obligations.TimeBase
  refine ⟨fun q s => ⟨fun hq hs => ?_, fun hq hs => ?_, fun hq => ?_⟩, fun rising s hr => ⟨fun hq => ?_, fun q hq hs ha => ?_⟩,
    fun s hen hl => ?_⟩
  · have he := timeSetApply_oldest hq
    have ht := applyTime_time (s.advanceTo (applyAt s)) q
    refine ⟨_, he, by rw [ht]; rfl, by rw [ht]; rfl, applyTime_absolute hs, by rw [ht]; rfl, by rw [ht]; rfl,
      Keeps.mono (keeps_execTimeSetApply s _ he) rfl⟩
  · have he := timeSetApply_oldest hq
    have ht := applyTime_time (s.advanceTo (applyAt s)) q
    refine ⟨_, he, by rw [ht]; rfl, ?_, Keeps.mono (keeps_execTimeSetApply s _ he) rfl⟩
    rw [ht]
    show newOffset _ q = _
    simp only [newOffset, hs, if_true]
    rfl
  · have he := timeSetTimeout_oldest hq
    have ht := Keeps.time (keeps_endCommand (answered (s.advanceTo (q.since + 1500000000)) q) q.ep q.ring 8 0 0) rfl rfl
    refine ⟨_, he, by rw [ht]; rfl, ?_, by rw [ht]; rfl, Keeps.mono (keeps_execTimeSetTimeout s _ he) rfl⟩
    rw [ht]
    exact answered_requests _ _
  · have he := (ppsEdge_selected hr).trans (congrArg _ (ppsEdge_noRequest hq))
    obtain ⟨hnow, hoff, -, -, hlost⟩ := edgeUsed_time s
    refine ⟨_, he, ?_, rfl, hoff, hlost, Keeps.with_time (.inr rfl) (.inl rfl) (keeps_edgeUsed s)⟩
    show (edgeUsed s).tai = s.tai
    rw [State.tai, State.taiAt, hnow, hoff]
    rfl
  · have he := (ppsEdge_selected hr).trans (congrArg _ (ppsEdge_request hq ha))
    have ht := applyTime_time (edgeUsed s) q
    refine ⟨_, he, ?_, ?_, ?_, Keeps.mono (keeps_execPpsEdge rising s _ he) rfl⟩
    · exact (applyTime_absolute (s := edgeUsed s) hs :)
    · show ((edgeUsed s).applyTime q).time.set = true
      rw [ht]
      rfl
    · show q ∉ ((edgeUsed s).applyTime q).time.requests
      rw [ht]
      exact answered_requests _ _
  · have he : exec .ppsLost s = .next { s.advanceTo (s.time.ppsBase + 1500000000) with time :=
        { (s.advanceTo (s.time.ppsBase + 1500000000)).time with ppsLost := true, ppsRef := false, ppsUsed := 0 } } := by
      simp [exec, execPpsLost, hen, hl]
    exact ⟨_, he, rfl, rfl, rfl, rfl, keeps_execPpsLost s _ he⟩

end Sys2Proof.Proofs.TimeSet

/-! SUPPORT. Transceivers and their supplies (R124, R128, R129, R142), and the Fireguard (R130 to R133). What follows a port's
going down leaves the transceivers. -/

namespace Sys2Proof.Proofs.Transceivers

open Sys2Proof.Machine Sys2Proof.Safety Sys2Proof.Laws Sys2Proof.Proofs.RegisterBehaviour

/-! ## Changes that may take ports down -/

theorem keeps_afterStep (s : State) (p : Nat) (f : State → State) : Keeps (andBell [.ports, .rings, .cells]) (f s) (s.portStep p f) :=
  Keeps.ite (keeps_portDown _ _) (Keeps.refl _ _)

/-- Whatever a change does to the ports, the transceivers are as the change itself leaves them. -/
theorem portStep_xcvr (s : State) (p : Nat) (f : State → State) : (s.portStep p f).xcvr = (f s).xcvr :=
  Keeps.xcvr (keeps_afterStep s p f) rfl

theorem portStep_ip (s : State) (p : Nat) (f : State → State) (q : Nat) : (s.portStep p f).ip q = (f s).ip q :=
  Keeps.ip (keeps_afterStep s p f) rfl q

theorem portsStep_xcvr (s : State) (ps : List Nat) (f : State → State) : (s.portsStep ps f).xcvr = (f s).xcvr := by
  unfold State.portsStep
  dsimp only
  exact Keeps.xcvr (Keeps.foldl (l := andBell [.ports, .rings, .cells])
    (fun u p => Keeps.ite (keeps_portDown u p) (Keeps.refl _ _)) (Keeps.refl _ (f s))) rfl

/-! ## Supplies -/

theorem setFlag_same {l : List Bool} {i : Nat} (h : i < l.length) (b : Bool) : (setFlag l i b)[i]? = some b := by
  rw [setFlag, getElem?_listMod, if_pos rfl, List.getElem?_eq_getElem h]
  rfl

theorem setFlag_other {l : List Bool} {i j : Nat} (h : j ≠ i) (b : Bool) : (setFlag l i b)[j]? = l[j]? := by
  rw [setFlag, getElem?_listMod, if_neg h]

/-- Undervoltage of a bank as its VBUS supply gives it: between the thresholds it stays. -/
def uvAt (s : State) (b mv : Nat) : Bool :=
  if mv < uvAssertMv b then true else if uvClearMv b < mv then false else (s.xcvr.uv[b]?).getD true

/-- The bank's two flags as its VBUS supply gives them. -/
def bankSet (s : State) (b mv : Nat) : State :=
  { s with xcvr := { s.xcvr with
      uv := setFlag s.xcvr.uv b (uvAt s b mv), unpowered := setFlag s.xcvr.unpowered b (decide (mv < 2700)) } }

/-- Where an undervoltage clears, the drivers of ports in a frame are held off. -/
def bankHeld (s : State) (b mv : Nat) : State :=
  if (s.xcvr.uv[b]?).getD true && !uvAt s b mv then
    (bankPorts b).foldl (fun s p => if s.busIdle p then s else s.modIp p (fun t => { t with uvHold := true })) (bankSet s b mv)
  else bankSet s b mv

theorem bankHeld_flags (s : State) (b mv : Nat) :
    (bankHeld s b mv).xcvr.uv = setFlag s.xcvr.uv b (uvAt s b mv) ∧
    (bankHeld s b mv).xcvr.unpowered = setFlag s.xcvr.unpowered b (decide (mv < 2700)) := by
  have hfold : ∀ (l : List Nat) (u : State),
      (l.foldl (fun s p => if State.busIdle s p then s else s.modIp p (fun t => { t with uvHold := true })) u).xcvr.uv = u.xcvr.uv ∧
      (l.foldl (fun s p => if State.busIdle s p then s else s.modIp p (fun t => { t with uvHold := true })) u).xcvr.unpowered =
        u.xcvr.unpowered := fun l => by
    induction l with
    | nil => exact fun u => ⟨rfl, rfl⟩
    | cons p l ih =>
      intro u
      rw [List.foldl_cons, (ih _).1, (ih _).2]
      split <;> exact ⟨rfl, rfl⟩
  unfold bankHeld
  split
  · exact hfold _ _
  · exact ⟨rfl, rfl⟩

/-- The bank's flags after VBUS has stood at a level. -/
theorem vbusUndervoltage_flags (b mv : Nat) (s : State) : ∃ t : State, exec (.vbusUndervoltage b mv) s = .next t ∧
    t.xcvr.uv = setFlag s.xcvr.uv b (uvAt s b mv) ∧ t.xcvr.unpowered = setFlag s.xcvr.unpowered b (decide (mv < 2700)) := by
  have he : ∃ (c : Bool) (n : Nat), exec (.vbusUndervoltage b mv) s =
      .next ((s.portsStep (bankPorts b) (fun s => bankHeld s b mv)).raiseIf c n) := ⟨_, _, rfl⟩
  obtain ⟨c, n, he⟩ := he
  refine ⟨_, he, ?_⟩
  rw [Keeps.xcvr (keeps_raiseIf _ c n) rfl, portsStep_xcvr]
  exact bankHeld_flags s b mv

/-- Settles O24, command by command. -/
theorem modesAndSupplies : Obligations.ModesAndSupplies := by
  unfold Obligations.ModesAndSupplies
  refine ⟨⟨fun p s hi hm => ?_, fun p at' s hs => ?_, fun p s hi => ?_⟩, fun b mv s hb hl1 hl2 => ?_, fun b mv s hb hl => ?_⟩
  · have he : exec (.xcvrModeEffect p) s = .next (s.portStep p (fun s => s.modIp p (fun t => { t with
        modeEff := ipModeOf (s.fld (Reg.xcvrIpCtl p) 0 3), settleAt := some (s.time.now + 20000) }))) :=
      congrArg _ (if_pos ⟨hi, hm⟩)
    exact ⟨_, he, by rw [portStep_ip]; simp, by rw [portStep_ip]; simp, fun q hq => by rw [portStep_ip]; simp [hq],
      Keeps.mono (keeps_execXcvrModeEffect p s _ he) rfl⟩
  · have he : exec (.xcvrSettled p) s = .next ((s.advanceTo at').modIp p (fun t => { t with settleAt := none })) := by
      simp only [exec, execXcvrSettled, hs]
    exact ⟨_, he, by simp, by simp, rfl, keeps_execXcvrSettled p s _ he⟩
  · have he : exec (.lpStbEffect p) s = .next (s.portStep p (fun s => { s with xcvr := { s.xcvr with
        stbLow := if s.flag (Reg.xcvrLpCtl p) 0 then setErase p s.xcvr.stbLow else setInsert p s.xcvr.stbLow } })) :=
      congrArg _ (if_pos hi)
    exact ⟨_, he, congrArg (·.stbLow) (portStep_xcvr s p _), Keeps.mono (keeps_execLpStbEffect p s _ he) rfl⟩
  · obtain ⟨t, he, huv, hun⟩ := vbusUndervoltage_flags b mv s
    have hb1 : b < s.xcvr.uv.length := by omega
    have hb2 : b < s.xcvr.unpowered.length := by omega
    refine ⟨t, he, fun h => ?_, fun h h' => ?_, fun h h' => ?_, ?_, fun a ha => ?_,
      Keeps.mono (keeps_execVbusUndervoltage b mv s _ he) rfl⟩
    · rw [huv, setFlag_same hb1, uvAt, if_pos h]
    · rw [huv, setFlag_same hb1, uvAt, if_neg (by omega), if_pos h']
    · rw [huv, setFlag_same hb1, uvAt, if_neg (by omega), if_neg (by omega), List.getElem?_eq_getElem hb1]
      rfl
    · rw [hun, setFlag_same hb2]
    · rw [huv, hun, setFlag_other ha, setFlag_other ha]
      exact ⟨rfl, rfl⟩
  · have hx : ∀ t : State, exec (.violUnpowered b mv) s = .next t → t.xcvr.lUnpowered =
        setFlag s.xcvr.lUnpowered b (decide (mv < violMv b)) := fun t ht => by
      cases ht
      exact congrArg (·.lUnpowered) (portsStep_xcvr s _ _)
    refine ⟨_, rfl, ?_, fun a ha => ?_, Keeps.mono (keeps_execViolUnpowered b mv s _ rfl) rfl⟩
    · rw [hx _ rfl, setFlag_same (by omega)]
    · rw [hx _ rfl, setFlag_other ha]

/-! ## The Fireguard -/

/-- The transceiver of a sampled port. -/
def sampled (s : State) (p mv ua : Nat) : State :=
  s.modIp p (fun t => { t.addSample (sampleEnergy mv ua) with
    limiting := decide (min (1000 * s.fld (Reg.xcvrFgCtl p) 0 7) 80000 ≤ ua) })

theorem sampled_ip (s : State) (p mv ua : Nat) : ((sampled s p mv ua).ip p).energy = ((s.ip p).addSample (sampleEnergy mv ua)).energy ∧
    ((sampled s p mv ua).ip p).tripped = (s.ip p).tripped ∧
    ∀ now : Nat, ((sampled s p mv ua).ip p).nextTripSeq now = (s.ip p).nextTripSeq now := by
  simp only [sampled, modIp_ip, if_true]
  refine ⟨rfl, ?_, fun now => ?_⟩ <;> simp only [Transceiver.addSample] <;> split <;> rfl

theorem fgSample_eq (p mv ua : Nat) (s : State) : exec (.fgSample p mv ua) s = .next
    (if !((sampled s p mv ua).ip p).tripped &&
        decide (1000 * (sampled s p mv ua).fld (Reg.xcvrFgCtl p) 32 11 < ((sampled s p mv ua).ip p).energy)
      then (sampled s p mv ua).fgTrip p else sampled s p mv ua) := rfl

/-- The end of the frame that a trip cuts off changes of the transceiver no more than the mark of a driver held off. -/
theorem busFrameOver_ip (s : State) (p : Nat) :
    { (s.busFrameOver p).ip p with uvHold := false } = { s.ip p with uvHold := false } := by
  unfold State.busFrameOver
  rw [portStep_ip]
  have hk := Keeps.ip (keeps_endBusFrame s (s.serving p)) rfl p
  dsimp only
  split
  · rw [modIp_ip, if_pos rfl, hk]
  · rw [hk]

/-- A trip. -/
theorem fgTrip_ip (s : State) (p : Nat) : ((s.fgTrip p).ip p).tripped = true ∧
    ((s.fgTrip p).ip p).tripSeq = (s.ip p).nextTripSeq s.time.now ∧
    ((s.fgTrip p).ip p).coolUntil = s.time.now + 1000000 * s.fld (Reg.xcvrFgCtl p) 16 14 := by
  unfold State.fgTrip
  extract_lets seq cut u v
  have hu : ((u.ip p).tripped = true ∧ (u.ip p).tripSeq = seq) ∧
      (u.ip p).coolUntil = s.time.now + 1000000 * s.fld (Reg.xcvrFgCtl p) 16 14 := by
    have hk : ∀ x : State, Keeps (andBell [.engines, .ports, .frames, .rings, .cells, .free]) s x →
        x.time.now = s.time.now ∧ x.fld (Reg.xcvrFgCtl p) 16 14 = s.fld (Reg.xcvrFgCtl p) 16 14 := fun x hx =>
      ⟨Keeps.time_now hx rfl, Keeps.fld hx rfl _ _ _⟩
    simp only [u, portStep_ip, modIp_ip, if_true, true_and, and_self]
    split
    · obtain ⟨h1, h2⟩ := hk _ (keeps_tripCuts s p)
      rw [h1, h2]
    · rfl
  have hv : { v.ip p with uvHold := false } = { u.ip p with uvHold := false } := by
    simp only [v]
    split
    · exact busFrameOver_ip u p
    · rfl
  rw [Keeps.ip (keeps_raise _ _) rfl, Keeps.ip (keeps_count _ _) rfl]
  obtain ⟨⟨h1, h2⟩, h3⟩ := hu
  exact ⟨(congrArg (·.tripped) hv :).trans h1, (congrArg (·.tripSeq) hv :).trans h2, (congrArg (·.coolUntil) hv :).trans h3⟩

theorem regAt_xcvrCmd : regAt Reg.xcvrCmd = some ({ base := Reg.xcvrCmd, wc := 196863 }, 0) := by decide

/-- XCVR.CMD with FG_CLEAR alone, of a latched port. -/
theorem write_fgClear {s : State} {w : Path} {val : Word} (h : canWrite s w Reg.xcvrCmd val = true) (h1 : val.bit 16 = true)
    (h2 : val.bit 17 = false) :
    exec (.fgClear w val) s = .next (((s.setLock w false).clearLost w Reg.xcvrCmd).fgClear (val.field 0 8)) := by
  refine (write_reaches_wc regAt_xcvrCmd rfl rfl (by decide) rfl (by decide) rfl h rfl).trans ?_
  simp [State.writeEffect, State.unitEffect, State.xcvrCmd, Reg.xcvrCmd, Reg.bellPendClr, Reg.hostOwnHb, Reg.drayTxqCmd,
    Reg.scrivRecSel, Reg.scrivHashIn, Reg.lockZeroize, Reg.lockCmd, Reg.lockKmLock, Reg.lockSlotSel, Reg.stewCmd, Reg.tinkSliceSel,
    h1, h2]

/-- Settles O25, command by command. -/
theorem fireguard : Obligations.Fireguard := by
  unfold Obligations.Fireguard
  refine ⟨fun p mv ua s => ⟨fun hw => ?_, fun hw ht => ?_⟩, fun p s ht hc => ?_, fun p s ht hc hl hi => ?_,
    fun w val s h h1 h2 hp hl => ?_⟩
  · obtain ⟨hen, htr, -⟩ := sampled_ip s p mv ua
    have he := fgSample_eq p mv ua s
    have hlim : (sampled s p mv ua).fld (Reg.xcvrFgCtl p) 32 11 = s.fld (Reg.xcvrFgCtl p) 32 11 := rfl
    rw [hen, hlim, if_neg (by simp only [Bool.and_eq_true, decide_eq_true_eq]; omega)] at he
    exact ⟨_, he, hen, htr, keeps_modIp _ _ _⟩
  · obtain ⟨hen, htr, hseq⟩ := sampled_ip s p mv ua
    have he := fgSample_eq p mv ua s
    have hlim : (sampled s p mv ua).fld (Reg.xcvrFgCtl p) 32 11 = s.fld (Reg.xcvrFgCtl p) 32 11 := rfl
    rw [hen, hlim, htr, ht, if_pos (by simpa using hw)] at he
    obtain ⟨k1, k2, k3⟩ := fgTrip_ip (sampled s p mv ua) p
    exact ⟨_, he, k1, k3, k2.trans (hseq _), Keeps.mono (keeps_execFgSample p mv ua s _ he) rfl⟩
  · have he : exec (.fgCoolExpire p) s = .next (((s.advanceTo (s.ip p).coolUntil).modIp p (fun t => { t with
        cooled := true, latched := t.latched || (!(s.ip p).latched && s.fgLatches p (s.ip p).tripSeq) })).raiseIf
        (!(s.ip p).latched && s.fgLatches p (s.ip p).tripSeq) (320 + p)) := by
      simp [exec, execFgCoolExpire, ht, hc]
    refine ⟨_, he, ?_, ?_, ?_, keeps_execFgCoolExpire p s _ he⟩
    · rw [Keeps.ip (keeps_raiseIf _ _ _) rfl]; simp
    · rw [Keeps.ip (keeps_raiseIf _ _ _) rfl]; simp [ht]
    · rw [Keeps.time_now (keeps_raiseIf _ _ _) rfl]; rfl
  · have he : exec (.fgRetry p) s = .next (s.modIp p (fun t => { t with
        tripped := false, lastRetry := some s.time.now, windows := [], current := 0, samples := 0 })) := by
      simp [exec, execFgRetry, ht, hc, hl, hi]
    exact ⟨_, he, by simp, by simp [Transceiver.energy], by simp, fun q hq => by simp [hq], keeps_modIp _ _ _⟩
  · have hk := keeps_setLock_clearLost s w false Reg.xcvrCmd
    have hip := fun q => Keeps.ip hk rfl q
    have he := write_fgClear h h1 h2
    rw [State.fgClear, if_pos ⟨hp, (congrArg (·.latched) (hip _) :).trans hl⟩] at he
    exact ⟨_, he, by simp, by simp, by simp, fun q hq => by simp [hq, hip], Keeps.step (keeps_modIp _ _ _) rfl (Keeps.mono hk rfl)⟩

end Sys2Proof.Proofs.Transceivers

/-! SUPPORT. The takeover of a port by its spare (R156 to R158), while no rolling update and no Tinker test waits for it. -/

namespace Sys2Proof.Proofs.Handovers

open Sys2Proof.Machine Sys2Proof.Safety Sys2Proof.Laws

/-- With no rolling update and no test under way nothing follows a handover. -/
theorem handoverSettle_idle {s : State} (hr : s.sys.roll ≠ 1) (ht : s.tink.tests = []) : s.handoverSettle = s := by
  simp [State.handoverSettle, State.tinkSettle, State.rollSettle, hr, ht]

/-- The switch gives the port to the spare; its queues stay. -/
theorem switchEngine_port (s : State) (p n result : Nat) : (s.switchEngine p n result).port p = { s.port p with
    serving := n, shadow := none, phase := 0, result := result, proved := false, everProved := false, spareReady := false
    hoBy := .host } := by
  unfold State.switchEngine
  rw [Keeps.port (keeps_raise _ _) rfl, Keeps.port (keeps_count _ _) rfl, modPort_port, if_pos rfl]
  rfl

/-- A handover that fails lets the spare go; the serving engine serves on. -/
theorem handoverFail_port {s : State} (hr : s.sys.roll ≠ 1) (p result : Nat) :
    ((s.handoverFail p result).port p).shadow = none ∧ ((s.handoverFail p result).port p).serving = (s.port p).serving ∧
    ((s.handoverFail p result).port p).result = result := by
  have hn : ¬ ((s.port p).hoBy = .firmware ∧ s.sys.roll = 1) := fun h => hr h.2
  simp only [State.handoverFail, if_neg hn, State.releaseShadow]
  rw [Keeps.port (keeps_raise _ _) rfl, Keeps.port (keeps_count _ _) rfl, modPort_port, if_pos rfl, modPort_port, if_pos rfl]
  refine ⟨rfl, ?_, rfl⟩
  dsimp only
  split
  · rw [modEngine_port_eq]
  · rfl

theorem handoverFail_settled {s : State} (hr : s.sys.roll ≠ 1) (ht : s.tink.tests = []) (p result : Nat) :
    (s.handoverFail p result).handoverSettle = s.handoverFail p result := by
  have hn : ¬ ((s.port p).hoBy = .firmware ∧ s.sys.roll = 1) := fun h => hr h.2
  refine handoverSettle_idle ?_ ?_
  · simp only [State.handoverFail, if_neg hn]
    rw [Keeps.sys_roll (keeps_raise _ _) rfl, Keeps.sys_roll (keeps_count _ _) rfl, Keeps.sys_roll (keeps_modPort _ _ _) rfl,
      Keeps.sys_roll (keeps_releaseShadow _ _) rfl]
    exact hr
  · rw [Keeps.tink (keeps_handoverFail s p result) rfl, ht]

/-- Settles O26, command by command. -/
theorem takeover : Obligations.Takeover := by
  intro p n s hs hr ht
  refine ⟨fun hph hpr hbo => ?_, fun hph => ?_, fun hph => ?_, fun hph hev => ?_⟩
  · have he : exec (.takeoverCopy p) s = .next (s.modPort p (fun q => { q with phase := 2, proved := false })) := by
      simp [exec, execTakeoverCopy, hs, hph, hpr, hbo]
    exact ⟨_, he, by simp, by simp [hs], fun q hq => by simp [hq], keeps_modPort _ _ _⟩
  · have hset : (s.switchEngine p n 1).handoverSettle = s.switchEngine p n 1 := by
      refine handoverSettle_idle ?_ ?_
      · rw [Keeps.sys_roll (keeps_switchEngine s p n 1) rfl]
        exact hr
      · rw [Keeps.tink (keeps_switchEngine s p n 1) rfl, ht]
    have he : exec (.takeoverSwitch p false) s = .next (s.switchEngine p n 1) := by
      simp [exec, execTakeoverSwitch, hs, hph, hset]
    have hport := switchEngine_port s p n 1
    exact ⟨_, he, congrArg (·.serving) hport, congrArg (·.shadow) hport, congrArg (·.result) hport, congrArg (·.queues) hport,
      Keeps.mono (keeps_switchEngine s p n 1) rfl⟩
  · have he : exec (.takeoverSwitch p true) s = .next ((s.modPort p (fun q => { q with phase := 1 })).count Reg.xbarHoOverload) := by
      simp [exec, execTakeoverSwitch, hs, hph]
    refine ⟨_, he, by simp, by simp [State.serving], by simp, Keeps.step (keeps_count _ _) rfl (Keeps.mono (keeps_modPort s p _) rfl)⟩
  · have he : exec (.hoTimeout p) s = .next ((s.advanceTo (s.port p).hoUntil).handoverFail p 4) := by
      have hset := handoverFail_settled (s := s.advanceTo (s.port p).hoUntil) hr ht p 4
      simp [exec, execHoTimeout, hs, hph, hev, hset]
    obtain ⟨h1, h2, h3⟩ := handoverFail_port (s := s.advanceTo (s.port p).hoUntil) hr p 4
    refine ⟨_, he, h1, h2, h3, ?_, ?_⟩
    · rw [Keeps.time_now (keeps_handoverFail _ p 4) rfl]
      rfl
    · exact Keeps.step (keeps_handoverFail _ p 4) rfl (Keeps.mono (keeps_advanceTo s _) rfl)

end Sys2Proof.Proofs.Handovers

/-! SUPPORT. The Watchman's sweep (R211 to R214): a visit of a watch touches its own state, the walks and the counters; and the
report of a stall. -/

namespace Sys2Proof.Proofs.Sweeps

open Sys2Proof.Machine Sys2Proof.Safety Sys2Proof.Laws

/-! ## A visit -/

/-- A step on behalf of watch w leaves every other watch's state, and of the Watchman all but the states and the walks. -/
structure Visit (w : Nat) (s t : State) : Prop where
  keeps : Keeps [.counters, .watch] s t
  unit  : { t.watch with states := [], walks := [] } = { s.watch with states := [], walks := [] }
  other : ∀ v : Nat, v ≠ w → t.watchOf v = s.watchOf v

theorem Visit.refl (w : Nat) (s : State) : Visit w s s := ⟨Keeps.refl _ _, rfl, fun _ _ => rfl⟩

theorem Visit.trans {w : Nat} {s t u : State} (h : Visit w s t) (k : Visit w t u) : Visit w s u :=
  ⟨Keeps.trans h.keeps k.keeps, k.unit.trans h.unit, fun v hv => (k.other v hv).trans (h.other v hv)⟩

theorem visit_modWatch (s : State) (w : Nat) (f : WState → WState) : Visit w s (s.modWatch w f) :=
  ⟨Keeps.mono (keeps_modWatch s w f) rfl, rfl, fun v hv => by rw [modWatch_watchOf, if_neg hv]⟩

theorem visit_count (s : State) (w o : Nat) : Visit w s (s.count o) := ⟨Keeps.mono (keeps_count s o) rfl, rfl, fun _ _ => rfl⟩

theorem visit_startWalk (s : State) (w : Nat) (k : WalkKind) (v : Nat) (g : Bool) (e : WatchEntry) (c : Word) :
    Visit w s (s.startWalk k v g e c) :=
  ⟨Keeps.mono (keeps_startWalk s k v g e c) rfl, rfl, fun _ _ => rfl⟩

theorem visit_turnStale (s : State) (w : Nat) (x : Int) : Visit w s (s.turnStale w x) := by
  unfold State.turnStale
  dsimp only
  have h := (visit_modWatch s w (fun y => { y with st := 2, staleAt := some x })).trans (visit_count _ w Reg.watchStaleEvents)
  split
  · exact h
  · exact h.trans (visit_startWalk _ _ _ _ _ _ _)

theorem visit_retireWatch (s : State) (w : Nat) (g : Bool) : Visit w s (s.retireWatch w g) := by
  unfold State.retireWatch
  dsimp only
  split
  · exact visit_modWatch s w _
  · exact ((visit_modWatch s w _).trans (visit_modWatch _ w _)).trans (visit_startWalk _ _ _ _ _ _ _)

theorem visit_checkIndex (s : State) (w : Nat) : Visit w s (s.checkIndex w) := by
  unfold State.checkIndex
  split
  · exact .refl w s
  · refine (visit_retireWatch s w s.inactiveGen).trans ?_
    unfold State.countIf
    split
    · exact visit_count _ w _
    · exact .refl w _

/-- What a visit gives the watch before its deadline is judged: the window of the active entry (R212). -/
def windowSet (s : State) (w : Nat) : State :=
  s.modWatch w (fun x =>
    match x.tLast with
    | some t => { x with deadline := t + ((s.bank s.gen.activeGen).entry w).window }
    | none => x)

theorem visit_windowSet (s : State) (w : Nat) : Visit w s (windowSet s w) := visit_modWatch s w _

theorem visitWatch_eq (s : State) (w : Nat) : s.visitWatch w =
    if ((windowSet (s.checkIndex w) w).watchOf w).st = 1 ∧
        ((windowSet (s.checkIndex w) w).watchOf w).deadline < (windowSet (s.checkIndex w) w).time.now then
      (windowSet (s.checkIndex w) w).turnStale w (windowSet (s.checkIndex w) w).time.now
    else windowSet (s.checkIndex w) w := rfl

theorem visit_visitWatch (s : State) (w : Nat) : Visit w s (s.visitWatch w) := by
  rw [visitWatch_eq]
  have h := (visit_checkIndex s w).trans (visit_windowSet _ w)
  split
  · exact h.trans (visit_turnStale _ _ _)
  · exact h

/-- Before the first swap no index is unchecked. -/
theorem checkIndex_noSwap {s : State} (h : s.watch.swapNo = 0) (w : Nat) : s.checkIndex w = s := by
  simp [State.checkIndex, State.unchecked, h]

theorem turnStale_watchOf (s : State) (w : Nat) (x : Int) :
    (s.turnStale w x).watchOf w = { s.watchOf w with st := 2, staleAt := some x } := by
  have hm : ((s.modWatch w (fun y => { y with st := 2, staleAt := some x })).watchOf w) =
      { s.watchOf w with st := 2, staleAt := some x } := by simp
  unfold State.turnStale
  dsimp only
  split <;> exact hm

/-- The visit of a FRESH watch before the first swap. -/
theorem visitWatch_fresh {s : State} {w : Nat} {x : Int} (hn : s.watch.swapNo = 0) (hst : (s.watchOf w).st = 1)
    (hx : (s.watchOf w).tLast = some x) :
    (x + ((s.bank s.gen.activeGen).entry w).window < s.time.now →
      ((s.visitWatch w).watchOf w).st = 2 ∧ ((s.visitWatch w).watchOf w).staleAt = some (s.time.now : Int)) ∧
    ((s.time.now : Int) ≤ x + ((s.bank s.gen.activeGen).entry w).window → ((s.visitWatch w).watchOf w).st = 1) := by
  have hw : (windowSet s w).watchOf w =
      { s.watchOf w with deadline := x + ((s.bank s.gen.activeGen).entry w).window } := by
    rw [windowSet, modWatch_watchOf, if_pos rfl]
    generalize s.watchOf w = y at hx
    simp only [hx]
  have hnow : (windowSet s w).time.now = s.time.now := rfl
  rw [visitWatch_eq, checkIndex_noSwap hn, hw, hnow]
  refine ⟨fun h => ?_, fun h => ?_⟩
  · rw [if_pos ⟨hst, h⟩]
    rw [turnStale_watchOf]
    exact ⟨rfl, rfl⟩
  · rw [if_neg (by simp only [not_and]; intro _; omega), hw]
    exact hst

/-! ## The visits of one group -/

/-- The visits of the indices g + k for k of a list. -/
def visits (g : Nat) (l : List Nat) (s : State) : State := l.foldl (fun s k => s.visitWatch (g + k)) s

theorem visits_rest (g : Nat) (l : List Nat) (s : State) : Keeps [.counters, .watch] s (visits g l s) ∧
    { (visits g l s).watch with states := [], walks := [] } = { s.watch with states := [], walks := [] } ∧
    ∀ k : Nat, k ∉ l → (visits g l s).watchOf (g + k) = s.watchOf (g + k) := by
  induction l generalizing s with
  | nil => exact ⟨Keeps.refl _ _, rfl, fun _ _ => rfl⟩
  | cons a l ih =>
    obtain ⟨h1, h2, h3⟩ := ih (s.visitWatch (g + a))
    have hv := visit_visitWatch s (g + a)
    refine ⟨Keeps.trans hv.keeps h1, h2.trans hv.unit, fun k hk => ?_⟩
    simp only [List.mem_cons, not_or] at hk
    exact (h3 k hk.2).trans (hv.other _ (by omega))

theorem visits_uncheckedLeft (g : Nat) (l : List Nat) (s : State) :
    (visits g l s).watch.uncheckedLeft = s.watch.uncheckedLeft :=
  (congrArg WatchUnit.uncheckedLeft (visits_rest g l s).2.1 :)

/-- The sweep moves on to the next group. -/
def movedOn (s : State) (g : Nat) : State :=
  { s with watch := { s.watch with sweepPos := g + 1, uncheckedLeft := s.watch.uncheckedLeft - 1 } }

theorem keeps_movedOn (s : State) (g : Nat) : Keeps [.watch] s (movedOn s g) :=
  Keeps.with_watch (.inr ⟨rfl, rfl⟩) (.inr rfl) (.inl rfl) (Keeps.refl _ _)

theorem movedOn_watchOf (s : State) (g v : Nat) : (movedOn s g).watchOf v = s.watchOf v := rfl

theorem movedOn_uncheckedLeft (s : State) (g : Nat) : (movedOn s g).watch.uncheckedLeft = s.watch.uncheckedLeft - 1 := rfl

theorem keeps_group (s : State) :
    Keeps [.watch, .counters] s (movedOn (visits (16 * s.watch.sweepPos) (List.range 16) s) s.watch.sweepPos) :=
  Keeps.step (keeps_movedOn _ _) rfl (Keeps.mono (visits_rest _ _ s).1 rfl)

/-- A visit without an ECC error. -/
theorem sweepVisit_eq {s : State} (hf : s.watch.fenced = false) (hp : s.watch.sweepPos < 16384) :
    exec (.sweepVisit []) s = .next
      (movedOn (visits (16 * s.watch.sweepPos) (List.range 16) s) s.watch.sweepPos) := by
  have hn : ¬ (s.watch.fenced = true ∨ 16384 ≤ s.watch.sweepPos) := by simp [hf]; omega
  simp only [exec, execSweepVisit, if_neg hn, List.contains_nil, Bool.false_eq_true, if_false, visits, movedOn]

/-- The visit of a watch among those of its group. -/
theorem visits_at {g k : Nat} {l : List Nat} (hl : l.Nodup) (hk : k ∈ l) (s : State) : ∃ u : State,
    Keeps [.counters, .watch] s u ∧ u.watch.swapNo = s.watch.swapNo ∧ u.watchOf (g + k) = s.watchOf (g + k) ∧
    (visits g l s).watchOf (g + k) = (u.visitWatch (g + k)).watchOf (g + k) := by
  obtain ⟨l1, l2, rfl⟩ := List.append_of_mem hk
  have hd := List.nodup_append.mp hl
  have h1 : k ∉ l1 := fun h => hd.2.2 k h k (List.mem_cons_self) rfl
  have h2 : k ∉ l2 := (List.nodup_cons.mp hd.2.1).1
  obtain ⟨hk1, hu1, hw1⟩ := visits_rest g l1 s
  obtain ⟨-, -, hw2⟩ := visits_rest g l2 ((visits g l1 s).visitWatch (g + k))
  refine ⟨visits g l1 s, hk1, (congrArg (·.swapNo) hu1 :), hw1 k h1, ?_⟩
  have he : visits g (l1 ++ k :: l2) s = visits g l2 ((visits g l1 s).visitWatch (g + k)) := by
    simp [visits, List.foldl_append]
  rw [he, hw2 k h2]

/-! ## A stall -/

/-- The stall's fault source, F290, allows no reaction but NONE and FENCE (R406), and neither touches the mark of the stall. -/
theorem unitFault_stalled (s : State) (syn : Nat) : (s.unitFault 290 syn).watch.stalled = s.watch.stalled := by
  have hclass : ∀ u : State, (u.classify 290 syn).watch.stalled = u.watch.stalled := fun u => by
    have hreact : ∀ v : State, (v.react 290 (u.reactOf 290) syn).watch.stalled = v.watch.stalled := fun v => by
      have hr : u.reactOf 290 = 0 ∨ u.reactOf 290 = 1 := by
        unfold State.reactOf
        generalize u.fld (Reg.stewSrcCfg 290) 39 3 = r
        by_cases h : r = 1 <;> simp [reactAllowed, h]
      obtain h | h := hr <;> rw [h] <;> rfl
    unfold State.classify
    dsimp only
    rw [Keeps.watch_stalled (keeps_stewPins _) rfl, Keeps.watch_stalled (keeps_raise _ _) rfl,
      Keeps.watch_stalled (keeps_count _ _) rfl]
    split
    · rw [Keeps.watch_stalled (keeps_openWindows _ _) rfl, hreact]
      rfl
    · rw [hreact]
      rfl
  unfold State.unitFault State.stewEvent
  dsimp only
  split
  · split
    · rfl
    · split
      · rfl
      · split
        · rfl
        · split
          · exact hclass _
          · rfl
  · rfl

/-- Settles O27, command by command; a watch's verdict is that of its own visit among those of its group. -/
theorem sweepsAndDeadlines : Obligations.SweepsAndDeadlines := by
  unfold Obligations.SweepsAndDeadlines
  refine ⟨⟨fun s hf hp => ?_, fun s hf hp => ?_, fun s hf hs => ?_⟩, fun k x s hf hp hk hn => ?_⟩
  · exact ⟨_, sweepVisit_eq hf hp, rfl, by rw [movedOn_uncheckedLeft, visits_uncheckedLeft], keeps_group s⟩
  · have hn : ¬ (s.watch.fenced = true ∨ s.watch.sweepPos < 16384) := by simp [hf]; omega
    have he : exec .sweepComplete s = .next { s with watch := { s.watch with
        cutSwept := s.watch.cutSwept || s.watch.sweepAfterCut
        sweepPos := 0, sweepBegan := s.time.now, sweepAfterCut := true, stalled := false } } := congrArg _ (if_neg hn)
    exact ⟨_, he, rfl, rfl, rfl, rfl, keeps_execSweepComplete s _ he⟩
  · have hn : ¬ (s.watch.fenced = true ∨ s.watch.stalled = true) := by simp [hf, hs]
    have he : exec .sweepStall s = .next (State.unitFault { s.advanceTo (s.watch.sweepBegan + 50000) with
        watch := { (s.advanceTo (s.watch.sweepBegan + 50000)).watch with stalled := true } } 290 0) := by
      simp only [exec, execSweepStall, if_neg hn]
    refine ⟨_, he, ?_, ?_, keeps_execSweepStall s _ he⟩
    · rw [unitFault_stalled]
    · rw [Keeps.time_now (keeps_unitFault _ _ _) rfl]
      rfl
  · intro w hst hx
    obtain ⟨u, hu, hswap, hw, hat⟩ := visits_at (g := 16 * s.watch.sweepPos) List.nodup_range (List.mem_range.mpr hk) s
    have hnow := Keeps.time_now hu rfl
    have hgen := Keeps.gen_activeGen hu rfl
    have hbank := fun c => Keeps.bank hu rfl c
    obtain ⟨h1, h2⟩ := visitWatch_fresh (s := u) (w := w) (x := x) (hswap.trans hn) ((congrArg (·.st) hw :).trans hst)
      ((congrArg (·.tLast) hw :).trans hx)
    rw [hnow, hgen, hbank] at h1 h2
    refine ⟨fun h => ?_, fun h => ?_⟩
    · obtain ⟨k1, k2⟩ := h1 h
      exact ⟨_, sweepVisit_eq hf hp, by rw [movedOn_watchOf, hat]; exact k1, by rw [movedOn_watchOf, hat]; exact k2,
        keeps_group s⟩
    · exact ⟨_, sweepVisit_eq hf hp, by rw [movedOn_watchOf, hat]; exact h2 h, keeps_group s⟩

end Sys2Proof.Proofs.Sweeps

/-! SUPPORT. Records (R17, R193 to R198): what a change leaves of the record and of the others, the vote that follows it, and the
walks that turn records STALE (R215 to R217). -/

namespace Sys2Proof.Proofs.Records

open Sys2Proof.Machine Sys2Proof.Safety Sys2Proof.Laws

/-! ## A record changed -/

/-- A record but for what the Crier keeps of it for the cut. -/
def bare (r : Rec) : Rec := { r with pubVal := 0, pubState := 0, kept := false, chgEp := false }

/-- With nothing of the cut set to read the Crier has nothing to catch up with. -/
theorem crierCatchUp_empty {s : State} (h : s.crier.cutSet = []) : s.crierCatchUp = s := by
  simp [State.crierCatchUp, h]

theorem changeRec_recOf (s : State) (i : Nat) (r : Rec) :
    bare ((s.changeRec i r).recOf i) = bare r ∧ ∀ j : Nat, j ≠ i → (s.changeRec i r).recOf j = s.recOf j := by
  unfold State.changeRec
  dsimp only
  refine ⟨?_, fun j hj => ?_⟩
  · rw [Keeps.recOf (keeps_joinSet _ _) rfl, setRec_recOf, if_pos rfl]
    rfl
  · rw [Keeps.recOf (keeps_joinSet _ _) rfl, setRec_recOf, if_neg hj]

/-- Off the cut's instant a changed record joins the records changed since the cut. -/
theorem changeRec_changed {s : State} (h : s.atCut = false) (i : Nat) (r : Rec) : i ∈ (s.changeRec i r).crier.changed := by
  unfold State.changeRec State.joinSet
  dsimp only
  rw [if_neg (show ¬ State.atCut _ = true by
    intro hc
    rw [show State.atCut (s.setRec i _) = s.atCut from rfl, h] at hc
    cases hc)]
  simp

theorem writeRec_recOf (s : State) (i : Nat) (change : Bool) (r : Rec) :
    bare ((s.writeRec i change r).recOf i) = bare r ∧ ∀ j : Nat, j ≠ i → (s.writeRec i change r).recOf j = s.recOf j := by
  unfold State.writeRec
  split
  · obtain ⟨h1, h2⟩ := changeRec_recOf s i r
    have hj : ∀ j : Nat, ((s.changeRec i r).journalChange i).recOf j = (s.changeRec i r).recOf j :=
      fun j => Keeps.recOf (keeps_journalChange _ _) rfl j
    exact ⟨(congrArg bare (hj i)).trans h1, fun j hne => (hj j).trans (h2 j hne)⟩
  · exact ⟨by rw [setRec_recOf, if_pos rfl], fun j hj => by rw [setRec_recOf, if_neg hj]⟩

/-! ## The vote that follows -/

theorem applyVote_other (s : State) (v w : Nat) (d : Desc) (x : Vote) {j : Nat} (hj : j ≠ v) :
    (s.applyVote v w d x).recOf j = s.recOf j := by
  have hw : ∀ (u : State) (c : Bool) (r : Rec), (u.writeRec v c r).recOf j = u.recOf j := fun u c r =>
    (writeRec_recOf u v c r).2 j hj
  have hu : ((s.countN Reg.scrivOutvoted (bits4 x.outvoted)).countIf x.kept Reg.scrivNoMajority).recOf j = s.recOf j :=
    (Keeps.recOf (keeps_countIf _ _ _) rfl j).trans (Keeps.recOf (keeps_countN _ _ _) rfl j)
  unfold State.applyVote
  dsimp only
  split
  · rw [Keeps.recOf (keeps_count _ _) rfl, hw, hu]
  · split
    · rw [hw, hu]
    · split
      · split
        · rw [Keeps.recOf (keeps_count _ _) rfl, hw, hu]
        · rw [hw, hu]
      · rw [hw, hu]

theorem keeps_touchLines (s : State) (f : Nat → Nat) (l : List Nat) :
    Keeps [.counters, .scriv] s (l.foldl (fun s k => s.touchLine (f k)) s) :=
  Keeps.foldl (fun u k => keeps_touchLine u (f k)) (Keeps.refl _ s)

/-- A vote evaluated writes the voted record alone. -/
theorem evalVote_other (s : State) (g : Bool) (v w : Nat) {j : Nat} (hj : j ≠ v) : (s.evalVote g v w).recOf j = s.recOf j := by
  unfold State.evalVote
  dsimp only
  rw [applyVote_other _ _ _ _ _ hj]
  exact Keeps.recOf (keeps_touchLines s (fun k => lineOf v + k) _) rfl j

/-- The vote that a change brings about leaves the changed record. -/
theorem revote_self (s : State) (g : Bool) (i w : Nat) : (s.revote g i w).recOf i = s.recOf i := by
  unfold State.revote
  dsimp only
  split
  · next h => exact evalVote_other s g _ w h.1
  · rfl

/-- A record whose group has no vote brings none about. -/
theorem revote_none {s : State} {g : Bool} {i : Nat} (h : Desc.nsrc ((s.bank g).desc (i - i % 8)) = 0) (w : Nat) :
    s.revote g i w = s := by
  simp [State.revote, h]

/-! ## Walks -/

/-- The record of a deadline walk's SIGNAL op turns STALE where the walk hits it. -/
theorem walkRecord_deadline {s : State} {k : Walk} {i : Nat} (hk : k.kind = .deadline) (hc : s.crier.cutSet = [])
    (hq : (s.recOf i).state = qFresh ∨ (s.recOf i).state = qInvalid) (hw : (s.recOf i).lastWatch = k.watch)
    (ht : (s.recOf i).stamp.toNat ≤ k.cutoff.toNat) :
    bare ((s.walkRecord k i).recOf i) = bare { s.recOf i with state := qStale, cause := 0 } := by
  have hr : (s.touchLine (lineOf i)).recOf i = s.recOf i := Keeps.recOf (keeps_touchLine s _) rfl i
  have hhit : (((s.recOf i).state == qFresh || (s.recOf i).state == qInvalid) && (s.recOf i).lastWatch == k.watch &&
      decide ((s.recOf i).stamp.toNat ≤ k.cutoff.toNat)) = true := by
    simpa [hw, ht] using hq
  unfold State.walkRecord
  simp only [crierCatchUp_empty hc, hk, hr, hhit, if_true]
  rw [revote_self, Keeps.recOf (keeps_count _ _) rfl]
  exact (writeRec_recOf _ i true _).1

/-- A record stamped after the cutoff is passed by. -/
theorem walkRecord_later {s : State} {k : Walk} {i : Nat} (hk : k.kind = .deadline) (hc : s.crier.cutSet = [])
    (ht : k.cutoff.toNat < (s.recOf i).stamp.toNat) : s.walkRecord k i = s.touchLine (lineOf i) := by
  have hr : (s.touchLine (lineOf i)).recOf i = s.recOf i := Keeps.recOf (keeps_touchLine s _) rfl i
  have hno : ¬ (s.recOf i).stamp.toNat ≤ k.cutoff.toNat := by omega
  unfold State.walkRecord
  simp only [crierCatchUp_empty hc, hk, hr, decide_eq_false hno, Bool.and_false, Bool.false_eq_true, if_false]

/-- The state after the op word of a walk, before the walk moves on. -/
def opWalked (s : State) (k : Walk) : State :=
  if k.pos < k.opCount ∧ (s.opWord (k.opBase + k.pos)).field 62 2 = 0 then
    s.walkRecord k ((s.opWord (k.opBase + k.pos)).field 0 23) else s

/-- The walk at the head of the queue moves on, or ends with its last op word. -/
def walkMoved (s : State) (k : Walk) (r : List Walk) : State :=
  if k.pos + 1 < k.opCount then { s with watch := { s.watch with walks := { k with pos := k.pos + 1, begun := true } :: r } }
  else State.walkEnd { s with watch := { s.watch with walks := r } } k.watch

theorem walkOp_head {s : State} {k : Walk} {r : List Walk} (h : s.watch.walks = k :: r) (hf : s.watch.fenced = false) :
    exec .walkOp s = .next (walkMoved (opWalked s k) k r) := by
  simp only [exec, execWalkOp, h, hf, Bool.false_eq_true, if_false]
  rfl

theorem keeps_walks (s : State) (l : List Walk) : Keeps [.watch] s { s with watch := { s.watch with walks := l } } :=
  Keeps.with_watch (.inr ⟨rfl, rfl⟩) (.inr rfl) (.inl rfl) (Keeps.refl _ _)

theorem keeps_walkMoved (s : State) (k : Walk) (r : List Walk) : Keeps [.watch, .counters] s (walkMoved s k r) :=
  Keeps.ite (Keeps.mono (keeps_walks s _) rfl) (Keeps.step (keeps_walkEnd _ _) rfl (Keeps.mono (keeps_walks s r) rfl))

/-- The last walk of a watch that has no refresh ends. -/
theorem walkEnd_noRefresh {s : State} {w : Nat} (hp : s.walkPending w = false) (ht : (s.watchOf w).tLast = none) :
    s.walkEnd w = s.modWatch w (fun x => { x with st := 0 }) := by
  simp [State.walkEnd, hp, ht]

/-- Settles O28: the walk's op word acts on its record, and then the walk moves on or ends. -/
theorem walks : Obligations.Walks := by
  intro k r s hw hf hlt
  refine ⟨fun hmore => ?_, fun hk hop hc => ⟨fun hq hlw ht => ?_, fun ht => ?_⟩, fun hlast hop hall hnone => ?_⟩
  · have he := walkOp_head hw hf
    have hk := keeps_execWalkOp s _ he
    rw [walkMoved, if_pos hmore] at he hk
    exact ⟨_, he, rfl, hk⟩
  · have he := walkOp_head hw hf
    have hrec := walkRecord_deadline hk hc hq hlw ht
    have hm := Keeps.recOf (keeps_walkMoved (opWalked s k) k r) rfl ((s.opWord (k.opBase + k.pos)).field 0 23)
    rw [opWalked, if_pos ⟨hlt, hop⟩] at hm
    have hcore := (congrArg bare hm).trans hrec
    rw [opWalked, if_pos ⟨hlt, hop⟩] at he
    exact ⟨_, he, (congrArg (·.state) hcore :), (congrArg (·.cause) hcore :), (congrArg (·.value) hcore :),
      (congrArg (·.stamp) hcore :), keeps_execWalkOp s _ he⟩
  · have he := walkOp_head hw hf
    rw [opWalked, if_pos ⟨hlt, hop⟩, walkRecord_later hk hc ht] at he
    have hm := keeps_walkMoved (s.touchLine (lineOf ((s.opWord (k.opBase + k.pos)).field 0 23))) k r
    exact ⟨_, he, (Keeps.scriv_records hm rfl).trans (Keeps.scriv_records (keeps_touchLine s _) rfl),
      Keeps.step hm rfl (Keeps.mono (keeps_touchLine s _) rfl)⟩
  · have he := walkOp_head hw hf
    have hpend : State.walkPending { s with watch := { s.watch with walks := r } } k.watch = false := by
      simp only [State.walkPending, List.any_eq_false, beq_iff_eq]
      intro q hq hqw
      have := List.all_eq_true.mp hall q hq
      simp [hqw] at this
    rw [opWalked, if_neg (fun h => hop h.2), walkMoved, if_neg (by omega), walkEnd_noRefresh hpend hnone] at he
    exact ⟨_, he, rfl, by simp, Keeps.step (keeps_modWatch _ _ _) rfl (keeps_walks s r)⟩

end Sys2Proof.Proofs.Records

/-! SUPPORT. Writes of registers that hold only RWI fields (R61), and the captures that WSEL, REC_SEL and HASH_IN make
(R179, R206, R233). -/

namespace Sys2Proof.Proofs.Captures

open Sys2Proof.Machine Sys2Proof.Safety Sys2Proof.Laws Sys2Proof.Proofs.RegisterBehaviour

/-! ## A register of RWI fields alone -/

/-- A value whose ranged fields lie within their ranges stays as it is written. -/
theorem newWord_inRange (s : State) (a : Access) (g : RegGroup) (ho : a.op = .plain)
    (hc : g.clamps.foldl (fun w c => c.apply w) a.val = a.val) (h : ¬ (0x151000 ≤ a.off ∧ a.off < 0x153600)) :
    s.newWord a g = a.val := by
  have h1 : ¬ (0x151000 ≤ a.off ∧ a.off < 0x151800 ∧ a.off % 0x40 = 8) := by omega
  have h2 : ¬ (0x153000 ≤ a.off ∧ a.off < 0x153600 ∧ a.off % 0x10 = 0 ∧ a.val.field 16 6 ≤ a.val.field 8 6) := by omega
  simp only [State.newWord, ho, WriteOp.apply, hc, afterClamp, h1, h2, if_false]

/-- What the fabric leaves of a write to such a register: its fields read what was written, and no other register changes. -/
theorem write_reaches_rwi {s : State} {p : Path} {off i : Nat} {val : Word} {g : RegGroup} (hr : regAt off = some (g, i))
    (hrw : g.rw = 0) (hrwi : g.rwi ≠ 0) (hc : g.clamps.foldl (fun w c => c.apply w) val = val) (ho : canonicalOff off = off) (hlt : off < 0x200000)
    (h8 : off % 8 = 0) (hx : ¬ (0x151000 ≤ off ∧ off < 0x153600)) (h : canWrite s p off val = true)
    (hl : s.lcDataLocked off = false) : ∃ u : State,
    s.write p off val = .next (u.writeEffect { path := p, off := off, op := .plain, val := val, flashOk := true }
      (s.flag Reg.genEpochCtl 2)) ∧
    Keeps [.inForce, .locks, .parity] s u ∧ u.reg off = mixWord (BitVec.ofNat 64 g.rwi) (s.reg off) val ∧
    ∀ o : Nat, o ≠ off → u.reg o = s.reg o := by
  have ht : g.takes .plain = true := by simp [RegGroup.takes, hrwi]
  refine ⟨_, write_reaches hr ho hlt h8 ht h hl,
    Keeps.step (Ownership.keeps_writeFields_rwi _ _ hrw) rfl (Keeps.mono (keeps_setLock s p false) rfl), ?_, fun o hne => ?_⟩
  · rw [writeFields_reg, if_pos ⟨rfl, hrwi⟩, newWord_inRange _ _ _ rfl hc hx, Keeps.reg (keeps_setLock s p false) rfl]
  · rw [writeFields_reg, if_neg (fun h => hne h.1), Keeps.reg (keeps_setLock s p false) rfl]

/-- A field all of whose bits are RWI reads what was written. -/
theorem fld_rwi {u : State} {off rwi : Nat} {old val : Word} (h : u.reg off = mixWord (BitVec.ofNat 64 rwi) old val) {lo len : Nat}
    (hm : ∀ i < len, (BitVec.ofNat 64 rwi).getLsbD (lo + i) = true) : u.fld off lo len = val.field lo len := by
  rw [State.fld, h, field_mixWord hm]

/-! ## The three captures -/

theorem regAt_watchWsel : regAt Reg.watchWsel = some ({ base := 532488, rwi := 262143, live := 18446744073709289472 }, 0) := by
  decide

theorem regAt_scrivRecSel :
    regAt Reg.scrivRecSel = some ({ base := 590104, rwi := 8388607, live := 18446744073701163008 }, 0) := by decide

theorem regAt_scrivHashIn :
    regAt Reg.scrivHashIn = some ({ base := 590088, rwi := 68719476735, live := 18446744004990074880 }, 0) := by decide

/-- The effect of a register of the Watchman and the Scrivener. -/
theorem writeEffect_watch {s : State} {a : Access}
    (h : a.off = Reg.watchWsel ∨ a.off = Reg.watchForceCmd ∨ a.off = Reg.scrivRecSel ∨ a.off = Reg.scrivHashIn)
    (hop : a.op = .plain) (hold : Bool) : s.writeEffect a hold = s.watchEffect a a.val := by
  obtain h | h | h | h := h <;>
    simp [State.writeEffect, hop, h, Reg.watchWsel, Reg.watchForceCmd, Reg.scrivRecSel, Reg.scrivHashIn]

theorem watchEffect_recSel {s : State} {a : Access} (h : a.off = Reg.scrivRecSel) (wc : Word) :
    s.watchEffect a wc = s.captureRec (s.fld Reg.scrivRecSel 0 23) := by
  simp [State.watchEffect, h, Reg.scrivRecSel, Reg.watchWsel, Reg.watchForceCmd]

theorem watchEffect_hashIn {s : State} {a : Access} (h : a.off = Reg.scrivHashIn) (wc : Word) :
    s.watchEffect a wc = s.captureHash (s.reg Reg.scrivHashIn) := by
  simp [State.watchEffect, h, Reg.scrivHashIn, Reg.scrivRecSel, Reg.watchWsel, Reg.watchForceCmd]

/-- The lowest two bits of WSTAT are the watch's state. -/
theorem captureWatch_captured (s : State) (w : Nat) : (s.captureWatch w).watch.captured.length = 4 ∧
    (s.captureWatch w).watch.captured.head?.map (fun x => x.field 0 2) = some ((s.watchOf w).st % 4) ∧
    (s.captureWatch w).watch.states = s.watch.states := by
  refine ⟨rfl, ?_, rfl⟩
  simp only [State.captureWatch, List.head?_cons, Option.map_some, Option.some.injEq, pack, List.foldl_cons, List.foldl_nil,
    Word.field, natField, BitVec.toNat_ofNat]
  omega

/-- Settles O29: each selector reads what was written, and its effect captures what it names. -/
theorem captures : Obligations.Captures := by
  intro p val s
  refine ⟨fun h => ?_, fun h => ?_, fun h => ?_⟩
  · obtain ⟨u, he, hk, hreg, -⟩ := write_reaches_rwi regAt_watchWsel rfl (by decide) rfl rfl (by decide) rfl (by decide) h rfl
    rw [writeEffect_watch (.inl rfl) rfl, State.watchEffect, if_pos rfl, fld_rwi hreg (by decide)] at he
    obtain ⟨h1, h2, h3⟩ := captureWatch_captured u (val.field 0 18)
    rw [Keeps.watchOf hk rfl] at h2
    exact ⟨_, he, h1, h2, h3.trans (Keeps.watch_states hk rfl), Keeps.step (keeps_captureWatch _ _) rfl (Keeps.mono hk rfl)⟩
  · obtain ⟨u, he, hk, hreg, -⟩ := write_reaches_rwi regAt_scrivRecSel rfl (by decide) rfl rfl (by decide) rfl (by decide) h rfl
    rw [writeEffect_watch (.inr (.inr (.inl rfl))) rfl, watchEffect_recSel rfl,
      fld_rwi hreg (by decide)] at he
    have hrec : ∀ i : Nat, (u.touchLine (lineOf (val.field 0 23))).recOf i = s.recOf i := fun i => Keeps.recOf hk rfl i
    refine ⟨_, he, ?_, ?_, Keeps.step (keeps_captureRec _ _) rfl (Keeps.mono hk rfl)⟩
    · simp only [State.captureRec, hrec]
    · exact (Keeps.scriv_records (keeps_captureRec u _) rfl).trans (Keeps.scriv_records hk rfl)
  · obtain ⟨u, he, hk, hreg, -⟩ := write_reaches_rwi regAt_scrivHashIn rfl (by decide) rfl rfl (by decide) rfl (by decide) h rfl
    have hf1 : (u.reg Reg.scrivHashIn).field 29 7 = val.field 29 7 := fld_rwi hreg (by decide)
    have hf2 : (u.reg Reg.scrivHashIn).field 0 29 = val.field 0 29 := fld_rwi hreg (by decide)
    rw [writeEffect_watch (.inr (.inr (.inr rfl))) rfl, watchEffect_hashIn rfl] at he
    refine ⟨_, he, ?_, Keeps.step (keeps_captureHash _ _) rfl (Keeps.mono hk rfl)⟩
    rw [← hf1, ← hf2]
    rfl

end Sys2Proof.Proofs.Captures

/-! SUPPORT. Records forced and released by hand (R224, R225). -/

namespace Sys2Proof.Proofs.Forces

open Sys2Proof.Machine Sys2Proof.Safety Sys2Proof.Laws Sys2Proof.Proofs.RegisterBehaviour Sys2Proof.Proofs.Records

/-! ## A change that brings nothing about -/

/-- An operation that keeps the epoch, the clock and the Crier keeps whether this is the instant of the cut. -/
theorem keeps_atCut {l : List Part} {s t : State} (hk : Keeps l s t) (he : l.contains .epoch = false)
    (hc : l.contains .crier = false) (ht : l.contains .clock = false) : t.atCut = s.atCut := by
  simp only [State.atCut, Keeps.gen_cutDone hk he, Keeps.gen_st hk he, Keeps.crier_cutAt hk hc, Keeps.time_now hk ht]

/-- A record that nothing follows a change of: no vote reads it and its signal is not persistent. -/
def Plain (s : State) (g : Bool) (i : Nat) : Prop :=
  Desc.pclass ((s.bank s.gen.activeGen).desc i) = 0 ∧ Desc.nsrc ((s.bank g).desc (i - i % 8)) = 0

theorem Plain.of_keeps {l : List Part} {s t : State} {g : Bool} {i : Nat} (h : Plain s g i) (hk : Keeps l s t)
    (hb : l.contains .banks = false) (hc : l.contains .commit = false) : Plain t g i := by
  simpa only [Plain, Keeps.bank hk hb, Keeps.gen_activeGen hk hc] using h

/-- A change of a signal that is not persistent stays out of the journal. -/
theorem writeRec_plain {s : State} {g : Bool} {i : Nat} (h : Plain s g i) (r : Rec) :
    s.writeRec i true r = s.changeRec i r := by
  have hd := (h.of_keeps (keeps_changeRec s i r) rfl rfl).1
  simp only [State.writeRec, State.journalChange, if_true, hd]

/-- A plain record changed and counted: the record is what was written, and it joins the records changed since the cut. -/
theorem changed_counted {s : State} (hc : s.atCut = false) (i : Nat) (r : Rec) (o : Nat) :
    bare ((((s.touchLine (lineOf i)).changeRec i r).count o).recOf i) = bare r ∧
    (∀ j : Nat, j ≠ i → (((s.touchLine (lineOf i)).changeRec i r).count o).recOf j = s.recOf j) ∧
    i ∈ (((s.touchLine (lineOf i)).changeRec i r).count o).crier.changed ∧
    Keeps [.records, .scriv, .crier, .counters] s (((s.touchLine (lineOf i)).changeRec i r).count o) := by
  have ht := keeps_touchLine s (lineOf i)
  have hn := keeps_count ((s.touchLine (lineOf i)).changeRec i r) o
  obtain ⟨h1, h2⟩ := changeRec_recOf (s.touchLine (lineOf i)) i r
  have ha : (s.touchLine (lineOf i)).atCut = false := hc
  refine ⟨(congrArg bare (Keeps.recOf hn rfl i)).trans h1, fun j hj => ?_, ?_, ?_⟩
  · rw [Keeps.recOf hn rfl, h2 j hj, Keeps.recOf ht rfl]
  · rw [Keeps.crier hn rfl rfl rfl]
    exact changeRec_changed ha i r
  · exact Keeps.step hn rfl (Keeps.step (keeps_changeRec _ _ _) rfl (Keeps.mono ht rfl))

/-- FORCE of a plain record. -/
theorem forceRec_plain {s : State} {i : Nat} (hc : s.crier.cutSet = []) (hp : Plain s s.gen.activeGen i) (v : Word) :
    s.forceRec i v = ((s.touchLine (lineOf i)).changeRec i
      { s.recOf i with value := v, stamp := s.tai, state := qForced, cause := 0, hand := true }).count Reg.watchForces := by
  have ht := keeps_touchLine s (lineOf i)
  have hpt := hp.of_keeps ht rfl rfl
  unfold State.forceRec
  simp only [crierCatchUp_empty hc, Keeps.recOf ht rfl, Keeps.tai ht rfl rfl, writeRec_plain hpt]
  rw [revote_none]
  have hk := keeps_changeRec (s.touchLine (lineOf i)) i
    { s.recOf i with value := v, stamp := s.tai, state := qForced, cause := 0, hand := true }
  have h := (hpt.of_keeps hk rfl rfl).2
  rwa [← show _ = s.gen.activeGen from (Keeps.gen_activeGen hk rfl).trans (Keeps.gen_activeGen ht rfl)] at h

/-- RELEASE of a plain record that is forced. -/
theorem releaseRec_plain {s : State} {i : Nat} (hc : s.crier.cutSet = []) (hp : Plain s s.gen.activeGen i)
    (hn : Desc.nsrc ((s.bank s.gen.activeGen).desc i) = 0) (hf : (s.recOf i).state = qForced) :
    s.releaseRec i = ((s.touchLine (lineOf i)).changeRec i
      { s.recOf i with state := qStale, cause := 0, hand := false }).count Reg.watchReleases := by
  have ht := keeps_touchLine s (lineOf i)
  have hpt := hp.of_keeps ht rfl rfl
  unfold State.releaseRec
  simp only [crierCatchUp_empty hc, hf, ne_eq, not_true_eq_false, if_false, Keeps.bank ht rfl, Keeps.gen_activeGen ht rfl, hn,
    writeRec_plain hpt]
  rw [revote_none ((hpt.of_keeps (keeps_changeRec _ _ _) rfl rfl).2)]

theorem regAt_watchForceCmd : regAt Reg.watchForceCmd = some ({ base := 532560, wc := 3, guarded := true }, 0) := by decide

/-- The state that the fabric hands to FORCE_CMD's effect. -/
abbrev entered (s : State) (p : Path) : State := (s.setLock p false).clearLost p Reg.watchForceCmd

/-- FORCE_CMD as it reaches the Watchman. -/
theorem write_forceCmd {s : State} {p : Path} {val : Word} (h : canWrite s p Reg.watchForceCmd val = true) :
    s.write p Reg.watchForceCmd val = .next ((entered s p).forceCmd val) := by
  refine (write_reaches_wc regAt_watchForceCmd rfl rfl (by decide) rfl (by decide) rfl h rfl).trans ?_
  rw [Captures.writeEffect_watch (.inr (.inl rfl)) rfl, State.watchEffect, if_neg (by simp [Reg.watchForceCmd, Reg.watchWsel]),
    if_pos rfl]

/-- Settles O30: FORCE and RELEASE write the one record, which no vote and no journal follow. -/
theorem forces : Obligations.Forces := by
  intro p val s i h hc ha hv hcl hn
  have hk : Keeps [.locks, .parity] s (entered s p) := keeps_setLock_clearLost s p false _
  have he := write_forceCmd h
  have hsel : (entered s p).fld Reg.watchForceSel 0 23 = i := Keeps.fld hk rfl _ _ _
  have hg : (entered s p).gen.activeGen = s.gen.activeGen := Keeps.gen_activeGen hk rfl
  have hp : Plain (entered s p) (entered s p).gen.activeGen i := by
    rw [hg]
    exact Plain.of_keeps (s := s) ⟨hcl, hv⟩ hk rfl rfl
  have hn' : Desc.nsrc (((entered s p).bank (entered s p).gen.activeGen).desc i) = 0 := by
    rw [hg, Keeps.bank hk rfl]
    exact hn
  have ha' : (entered s p).atCut = false := (keeps_atCut hk rfl rfl rfl).trans ha
  have hc' : (entered s p).crier.cutSet = [] := (Keeps.crier_cutSet hk rfl).trans hc
  have hr : ∀ j : Nat, (entered s p).recOf j = s.recOf j := Keeps.recOf hk rfl
  refine ⟨fun h0 h1 => ?_, fun h0 h1 hf hh => ?_, fun h0 h1 => ?_⟩
  · have hf : (entered s p).forceCmd val = (entered s p).forceRec i ((entered s p).reg Reg.watchForceVal) := by
      simp [State.forceCmd, h0, h1, hsel]
    rw [hf, forceRec_plain hc' hp, hr, Keeps.reg hk rfl, Keeps.tai hk rfl rfl] at he
    obtain ⟨h2, h3, h4, h5⟩ := changed_counted ha' i
      { s.recOf i with value := s.reg Reg.watchForceVal, stamp := s.tai, state := qForced, cause := 0, hand := true } Reg.watchForces
    exact ⟨_, he, (congrArg (·.value) h2 :), (congrArg (·.state) h2 :), (congrArg (·.cause) h2 :),
      (congrArg (·.hand) h2 :), (congrArg (·.stamp) h2 :), h4,
      fun j hj => (h3 j hj).trans (hr j), Keeps.step h5 rfl (Keeps.mono hk rfl)⟩
  · have hrel : (entered s p).forceCmd val = (entered s p).releaseRec i := by
      simp [State.forceCmd, h0, h1, hsel]
    rw [hrel, releaseRec_plain hc' hp hn' ((congrArg (·.state) (hr i)).trans hf), hr] at he
    obtain ⟨h2, h3, -, h5⟩ := changed_counted ha' i
      { s.recOf i with state := qStale, cause := 0, hand := false } Reg.watchReleases
    exact ⟨_, he, (congrArg (·.state) h2 :), (congrArg (·.hand) h2 :),
      (congrArg (·.value) h2 :), fun j hj => (h3 j hj).trans (hr j),
      Keeps.step h5 rfl (Keeps.mono hk rfl)⟩
  · have hbad : (entered s p).forceCmd val = (entered s p).count Reg.genBadAccess := by
      simp [State.forceCmd, h0, h1]
    rw [hbad] at he
    refine ⟨_, he, ?_, Keeps.step (keeps_count _ _) rfl (Keeps.mono hk rfl)⟩
    rw [count_counter, if_pos rfl, Keeps.counter hk rfl]

end Sys2Proof.Proofs.Forces

/-! SUPPORT. Line fills of the Pantry (R201, R202). -/

namespace Sys2Proof.Proofs.Pantry

open Sys2Proof.Machine Sys2Proof.Safety Sys2Proof.Laws Sys2Proof.Proofs.Records Sys2Proof.Proofs.Forces

/-- Off the cut's instant a change adds to the records changed since the cut, and leaves what the Crier has still to read. -/
theorem changeRec_crier {s : State} (h : s.atCut = false) (i : Nat) (r : Rec) :
    (s.changeRec i r).crier = { s.crier with changed := setInsert i s.crier.changed } := by
  unfold State.changeRec State.joinSet
  dsimp only
  rw [if_neg (show ¬ State.atCut _ = true by
    intro hc
    rw [show State.atCut (s.setRec i _) = s.atCut from rfl, h] at hc
    cases hc)]
  rfl

/-- And it is still not the cut's instant. -/
theorem changeRec_atCut {s : State} (h : s.atCut = false) (i : Nat) (r : Rec) : (s.changeRec i r).atCut = false := by
  have hk := keeps_changeRec s i r
  rw [State.atCut, changeRec_crier h, Keeps.gen_cutDone hk rfl, Keeps.gen_st hk rfl, Keeps.time_now hk rfl]
  exact h

/-- An INVALID record is never journalled. -/
theorem writeRec_invalid (s : State) (i : Nat) {r : Rec} (h : r.state = qInvalid) : s.writeRec i true r = s.changeRec i r := by
  have hr : ((s.changeRec i r).recOf i).state = qInvalid := (congrArg (·.state) (changeRec_recOf s i r).1 :).trans h
  have hj : ∀ p ty : Nat, (s.changeRec i r).journalStage i p ty ((s.changeRec i r).recOf i) = s.changeRec i r := by
    intro p ty
    unfold State.journalStage
    dsimp only
    rw [if_pos (by simp [hr, qInvalid, qFresh, qSubstituted])]
  simp only [State.writeRec, if_true, State.journalChange, hj, ite_self]

/-- A record whose group has no vote is lost: INVALID with cause LOST, its words as read, and the others stay. -/
theorem loseRec_lost {s : State} {i : Nat} (hc : s.crier.cutSet = []) (ha : s.atCut = false)
    (hv : Desc.nsrc ((s.bank s.gen.activeGen).desc (i - i % 8)) = 0) (v t : Word) :
    bare ((s.loseRec i v t).recOf i) = bare { s.recOf i with value := v, stamp := t, state := qInvalid, cause := 7, hand := false } ∧
    (∀ j : Nat, j ≠ i → (s.loseRec i v t).recOf j = s.recOf j) ∧ (s.loseRec i v t).crier.cutSet = [] ∧ (s.loseRec i v t).atCut = false ∧
    Keeps [.records, .crier] s (s.loseRec i v t) := by
  unfold State.loseRec
  simp only [crierCatchUp_empty hc]
  rw [writeRec_invalid _ _ rfl]
  have hk := keeps_changeRec s i { s.recOf i with value := v, stamp := t, state := qInvalid, cause := 7, hand := false }
  obtain ⟨h1, h2⟩ := changeRec_recOf s i { s.recOf i with value := v, stamp := t, state := qInvalid, cause := 7, hand := false }
  have hset := changeRec_crier ha i { s.recOf i with value := v, stamp := t, state := qInvalid, cause := 7, hand := false }
  have hat := changeRec_atCut ha i { s.recOf i with value := v, stamp := t, state := qInvalid, cause := 7, hand := false }
  generalize s.changeRec i _ = u at hk h1 h2 hset hat ⊢
  have hkr := keeps_setRec u i { u.recOf i with kept := false }
  rw [revote_none (by rw [Keeps.bank hkr rfl, Keeps.bank hk rfl]; exact (Keeps.gen_activeGen hk rfl).symm ▸ hv)]
  refine ⟨?_, fun j hj => ?_, ?_, hat, Keeps.step hkr rfl (Keeps.mono hk rfl)⟩
  · rw [setRec_recOf, if_pos rfl]
    exact h1
  · rw [setRec_recOf, if_neg hj, h2 j hj]
  · exact (congrArg (·.cutSet) hset :).trans hc

/-- A fill brings its line into the set's ways. -/
theorem touchLine_pantry {s : State} {line : Nat} (h : 0 < s.pantryWays (line % 16384)) :
    line ∈ Table.get (fun _ => []) (s.touchLine line).scriv.pantry (line % 16384) := by
  have hget : Table.get (fun _ => []) (s.touchLine line).scriv.pantry (line % 16384) =
      (line :: (Table.get (fun _ => []) s.scriv.pantry (line % 16384)).filter (fun l => l != line)).take
        (s.pantryWays (line % 16384)) := by
    unfold State.touchLine
    dsimp only
    rw [count_scriv, get_set, if_pos rfl]
  obtain ⟨n, hn⟩ := Nat.exists_eq_succ_of_ne_zero (Nat.ne_of_gt h)
  rw [hget, hn]
  exact List.mem_cons_self

/-- The line as the fill finds it: where it does not stand in the Pantry it is touched. -/
def fetched (s : State) (line : Nat) : State :=
  if (Table.get (fun _ => []) s.scriv.pantry (line % 16384)).contains line then s else s.touchLine line

theorem keeps_fetched (s : State) (line : Nat) : Keeps [.counters, .scriv] s (fetched s line) := by
  unfold fetched
  exact Keeps.ite (Keeps.refl _ s) (keeps_touchLine s line)

/-- Settles O33: a good fill leaves the records, and a bad one loses both of its line. -/
theorem pantryFills : Obligations.PantryFills := by
  intro line s hline
  refine ⟨fun hw => ?_, fun v0 t0 v1 t1 hc ha hv => ?_⟩
  · have he : exec (.pantryLineFill line none) s = .next (fetched s line) := rfl
    refine ⟨_, he, ?_, Keeps.scriv_records (keeps_fetched s line) rfl, Keeps.mono (keeps_fetched s line) rfl⟩
    unfold fetched
    split
    · next hp => simpa using hp
    · exact touchLine_pantry hw
  · have hk := keeps_fetched s line
    have he : exec (.pantryLineFill line (some (v0, t0, v1, t1))) s =
      .next (((((fetched s line).loseRec (2 * line) v0 t0).loseRec (2 * line + 1) v1 t1).count Reg.scrivDataLost).unitFault 291
        (if (Table.get (fun _ => []) s.scriv.pantry (line % 16384)).contains line then line % 16384 + 1 else 0)) := rfl
    generalize fetched s line = u at hk he
    have hv' : Desc.nsrc ((u.bank u.gen.activeGen).desc (2 * line - 2 * line % 8)) = 0 := by
      rw [Keeps.bank hk rfl, Keeps.gen_activeGen hk rfl]
      exact hv
    have ha' : u.atCut = false := (keeps_atCut hk rfl rfl rfl).trans ha
    obtain ⟨h1, -, hc1, ha2, hk1⟩ := loseRec_lost (i := 2 * line) ((Keeps.crier_cutSet hk rfl).trans hc) ha' hv' v0 t0
    generalize u.loseRec (2 * line) v0 t0 = w at h1 hc1 ha2 hk1 he
    have hv2 : Desc.nsrc ((w.bank w.gen.activeGen).desc (2 * line + 1 - (2 * line + 1) % 8)) = 0 := by
      rw [Keeps.bank hk1 rfl, Keeps.gen_activeGen hk1 rfl, show 2 * line + 1 - (2 * line + 1) % 8 = 2 * line - 2 * line % 8 by omega]
      exact hv'
    obtain ⟨h2, h3, -, -, hk2⟩ := loseRec_lost (i := 2 * line + 1) hc1 ha2 hv2 v1 t1
    generalize w.loseRec (2 * line + 1) v1 t1 = x at h2 h3 hk2 he
    have hf : Keeps faultParts x _ := Keeps.step (keeps_unitFault (x.count Reg.scrivDataLost) 291
      (if (Table.get (fun _ => []) s.scriv.pantry (line % 16384)).contains line then line % 16384 + 1 else 0)) rfl
      (Keeps.mono (keeps_count x Reg.scrivDataLost) rfl)
    have hx := fun j : Nat => Keeps.recOf hf rfl j
    have e0 := (congrArg bare ((hx (2 * line)).trans (h3 _ (by omega)))).trans h1
    have e1 := (congrArg bare (hx (2 * line + 1))).trans h2
    refine ⟨_, he, (congrArg (·.state) e0 :), (congrArg (·.cause) e0 :), (congrArg (·.value) e0 :),
      (congrArg (·.state) e1 :), (congrArg (·.cause) e1 :), (congrArg (·.value) e1 :), ?_⟩
    exact Keeps.trans (Keeps.mono hk rfl) (Keeps.trans (Keeps.mono hk1 rfl) (Keeps.trans (Keeps.mono hk2 rfl) (Keeps.mono hf rfl)))

end Sys2Proof.Proofs.Pantry

/-! SUPPORT. Frames in flight, and how their ops execute and their results reach the records (R181 to R193, R208). -/

namespace Sys2Proof.Proofs.Decoding

open Sys2Proof.Machine Sys2Proof.Safety Sys2Proof.Laws Sys2Proof.Proofs.Records Sys2Proof.Proofs.Forces

/-! ## Frames in flight -/

theorem modFrame_frame? (s : State) (fid : Nat) (g : Machine.Frame → Machine.Frame) :
    (s.modFrame fid g).frame? fid = (s.frame? fid).map g := by
  unfold State.modFrame
  cases h : s.frame? fid with
  | none => exact h
  | some f => rw [setFrame_frame?, if_pos rfl, Option.map_some]

/-- A frame that is settled is the one that was there, or none. -/
theorem settleFrame_frame? {s : State} {fid : Nat} {g : Machine.Frame} (h : (s.settleFrame fid).frame? fid = some g) :
    s.frame? fid = some g := by
  unfold State.settleFrame at h
  split at h
  · next f hf =>
    split at h
    · simp [State.frame?, find?_erase] at h
    · exact h
  · exact h

theorem endDecode_committed {s : State} {fid : Nat} {g : Machine.Frame} (h : (s.endDecode fid).frame? fid = some g) :
    g.committed = true := by
  have h' := settleFrame_frame? h
  rw [modFrame_frame?] at h'
  obtain ⟨f, -, rfl⟩ := Option.map_eq_some_iff.mp h'
  rfl

/-! ## One op -/

theorem runOp_opPos (s : State) (f : Machine.Frame) (o : OpWord) : (s.runOp f o).opPos = f.opPos + 1 := by
  unfold State.runOp
  dsimp only
  repeat' split
  all_goals rfl

/-- An unconditional SIGNAL op adds its result. -/
theorem runOp_signal (s : State) {f : Machine.Frame} {o : OpWord} (h : o.opc = 0) (hm : o.muxen = false) :
    (s.runOp f o).results = f.results ++ [s.signalResult f o] := by
  simp [State.runOp, h, OpWord.runs, hm]

/-! ## The journal beside the Crier -/

/-- A source that allows no reaction has none. -/
theorem reactOf_none {f : Nat} (h : ∀ r : Nat, reactAllowed f r = (r == 0)) (s : State) : s.reactOf f = 0 := by
  unfold State.reactOf
  dsimp only
  rw [h]
  split
  · next hz => simpa using hz
  · rfl

/-- An event changes fault records, the Steward, what its raise changes, and what its reaction changes. -/
theorem keeps_stewEvent_react {l : List Part} (hl : ((andBell [.srcs, .stew]).all fun p => l.contains p) = true) {f syn : Nat}
    (hr : ∀ u v : State, Keeps l v (v.react f (u.reactOf f) syn)) (s : State) : Keeps l s (s.stewEvent f syn) := by
  have hsrc : ∀ (u : State) (g : FaultSrc → FaultSrc), Keeps l u (u.modSrc f g) := fun u g =>
    Keeps.mono (Keeps.mono (m := andBell [.srcs, .stew]) (keeps_modSrc u f g) rfl) hl
  have hcount : ∀ (u : State) (o : Nat), Keeps l u (u.count o) := fun u o =>
    Keeps.mono (Keeps.mono (m := andBell [.srcs, .stew]) (keeps_count u o) rfl) hl
  have hopen : ∀ (u : State) (ns : List Nat), Keeps l u (u.openWindows ns) := fun u ns =>
    Keeps.mono (Keeps.mono (m := andBell [.srcs, .stew]) (keeps_openWindows u ns) rfl) hl
  have hraise : ∀ (u : State) (n : Nat), Keeps l u (u.raise n) := fun u n =>
    Keeps.mono (Keeps.mono (m := andBell [.srcs, .stew]) (keeps_raise u n) rfl) hl
  have hpins : ∀ u : State, Keeps l u u.stewPins := fun u =>
    Keeps.mono (Keeps.mono (m := andBell [.srcs, .stew]) (keeps_stewPins u) rfl) hl
  have hclass : ∀ u : State, Keeps l u (u.classify f syn) := by
    intro u
    unfold State.classify
    refine Keeps.trans (Keeps.trans (Keeps.trans (Keeps.ite ?_ ?_) (hcount _ _)) (hraise _ _)) (hpins _)
    · exact Keeps.trans (Keeps.trans (hsrc _ _) (hr u _)) (hopen _ _)
    · exact Keeps.trans (hsrc _ _) (hr u _)
  unfold State.stewEvent
  dsimp only
  refine Keeps.ite (Keeps.refl l s) (Keeps.ite ?_ (Keeps.ite ?_ (Keeps.ite ?_ ?_)))
  · exact Keeps.trans (hsrc _ _) (hcount _ _)
  · exact Keeps.trans (hcount _ _) (hsrc _ _)
  · exact Keeps.trans (Keeps.trans (hcount _ _) (hsrc _ _)) (hclass _)
  · exact Keeps.trans (hcount _ _) (hsrc _ _)

/-- A fault is an event of its source, or none. -/
theorem keeps_unitFault_react {l : List Part} (hl : ((andBell [.srcs, .stew]).all fun p => l.contains p) = true) {f syn : Nat}
    (hr : ∀ u v : State, Keeps l v (v.react f (u.reactOf f) syn)) (s : State) : Keeps l s (s.unitFault f syn) :=
  Keeps.ite (keeps_stewEvent_react hl hr s) (Keeps.refl l s)

/-- A fault that no reaction follows changes no more than that. -/
theorem keeps_unitFault_none {s : State} {f : Nat} (h : ∀ r : Nat, reactAllowed f r = (r == 0)) (syn : Nat) :
    Keeps (andBell [.srcs, .stew]) s (s.unitFault f syn) := by
  refine keeps_unitFault_react rfl (fun u v => ?_) s
  rw [reactOf_none h u]
  exact Keeps.refl _ v

/-- The journal writer, whose fault has no reaction, leaves the Crier alone. -/
theorem keeps_journalStage_crier (s : State) (i pclass ty : Nat) (r : Rec) :
    Keeps (andBell [.srcs, .stew, .cellar]) s (s.journalStage i pclass ty r) := by
  have hcount : ∀ (u : State) (o : Nat), Keeps (andBell [.srcs, .stew, .cellar]) u (u.count o) := fun u o =>
    Keeps.mono (keeps_count u o) rfl
  have hstaged : ∀ (u : State) (x y : List (StoreRec × Nat)), Keeps (andBell [.srcs, .stew, .cellar]) u (u.staged x y) :=
    fun u x y => Keeps.mono (keeps_staged u x y) rfl
  unfold State.journalStage
  dsimp only
  refine Keeps.ite (Keeps.refl _ s) (Keeps.ite (hcount _ _) (Keeps.ite (hcount _ _) (Keeps.ite (hcount _ _)
    (Keeps.ite ?_ (Keeps.ite (hstaged _ _ _) (Keeps.ite ?_ (Keeps.ite ?_ (hcount _ _))))))))
  · exact Keeps.trans (hstaged _ _ _) (hcount _ _)
  · exact Keeps.step (keeps_dropStage _) rfl (hstaged _ _ _)
  · refine Keeps.step (keeps_unitFault_none (by intro r; simp [reactAllowed]) 0) rfl (Keeps.step (keeps_count _ _) rfl ?_)
    exact Keeps.with_cellar (.inr rfl) (.inl rfl) (Keeps.refl _ s)

/-- So does a record written, and its bank stays. -/
theorem keeps_writeRec_banks (s : State) (i : Nat) (r : Rec) :
    Keeps (andBell [.records, .crier, .srcs, .stew, .cellar]) s (s.writeRec i true r) := by
  have hk := Keeps.mono (m := andBell [.records, .crier, .srcs, .stew, .cellar]) (keeps_changeRec s i r) rfl
  unfold State.writeRec State.journalChange
  exact Keeps.ite (Keeps.ite hk (Keeps.step (keeps_journalStage_crier _ _ _ _ _) rfl hk)) (Keeps.mono (keeps_setRec _ _ _) rfl)

/-! ## The refresh of a watch -/

/-- A watch that a frame refreshed. -/
def Refreshed (s t : State) (f : Machine.Frame) (w : Nat) : Prop :=
  (t.watchOf w).tLast = some f.validAt ∧ (t.watchOf w).tLastTai = f.validTai ∧
    (t.watchOf w).deadline = f.validAt + ((s.bank f.gen).entry w).window

theorem Refreshed.of_eq {s t u : State} {f : Machine.Frame} {w : Nat} (h : Refreshed s t f w) (he : u.watchOf w = t.watchOf w) :
    Refreshed s u f w := by
  rwa [Refreshed, he]

/-- What becomes of the watch's state afterwards leaves its times. -/
theorem Refreshed.modWatch {s t : State} {f : Machine.Frame} {w : Nat} (h : Refreshed s t f w) (g : WState → WState)
    (hg : ∀ x : WState, (g x).tLast = x.tLast ∧ (g x).tLastTai = x.tLastTai ∧ (g x).deadline = x.deadline) :
    Refreshed s (t.modWatch w g) f w := by
  obtain ⟨h1, h2, h3⟩ := h
  obtain ⟨g1, g2, g3⟩ := hg (t.watchOf w)
  simp only [Refreshed, modWatch_watchOf, if_true]
  exact ⟨g1.trans h1, g2.trans h2, g3.trans h3⟩

theorem Refreshed.ite {c : Prop} [Decidable c] {s t u : State} {f : Machine.Frame} {w : Nat} (h : Refreshed s t f w)
    (h' : Refreshed s u f w) : Refreshed s (if c then t else u) f w := by
  split
  · exact h
  · exact h'

/-- Before the first swap a frame of the active generation refreshes its watch. -/
theorem refresh_refreshed {s : State} {f : Machine.Frame} {w : Nat} (hf : s.watch.fenced = false) (hn : s.watch.swapNo = 0)
    (hg : f.gen = s.gen.activeGen) : Refreshed s (s.refresh f w) f w := by
  have hc : s.checkIndex w = s := by simp [State.checkIndex, State.unchecked, hn]
  have hbank : ∀ (u : State) (g : WState → WState), (u.modWatch w g).bank = u.bank := fun u g =>
    funext (fun b => Keeps.bank (keeps_modWatch u w g) rfl b)
  unfold State.refresh
  simp only [hf, Bool.false_eq_true, if_false, hc]
  rw [if_neg (fun h => h.1 hg)]
  simp only [hbank]
  generalize hu : State.modWatch (s.modWatch w _) w _ = u
  have h0 : Refreshed s u f w := by
    rw [← hu]
    simp [Refreshed]
  split
  · have hcount : ∀ x : State, (x.count Reg.watchStaleEvents).watchOf w = x.watchOf w := fun x =>
      Keeps.watchOf (keeps_count x _) rfl w
    have h1 : Refreshed s (u.count Reg.watchLateRefresh) f w := h0.of_eq (Keeps.watchOf (keeps_count u _) rfl w)
    generalize u.count Reg.watchLateRefresh = v at h1
    have hstale := (h1.modWatch (fun x => { x with st := 2, staleAt := some v.time.now }) (fun _ => ⟨rfl, rfl, rfl⟩)).of_eq
      (hcount _)
    generalize hq : (if (State.watchOf (s.modWatch w _) w).st = 2 then v else _) = q
    have h2 : Refreshed s q f w := by
      rw [← hq]
      exact h1.ite hstale
    exact h2.ite (h2.of_eq rfl)
  · refine Refreshed.ite ?_ (h0.ite ?_)
    · exact h0.of_eq rfl
    · exact h0.modWatch _ (by intro x; exact ⟨rfl, rfl, rfl⟩)

/-! ## The commit -/

/-- A frame whose results are committed next. -/
def mayCommit (s : State) (fid : Nat) (f : Machine.Frame) : Prop :=
  f.looked = true ∧ f.valid = true ∧ f.committed = false ∧ f.sealed = false ∧ s.scriv.fenced.contains f.pipe = false ∧
    s.earlierInStream fid f (fun _ => true) = false ∧ s.programDone f = true

theorem recordCommit_runs {fid w : Nat} {f : Machine.Frame} {s : State} (h : s.frame? fid = some f) (hw : f.watch = some w)
    (hm : mayCommit s fid f) : exec (.recordCommit fid) s = .next (match f.results with
      | [] => s.finishFrame fid f w
      | r :: t => if t = [] then ((s.modFrame fid (fun f => { f with results := t })).applyResult f w r).finishFrame fid f w
        else (s.modFrame fid (fun f => { f with results := t })).applyResult f w r) := by
  obtain ⟨h1, h2, h3, h4, h5, h6, h7⟩ := hm
  simp only [exec, execRecordCommit, h, hw, h1, h2, h3, h4, h5, h6, h7, Bool.not_true, Bool.false_and, Bool.or_false,
    Bool.false_eq_true, if_false] <;> rfl

/-- What is made of the frame once its results are committed leaves the records and the Crier. -/
theorem keeps_committed (s : State) (fid w : Nat) (f : Machine.Frame) (c : Prop) [Decidable c] :
    Keeps [.counters, .frames, .watch] s (if c then s.finishFrame fid f w else s) :=
  Keeps.ite (keeps_finishFrame _ _ _ _) (Keeps.refl _ s)

/-- A FRESH result written: the record is what the frame brings, and it joins the records changed since the cut. -/
theorem commitResult_fresh {s : State} {g : Bool} {i w : Nat} {v t : Word} (hc : s.crier.cutSet = []) (ha : s.atCut = false)
    (hv : Desc.nsrc ((s.bank g).desc (i - i % 8)) = 0) (h1 : (s.recOf i).state ≠ qFresh) (h2 : (s.recOf i).state ≠ qForced) :
    bare ((s.commitResult g i w v 0 t).recOf i) =
      bare { s.recOf i with value := v, stamp := t, state := qFresh, cause := 0, lastWatch := w } ∧
    (∀ j : Nat, j ≠ i → (s.commitResult g i w v 0 t).recOf j = s.recOf j) ∧ i ∈ (s.commitResult g i w v 0 t).crier.changed := by
  have hk := keeps_touchLine s (lineOf i)
  have hr : ∀ j : Nat, (s.touchLine (lineOf i)).recOf j = s.recOf j := Keeps.recOf hk rfl
  have hat : (s.touchLine (lineOf i)).atCut = false := (keeps_atCut hk rfl rfl rfl).trans ha
  have hv' : Desc.nsrc (((s.touchLine (lineOf i)).bank g).desc (i - i % 8)) = 0 := by rwa [Keeps.bank hk rfl]
  unfold State.commitResult
  simp only [crierCatchUp_empty hc, causeReg, State.countOpt, hr, if_neg h2, h1, ne_eq, not_true_eq_false, if_false,
    false_and]
  generalize hx : ({ s.recOf i with value := v, stamp := t, state := qFresh, cause := 0, lastWatch := w } : Rec) = x
  generalize s.touchLine (lineOf i) = u at hk hr hat hv' ⊢
  obtain ⟨hw1, hw2⟩ := writeRec_recOf u i true x
  rw [revote_none (by rwa [Keeps.bank (keeps_writeRec_banks u i x) rfl])]
  refine ⟨hw1, fun j hj => (hw2 j hj).trans (hr j), ?_⟩
  have hj := keeps_journalStage_crier (u.changeRec i x) i
  simp only [State.writeRec, if_true, State.journalChange]
  split
  · exact changeRec_changed hat i x
  · rw [Keeps.crier (hj _ _ _) rfl rfl rfl]
    exact changeRec_changed hat i x

/-- A FORCED record takes no result. -/
theorem commitResult_forced {s : State} {g : Bool} {i w : Nat} {v t : Word} (hc : s.crier.cutSet = [])
    (h : (s.recOf i).state = qForced) (j : Nat) : (s.commitResult g i w v 0 t).recOf j = s.recOf j := by
  have hk := keeps_touchLine s (lineOf i)
  have hs : ((s.touchLine (lineOf i)).recOf i).state = qForced := (congrArg (·.state) (Keeps.recOf hk rfl i) :).trans h
  unfold State.commitResult
  simp only [crierCatchUp_empty hc, causeReg, State.countOpt, hs, if_true]
  exact (Keeps.recOf (keeps_countIf _ _ _) rfl j).trans (Keeps.recOf hk rfl j)

/-- A frame's op is executed, and the frame stays. -/
theorem decodeOps {fid : Nat} {f : Machine.Frame} {s : State} (h : s.frame? fid = some f) (hm : s.mayDecode fid f = true) :
    let o : OpWord := s.opWord ((s.frameEntry f).opBase + f.opPos)
    ∃ (t : State) (g : Machine.Frame), exec (.decodeOp fid) s = .next t ∧ t.frame? fid = some g ∧ g.opPos = f.opPos + 1 ∧
      (o.opc = 0 → o.muxen = false → g.results = f.results ++ [s.signalResult f o]) ∧
      t.counter (Reg.scrivOps f.pipe) = satAdd (s.counter (Reg.scrivOps f.pipe)) 1 ∧ Keeps [.frames, .counters] s t := by
  intro o
  have he : exec (.decodeOp fid) s = .next ((s.setFrame fid { s.runOp f o with
      decoding := !s.programDone (s.runOp f o), committing := s.programDone (s.runOp f o) }).count (Reg.scrivOps f.pipe)) := by
    simp [exec, execDecodeOp, h, hm, o]
  refine ⟨_, { s.runOp f o with decoding := !s.programDone (s.runOp f o), committing := s.programDone (s.runOp f o) }, he, ?_,
    runOp_opPos s f o, runOp_signal s, ?_, Keeps.mono (keeps_execDecodeOp fid s _ he) rfl⟩
  · rw [count_frameOpt_eq, setFrame_frame?, if_pos rfl]
  · rw [count_counter, if_pos rfl]
    rfl

/-- The last commit of a frame without results refreshes its watch. -/
theorem lastCommits {fid w : Nat} {f : Machine.Frame} {s : State} (h : s.frame? fid = some f) (hw : f.watch = some w)
    (hm : mayCommit s fid f) (hb : f.badOp = false) (hr : f.results = []) (hf : s.watch.fenced = false)
    (hn : s.watch.swapNo = 0) (hg : f.gen = s.gen.activeGen) :
    ∃ t : State, exec (.recordCommit fid) s = .next t ∧ (∀ g : Machine.Frame, t.frame? fid = some g → g.committed = true) ∧
      Refreshed s t f w ∧ Keeps [.frames, .watch, .counters] s t := by
  have he : exec (.recordCommit fid) s = .next (((s.count (Reg.scrivFrames f.pipe)).refresh f w).endDecode fid) := by
    rw [recordCommit_runs h hw hm, hr]
    simp [State.finishFrame, hb]
  have hc := keeps_count s (Reg.scrivFrames f.pipe)
  generalize s.count (Reg.scrivFrames f.pipe) = u at he hc
  have hk := keeps_endDecode (u.refresh f w) fid
  have hu := refresh_refreshed (s := u) (f := f) (w := w) ((Keeps.watch_fenced hc rfl).trans hf)
    ((Keeps.watch_swapNo hc rfl).trans hn) (hg.trans (Keeps.gen_activeGen hc rfl).symm)
  rw [Refreshed, Keeps.bank hc rfl] at hu
  exact ⟨_, he, fun g => endDecode_committed, Refreshed.of_eq hu (Keeps.watchOf hk rfl w),
    Keeps.step hk rfl (Keeps.step (keeps_refresh u f w) rfl (Keeps.mono hc rfl))⟩

/-- Settles O32: an op executes, the last commit refreshes the watch, and a FRESH result writes the one record. -/
theorem decodeAndCommit : Obligations.DecodeAndCommit := by
  refine ⟨⟨fun fid f s h hm => decodeOps h hm, fun fid w f s h hw h1 h2 h3 h4 h5 h6 h7 hb hr hf hn hg => ?_⟩,
    fun fid w i v r f s h hw h1 h2 h3 h4 h5 h6 h7 hr hc ha hv => ?_⟩
  · obtain ⟨t, he, hg', ⟨r1, r2, r3⟩, hk⟩ := lastCommits h hw ⟨h1, h2, h3, h4, h5, h6, h7⟩ hb hr hf hn hg
    exact ⟨t, he, hg', r1, r2, r3, hk⟩
  · have hk := keeps_modFrame s fid (fun f => { f with results := r })
    have he : exec (.recordCommit fid) s = .next (if r = [] then
        (State.commitResult (s.modFrame fid (fun f => { f with results := r })) f.gen i w v 0 f.validTai).finishFrame fid f w
        else State.commitResult (s.modFrame fid (fun f => { f with results := r })) f.gen i w v 0 f.validTai) := by
      rw [recordCommit_runs h hw ⟨h1, h2, h3, h4, h5, h6, h7⟩, hr]
      rfl
    have hall := keeps_execRecordCommit fid s _ he
    have hend := keeps_committed (State.commitResult (s.modFrame fid (fun f => { f with results := r })) f.gen i w v 0 f.validTai)
      fid w f (r = [])
    generalize s.modFrame fid (fun f => { f with results := r }) = u at hk he hend hall
    have hrec : ∀ j : Nat, u.recOf j = s.recOf j := Keeps.recOf hk rfl
    have hc' : u.crier.cutSet = [] := (Keeps.crier_cutSet hk rfl).trans hc
    refine ⟨fun hq1 hq2 => ?_, fun hq => ?_⟩
    · obtain ⟨c1, c2, c3⟩ := commitResult_fresh (g := f.gen) (i := i) (w := w) (v := v) (t := f.validTai) hc'
        ((keeps_atCut hk rfl rfl rfl).trans ha) (by rw [Keeps.bank hk rfl]; exact hv) (by rw [hrec]; exact hq1)
        (by rw [hrec]; exact hq2)
      have e := (congrArg bare (Keeps.recOf hend rfl i)).trans c1
      exact ⟨_, he, (congrArg (·.value) e :), (congrArg (·.state) e :), (congrArg (·.stamp) e :), (congrArg (·.lastWatch) e :),
        (congrArg (·.cause) e :), (Keeps.crier hend rfl rfl rfl).symm ▸ c3,
        fun j hj => ((Keeps.recOf hend rfl j).trans (c2 j hj)).trans (hrec j), hall⟩
    · exact ⟨_, he, fun j => ((Keeps.recOf hend rfl j).trans
        (commitResult_forced hc' ((congrArg (·.state) (hrec i) :).trans hq) j)).trans (hrec j), hall⟩

end Sys2Proof.Proofs.Decoding

/-! SUPPORT. Counters that a raise and a fault without reaction leave (R389, R405); the lookup of a frame (R16, R170, R173). -/

namespace Sys2Proof.Proofs.Lookups

open Sys2Proof.Machine Sys2Proof.Safety Sys2Proof.Laws Sys2Proof.Proofs.Decoding

/-! ## Counters that a raise leaves -/

theorem bellMessage_counter (s : State) {t o : Nat} (h : o ≠ Reg.bellMsgs t) : (s.bellMessage t).counter o = s.counter o := by
  unfold State.bellMessage
  split
  · have hc : (s.count (Reg.bellMsgs t)).counter o = s.counter o := by rw [count_counter, if_neg h]
    exact (Keeps.counter (keeps_requestVector (s.count (Reg.bellMsgs t)) _ _) rfl o).trans hc
  · rfl

theorem bellMessages_counter {o : Nat} (l : List Nat) (h : ∀ t ∈ l, o ≠ Reg.bellMsgs t) (s : State) :
    (l.foldl State.bellMessage s).counter o = s.counter o := by
  induction l generalizing s with
  | nil => rfl
  | cons t l ih =>
    exact (ih (fun t ht => h t (List.mem_cons_of_mem _ ht)) _).trans (bellMessage_counter s (h t List.mem_cons_self))

/-- A raise counts in COALESCED and in the messages of the 16 targets alone. -/
theorem raise_counter (s : State) (n : Nat) {o : Nat} (h : o < 0x10700 ∨ 0x10c00 ≤ o) : (s.raise n).counter o = s.counter o := by
  have hm : ∀ t ∈ List.range 16, o ≠ Reg.bellMsgs t := by
    intro t ht
    have := List.mem_range.mp ht
    simp only [Reg.bellMsgs]
    omega
  rcases raise_eq s n with e | e | e <;> rw [e]
  · rw [count_counter, if_neg (by simp only [Reg.bellCoalesced]; omega)]
  · exact (bellMessages_counter _ hm _).trans rfl

/-- A fault that no reaction follows counts in its own three counters alone. -/
theorem unitFault_none_counter {f : Nat} (h : ∀ r : Nat, reactAllowed f r = (r == 0)) {o : Nat} (h1 : o < 0x10700 ∨ 0x10c00 ≤ o)
    (h2 : o ≠ Reg.stewShadow f) (h3 : o ≠ Reg.stewEvents f) (h4 : o ≠ Reg.stewClassified f) (s : State) (syn : Nat) :
    (s.unitFault f syn).counter o = s.counter o := by
  have hc : ∀ (u : State) (a : Nat), o ≠ a → (u.count a).counter o = u.counter o := fun u a ha => by rw [count_counter, if_neg ha]
  have hs : ∀ (u : State) (g : FaultSrc → FaultSrc), (u.modSrc f g).counter o = u.counter o := fun u g =>
    Keeps.counter (keeps_modSrc u f g) rfl o
  have hcl : ∀ u : State, (u.classify f syn).counter o = u.counter o := by
    intro u
    have hr := reactOf_none h u
    unfold State.classify
    simp only [hr]
    rw [if_neg (by simp), Keeps.counter (keeps_stewPins _) rfl o, raise_counter _ _ h1, hc _ _ h4]
    exact hs u _
  unfold State.unitFault State.stewEvent
  dsimp only
  split
  · split
    · rfl
    · split
      · rw [hc _ _ h2, hs]
      · split
        · rw [hs, hc _ _ h3]
        · split
          · rw [hcl, hs, hc _ _ h3]
          · rw [hs, hc _ _ h3]
  · rfl

/-! ## What the Drayman and the lanes leave of a frame -/

/-- A frame but for its copies, its cells, its lane and its lane's verdict. -/
def seen (f : Machine.Frame) : Machine.Frame := { f with copies := [], cells := [], lane := none, verdictCode := none }

/-- The frame stands in flight as it did, but for those. -/
def SameFrame (fid : Nat) (s t : State) : Prop := (t.frame? fid).map seen = (s.frame? fid).map seen

theorem SameFrame.trans {fid : Nat} {s t u : State} (h : SameFrame fid s t) (k : SameFrame fid t u) : SameFrame fid s u :=
  Eq.trans k h

theorem SameFrame.of_keeps {l : List Part} {fid : Nat} {s t : State} (h : Keeps l s t) (hf : l.contains .frames = false) :
    SameFrame fid s t := by
  rw [SameFrame, Keeps.frame? h hf]

theorem SameFrame.modFrame {fid : Nat} (s : State) {g : Machine.Frame → Machine.Frame} (hg : ∀ x, seen (g x) = seen x) :
    SameFrame fid s (s.modFrame fid g) := by
  rw [SameFrame, modFrame_frame?, Option.map_map]
  congr 1
  exact funext hg

theorem SameFrame.foldl {α : Type} {fid : Nat} {f : State → α → State} (h : ∀ (u : State) (a : α), SameFrame fid u (f u a))
    (l : List α) (s : State) : SameFrame fid s (l.foldl f s) := by
  induction l generalizing s with
  | nil => rfl
  | cons a l ih => exact (h s a).trans (ih _)

theorem sameFrame_endCopy (s : State) (fid i : Nat) (o : CopyOutcome) : SameFrame fid s (s.endCopy fid i o) := by
  unfold State.endCopy
  split
  · dsimp only
    refine SameFrame.trans (SameFrame.of_keeps (l := [.counters, .cells]) ?_ rfl) (SameFrame.modFrame _ (fun _ => rfl))
    have hc := keeps_countOutcome s
    exact Keeps.ite (Keeps.step (keeps_releaseCells _ _) rfl (Keeps.mono (hc _ _ _) rfl)) (Keeps.mono (hc _ _ _) rfl)
  · rfl

theorem sameFrame_cutThrough (s : State) (fid i : Nat) : SameFrame fid s (s.cutThrough fid i) := by
  unfold State.cutThrough
  split
  · split
    · dsimp only
      split
      · rfl
      · split
        · exact sameFrame_endCopy _ _ _ _
        · refine SameFrame.trans (SameFrame.trans (SameFrame.of_keeps (keeps_modPort _ _ _) rfl) (SameFrame.modFrame _ ?_))
            (SameFrame.of_keeps (keeps_count _ _) rfl)
          exact fun _ => rfl
    · rfl
  · rfl

theorem sameFrame_drayLookup (s : State) (fid : Nat) (f : Machine.Frame) : SameFrame fid s (s.drayLookup fid f) := by
  unfold State.drayLookup
  dsimp only
  have h1 : SameFrame fid s ((s.readRoutes f.gen f.f f.routes).1.countIf (!f.routes.isEmpty) Reg.drayFrames) :=
    SameFrame.trans (SameFrame.of_keeps (keeps_readRoutes s f.gen f.f f.routes) rfl) (SameFrame.of_keeps (keeps_countIf _ _ _) rfl)
  generalize (s.readRoutes f.gen f.f f.routes).1.countIf (!f.routes.isEmpty) Reg.drayFrames = u at h1 ⊢
  refine SameFrame.trans (SameFrame.trans h1 ?_) (SameFrame.trans (SameFrame.foldl (fun v c =>
      SameFrame.of_keeps (keeps_openRecord v f c) rfl) _ _) (SameFrame.foldl (fun v i => sameFrame_cutThrough v fid i) _ _))
  split
  · next x hx =>
    exact SameFrame.trans (SameFrame.trans (SameFrame.of_keeps (keeps_allocCells _ _ _ x.1 x.2 hx) rfl)
      (SameFrame.of_keeps (keeps_storeData _ _ _) rfl)) (SameFrame.modFrame _ (fun _ => rfl))
  · exact SameFrame.modFrame _ (fun _ => rfl)

theorem sameFrame_assignLane (s : State) (fid : Nat) : SameFrame fid s (s.assignLane fid) := by
  unfold State.assignLane
  split
  · exact (SameFrame.modFrame s (by intro x; rfl)).trans (SameFrame.of_keeps (keeps_countIf _ _ _) rfl)
  · split
    · exact SameFrame.modFrame s (fun _ => rfl)
    · rfl

theorem sameFrame_unknownCapture (s : State) (fid : Nat) (f : Machine.Frame) (e : Ep) (k : Nat) :
    SameFrame fid s (s.unknownCapture fid f e k) := by
  unfold State.unknownCapture
  dsimp only
  have hr : Keeps (andBell [.rings]) s (s.reserveFor e k f.f.len).1 := keeps_reserveFor s e k f.f.len
  refine SameFrame.trans ?_ (SameFrame.modFrame _ (fun _ => rfl))
  exact SameFrame.trans (SameFrame.of_keeps hr rfl) (SameFrame.of_keeps (keeps_openRecord _ _ _) rfl)

/-- The frame that an operation leaves in flight of one that was put there. -/
theorem SameFrame.placed {fid : Nat} {s t : State} {f : Machine.Frame} (h : SameFrame fid (s.setFrame fid f) t) :
    ∃ g : Machine.Frame, t.frame? fid = some g ∧ seen g = seen f := by
  rw [SameFrame, setFrame_frame?, if_pos rfl] at h
  exact Option.map_eq_some_iff.mp h

/-! ## The lookup -/

/-- A frame put in flight, given its lane and routed is still that frame. -/
theorem routed_frame {s : State} {fid : Nat} {x : Machine.Frame} {full b : Bool} {o : Nat} {Q : Machine.Frame → Prop}
    (h : ∀ g : Machine.Frame, seen g = seen x → Q g) : ∃ g : Machine.Frame,
    State.frame? (State.drayLookup (if b then ((s.setFrame fid x).countIf full o).assignLane fid
      else (s.setFrame fid x).countIf full o) fid x) fid = some g ∧ Q g := by
  have hc : SameFrame fid (s.setFrame fid x) ((s.setFrame fid x).countIf full o) := SameFrame.of_keeps (keeps_countIf _ _ _) rfl
  split
  · exact (SameFrame.placed ((hc.trans (sameFrame_assignLane _ _)).trans (sameFrame_drayLookup _ fid x))).imp
      fun g hg => ⟨hg.1, h g hg.2⟩
  · exact (SameFrame.placed (hc.trans (sameFrame_drayLookup _ fid x))).imp fun g hg => ⟨hg.1, h g hg.2⟩

/-- So is one that is captured as unknown, or routed. -/
theorem missed_frame {s : State} {fid : Nat} {x : Machine.Frame} {c : Prop} [Decidable c] {e : Ep} {k : Nat}
    {Q : Machine.Frame → Prop} (h : ∀ g : Machine.Frame, seen g = seen x → Q g) : ∃ g : Machine.Frame,
    State.frame? (if c then (s.setFrame fid x).unknownCapture fid x e k else (s.setFrame fid x).drayLookup fid x) fid = some g ∧
    Q g := by
  split
  · exact (SameFrame.placed (sameFrame_unknownCapture _ fid x e k)).imp fun g hg => ⟨hg.1, h g hg.2⟩
  · exact (SameFrame.placed (sameFrame_drayLookup _ fid x)).imp fun g hg => ⟨hg.1, h g hg.2⟩

/-- A frame found at a watch goes on as that watch's. -/
theorem lookupHit_frame (s : State) (fid w : Nat) (f : Machine.Frame) : ∃ g : Machine.Frame,
    (s.lookupHit fid w f).frame? fid = some g ∧ g.looked = true ∧ g.watch = some w ∧ g.gen = s.gen.activeGen ∧ g.f = f.f ∧
    g.verdict = f.verdict := by
  unfold State.lookupHit
  dsimp only
  exact routed_frame fun g hs => ⟨(congrArg (·.looked) hs :), (congrArg (·.watch) hs :), (congrArg (·.gen) hs :),
    (congrArg (·.f) hs :), (congrArg (·.verdict) hs :)⟩

/-- A frame that is not found goes on without a watch. -/
theorem lookupMiss_frame (s : State) (fid : Nat) (f : Machine.Frame) : ∃ g : Machine.Frame,
    (s.lookupMiss fid f).frame? fid = some g ∧ g.looked = true ∧ g.watch = f.watch ∧ g.gen = s.gen.activeGen ∧ g.f = f.f ∧
    g.verdict = f.verdict := by
  unfold State.lookupMiss
  dsimp only
  exact missed_frame fun g hs => ⟨(congrArg (·.looked) hs :), (congrArg (·.watch) hs :), (congrArg (·.gen) hs :),
    (congrArg (·.f) hs :), (congrArg (·.verdict) hs :)⟩

/-- Without its port's verdict nothing more follows. -/
theorem afterVerdict_waits {s : State} {fid : Nat} {g : Machine.Frame} (h : s.frame? fid = some g) (hv : g.verdict = none) :
    s.afterVerdict fid = s := by
  simp [State.afterVerdict, h, hv]

/-- A slot of a key's that is found in error stays one that every lookup of the key meets. -/
theorem slotError_of_mem {b : Bank} {key : Word} {x : Nat × Bool} (hx : x ∈ b.slots key) (hb : x.1 ∈ b.badSlots) :
    b.slotError key = true :=
  List.any_eq_true.mpr ⟨x.1, hb, by
    rw [Bool.or_eq_true]
    exact .inr (List.any_eq_true.mpr ⟨x, hx, by simp⟩)⟩

/-- The state in which a lookup has met an error in a slot of the active bank. -/
def erred (s : State) (k : Nat) : State :=
  (s.count Reg.watchLookups).modBank s.gen.activeGen (fun b => { b with badSlots := setInsert k b.badSlots })

theorem erred_bank (s : State) (k : Nat) : (erred s k).bank s.gen.activeGen =
    { s.bank s.gen.activeGen with badSlots := setInsert k (s.bank s.gen.activeGen).badSlots } := by
  unfold erred State.modBank State.bank
  cases s.gen.activeGen <;> rfl

theorem erred_slots (s : State) (k : Nat) (key : Word) :
    ((erred s k).bank s.gen.activeGen).slots key = (s.bank s.gen.activeGen).slots key := by
  rw [erred_bank]
  rfl

theorem erred_badSlots (s : State) (k : Nat) : k ∈ ((erred s k).bank s.gen.activeGen).badSlots := by
  rw [erred_bank]
  simp

theorem erred_counter (s : State) (k : Nat) {o : Nat} (h : o ≠ Reg.watchLookups) : (erred s k).counter o = s.counter o := by
  rw [erred, Keeps.counter (keeps_modBank _ _ _) rfl, count_counter, if_neg h]

/-- Settles O31: a hit gives the frame its watch, a miss none, and a slot in error loses it. -/
theorem lookups : Obligations.Lookups := by
  intro fid f s h hl hv hp key
  have hall := fun e => keeps_execLookup fid e s
  have hn := keeps_count s Reg.watchLookups
  have hkey : f.f.keyWord f.port ((s.count Reg.watchLookups).flag (Reg.watchPortCtl f.port) 2) = key := by
    rw [Keeps.flag hn rfl]
  have hb : ∀ g : Bool, (s.count Reg.watchLookups).bank g = s.bank g := Keeps.bank hn rfl
  have hg : (s.count Reg.watchLookups).gen.activeGen = s.gen.activeGen := Keeps.gen_activeGen hn rfl
  refine ⟨fun hno => ⟨fun w st hfind => ?_, fun hnone hfw => ?_⟩, fun x hx => ?_⟩
  · have he : exec (.lookup fid none) s = .next (State.afterVerdict
        (State.lookupHit (((s.count Reg.watchLookups).count Reg.watchHits).countIf st Reg.watchStashHits) fid w { f with key := key })
        fid) := by
      simp only [exec, execLookup, h, hl, hp, Bool.or_self, Bool.false_eq_true, if_false, hkey, hb, hg, hno, hfind]
    obtain ⟨g, h1, h2, h3, h4, h5, h6⟩ := lookupHit_frame
      (((s.count Reg.watchLookups).count Reg.watchHits).countIf st Reg.watchStashHits) fid w { f with key := key }
    have hk : Keeps [.counters] s (((s.count Reg.watchLookups).count Reg.watchHits).countIf st Reg.watchStashHits) :=
      Keeps.step (keeps_countIf _ _ _) rfl (Keeps.step (keeps_count _ _) rfl hn)
    rw [afterVerdict_waits h1 (h6.trans hv)] at he
    exact ⟨_, g, he, h1, h2, h3, h4.trans (Keeps.gen_activeGen hk rfl), h5, hall none _ he⟩
  · have he : exec (.lookup fid none) s = .next (State.afterVerdict ((s.count Reg.watchLookups).lookupMiss fid { f with key := key })
        fid) := by
      simp only [exec, execLookup, h, hl, hp, Bool.or_self, Bool.false_eq_true, if_false, hkey, hb, hg, hno, hnone]
    obtain ⟨g, h1, h2, h3, h4, h5, h6⟩ := lookupMiss_frame (s.count Reg.watchLookups) fid { f with key := key }
    rw [afterVerdict_waits h1 (h6.trans hv)] at he
    exact ⟨_, g, he, h1, h2, h3.trans hfw, h4.trans hg, h5, hall none _ he⟩
  · have hu : Keeps [.counters, .banks, .loader, .watch] s (erred s x.1) :=
      Keeps.step (keeps_modBank _ _ _) rfl (Keeps.mono hn rfl)
    have hbad : x.1 ∈ ((erred s x.1).bank s.gen.activeGen).badSlots := erred_badSlots s x.1
    have herr : ((erred s x.1).bank s.gen.activeGen).slotError key = true :=
      slotError_of_mem (by rw [erred_slots]; exact hx) hbad
    have hkey : f.f.keyWord f.port ((erred s x.1).flag (Reg.watchPortCtl f.port) 2) = key := by
      rw [Keeps.flag hu rfl]
    have hfold : (s.count Reg.watchLookups).modBank s.gen.activeGen (fun b => { b with badSlots := setInsert x.1 b.badSlots }) =
      erred s x.1 := rfl
    have he : exec (.lookup fid (some x.1)) s = .next (State.afterVerdict (State.unitFault (((erred s x.1).setFrame fid
        { f with key := key, looked := true, eccLost := true, gen := s.gen.activeGen, committed := true }).count
        Reg.watchEccFail) 289 0) fid) := by
      simp only [exec, execLookup, h, hl, hp, Bool.or_self, Bool.false_eq_true, if_false, hg]
      rw [hfold, hkey, if_pos herr]
    have hce : (erred s x.1).counter Reg.watchEccFail = s.counter Reg.watchEccFail := erred_counter s x.1 (by decide)
    generalize erred s x.1 = u at hu hbad he hce
    generalize hy : ({ f with key := key, looked := true, eccLost := true, gen := s.gen.activeGen, committed := true } :
      Machine.Frame) = y at he
    have hall' := hall (some x.1) _ he
    have hno : ∀ r : Nat, reactAllowed 289 r = (r == 0) := by
      intro r
      simp [reactAllowed]
    have hf := keeps_unitFault_none hno (s := (u.setFrame fid y).count Reg.watchEccFail) 0
    have hcf := unitFault_none_counter hno (o := Reg.watchEccFail) (.inr (by decide)) (by decide) (by decide) (by decide)
      ((u.setFrame fid y).count Reg.watchEccFail) 0
    have hfr : (((u.setFrame fid y).count Reg.watchEccFail).unitFault 289 0).frame? fid = some y := by
      rw [Keeps.frame? hf rfl, count_frameOpt_eq, setFrame_frame?, if_pos rfl]
    rw [afterVerdict_waits hfr (by rw [← hy]; exact hv)] at he hall'
    refine ⟨_, y, he, hfr, by rw [← hy], by rw [← hy], by rw [← hy], ?_, ?_, hall'⟩
    · rw [Keeps.bank hf rfl]
      exact hbad
    · rw [hcf, count_counter, if_pos rfl]
      exact congrArg (satAdd · 1) hce

end Sys2Proof.Proofs.Lookups

/-! SUPPORT. CLOSE records (R231, R246, R251) and SUBSCRIBE (R238). -/

namespace Sys2Proof.Proofs.Publishing

open Sys2Proof.Machine Sys2Proof.Safety Sys2Proof.Laws Sys2Proof.Proofs.Rings Sys2Proof.Proofs.Doorbells
  Sys2Proof.Proofs.Commands

/-! ## CLOSE -/

/-- Rings whose CLOSE is not due are passed by. -/
theorem closeRings_none {s : State} (l : List Nat) (h : ∀ j ∈ l, (s.sub j).closeDue = none) : l.foldl State.closeRing s = s := by
  induction l with
  | nil => rfl
  | cons j l ih =>
    have hj : s.closeRing j = s := by simp [State.closeRing, h j List.mem_cons_self]
    rw [List.foldl_cons, hj]
    exact ih (fun k hk => h k (List.mem_cons_of_mem _ hk))

/-- An entry of a ring that has room and is carried is written. -/
theorem subWrite_writes {s : State} {i : Nat} (hw : (s.sub i).waitSpace = false) (hf : s.crier.fenced = false)
    (hc : s.subCarried i = true) (hr : 0 < (s.subRing i).free) (o : Nat) (w0 : Word) (rest : List Word) :
    s.subWrite i [o] w0 rest = ((s.count o).noteSent (subEp i)).ringWrite (subEp i) (s.sub i).ring w0 rest := by
  have : ¬ (s.subRing i).free = 0 := by omega
  simp [State.subWrite, hw, hf, hc, this]

/-- The state after the CLOSE of a RUNNING subscription has been written. -/
def closeWritten (s : State) (i : Nat) (c : CloseInfo) (done : Bool) : State :=
  (s.countIf done (Reg.crierResyncs i)).modSub i (fun x => { x with
    closeDue := none, lastClosed := c.epoch, resync := if done && x.passed then 0 else x.resync, passed := x.passed && !done,
    cursor := if done && x.passed then 0 else x.cursor })

/-- The CLOSE that is due of a RUNNING subscription is written, and is due no longer. -/
theorem closeRing_writes {s : State} {i kind : Nat} {c : CloseInfo} {done : Bool} (h : (s.sub i).closeDue = some (c, kind, done))
    (hw : (s.sub i).waitSpace = false) (hst : (s.sub i).st = .running) (hf : s.crier.fenced = false)
    (hc : s.subCarried i = true) (hr : 0 < (s.subRing i).free) :
    ∃ w : Word, s.closeRing i = closeWritten (((s.count (Reg.crierCloses i)).noteSent (subEp i)).ringWrite (subEp i) (s.sub i).ring w
      [c.epoch, c.tai, c.tai + BitVec.ofNat 64 c.leaseNs]) i c done := by
  refine ⟨pack [(24, c.leaseNs), (16, c.lease), (15, b2n c.set), (13, kind), (12, b2n done), (0, 3)], ?_⟩
  unfold State.closeRing
  simp only [h, subWrite_writes hw hf hc hr]
  generalize hu : State.ringWrite .. = u
  have hsub : u.sub i = s.sub i := by
    rw [← hu, Keeps.sub (keeps_ringWrite _ _ _ _ _) rfl, Keeps.sub (keeps_noteSent _ _) rfl, Keeps.sub (keeps_count _ _) rfl]
  rw [if_neg (by rw [hsub, h]; simp), if_neg]
  · rfl
  · simp [Keeps.sub (keeps_countIf u done (Reg.crierResyncs i)) rfl, hsub, hst]

theorem closeWritten_sub (s : State) (i : Nat) (c : CloseInfo) (done : Bool) :
    ((closeWritten s i c done).sub i).closeDue = none ∧ ((closeWritten s i c done).sub i).lastClosed = c.epoch ∧
    ∀ j : Nat, j ≠ i → (closeWritten s i c done).sub j = s.sub j := by
  unfold closeWritten
  refine ⟨by simp, by simp, fun j hj => ?_⟩
  rw [modSub_sub, if_neg hj, Keeps.sub (keeps_countIf _ _ _) rfl]

theorem closeWritten_out (s : State) (i : Nat) (c : CloseInfo) (done : Bool) : (closeWritten s i c done).out = s.out := by
  unfold closeWritten
  rw [Keeps.out (keeps_modSub _ _ _) rfl, Keeps.out (keeps_countIf _ _ _) rfl]

/-- The only CLOSE that is due is written. -/
theorem closeRecords {s : State} {i kind : Nat} {c : CloseInfo} {done : Bool} (hi : i < 32)
    (hone : ∀ j : Nat, j ≠ i → (s.sub j).closeDue = none) (h : (s.sub i).closeDue = some (c, kind, done))
    (hw : (s.sub i).waitSpace = false) (hst : (s.sub i).st = .running) (hf : s.crier.fenced = false)
    (hc : s.subCarried i = true) (hr : 0 < (s.subRing i).free) :
    ∃ w : Word, (List.range 32).foldl State.closeRing s = closeWritten (((s.count (Reg.crierCloses i)).noteSent (subEp i)).ringWrite
      (subEp i) (s.sub i).ring w [c.epoch, c.tai, c.tai + BitVec.ofNat 64 c.leaseNs]) i c done := by
  obtain ⟨w, hwr⟩ := closeRing_writes h hw hst hf hc hr
  refine ⟨w, ?_⟩
  obtain ⟨a, b, hab, hna⟩ := List.eq_append_cons_of_mem (List.mem_range.mpr hi)
  rw [hab, List.foldl_append, List.foldl_cons, closeRings_none a (fun j hj => hone j (by rintro rfl; exact hna hj)), hwr]
  generalize hu : State.ringWrite .. = u
  have hsub : ∀ j : Nat, u.sub j = s.sub j := fun j => by
    rw [← hu, Keeps.sub (keeps_ringWrite _ _ _ _ _) rfl, Keeps.sub (keeps_noteSent _ _) rfl, Keeps.sub (keeps_count _ _) rfl]
  obtain ⟨h1, -, h3⟩ := closeWritten_sub u i c done
  refine closeRings_none b (fun j _ => ?_)
  by_cases hj : j = i
  · rw [hj]
    exact h1
  · rw [h3 j hj, hsub]
    exact hone j hj

/-! ## SUBSCRIBE -/

/-- One word staged where none was. -/
theorem stageWords_one {s : State} (h : s.crier.staged = []) (i op w : Nat) (v : Word) :
    (s.stageWords i op w [v]).crier.staged = [(mapWords * i + w, mapOp op (s.mapWord i w) v)] ∧
    (s.stageWords i op w [v]).crier.bitmaps = s.crier.bitmaps := by
  refine ⟨?_, rfl⟩
  simp [State.stageWords, h, Table.find?, Table.insert]

/-- SUBSCRIBE of one word, with nothing staged, stages it and ends with 1. -/
theorem subscribe_one {s : State} {c : CmdEntry} {v : Word} (h : runsCommand s c 3 = true) (hh : cmdHeadOk c 0 = true)
    (h1 : c.w1.field 5 3 = 0) (h2 : c.w1.field 10 54 = 0) (h3 : c.w1.field 8 2 < 3) (h4 : c.w2.toNat < mapWords) (h5 : c.w3 = 1)
    (h6 : wordsZero [c.w5, c.w6, c.w7] = true) (h7 : s.crier.staged = []) :
    exec (.subscribe c (some [v])) s = .next (((s.takeCommand c 3).stageWords (c.w1.field 0 5) (c.w1.field 8 2) c.w2.toNat
      [v]).endCmd c 0 0 1) := by
  have hst : (s.takeCommand c 3).crier.staged = [] :=
    (congrArg (·.staged) (Keeps.crier (keeps_takeCommand s c 3) rfl rfl rfl) :).trans h7
  have hone := (stageWords_one hst (c.w1.field 0 5) (c.w1.field 8 2) c.w2.toNat v).1
  have hop : (c.w1.field 8 2 == 3) = false := by simp; omega
  have hrange : ¬ ((1 : Nat) < 1 ∨ 65536 < 1 ∨ mapWords < c.w2.toNat + 1) := by omega
  simp only [exec, execSubscribe, startCommand_runs h]
  generalize s.takeCommand c 3 = u at hst hone ⊢
  have hn : c.w3.toNat = 1 := by rw [h5]; rfl
  have hfind : (Table.find? (mapWords * c.w1.field 0 5 + c.w2.toNat + 0) u.crier.staged).isNone = true := by rw [hst]; rfl
  simp only [hn, hh, h1, h2, hop, h6, Bool.not_true, bne_self_eq_false, Bool.or_false, decide_eq_false hrange, Bool.false_eq_true,
    if_false, hst, List.range_one, List.map_cons, List.map_nil, List.getElem?_cons_zero, Option.getD_some, hone]
  rfl

/-- Settles O34: the one CLOSE due is written to its ring, and the one word is staged. -/
theorem publication : Obligations.Publication := by
  refine ⟨fun i kind c done s hi hsw hf hp hone h hw hst hcf hc hr => ?_, fun c v s h hh h1 h2 h3 h4 h5 h6 h7 => ?_⟩
  · obtain ⟨w, hwr⟩ := closeRecords hi hone h hw hst hcf hc hr
    have he : exec .closeRecord s = .next ((List.range 32).foldl State.closeRing s) := by
      simp [exec, execCloseRecord, hsw, hf, hp]
    have hk := keeps_execCloseRecord s _ he
    rw [hwr] at he hk
    obtain ⟨c1, c2, -⟩ := closeWritten_sub (((s.count (Reg.crierCloses i)).noteSent (subEp i)).ringWrite
      (subEp i) (s.sub i).ring w [c.epoch, c.tai, c.tai + BitVec.ofNat 64 c.leaseNs]) i c done
    have hring : ((s.count (Reg.crierCloses i)).noteSent (subEp i)).ring (subEp i) (s.sub i).ring = s.subRing i := by
      rw [Keeps.ring (keeps_noteSent _ _) rfl, Keeps.ring (keeps_count _ _) rfl]
      rfl
    have hout := ringWrite_out ((s.count (Reg.crierCloses i)).noteSent (subEp i)) (subEp i) (s.sub i).ring w
      [c.epoch, c.tai, c.tai + BitVec.ofNat 64 c.leaseNs]
    rw [hring] at hout
    exact ⟨_, _, he, c1, c2, (closeWritten_out _ _ _ _).symm ▸ hout, Keeps.mono hk rfl⟩
  · have he := subscribe_one (v := v) h hh h1 h2 h3 h4 h5 h6 h7
    have hk := keeps_takeCommand s c 3
    have hst : (s.takeCommand c 3).crier.staged = [] := (congrArg (·.staged) (Keeps.crier hk rfl rfl rfl) :).trans h7
    obtain ⟨g1, g2⟩ := stageWords_one hst (c.w1.field 0 5) (c.w1.field 8 2) c.w2.toNat v
    have hmap : (s.takeCommand c 3).mapWord (c.w1.field 0 5) c.w2.toNat = s.mapWord (c.w1.field 0 5) c.w2.toNat := by
      rw [State.mapWord, Keeps.crier hk rfl rfl rfl]
      rfl
    have hend := endCmd_ended ((executing_takeCommand s c 3).of_keeps (keeps_stageWords (s.takeCommand c 3) (c.w1.field 0 5)
      (c.w1.field 8 2) c.w2.toNat [v]) rfl) 0 0 1
    have hke := keeps_endCmd ((s.takeCommand c 3).stageWords (c.w1.field 0 5) (c.w1.field 8 2) c.w2.toNat [v]) c 0 0 1
    refine ⟨_, he, hend, ?_, ?_, Keeps.mono (keeps_execSubscribe c (some [v]) s _ he) rfl⟩
    · rw [Keeps.crier hke rfl rfl rfl, g1, hmap]
    · rw [Keeps.crier hke rfl rfl rfl, g2, Keeps.crier hk rfl rfl rfl]

end Sys2Proof.Proofs.Publishing

/-! SUPPORT. A capture record whose ring's entry counter is a counter of the record's own counter set (R275, R330): the ring number
of a copy is any number in the model, and the register file has one counter at an offset. -/

namespace Sys2Proof.Proofs.CaptureRecords

open Sys2Proof.Machine

/-- A placed capture copy to ring 2692 of endpoint A, of counter set 1, with space reserved. -/
def strayCopy : Copy where
  route := 0
  dest := .capture .a 2692
  stage := .placed
  fmt := 0
  ident := 0
  brs := false
  dlc := 0
  cls := 0
  verify := false
  eslot := none
  cset := 1
  life := 0
  noToken := false
  noCell := false
  fallback := false
  space := some (0, 0, false)
  keptLen := 0
  withdrawn := false
  own := none

/-- A valid frame with that copy alone. -/
def strayFrame : Machine.Frame where
  port := 0
  f := { fmt := 0, ident := 0, dlc := 0, brs := false, esi := false, sec := false, sdt := 0, vcid := 0, af := 0, data := [] }
  sofTai := 0
  keyAt := 0
  validTai := 0
  validAt := 0
  verdict := some .valid
  looked := true
  key := 0
  gen := false
  watch := none
  eccLost := false
  unk := 0
  routes := []
  plain := []
  decoding := false
  pipe := 0
  opPos := 0
  sel0 := none
  sel1 := none
  results := []
  badOp := false
  committing := false
  committed := true
  sealed := false
  lane := none
  half := none
  latched := {}
  fArrived := false
  verdictCode := none
  keyGone := false
  copies := [strayCopy]
  cells := []

/-- The block right after reset with that frame in flight. -/
def strayState : State := { frames := [(0, strayFrame)] }

/-- The counter at an offset after an answer. -/
def counterAfter (o : Nat) : Answer → Word
  | .next t => t.counter o
  | _ => 0

/-- ENTRIES of ring 2692 and SENT of counter set 1 are one register. -/
theorem hostRingEntries_eq_drayCsSent : Reg.hostRingEntries Ep.a.idx 2692 = Reg.drayCsSent 1 := by decide

/-- The record's end is counted there twice: as the ring's entry and as the copy's outcome. -/
theorem strayRecord_countsTwice :
    counterAfter (Reg.drayCsSent 1) (exec (.captureRecordFinish 0 0) strayState) = 2#64 := by
  decide

/-- Refutes O35: a copy to ring 2692 of endpoint A, of counter set 1, counts ENTRIES twice, for the set's SENT counter has the same
offset. -/
theorem not_copies : ¬ Obligations.Copies := by
  intro h
  obtain ⟨t, he, -, -, -, hcount, -⟩ :=
    (h.2 0 0 2692 .a strayFrame strayCopy strayState rfl rfl rfl rfl rfl (.inl rfl)).1 (0, 0, false) rfl
  have htwo : t.counter (Reg.drayCsSent 1) = 2#64 := (congrArg (counterAfter _) he).symm.trans strayRecord_countsTwice
  rw [hostRingEntries_eq_drayCsSent, htwo] at hcount
  exact absurd hcount (by decide)

end Sys2Proof.Proofs.CaptureRecords

/-! SUPPORT. Counters that a completion leaves (R334, R351); class queues: a head dropped (R288), an open packet backfilled
(R279, R283). -/

namespace Sys2Proof.Proofs.ClassQueues

open Sys2Proof.Machine Sys2Proof.Safety Sys2Proof.Laws Sys2Proof.Proofs.RegisterBehaviour Sys2Proof.Proofs.Engines
  Sys2Proof.Proofs.Lookups

/-! ## Counters that a completion leaves -/

theorem ringWrite_counter (s : State) (e : Ep) (k : Nat) (w : Word) (ws : List Word) {o : Nat}
    (h : o < 0x10700 ∨ 0x10c00 ≤ o) (hk : o ≠ Reg.hostRingEntries e.idx k) : (s.ringWrite e k w ws).counter o = s.counter o := by
  have hn : ∀ u : State, (u.ringNotify e k).counter o = u.counter o := by
    intro u
    unfold State.ringNotify
    dsimp only
    split
    · rw [raise_counter _ _ h, Keeps.counter (keeps_modRing u e k _) rfl]
    · rfl
  unfold State.ringWrite
  rw [hn, count_counter, if_neg hk, Keeps.counter (keeps_modRing _ e k _) rfl, Keeps.counter (keeps_emit s _) rfl]

/-- A packet's completion counts below the Drayman's block. -/
theorem txCompletion_counter (s : State) (x : HostTx) (status detail : Nat) (result : Word) {o : Nat} (h : 0x66000 ≤ o) :
    (s.txCompletion x status detail result).counter o = s.counter o := by
  have hcq : (s.ring x.ep x.ring).cq < 128 := by
    have := field_lt (s.ring x.ep x.ring).useCtl 32 7
    exact this
  have hk : o ≠ Reg.hostRingEntries x.ep.idx (s.ring x.ep x.ring).cq := by
    generalize (s.ring x.ep x.ring).cq = q at hcq
    cases x.ep <;> simp only [Reg.hostRingEntries, Ep.idx] <;> omega
  unfold State.txCompletion State.postCompletion
  dsimp only
  split
  · exact ringWrite_counter _ _ _ _ _ (.inr (by omega)) hk
  · exact Keeps.counter (keeps_modRing _ _ _ _) rfl o

/-- A head that a command drops counts its outcome in its counter set, above the queues' own counters. -/
theorem retireHead_counter (s : State) (p c : Nat) (status detail : Nat) (result : Word) {o : Nat} (h1 : 0x66000 ≤ o)
    (h2 : o < 0x78000) : (s.retireHead p c .txDrop status detail result).counter o = s.counter o := by
  unfold State.retireHead
  split
  · rfl
  · next k r _ =>
    dsimp only
    generalize hu : s.modPort p _ = u
    have hus : u.counter o = s.counter o := by
      rw [← hu]
      exact Keeps.counter (keeps_modPort _ _ _) rfl o
    unfold State.packetGone
    dsimp only
    have hrel : (u.releaseCells k.cells).counter o = u.counter o := Keeps.counter (keeps_releaseCells _ _) rfl o
    generalize u.releaseCells k.cells = v at hrel
    split
    · unfold State.countOutcome
      simp only [outcomeReg, outcomePortReg, State.countOpt]
      split
      · exact hrel.trans hus
      · rw [count_counter, if_neg (by simp only [Reg.drayCsTxDrop]; omega)]
        exact hrel.trans hus
    · rw [txCompletion_counter _ _ _ _ _ h1]
      split
      · exact hrel.trans hus
      · rw [Keeps.counter (keeps_modPort _ _ _) rfl]
        exact hrel.trans hus

/-! ## Occupancy -/

/-- What the queue-level check can do: raise the port's source and disarm it, arm it, or nothing. -/
theorem levelCheck_cases (s : State) (p b : Nat) :
    s.levelCheck p b = ((s.modPort p (fun q => { q with armed := false })).count (Reg.drayTxqLevel p)).raise (192 + p) ∨
    s.levelCheck p b = s.modPort p (fun q => { q with armed := true }) ∨ s.levelCheck p b = s := by
  unfold State.levelCheck
  dsimp only
  split_ifs
  · exact .inl rfl
  · exact .inr (.inl rfl)
  · exact .inr (.inr rfl)
  · exact .inr (.inl rfl)
  · exact .inr (.inr rfl)

/-- The queue-level check leaves the queues. -/
theorem levelCheck_queues (s : State) (p b q : Nat) : ((s.levelCheck p b).port q).queues = (s.port q).queues := by
  have hm : ∀ x : Bool, ((s.modPort p (fun q => { q with armed := x })).port q).queues = (s.port q).queues := by
    intro x
    rw [modPort_port]
    split
    · next h => rw [h]
    · rfl
  rcases levelCheck_cases s p b with e | e | e <;> rw [e]
  · rw [Keeps.port (keeps_raise _ _) rfl, Keeps.port (keeps_count _ _) rfl, hm]
  · exact hm true

theorem levelCheck_counter (s : State) (p b : Nat) {o : Nat} (h : o < 0x10700 ∨ 0x10c00 ≤ o) (ho : o ≠ Reg.drayTxqLevel p) :
    (s.levelCheck p b).counter o = s.counter o := by
  rcases levelCheck_cases s p b with e | e | e <;> rw [e]
  · rw [raise_counter _ _ h, count_counter, if_neg ho, Keeps.counter (keeps_modPort _ _ _) rfl]
  · exact Keeps.counter (keeps_modPort _ _ _) rfl o

/-- A class of a port with its four queues. -/
theorem queue_listMod {l : List (List Packet)} (hl : l.length = 4) {c : Nat} (hc : c < 4) (f : List Packet → List Packet) :
    ((listMod f c l)[c]?).getD [] = f ((l[c]?).getD []) := by
  rw [getElem?_listMod, if_pos rfl, List.getElem?_eq_getElem (by omega)]
  rfl

/-! ## DROP_HEAD -/

theorem regAt_drayTxqCmd : regAt Reg.drayTxqCmd = some ({ base := 473088, wc := 66431 }, 0) := by decide

/-- TXQ_CMD as it reaches the Drayman. -/
theorem write_txqCmd {s : State} {w : Path} {val : Word} (h : canWrite s w Reg.drayTxqCmd val = true) (hd : val.bit 16 = true) :
    s.write w Reg.drayTxqCmd val =
      .next (((s.setLock w false).clearLost w Reg.drayTxqCmd).dropHead (val.field 0 7) (val.field 8 2)) := by
  refine (write_reaches_wc regAt_drayTxqCmd rfl rfl (by decide) rfl (by decide) rfl h rfl).trans ?_
  simp [State.writeEffect, State.unitEffect, Reg.drayTxqCmd, Reg.hostOwnHb, Reg.scrivRecSel, Reg.scrivHashIn, Reg.lockZeroize,
    Reg.lockCmd, Reg.lockKmLock, Reg.lockSlotSel, hd]

/-- A head on the bus is marked. -/
theorem dropHead_marks {s : State} {p c : Nat} {k : Packet} {r : List Packet} (hq : (s.port p).queue c = k :: r)
    (hl : (s.port p).queues.length = 4) (hc : c < 4) (hb : (s.port p).onBus = some (.cls c)) :
    s.dropHead p c = s.modHead p c (fun k => { k with dropNext := true }) ∧
    ((s.dropHead p c).port p).queue c = { k with dropNext := true } :: r := by
  have he : s.dropHead p c = s.modHead p c (fun k => { k with dropNext := true }) := by simp [State.dropHead, hq, hb]
  refine ⟨he, ?_⟩
  rw [he, State.modHead, modPort_port, if_pos rfl]
  exact (queue_listMod hl hc _).trans (congrArg _ hq)

/-- With nothing on the bus the head leaves and is counted. -/
theorem dropHead_drops {s : State} {p c : Nat} {k : Packet} {r : List Packet} (hq : (s.port p).queue c = k :: r)
    (hl : (s.port p).queues.length = 4) (hc : c < 4) (hp : p < 128) (hb : (s.port p).onBus = none) :
    ((s.dropHead p c).port p).queue c = r ∧
    (s.dropHead p c).counter (Reg.drayTxqDropcmd p) = satAdd (s.counter (Reg.drayTxqDropcmd p)) 1 := by
  have he : s.dropHead p c =
      ((s.retireHead p c .txDrop 8 0 0).count (Reg.drayTxqDropcmd p)).levelCheck p (s.port p).occupancy := by
    simp [State.dropHead, hq, hb, State.withLevel]
  rw [he]
  refine ⟨?_, ?_⟩
  · rw [Port.queue, levelCheck_queues, Keeps.port (keeps_count _ _) rfl, (retireHead_port _ _ _ _ _ _ _).1, queue_listMod hl hc]
    exact congrArg List.tail hq
  · rw [levelCheck_counter _ _ _ (.inr (by simp only [Reg.drayTxqDropcmd]; omega))
        (by simp only [Reg.drayTxqDropcmd, Reg.drayTxqLevel]; omega),
      count_counter, if_pos rfl, retireHead_counter _ _ _ _ _ _ (by simp only [Reg.drayTxqDropcmd]; omega)
        (by simp only [Reg.drayTxqDropcmd]; omega)]

/-! ## The backfill -/

/-- Once every open packet of a tag is closed, none is open. -/
theorem modOpen_closed {s : State} {p tag : Nat} {f : Packet → Packet} (hf : ∀ k : Packet, (f k).closed = true) :
    (s.modOpen p tag f).openPacket? p tag = none := by
  unfold State.openPacket? State.modOpen
  rw [modPort_port, if_pos rfl, List.find?_eq_none]
  intro x hx
  simp only [List.mem_flatMap, List.mem_map] at hx
  obtain ⟨l, ⟨l', -, rfl⟩, hx⟩ := hx
  obtain ⟨k, -, rfl⟩ := List.mem_map.mp hx
  split
  · simp [hf]
  · next h => simpa using h

/-- The words of a buffer of the packet's length are the buffer. -/
theorem fetched_eq {d : Bytes} {n : Nat} (h : d.length = n) : (List.range n).map (fun i => (d[i]?).getD 0) = d := by
  subst h
  refine List.ext_getElem (by simp) (fun i h1 h2 => ?_)
  simp [List.getElem?_eq_getElem h2]

/-- Settles O36: the head is marked or leaves, and a backfill closes the open packet of its tag. -/
theorem classQueues : Obligations.ClassQueues := by
  refine ⟨?_, fun p tag k s hz ho hs hh => ⟨fun d hlen => ?_, ?_⟩⟩
  · intro w val k r s p c h hd hq hl
    have hk := keeps_setLock_clearLost s w false Reg.drayTxqCmd
    have he := write_txqCmd h hd
    have hpt := Keeps.port hk rfl p
    have hc : c < 4 := field_lt val 8 2
    have hp : p < 128 := field_lt val 0 7
    generalize (s.setLock w false).clearLost w Reg.drayTxqCmd = u at hk he hpt
    have hq' : (u.port p).queue c = k :: r := by rw [hpt]; exact hq
    have hl' : (u.port p).queues.length = 4 := by rw [hpt]; exact hl
    refine ⟨fun hb => ?_, fun hb => ?_⟩
    · obtain ⟨h1, h2⟩ := dropHead_marks hq' hl' hc (by rw [hpt]; exact hb)
      exact ⟨_, he, h2, Keeps.trans (Keeps.mono hk rfl) (h1 ▸ Keeps.mono (keeps_modHead u p c _) rfl)⟩
    · obtain ⟨h1, h2⟩ := dropHead_drops hq' hl' hc hp (by rw [hpt]; exact hb)
      exact ⟨_, he, h1, h2.trans (congrArg (satAdd · 1) (Keeps.counter hk rfl _)),
        Keeps.step (keeps_dropHead u p c) rfl (Keeps.mono hk rfl)⟩
  · have he : exec (.txBackfill p tag (some d)) s =
        .next ((s.storeData k.cells d).modOpen p tag (fun k => { k with closed := true })) := by
      simp only [exec, execTxBackfill, hz, ho, hs, hh, Bool.false_eq_true, if_false, fetched_eq hlen]
    have hk := keeps_modOpen (s.storeData k.cells d) p tag (fun k => { k with closed := true })
    have hm : (State.modOpen (s.storeData k.cells d) p tag (fun k => { k with closed := true })).dray.storeroom =
        writeChain s.dray.storeroom k.cells d := Keeps.dray_storeroom hk rfl
    refine ⟨_, he, modOpen_closed (by intro k; rfl), hm, fun a ha => ?_,
      Keeps.step hk rfl (Keeps.mono (keeps_storeData _ _ _) rfl)⟩
    rw [hm]
    exact read_writeChain_other _ _ _ _ ha
  · refine ⟨_, (by simp only [exec, execTxBackfill, hz, ho, hs, Bool.false_eq_true, if_false]; rfl),
      modOpen_closed (by intro k; rfl), Keeps.step (keeps_abandonOpen _ _ _ _ _) rfl ?_⟩
    split
    · exact Keeps.mono (keeps_count _ _) rfl
    · exact Keeps.refl _ s

end Sys2Proof.Proofs.ClassQueues

/-! SUPPORT. Transmit ring entries: their packet is opened, or the entry waits (R342, R350). -/

namespace Sys2Proof.Proofs.Transmit

open Sys2Proof.Machine Sys2Proof.Safety Sys2Proof.Laws Sys2Proof.Proofs.ClassQueues

/-- An entry whose resources are there is opened at the tail of its class, as its packet but for the tag and the cells. -/
theorem txOpen_opens {s : State} {w : TxWait} (hf : s.txFits w = true) (ha : (s.allocCells w.pkt.ncell 1).isSome = true)
    (hl : (s.port w.port).queues.length = 4) (hc : w.cls < 4) : ∃ (t : State) (tag : Nat) (cells : List Nat),
    s.txOpen w = some t ∧ (t.port w.port).queue w.cls = (s.port w.port).queue w.cls ++ [{ w.pkt with tag := tag, cells := cells }] := by
  obtain ⟨x, hx⟩ := Option.isSome_iff_exists.mp ha
  have hk := keeps_allocCells s w.pkt.ncell 1 x.1 x.2 hx
  unfold State.txOpen
  simp only [hf, hx, Bool.not_true, Bool.false_eq_true, if_false]
  refine ⟨_, ((List.range 128).find? (fun t => !(s.port w.port).openTags.contains t)).getD 0, x.2, rfl, ?_⟩
  rw [State.withLevel, Port.queue, levelCheck_queues, State.pushPacket, modPort_port, if_pos rfl]
  have hq : (x.1.port w.port).queues = (s.port w.port).queues := congrArg (·.queues) (Keeps.port hk rfl w.port)
  refine (queue_listMod (l := (x.1.port w.port).queues) (by rw [hq]; exact hl) hc _).trans ?_
  rw [hq]
  rfl

/-- Whether an entry fits, and whether its cells are there, is left by what changes no port, no cell and no setting. -/
theorem txFits_keeps {l : List Part} {s u : State} (hk : Keeps l s u) (hp : l.contains .ports = false)
    (hc : l.contains .cells = false) (hi : l.contains .inForce = false) (w : TxWait) : u.txFits w = s.txFits w := by
  simp only [State.txFits, Keeps.port hk hp, Keeps.fld hk hi, Keeps.dray_hostCells hk hc]

theorem allocCells_keeps {l : List Part} {s u : State} (hk : Keeps l s u) (hc : l.contains .cells = false) (n : Nat) :
    (u.allocCells n 1).isSome = (s.allocCells n 1).isSome := by
  simp only [State.allocCells, State.cellCount, Keeps.dray_cellUse hk hc, Keeps.dray_retiredCells hk hc]
  split_ifs <;> rfl

/-- The state once a transmit ring has moved past an entry. -/
def movedOn (s : State) (e : Ep) (k : Nat) : State :=
  (s.modRing e k (fun r => { r with devPos := (r.devPos + 1) % r.size })).count (Reg.hostRingEntries e.idx k)

theorem keeps_movedOn (s : State) (e : Ep) (k : Nat) : Keeps [.rings, .counters] s (movedOn s e k) :=
  Keeps.step (keeps_count _ _) rfl (Keeps.mono (keeps_modRing s e k _) rfl)

theorem movedOn_ring (s : State) (e : Ep) (k : Nat) :
    (movedOn s e k).ring e k = { s.ring e k with devPos := ((s.ring e k).devPos + 1) % (s.ring e k).size } := by
  rw [movedOn, Keeps.ring (keeps_count _ _) rfl, modRing_ring_same]

/-- What an entry's packet is made from is left by the move. -/
theorem packet_movedOn (s : State) (e : Ep) (k : Nat) (x : TxEntry) (h : HostTx) :
    x.packet h (movedOn s e k) = x.packet h s := by
  have hk := keeps_movedOn s e k
  simp only [TxEntry.packet, TxEntry.chainLen, Keeps.half hk rfl, Keeps.tai hk rfl rfl]

/-- The ring and the tag that an entry's completion goes back to. -/
def sender (e : Ep) (k : Nat) (x : TxEntry) : HostTx :=
  { ep := e, ring := k, tag := x.tag, slot := if x.sealed then some x.slot else none }

/-- An entry that breaks no rule and names a port which is up is opened, or waits. -/
theorem transmitEntry_goesOn {s : State} {e : Ep} {k : Nat} {x : TxEntry} (hr : (s.ring e k).runs 4 = true)
    (hpos : ((s.ring e k).hostPos == (s.ring e k).devPos) = false) (hw : (s.ring e k).txWait = none)
    (hb : s.cqBlocked e k = false) (he : s.flag (Reg.hostEpCtl e.idx) 0 = true) (hbad : x.bad = false)
    (hup : s.portUp x.port = true) (hf : s.dray.fenced = false) (hh : (s.port x.port).held = false) (q : TxWait)
    (hq : q = { port := x.port, cls := x.cls, pkt := x.packet (sender e k x) s }) :
    exec (.transmitEntry e k x.w0 x.w1 x.w2 x.w3) s = .next (match (movedOn s e k).txOpen q with
      | some t => t
      | none => (movedOn s e k).modRing e k (fun r => { r with txWait := some q })) := by
  have hk := keeps_movedOn s e k
  have hp := packet_movedOn s e k x
  have e1 : (movedOn s e k).flag (Reg.hostEpCtl e.idx) 0 = true := (Keeps.flag hk rfl _ _).trans he
  have e2 : (movedOn s e k).portUp x.port = true := hup
  have e3 : (movedOn s e k).dray.fenced = false := hf
  have e4 : ((movedOn s e k).port x.port).held = false := hh
  have hfold : (s.modRing e k (fun r => { r with devPos := (r.devPos + 1) % r.size })).count (Reg.hostRingEntries e.idx k) =
    movedOn s e k := rfl
  subst hq
  simp only [exec, execTransmitEntry, hr, hpos, hw, hb, hfold, Bool.not_true, Option.isSome_none, Bool.or_self, Bool.false_eq_true,
    if_false]
  simp only [e1, e2, e3, e4, hbad, hp, Bool.not_true, Bool.or_self, Bool.false_eq_true, if_false, sender] <;> rfl

/-- Settles O37: an entry that fits is opened and one that does not waits; a waiting one is opened once it fits. -/
theorem transmitEntries : Obligations.TransmitEntries := by
  refine ⟨?_, fun e k q s hw hf ha hc hl => ?_⟩
  · intro e k w0 w1 w2 w3 s x h q hr hpos hw hb he hbad hup hdf hh hl
    have hrun := transmitEntry_goesOn (x := x) hr hpos hw hb he hbad hup hdf hh q rfl
    have hk := keeps_movedOn s e k
    have hring := movedOn_ring s e k
    have hall := keeps_execTransmitEntry e k w0 w1 w2 w3 s
    have hfits := txFits_keeps hk rfl rfl rfl q
    have hpt := Keeps.port hk rfl x.port
    refine ⟨fun hf ha => ?_, fun hf => ?_⟩
    · obtain ⟨t, tag, cells, ht, hqueue⟩ := txOpen_opens (s := movedOn s e k) (w := q) (hfits.trans hf)
        ((allocCells_keeps hk rfl _).trans ha) ((congrArg (fun p : Port => p.queues.length) hpt).trans hl) (field_lt w0 21 2)
      rw [ht] at hrun
      have hto := keeps_txOpen _ _ _ ht
      refine ⟨t, _, hrun, hqueue.trans (congrArg (fun p : Port => p.queue x.cls ++ _) hpt), rfl, rfl, rfl, ?_, Keeps.mono (hall t hrun) rfl⟩
      rw [Keeps.ring hto rfl, hring]
    · have hnone : (movedOn s e k).txOpen q = none := by simp [State.txOpen, hfits, hf]
      rw [hnone] at hrun
      refine ⟨_, hrun, ?_, ?_, Keeps.step (keeps_modRing _ _ _ _) rfl hk⟩
      · rw [modRing_ring_same]
      · rw [modRing_ring_same, hring]
  · obtain ⟨t, tag, cells, ht, hqueue⟩ := txOpen_opens hf ha hl hc
    have he : exec (.txResourcesReady e k) s = .next (t.modRing e k (fun r => { r with txWait := none })) := by
      simp only [exec, execTxResourcesReady, hw, ht]
    refine ⟨_, { q.pkt with tag := tag, cells := cells }, he, ?_, ?_, rfl, rfl, Keeps.mono (keeps_execTxResourcesReady e k s _ he) rfl⟩
    · rw [modRing_ring_same]
    · rw [Keeps.port (keeps_modRing t e k _) rfl]
      exact hqueue

end Sys2Proof.Proofs.Transmit

/-! SUPPORT. Table images: the loader and the inactive bank (R174 to R177). -/

namespace Sys2Proof.Proofs.Images

open Sys2Proof.Machine Sys2Proof.Safety Sys2Proof.Laws Sys2Proof.Proofs.Commands Sys2Proof.Proofs.Decoding

/-! ## Banks -/

theorem modBank_bank (s : State) (g : Bool) (f : Bank → Bank) (b : Bool) :
    (s.modBank g f).bank b = if b = g then f (s.bank g) else s.bank b := by
  cases g <;> cases b <;> rfl

theorem modBank_loader (s : State) (g : Bool) (f : Bank → Bank) : (s.modBank g f).watch.loader = s.watch.loader := by
  cases g <;> rfl

theorem keeps_modBank_only (s : State) (g : Bool) (f : Bank → Bank) : Keeps [.banks] s (s.modBank g f) := by
  unfold State.modBank
  cases g <;> exact Keeps.with_watch (.inl rfl) (.inr rfl) (.inr rfl) (Keeps.refl _ s)

theorem modLoader_bank (s : State) (f : Loader → Loader) (b : Bool) : (s.modLoader f).bank b = s.bank b :=
  Keeps.bank (keeps_modLoader s f) rfl b

/-- The other bank is the active one. -/
theorem activeGen_ne (s : State) : s.gen.activeGen ≠ s.inactiveGen := by
  simp [State.inactiveGen]

/-- The write phase begins. -/
theorem loadWrite_writes (s : State) : (s.loadWrite).watch.loader.st = .writing ∧
    ((s.loadWrite).bank s.inactiveGen).entries = (s.bank s.inactiveGen).entries ∧
    ((s.loadWrite).bank s.inactiveGen).routes = (s.bank s.inactiveGen).routes ∧
    ((s.loadWrite).bank s.inactiveGen).descs = (s.bank s.inactiveGen).descs ∧
    ((s.loadWrite).bank s.inactiveGen).seed0 = (s.bank s.inactiveGen).seed0 ∧
    ((s.loadWrite).bank s.inactiveGen).seed1 = (s.bank s.inactiveGen).seed1 ∧
    (s.loadWrite).bank s.gen.activeGen = s.bank s.gen.activeGen ∧ Keeps [.banks, .loader] s s.loadWrite := by
  have hm := keeps_modLoader s (fun l => { l with st := .writing })
  have hg : (s.modLoader (fun l => { l with st := .writing })).inactiveGen = s.inactiveGen := rfl
  have hne := activeGen_ne s
  unfold State.loadWrite
  dsimp only
  split
  · simp only [modBank_loader, modLoader_loader, hg, modBank_bank, if_true, if_neg hne, modLoader_bank, true_and]
    exact Keeps.step (keeps_modBank_only _ _ _) rfl (Keeps.mono hm rfl)
  · simp only [modLoader_loader, modLoader_bank, true_and]
    exact Keeps.mono hm rfl

/-! ## What the end of a failed load leaves -/

theorem keeps_reload (s : State) : Keeps (andBell [.srcs, .stew, .parity]) s
    { s with regs := { s.regs with reload := s.regs.badInForce } } :=
  Keeps.with_regs (.inr rfl) (.inr rfl) (.inr rfl) (.inr rfl) (.inr ⟨rfl, rfl⟩) (.inr ⟨rfl, rfl, rfl⟩) (.inl rfl)
    (.inr ⟨rfl, rfl, rfl⟩) (Keeps.refl _ s)


/-- A fault whose reaction at most asks for a reload leaves the tables, the loader and the units. -/
theorem keeps_unitFault_reload {f : Nat} (h : ∀ r : Nat, reactAllowed f r = true → r = 0 ∨ r = 3) (s : State) (syn : Nat) :
    Keeps (andBell [.srcs, .stew, .parity]) s (s.unitFault f syn) := by
  refine keeps_unitFault_react rfl (fun u v => ?_) s
  have hr : u.reactOf f = 0 ∨ u.reactOf f = 3 := by
    unfold State.reactOf
    dsimp only
    split
    · next ha => exact h _ ha
    · exact .inl rfl
  rcases hr with hr | hr <;> rw [hr]
  · exact Keeps.refl _ v
  · exact keeps_reload v

/-- What the parity check of a commit changes. -/
abbrev parityParts : List Part := andBell [.srcs, .stew, .parity, .staged, .held]

theorem keeps_touchCopy_parity (s : State) (x : RegCopy × Nat) : Keeps parityParts s (s.touchCopy x) := by
  have h360 : ∀ r : Nat, reactAllowed 360 r = true → r = 0 ∨ r = 3 := by
    intro r
    simp [reactAllowed]
  have h361 : ∀ r : Nat, reactAllowed 361 r = (r == 0) := by
    intro r
    simp [reactAllowed]
  unfold State.touchCopy
  refine Keeps.ite (Keeps.trans (Keeps.mono (keeps_mendCopy s x) rfl) ?_) (Keeps.refl _ s)
  generalize s.mendCopy x = u
  unfold State.parityBad
  split
  · exact Keeps.refl _ u
  · refine Keeps.ite (Keeps.refl _ u) ?_
    split
    · refine Keeps.trans ?_ (Keeps.mono (keeps_unitFault_reload h360 _ 0) rfl)
      exact Keeps.with_regs (.inr rfl) (.inr rfl) (.inr rfl) (.inr rfl) (.inr ⟨rfl, rfl⟩) (.inr ⟨rfl, rfl, rfl⟩) (.inl rfl)
        (.inr ⟨rfl, rfl, rfl⟩) (Keeps.refl _ u)
    · refine Keeps.step (keeps_raise _ _) rfl (Keeps.trans ?_ (Keeps.mono (keeps_unitFault_none h361 0) rfl))
      exact Keeps.with_regs (.inr rfl) (.inl rfl) (.inr rfl) (.inr rfl) (.inr ⟨rfl, rfl⟩) (.inr ⟨rfl, rfl, rfl⟩) (.inl rfl)
        (.inr ⟨rfl, rfl, rfl⟩) (Keeps.refl _ u)
    · refine Keeps.step (keeps_raise _ _) rfl (Keeps.trans ?_ (Keeps.mono (keeps_unitFault_none h361 0) rfl))
      exact Keeps.with_regs (.inr rfl) (.inr rfl) (.inl rfl) (.inr rfl) (.inr ⟨rfl, rfl⟩) (.inr ⟨rfl, rfl, rfl⟩) (.inl rfl)
        (.inr ⟨rfl, rfl, rfl⟩) (Keeps.refl _ u)

/-- What a manual commit changes: neither a bank nor the loader. -/
abbrev commitParts : List Part :=
  andBell [.commit, .tai, .inForce, .staged, .held, .parity, .owner, .engines, .ports, .frames, .watch, .scriv, .subs, .bitmaps,
    .halves, .lock, .rings, .cells, .cellar, .srcs, .stew, .tink, .firmware, .flash]

theorem keeps_commitPoint_tables (s : State) (k : CommitKind) (r : Word) : Keeps commitParts s (s.commitPoint k r) := by
  have hcheck : Keeps commitParts s s.checkCommit :=
    Keeps.foldl (fun u x => Keeps.mono (Keeps.trans (keeps_touchCopy_parity u _) (keeps_touchCopy_parity _ _)) rfl) (Keeps.refl _ s)
  unfold State.commitPoint
  dsimp only
  refine Keeps.step (keeps_commitEnds _ _ _ _ _) rfl (Keeps.ite (Keeps.step (keeps_setLastCommit _ _) rfl ?_) ?_)
  all_goals
    refine Keeps.step (keeps_commitUnits _ _ _ _) rfl (Keeps.ite (Keeps.step (keeps_performSwap _) rfl ?_) ?_)
    all_goals
      refine Keeps.ite (Keeps.step (keeps_deferSwap _ _) rfl ?_) ?_
      all_goals exact Keeps.ite hcheck (Keeps.refl _ s)

theorem keeps_unbusy_tables (s : State) : Keeps commitParts s s.unbusy := by
  unfold State.unbusy
  dsimp only
  have hg : Keeps commitParts s { s with gen := { s.gen with commitBusy := false, commitHeld := false } } :=
    Keeps.with_gen (.inr ⟨rfl, rfl, rfl, rfl, rfl, rfl, rfl, rfl, rfl⟩) (.inr ⟨rfl, rfl, rfl⟩) (.inl rfl)
      (.inr ⟨rfl, rfl, rfl, rfl, rfl, rfl, rfl⟩) (Keeps.refl _ s)
  refine Keeps.ite (Keeps.refl _ s) (Keeps.ite ?_ ?_)
  · exact Keeps.trans hg (keeps_commitPoint_tables _ _ _)
  · exact Keeps.step (keeps_endManual _) rfl hg

/-! ## A load ends -/

/-- A load's end with no load held: the command, if there is one, completes. -/
theorem loadEnd_noHeld {s : State} (h : s.watch.loader.queue = []) (status detail : Nat) (r : Word) :
    s.loadEnd status detail r = match s.watch.loader.cmd with
      | some (e, k) => (s.modLoader (fun l => { l with st := .idle, cmd := none })).endCommand e k status detail r
      | none => s.modLoader (fun l => { l with st := .idle, cmd := none }) := by
  unfold State.loadEnd
  simp only [h] <;> rfl

/-- With no load held the loader is idle, and its error and the banks are as they were. -/
theorem loadEnd_idle {s : State} (h : s.watch.loader.queue = []) (status detail : Nat) (r : Word) :
    (s.loadEnd status detail r).watch.loader = { s.watch.loader with st := .idle, cmd := none } ∧
    ∀ b : Bool, (s.loadEnd status detail r).bank b = s.bank b := by
  have hm := modLoader_bank s (fun l => { l with st := .idle, cmd := none })
  rw [loadEnd_noHeld h]
  split
  · refine ⟨?_, fun b => ?_⟩
    · rw [Keeps.watch_loader (keeps_endCommand _ _ _ _ _ _) rfl, modLoader_loader]
    · rw [Keeps.bank (keeps_endCommand _ _ _ _ _ _) rfl, hm]
  · exact ⟨modLoader_loader s _, hm⟩

theorem markBad_marks (s : State) : (s.markBad).watch.loader = s.watch.loader ∧ ((s.markBad).bank s.inactiveGen).bad = true := by
  have hl := modBank_loader s s.inactiveGen (fun b => { b with bad := true })
  have hb : ((s.modBank s.inactiveGen (fun b => { b with bad := true })).bank s.inactiveGen).bad = true := by
    rw [modBank_bank, if_pos rfl]
  unfold State.markBad
  generalize s.modBank s.inactiveGen (fun b => { b with bad := true }) = u at hl hb
  dsimp only
  split
  · rw [Keeps.watch_loader (keeps_count _ _) rfl, Keeps.watch_loader (keeps_withdrawSwap u) rfl, Keeps.bank (keeps_count _ _) rfl,
      Keeps.bank (keeps_withdrawSwap u) rfl]
    exact ⟨hl, hb⟩
  · exact ⟨hl, hb⟩

/-- A load that fails leaves the loader idle with its error, and the inactive bank bad. -/
theorem failLoad_failed {s : State} (hq : s.watch.loader.queue = []) (e rec' : Nat) :
    (s.failLoad e rec').watch.loader.st = .idle ∧ ((s.failLoad e rec').bank s.inactiveGen).bad = true ∧
    (s.failLoad e rec').watch.loader.err = e ∧ (s.failLoad e rec').watch.loader.errRec = rec' := by
  have hfail : ∀ u : State, u.watch.loader.queue = [] → (u.loadFail e rec').watch.loader.st = .idle ∧
      ((u.loadFail e rec').bank u.inactiveGen).bad = true ∧ (u.loadFail e rec').watch.loader.err = e ∧
      (u.loadFail e rec').watch.loader.errRec = rec' := by
    intro u hu
    unfold State.loadFail
    dsimp only
    obtain ⟨h1, h2⟩ := markBad_marks (u.modLoader (fun l => { l with err := e, errRec := rec' }))
    have hc := keeps_count (State.markBad (u.modLoader (fun l => { l with err := e, errRec := rec' }))) Reg.watchLoadFail
    have hl : (State.count (State.markBad (u.modLoader (fun l => { l with err := e, errRec := rec' })))
        Reg.watchLoadFail).watch.loader = { u.watch.loader with err := e, errRec := rec' } :=
      (Keeps.watch_loader hc rfl).trans (h1.trans (modLoader_loader u _))
    obtain ⟨h3, h4⟩ := loadEnd_idle (by rw [hl]; exact hu) 5 e 0
    rw [h3, h4, hl, Keeps.bank hc rfl]
    exact ⟨rfl, h2, rfl, rfl⟩
  obtain ⟨u, hk, hf⟩ : ∃ u : State, Keeps [.counters] s u ∧ s.failLoad e rec' = (u.loadFail e rec').unbusy := by
    unfold State.failLoad
    refine ⟨_, ?_, rfl⟩
    split
    · exact Keeps.ite (keeps_memError _ _ _) (Keeps.refl _ s)
    · exact Keeps.refl _ s
  have hg : u.inactiveGen = s.inactiveGen := congrArg (!·) (Keeps.gen_activeGen hk rfl)
  obtain ⟨h1, h2, h3, h4⟩ := hfail u ((congrArg (·.queue) (Keeps.watch_loader hk rfl) :).trans hq)
  have ht := keeps_unbusy_tables (u.loadFail e rec')
  rw [hf, Keeps.watch_loader ht rfl, Keeps.bank ht rfl, ← hg]
  exact ⟨h1, h2, h3, h4⟩

/-! ## The steps of a load -/

/-- LOAD_IMAGE with good parameters, at an idle loader. -/
theorem loadImage_begins {c : CmdEntry} {s : State} (h : runsCommand s c 1 = true) (hh : cmdHeadOk c 0 = true)
    (h1 : c.w1.field 0 3 = 0) (h2 : wordsZero [c.w3, c.w4, c.w5, c.w6, c.w7] = true) (hi : s.watch.loader.st = .idle) :
    exec (.loadImage c) s = .next ((s.takeCommand c 1).loadBegin c.ep c.ring c.w2.toNat) := by
  have hst : (s.takeCommand c 1).watch.loader.st = .idle :=
    (congrArg (·.st) (Keeps.watch_loader (keeps_takeCommand s c 1) rfl) :).trans hi
  simp [exec, execLoadImage, startCommand_runs h, hh, h1, h2, hst]

/-- What the loader takes from a good header. -/
def headed (s : State) (h : Nat → Word) : State :=
  s.modLoader (fun l => { l with
    mode := (h 0).field 48 8, seed0 := (h 1).field 0 32, seed1 := (h 1).field 32 32, crcWant := (h 4).field 32 32
    imageId := h 5, nStash := (h 2).field 32 32, recNo := 0, pos := 64, crc := 0xFFFFFFFF, wrote := []
    counts := [(h 2).field 0 32, (h 2).field 32 32, (h 3).field 0 32, (h 3).field 32 32, (h 4).field 0 32] })

/-- A bank cleared for a full image, with its seeds. -/
def cleared (l : Loader) (b : Bank) : Bank :=
  { b with entries := [], stash := [], badSlots := [], routes := [], descs := [], seed0 := l.seed0, seed1 := l.seed1 }

/-- A bank that takes the tables of another. -/
def copied (a b : Bank) : Bank :=
  { b with entries := a.entries, stash := a.stash, badSlots := [], routes := a.routes, descs := a.descs, seed0 := a.seed0, seed1 := a.seed1 }

theorem imageWaitEnd_good {s : State} {ws : List Word} (hst : s.watch.loader.st = .waiting) (hb : s.genBusy s.inactiveGen = false)
    (he : headerError s.watch.loader.length (fun i => (ws[i]?).getD 0) = none) :
    exec (.imageWaitEnd (some ws)) s = .next (
      if (((ws[0]?).getD 0).field 48 8 = 0) then
        State.loadWrite ((headed s (fun i => (ws[i]?).getD 0)).modBank s.inactiveGen
          (cleared (headed s (fun i => (ws[i]?).getD 0)).watch.loader))
      else (headed s (fun i => (ws[i]?).getD 0)).modLoader (fun l => { l with st := .copying })) := by
  simp only [exec, execImageWaitEnd, hst, hb, ne_eq, not_true_eq_false, Bool.false_eq_true, or_self, if_false, he]
  rfl

/-- A bank with the entry of one index written. -/
def stored (k : Nat) (e : WatchEntry) (b : Bank) : Bank :=
  { b with badSlots := setErase k b.badSlots, entries := Table.set (fun _ => emptyEntry) b.entries k e }

theorem writeRecord_eq (s : State) (w0 w1 w2 w3 : Word) : s.writeRecord 0 [w0, w1, w2, w3] =
    (s.modBank s.inactiveGen (stored w0.toNat (if w1.bit 63 then (w1, w2, w3) else emptyEntry))).modLoader
      (fun l => l.written 0 w0.toNat [w0, w1, w2, w3]) := rfl

/-- A watch record that passes is written at its index. -/
theorem writeRecord_watch {s : State} (w0 w1 w2 w3 : Word) :
    ((s.writeRecord 0 [w0, w1, w2, w3]).bank s.inactiveGen).entry w0.toNat = (if w1.bit 63 then (w1, w2, w3) else emptyEntry) ∧
    (∀ i : Nat, i ≠ w0.toNat →
      ((s.writeRecord 0 [w0, w1, w2, w3]).bank s.inactiveGen).entry i = (s.bank s.inactiveGen).entry i) ∧
    (s.writeRecord 0 [w0, w1, w2, w3]).bank s.gen.activeGen = s.bank s.gen.activeGen ∧
    (s.writeRecord 0 [w0, w1, w2, w3]).watch.loader.pos = s.watch.loader.pos + 32 ∧
    Keeps [.banks, .loader] s (s.writeRecord 0 [w0, w1, w2, w3]) := by
  rw [writeRecord_eq]
  refine ⟨?_, fun i hi => ?_, ?_, ?_, Keeps.step (keeps_modLoader _ _) rfl (Keeps.mono (keeps_modBank_only _ _ _) rfl)⟩
  · rw [modLoader_bank, modBank_bank, if_pos rfl]
    exact (get_set _ _ _ _ _).trans (if_pos rfl)
  · rw [modLoader_bank, modBank_bank, if_pos rfl]
    exact (get_set _ _ _ _ _).trans (if_neg hi)
  · rw [modLoader_bank, modBank_bank, if_neg (activeGen_ne s)]
  · rw [modLoader_loader, modBank_loader]
    rfl

/-- The state in which a load that passed the bank checks ends. -/
def passed (s : State) : State :=
  ((s.modBank s.inactiveGen (fun b => { b with bad := false, imageId := s.watch.loader.imageId })).modLoader
    (fun l => { l with err := 0, errRec := 0 })).count Reg.watchLoads

theorem passed_loader (s : State) : (passed s).watch.loader = { s.watch.loader with err := 0, errRec := 0 } := by
  rw [passed, Keeps.watch_loader (keeps_count _ _) rfl, modLoader_loader, modBank_loader]

theorem passed_bank (s : State) (b : Bool) : (passed s).bank b =
    if b = s.inactiveGen then { s.bank s.inactiveGen with bad := false, imageId := s.watch.loader.imageId } else s.bank b := by
  rw [passed, Keeps.bank (keeps_count _ _) rfl, modLoader_bank, modBank_bank]

/-- Settles O38: each step of a load by what it leaves of the loader and of the two banks. -/
theorem images : Obligations.Images := by
  refine ⟨⟨fun c s h hh h1 h2 hi => ?_, ?_, fun s hst => ?_⟩, fun w0 w1 w2 w3 s hst hsec herr => ?_,
    fun readOk s hst hsec hlen => ⟨fun hcrc => ?_, fun hcrc hq => ?_⟩, fun s hst hq => ⟨fun hno => ?_, fun e r herr => ?_⟩⟩
  · have hk := keeps_loadBegin (s.takeCommand c 1) c.ep c.ring c.w2.toNat
    refine ⟨_, loadImage_begins h hh h1 h2 hi, rfl, rfl, rfl, ?_, Keeps.step hk rfl (Keeps.mono (keeps_takeCommand s c 1) rfl)⟩
    rw [Keeps.ring hk rfl, takeCommand_ring]
    rfl
  · intro ws s h hst hb he
    have hrun := imageWaitEnd_good hst hb he
    have hk : Keeps [.loader] s (headed s h) := keeps_modLoader s _
    refine ⟨fun hmode => ?_, fun hmode => ?_⟩
    · rw [if_pos hmode] at hrun
      have hm := keeps_modBank_only (headed s h) s.inactiveGen (cleared (headed s h).watch.loader)
      have hb := modBank_bank (headed s h) s.inactiveGen (cleared (headed s h).watch.loader)
      have hg : State.inactiveGen ((headed s h).modBank s.inactiveGen (cleared (headed s h).watch.loader)) = s.inactiveGen :=
        congrArg (!·) ((Keeps.gen_activeGen hm rfl).trans (Keeps.gen_activeGen hk rfl))
      obtain ⟨w1, w2, w3, w4, w5, w6, w7, w8⟩ := loadWrite_writes ((headed s h).modBank s.inactiveGen (cleared (headed s h).watch.loader))
      rw [hg, hb, if_pos rfl] at w2 w3 w4 w5 w6
      rw [Keeps.gen_activeGen hm rfl, Keeps.gen_activeGen hk rfl, hb, if_neg (activeGen_ne s), Keeps.bank hk rfl] at w7
      exact ⟨_, hrun, w1, w2, w3, w4, w5, w6, w7, Keeps.trans (Keeps.mono hk rfl) (Keeps.trans (Keeps.mono hm rfl) w8)⟩
    · rw [if_neg hmode] at hrun
      exact ⟨_, hrun, rfl, Keeps.step (keeps_modLoader _ _) rfl hk⟩
  · have hm := keeps_modBank_only s s.inactiveGen (copied (s.bank s.gen.activeGen))
    have hb := modBank_bank s s.inactiveGen (copied (s.bank s.gen.activeGen))
    have he : exec .imageCopyDone s = .next (State.loadWrite (s.modBank s.inactiveGen (copied (s.bank s.gen.activeGen)))) := by
      simp only [exec, execImageCopyDone, hst, ne_eq, not_true_eq_false, if_false]
      rfl
    have hg : State.inactiveGen (s.modBank s.inactiveGen (copied (s.bank s.gen.activeGen))) = s.inactiveGen :=
      congrArg (!·) (Keeps.gen_activeGen hm rfl)
    obtain ⟨w1, w2, w3, w4, w5, w6, w7, w8⟩ := loadWrite_writes (s.modBank s.inactiveGen (copied (s.bank s.gen.activeGen)))
    rw [hg, hb, if_pos rfl] at w2 w3 w4 w5 w6
    rw [Keeps.gen_activeGen hm rfl, hb, if_neg (activeGen_ne s)] at w7
    exact ⟨_, he, w1, w2, w3, w4, w5, w6, w7, Keeps.trans (Keeps.mono hm rfl) w8⟩
  · have he : exec (.imageRecordRead (some [w0, w1, w2, w3])) s = .next (s.writeRecord 0 [w0, w1, w2, w3]) := by
      simp only [exec, execImageRecordRead, hst, hsec, herr, ne_eq, not_true_eq_false, if_false]
      rfl
    obtain ⟨h1, h2, h3, h4, h5⟩ := writeRecord_watch (s := s) w0 w1 w2 w3
    exact ⟨_, he, h1, h2, h3, h4, h5⟩
  · have he : exec (.imageEndCheck readOk) s = .next (s.modLoader (fun l => { l with st := .checking })) := by
      simp [exec, execImageEndCheck, hst, hsec, show ¬ s.watch.loader.pos < s.watch.loader.length by omega, hcrc]
    exact ⟨_, he, rfl, keeps_modLoader _ _⟩
  · have he : exec (.imageEndCheck readOk) s = .next (s.failLoad 2 0) := by
      simp [exec, execImageEndCheck, hst, hsec, show ¬ s.watch.loader.pos < s.watch.loader.length by omega, hcrc]
    obtain ⟨h1, h2, h3, -⟩ := failLoad_failed hq 2 0
    exact ⟨_, he, h1, h3, h2, keeps_failLoad s 2 0⟩
  · have he : exec .imageBankCheck s = .next ((passed s).loadEnd 0 0 s.watch.loader.imageId) := by
      simp only [exec, execImageBankCheck, hst, hno, ne_eq, not_true_eq_false, if_false]
      rfl
    obtain ⟨h1, h2⟩ := loadEnd_idle (s := passed s) (by rw [passed_loader]; exact hq) 0 0 s.watch.loader.imageId
    refine ⟨_, he, by rw [h1], ?_, ?_, ?_, ?_, keeps_execImageBankCheck s _ he⟩
    · rw [h2, passed_bank, if_pos rfl]
    · rw [h2, passed_bank, if_pos rfl]
    · rw [h1, passed_loader]
    · rw [h2, passed_bank, if_neg (activeGen_ne s)]
  · have he : exec .imageBankCheck s = .next (s.failLoad e r) := by
      simp [exec, execImageBankCheck, hst, herr]
    obtain ⟨h1, h2, h3, h4⟩ := failLoad_failed hq e r
    exact ⟨_, he, h1, h2, h3, h4, keeps_failLoad s e r⟩

end Sys2Proof.Proofs.Images

/-! SUPPORT. Sealed frames received: F latches a half, and the verdict NO_KEY (R300, R301). -/

namespace Sys2Proof.Proofs.SealedReception

open Sys2Proof.Machine Sys2Proof.Safety Sys2Proof.Laws Sys2Proof.Proofs.Decoding

/-- A frame that never latched a half has the verdict NO_KEY. -/
theorem sealCheck_noKey {f : Machine.Frame} (hg : f.keyGone = false) (hd : f.f.data ≠ []) (hfd : isFd f.f.fmt = true)
    (hh : f.half = none) : f.sealCheck = (3, none) := by
  simp [Machine.Frame.sealCheck, hg, hd, hfd, hh]

/-- Without a test the Tinker has nothing to settle. -/
theorem tinkSettle_none {s : State} (h : s.tink.tests = []) : s.tinkSettle = s := by
  simp [State.tinkSettle, h]

/-- The state once NO_KEY has been counted and stands in the frame's record. -/
def noKeyMarked (s : State) (fid : Nat) : State :=
  ((s.count Reg.lockNoKey).modFrame fid (fun f => { f with verdictCode := some 3, lane := none })).freeLane fid

theorem sealVerdict_noKey {s : State} {f : Machine.Frame} (hs : f.sealCheck = (3, none)) (hh : f.half = none)
    (ht : s.tink.tests = []) (fid : Nat) : s.sealVerdict fid f = (noKeyMarked s fid).settleFrame fid := by
  have hsettle : (noKeyMarked s fid).tinkSettle = noKeyMarked s fid :=
    tinkSettle_none ((congrArg (·.tests) (Keeps.tink (keeps_modFrame (s.count Reg.lockNoKey) fid _) rfl) :).trans ht)
  unfold State.sealVerdict
  simp only [hs, hh]
  rw [← hsettle]
  rfl

theorem keeps_noKeyMarked (s : State) (fid : Nat) : Keeps [.counters, .frames, .lock] s (noKeyMarked s fid) :=
  Keeps.step (keeps_freeLane _ _) rfl (Keeps.step (keeps_modFrame _ _ _) rfl (Keeps.mono (keeps_count s _) rfl))

theorem noKeyMarked_frame {s : State} {fid : Nat} {g : Machine.Frame} (h : (noKeyMarked s fid).frame? fid = some g) :
    g.verdictCode = some 3 := by
  have h' : ((s.count Reg.lockNoKey).modFrame fid (fun f => { f with verdictCode := some 3, lane := none })).frame? fid = some g := h
  rw [modFrame_frame?] at h'
  obtain ⟨f, -, rfl⟩ := Option.map_eq_some_iff.mp h'
  rfl

/-- Settles O39: F latches the half that KP names; without one the verdict is NO_KEY. -/
theorem sealedReception : Obligations.SealedReception := by
  refine ⟨fun fid w f s h h1 h2 h3 h4 h5 h6 hsel => ?_, fun fid f s h h1 h2 h3 h4 h5 h6 h7 h8 h9 h10 ht => ?_⟩
  · have he : exec (.sealFArrival fid) s = .next (s.setFrame fid { f with
        fArrived := true, half := some ((s.frameEntry f).keySlot, w), latched := s.half (s.frameEntry f).keySlot w
        plain := (s.half (s.frameEntry f).keySlot w).plaintext f.f }) := by
      simp only [exec, execSealFArrival, h, h1, h2, h3, h4, h5, h6, hsel, Bool.not_true, Option.isSome_none, decide_false,
        Bool.or_self, Bool.false_eq_true, if_false]
    exact ⟨_, _, he, by rw [setFrame_frame?, if_pos rfl], rfl, rfl, rfl, keeps_setFrame _ _ _⟩
  · have he : exec (.locksmithVerdict fid) s = .next ((noKeyMarked s fid).settleFrame fid) := by
      rw [← sealVerdict_noKey (sealCheck_noKey h7 h9 h10 h8) h8 ht]
      simp [exec, execLocksmithVerdict, h, h1, h2, h3, h4, h5, h6]
    have hk := keeps_settleFrame (noKeyMarked s fid) fid
    refine ⟨_, he, fun g hg => noKeyMarked_frame (settleFrame_frame? hg), ?_, ?_, Keeps.step hk rfl (Keeps.mono (keeps_noKeyMarked s fid) rfl)⟩
    · rw [Keeps.counter hk rfl, noKeyMarked, Keeps.counter (keeps_freeLane _ _) rfl, Keeps.counter (keeps_modFrame _ _ _) rfl,
        count_counter, if_pos rfl]
    · exact (Keeps.lock_halves hk rfl).trans (Keeps.lock_halves (keeps_noKeyMarked s fid) rfl)

end Sys2Proof.Proofs.SealedReception

/-! SUPPORT. Lanes and seals of host packets (R302 to R305). -/

namespace Sys2Proof.Proofs.Seals

open Sys2Proof.Machine Sys2Proof.Safety Sys2Proof.Laws Sys2Proof.Proofs.Lookups Sys2Proof.Proofs.ClassQueues
  Sys2Proof.Proofs.SealedReception

/-! ## A seal begins -/

/-- The frame that a host packet is sealed as. -/
def sealHead (k : Packet) (d : Bytes) : BusFrame where
  fmt := k.fmt
  ident := k.ident
  dlc := dlcOf k.fmt k.len k.dlc
  brs := k.brs
  esi := false
  sec := false
  sdt := k.xl.field 56 8
  vcid := k.xl.field 48 8
  af := k.xl.field 0 32
  data := d

/-- The state with what is left waiting for a lane. -/
def handed (s : State) (r : List (SealSource × Nat)) : State := { s with lock := { s.lock with waiting := r } }

/-- The job that a lane takes on for an open host packet. -/
def hostJob (s : State) (p tag slot : Nat) (d : Bytes) : SealJob :=
  { src := .host p tag d, slot := slot, half := s.half slot 0, which := 0, fv := (s.half slot 0).fvTx, keyGone := false, cells := [] }

/-- The state once a lane has taken a host packet: the half's FV_TX is one higher, and the job is the lane's. -/
def sealBegun (s : State) (i slot : Nat) (j : SealJob) : State :=
  let s := s.setHalf slot 0 { s.half slot 0 with fvTx := (s.half slot 0).fvTx + 1 }
  { s with lock := { s.lock with lanes := listMod (fun (l : Lane) => { l with job := some j }) i s.lock.lanes } }

theorem sealBegin_host {s : State} {i p tag slot n : Nat} {d : Bytes} {k : Packet} {f : BusFrame} (ho : s.openPacket? p tag = some k)
    (hc : (s.half slot 0).cannotSeal = false) (hg : (s.half slot 0).alg = 2 → f.fmt = 4)
    (hl : sealedLen f.fmt (s.half slot 0).sform d.length = some n) (hn : cellsFor n ≤ k.cells.length) :
    s.sealBegin i (.host p tag d) slot f d = sealBegun s i slot (hostJob s p tag slot d) := by
  have hgcm : ((s.half slot 0).alg == 2 && f.fmt != 4) = false := by
    by_cases h : (s.half slot 0).alg = 2
    · simp [hg h]
    · simp [h]
  unfold State.sealBegin
  simp only [hc, hgcm, hl, ho, hn, Bool.or_self, Bool.false_eq_true, if_false, if_true]
  rfl

theorem keeps_sealBegun (s : State) (i slot : Nat) (j : SealJob) : Keeps [.lock, .halves] s (sealBegun s i slot j) :=
  Keeps.with_lock (.inl rfl) (.inr ⟨rfl, rfl, rfl⟩) (.inl rfl)
    (Keeps.mono (keeps_setHalf s slot 0 { s.half slot 0 with fvTx := (s.half slot 0).fvTx + 1 }) rfl)

theorem half_setHalf (s : State) (slot which : Nat) (h : KeyHalf) : (s.setHalf slot which h).half slot which = h := by
  simp [State.half, State.setHalf]

theorem sealBegun_half (s : State) (i slot : Nat) (j : SealJob) :
    ((sealBegun s i slot j).half slot 0).fvTx = (s.half slot 0).fvTx + 1 :=
  congrArg (·.fvTx) (half_setHalf s slot 0 { s.half slot 0 with fvTx := (s.half slot 0).fvTx + 1 })

theorem sealBegun_lane {s : State} {i : Nat} {l : Lane} (hl : s.lock.lanes[i]? = some l) (slot : Nat) (j : SealJob) :
    ((sealBegun s i slot j).lock.lanes[i]?).map (·.job) = some (some j) := by
  unfold sealBegun State.setHalf
  dsimp only
  rw [getElem?_listMod, if_pos rfl, hl]
  rfl

/-! ## A seal ends -/

/-- A use counted leaves the lanes. -/
theorem useHalf_lanes (s : State) (slot which : Nat) : (s.useHalf slot which).lock.lanes = s.lock.lanes := by
  unfold State.useHalf
  dsimp only
  rw [show ∀ (u : State) (c : Bool), (u.raiseIf c 6).lock = u.lock from fun u c =>
    Keeps.lock (keeps_raiseIf u c 6) rfl rfl rfl]
  split <;> rfl

theorem useHalf_counter (s : State) (slot which : Nat) {o : Nat} (h : o < 0x10700 ∨ 0x10c00 ≤ o) :
    (s.useHalf slot which).counter o = s.counter o := by
  have hr : ∀ (u : State) (c : Bool), (u.raiseIf c 6).counter o = u.counter o := by
    intro u c
    unfold State.raiseIf
    split
    · exact raise_counter u 6 h
    · rfl
  unfold State.useHalf
  dsimp only
  rw [hr]
  split <;> rfl

/-- The lane given up by the seal on it. -/
def laneFreed (s : State) (i : Nat) : State :=
  { s with lock := { s.lock with lanes := listMod (fun (l : Lane) => { l with job := none }) i s.lock.lanes } }

theorem keeps_laneFreed (s : State) (i : Nat) : Keeps [.lock] s (laneFreed s i) :=
  Keeps.with_lock (.inr rfl) (.inr ⟨rfl, rfl, rfl⟩) (.inl rfl) (Keeps.refl _ s)

/-- What a sealed host packet becomes: closed, with the length that it has sealed. -/
def sealedPacket (j : SealJob) (out : List Byte) (k : Packet) : Packet :=
  { k with
    closed := true, len := out.length, dlc := if isFd k.fmt then (fdDlc? out.length).getD k.dlc else k.dlc
    xl := if k.fmt = 4 then k.xl.setField 47 1 (b2n (j.half.alg == 2)) else k.xl }

/-- The state once a host packet's seal is complete. -/
def sealEnded (s : State) (i p tag : Nat) (j : SealJob) (k : Packet) (out : List Byte) : State :=
  ((((laneFreed s i).useHalf j.slot j.which).count Reg.lockSeals).storeData k.cells out).modOpen p tag (sealedPacket j out)

theorem keeps_used (s : State) (i : Nat) (j : SealJob) :
    Keeps (andBell [.halves, .lock]) s (((laneFreed s i).useHalf j.slot j.which).count Reg.lockSeals) :=
  Keeps.step (keeps_count _ _) rfl (Keeps.step (keeps_useHalf _ _ _) rfl (Keeps.mono (keeps_laneFreed s i) rfl))

theorem keeps_written (s : State) (p tag : Nat) (j : SealJob) (k : Packet) (out : List Byte) :
    Keeps [.ports, .storeroom] s ((s.storeData k.cells out).modOpen p tag (sealedPacket j out)) :=
  Keeps.step (keeps_modOpen _ _ _ _) rfl (Keeps.mono (keeps_storeData _ _ _) rfl)

/-- The end of a host packet's seal. -/
theorem sealComplete_host {s : State} {i p tag : Nat} {d : Bytes} {k : Packet} {l : Lane} {j : SealJob}
    (hl : s.lock.lanes[i]? = some l) (hj : l.job = some j) (hs : j.src = .host p tag d) (hg : j.keyGone = false)
    (ho : s.openPacket? p tag = some k) (ht : s.tink.tests = []) :
    ∃ out : List Byte, exec (.sealComplete i) s = .next (sealEnded s i p tag j k out) := by
  have hin : ∀ u : State, u.ports = s.ports → u.openPacket? p tag = some k := by
    intro u hu
    rw [← ho]
    unfold State.openPacket? State.port
    rw [hu]
  obtain ⟨x, hx⟩ : ∃ x : BusFrame × List Byte, (laneFreed s i).sealInput j.src = some x := by
    rw [hs]
    simp only [State.sealInput, hin (laneFreed s i) rfl]
    exact ⟨_, rfl⟩
  have hu := keeps_used s i j
  have hopen := hin _ (Keeps.ports hu rfl)
  refine ⟨j.output x.1 x.2, ?_⟩
  have hdone : (((laneFreed s i).useHalf j.slot j.which).count Reg.lockSeals).sealDone j (j.output x.1 x.2) =
      sealEnded s i p tag j k (j.output x.1 x.2) := by
    simp only [State.sealDone, hs, hopen]
    rfl
  have htests : (sealEnded s i p tag j k (j.output x.1 x.2)).tink.tests = [] :=
    (congrArg (·.tests) ((Keeps.tink (keeps_written _ p tag j k _) rfl).trans (Keeps.tink hu rfl)) :).trans ht
  have hjob : ((s.lock.lanes[i]?).getD {}).job = some j := by rw [hl]; exact hj
  have hfold : ({ s with lock := { s.lock with
      lanes := listMod (fun (l : Lane) => { l with job := none }) i s.lock.lanes } } : State) = laneFreed s i := rfl
  simp only [exec, execSealComplete, hjob, hfold, hx, hg, Bool.false_eq_true, if_false, hdone]
  rw [tinkSettle_none htests]

/-- Settles O40: a free lane takes the host packet that has waited longest, and its seal closes it. -/
theorem seals : Obligations.Seals := by
  refine ⟨fun i p tag slot n d k r l s hl h1 h2 h3 h4 hr hw ho hc hg hlen hn => ?_,
    fun i p tag d k l j s hl hj hs hg ho ht => ?_⟩
  · have hin : (handed s r).sealInput (.host p tag d) = some (sealHead k d, d) := by
      have ho' : (handed s r).openPacket? p tag = some k := ho
      simp only [State.sealInput, ho']
      rfl
    have hlane : (s.lock.lanes[i]?).getD { fenced := true } = l := by rw [hl]; rfl
    have he : exec (.sealStart i) s = .next (sealBegun (handed s r) i slot (hostJob s p tag slot d)) := by
      have hfold : ({ s with lock := { s.lock with waiting := r } } : State) = handed s r := rfl
      simp only [exec, execSealStart, hw, hlane, hfold]
      simp only [h1, h2, h3, h4, hr, Option.isSome_none, Bool.not_true, Bool.or_self, Bool.false_eq_true, if_false, hin]
      rw [sealBegin_host (s := handed s r) (f := sealHead k d) ho hc hg hlen hn]
      rfl
    have hk : Keeps [.lock, .halves] s (handed s r) :=
      Keeps.with_lock (.inr rfl) (.inr ⟨rfl, rfl, rfl⟩) (.inl rfl) (Keeps.refl _ s)
    exact ⟨_, _, he, rfl, sealBegun_lane (s := handed s r) hl slot _, rfl, sealBegun_half _ _ _ _,
      Keeps.trans hk (keeps_sealBegun _ _ _ _)⟩
  · obtain ⟨out, he⟩ := sealComplete_host hl hj hs hg ho ht
    have hu := keeps_used s i j
    have hk := keeps_written (((laneFreed s i).useHalf j.slot j.which).count Reg.lockSeals) p tag j k out
    refine ⟨_, he, ?_, modOpen_closed (fun _ => rfl), ?_, ?_, Keeps.step hk rfl (Keeps.mono hu rfl)⟩
    · have hlanes : (sealEnded s i p tag j k out).lock.lanes = listMod (fun (l : Lane) => { l with job := none }) i s.lock.lanes :=
        (congrArg (·.lanes) (Keeps.lock hk rfl rfl rfl) :).trans
          ((congrArg (·.lanes) (Keeps.lock (keeps_count _ _) rfl rfl rfl) :).trans (useHalf_lanes _ _ _))
      rw [hlanes, getElem?_listMod, if_pos rfl, hl]
      rfl
    · have hcount : (sealEnded s i p tag j k out).counter Reg.lockSeals =
          (((laneFreed s i).useHalf j.slot j.which).count Reg.lockSeals).counter Reg.lockSeals := Keeps.counter hk rfl _
      rw [hcount, count_counter, if_pos rfl, useHalf_counter _ _ _ (.inr (by decide))]
      rfl
    · exact (Keeps.dray_cellUse hk rfl).trans (Keeps.dray_cellUse hu rfl)

end Sys2Proof.Proofs.Seals

/-! SUPPORT. Key commands (R309 to R314). -/

namespace Sys2Proof.Proofs.KeyCommands

open Sys2Proof.Machine Sys2Proof.Safety Sys2Proof.Laws Sys2Proof.Proofs.Commands Sys2Proof.Proofs.Seals

/-! ## The start of a key command -/

/-- The state in which a key command of the holder runs: its ring executes it, and the lock's time starts again. -/
def keyed (s : State) (c : CmdEntry) (opc : Nat) : State :=
  let s := s.takeCommand c opc
  { s with lock := { s.lock with holderAt := s.time.now } }

theorem keeps_keyed (s : State) (c : CmdEntry) (opc : Nat) : Keeps [.rings, .counters, .lock] s (keyed s c opc) :=
  Keeps.with_lock (.inr rfl) (.inr ⟨rfl, rfl, rfl⟩) (.inl rfl) (Keeps.mono (keeps_takeCommand s c opc) rfl)

theorem executing_keyed (s : State) (c : CmdEntry) (opc : Nat) : Executing s (keyed s c opc) c := executing_takeCommand s c opc

/-- What the start leaves of the lock but the holder's time. -/
theorem keyed_lock (s : State) (c : CmdEntry) (opc : Nat) :
    (keyed s c opc).lock = { s.lock with holderAt := (keyed s c opc).lock.holderAt } := by
  have h : (s.takeCommand c opc).lock = s.lock := Keeps.lock (keeps_takeCommand s c opc) rfl rfl rfl
  unfold keyed
  dsimp only
  rw [h]

theorem startKey_runs {s : State} {c : CmdEntry} {opc slot : Nat} {ok : Bool} (h : runsCommand s c opc = true)
    (hh : s.lock.holder = holderCode (.ep c.ep)) (hok : ok = true) (run : State → State) :
    s.startKey c opc slot ok run = run (keyed s c opc) := by
  have hl : (s.takeCommand c opc).lock.holder = holderCode (.ep c.ep) :=
    (congrArg (·.holder) (Keeps.lock (keeps_takeCommand s c opc) rfl rfl rfl) :).trans hh
  rw [State.startKey, startCommand_runs h, if_neg (not_not.mpr hl), if_pos hok]
  rfl

theorem startKey_refused {s : State} {c : CmdEntry} {opc slot : Nat} {ok : Bool} (h : runsCommand s c opc = true)
    (hh : s.lock.holder ≠ holderCode (.ep c.ep)) (run : State → State) :
    s.startKey c opc slot ok run = (s.takeCommand c opc).keyDone c.ep c.ring slot 1 (BitVec.ofNat 64 slot) := by
  have hl : (s.takeCommand c opc).lock.holder ≠ holderCode (.ep c.ep) := by
    rw [Keeps.lock (keeps_takeCommand s c opc) rfl rfl rfl]
    exact hh
  rw [State.startKey, startCommand_runs h, if_pos hl]

/-! ## The end of a key command -/

/-- The state in which a key command's result is shown. -/
def resulted (s : State) (slot code : Nat) : State :=
  { s with lock := { s.lock with resultSlot := slot % 1024, resultCode := code } }

theorem keeps_resulted (s : State) (slot code : Nat) : Keeps [.lock] s (resulted s slot code) :=
  Keeps.with_lock (.inr rfl) (.inr ⟨rfl, rfl, rfl⟩) (.inl rfl) (Keeps.refl _ s)

theorem keyDone_eq (s : State) (c : CmdEntry) (slot code : Nat) (r : Word) :
    s.keyDone c.ep c.ring slot code r = (resulted s slot code).endCmd c (if code = 0 then 0 else 5) code r := rfl

/-- A key command's result is shown, and the command has ended. -/
theorem keyDone_ended {s u : State} {c : CmdEntry} (h : Executing s u c) (slot code : Nat) (r : Word) :
    commandEnded s (u.keyDone c.ep c.ring slot code r) c (if code = 0 then 0 else 5) code r := by
  rw [keyDone_eq]
  exact endCmd_ended (h.of_keeps (keeps_resulted u slot code) rfl) _ _ _

/-- A command that ends leaves the lock but for a release of the key lock that was due. -/
theorem endCommand_lock (s : State) (e : Ep) (k status detail : Nat) (r : Word) :
    { (s.endCommand e k status detail r).lock with holder := 0, releaseDue := false } =
    { s.lock with holder := 0, releaseDue := false } := by
  unfold State.endCommand
  split
  · rfl
  · dsimp only
    generalize hu : State.postCompletion .. = u
    have hl : u.lock = s.lock := by
      rw [← hu, Keeps.lock (keeps_postCompletion _ _ _ _) rfl rfl rfl, Keeps.lock (keeps_modRing _ _ _ _) rfl rfl rfl]
    split
    · unfold State.kmRelease
      dsimp only
      split <;> simp only [hl]
    · rw [hl]

/-- What a key command's end leaves of the lock. -/
theorem keyDone_lock (s : State) (e : Ep) (k slot code : Nat) (r : Word) :
    (s.keyDone e k slot code r).lock.resultCode = code ∧ (s.keyDone e k slot code r).lock.halves = s.lock.halves ∧
    (s.keyDone e k slot code r).lock.keks = s.lock.keks ∧ (s.keyDone e k slot code r).lock.swaps = s.lock.swaps := by
  have h := endCommand_lock (resulted s slot code) e k (if code = 0 then 0 else 5) code r
  exact ⟨(congrArg (·.resultCode) h :), (congrArg (·.halves) h :), (congrArg (·.keks) h :), (congrArg (·.swaps) h :)⟩

/-- The next half written by a command that may: the current one stays. -/
theorem writeNext_writes {s u : State} {c : CmdEntry} (h : Executing s u c) {slot : Nat} (hn : u.nextLatched slot = false)
    (x : KeyHalf) : ((u.writeNext c.ep c.ring slot x).half slot 1 = x ∧
      (u.writeNext c.ep c.ring slot x).half slot 0 = u.half slot 0) ∧
    (u.writeNext c.ep c.ring slot x).lock.resultCode = 0 ∧
    commandEnded s (u.writeNext c.ep c.ring slot x) c 0 0 (BitVec.ofNat 64 slot) := by
  have he : u.writeNext c.ep c.ring slot x = (u.setHalf slot 1 x).keyDone c.ep c.ring slot 0 (BitVec.ofNat 64 slot) := by
    simp [State.writeNext, hn]
  obtain ⟨h1, h2, -, -⟩ := keyDone_lock (u.setHalf slot 1 x) c.ep c.ring slot 0 (BitVec.ofNat 64 slot)
  have hhalf : ∀ w : Nat, (u.writeNext c.ep c.ring slot x).half slot w = (u.setHalf slot 1 x).half slot w := by
    intro w
    rw [he, State.half, h2]
    rfl
  refine ⟨⟨?_, ?_⟩, by rw [he, h1], ?_⟩
  · rw [hhalf, setHalf_half _ slot 1 x slot 1 (by decide) (by decide), if_pos ⟨rfl, rfl⟩]
  · rw [hhalf, setHalf_half _ slot 1 x slot 0 (by decide) (by decide), if_neg (by simp)]
  · rw [he]
    exact keyDone_ended (h.of_keeps (keeps_setHalf _ _ _ _) rfl) slot 0 _

/-! ## The four commands of the holder -/

theorem nextLatched_keyed (s : State) (c : CmdEntry) (opc slot : Nat) : (keyed s c opc).nextLatched slot = s.nextLatched slot := by
  have h : (keyed s c opc).lock.lanes = s.lock.lanes := congrArg (·.lanes) (keyed_lock s c opc)
  have hf := Keeps.frames (keeps_keyed s c opc) rfl
  simp only [State.nextLatched, hf, h]

theorem half_keyed (s : State) (c : CmdEntry) (opc slot w : Nat) : (keyed s c opc).half slot w = s.half slot w := by
  rw [State.half, keyed_lock]
  rfl

theorem kek_keyed (s : State) (c : CmdEntry) (opc n : Nat) : (keyed s c opc).kek n = s.kek n := by
  rw [State.kek, keyed_lock]
  rfl

/-- What KEY_LOAD makes of its blob. -/
def loadBlob (u : State) (c : CmdEntry) (k : List Byte) (b : Bytes) : State :=
  match unwrapKey k ((List.range c.w3.toNat).map (byteAt b)) with
  | none => u.keyDone c.ep c.ring (c.w1.field 0 10) 2 (BitVec.ofNat 64 (c.w1.field 0 10))
  | some x =>
    match loadedHalf (c.w1.field 0 10) x with
    | none => u.keyDone c.ep c.ring (c.w1.field 0 10) 3 (BitVec.ofNat 64 (c.w1.field 0 10))
    | some h => u.writeNext c.ep c.ring (c.w1.field 0 10) h

theorem keyLoad_runs {c : CmdEntry} {s : State} (hh : s.lock.holder = holderCode (.ep c.ep)) (hc : cmdHeadOk c 0 = true)
    {k : List Byte} {b : Bytes} (h : runsCommand s c 5 = true) (h1 : c.w1.field 10 6 = 0) (h2 : c.w1.field 18 46 = 0)
    (h3 : c.w3.toNat = 40 ∨ c.w3.toNat = 56) (h4 : wordsZero [c.w4, c.w5, c.w6, c.w7] = true)
    (hk : s.kek (c.w1.field 16 2) = some k) : exec (.keyLoad c (some b)) s = .next (loadBlob (keyed s c 5) c k b) := by
  have hlen : (c.w3.toNat == 40 || c.w3.toNat == 56) = true := by simpa using h3
  simp only [exec, execKeyLoad]
  rw [startKey_runs h hh (by simp [hc, h1, h2, h4, hlen]), kek_keyed, hk]
  rfl

/-- What KEK_LOAD makes of its blob. -/
def loadKek (u : State) (c : CmdEntry) (k : List Byte) (b : Bytes) : State :=
  match unwrapKey k ((List.range 56).map (byteAt b)) with
  | none => u.keyDone c.ep c.ring c.w1.toNat 2 (BitVec.ofNat 64 c.w1.toNat)
  | some x =>
    if kekAttrsOk c.w1.toNat x then
      State.keyDone { u with lock := { u.lock with keks := Table.insert c.w1.toNat (BitVec.ofNat 256 (beNat (x.drop 16))) u.lock.keks } }
        c.ep c.ring c.w1.toNat 0 (BitVec.ofNat 64 c.w1.toNat)
    else u.keyDone c.ep c.ring c.w1.toNat 3 (BitVec.ofNat 64 c.w1.toNat)

theorem kekLoad_runs {c : CmdEntry} {s : State} (hh : s.lock.holder = holderCode (.ep c.ep)) (hc : cmdHeadOk c 0 = true)
    {k : List Byte} {b : Bytes} (h : runsCommand s c 6 = true) (h1 : 1 ≤ c.w1.toNat) (h2 : c.w1.toNat ≤ 3)
    (h3 : wordsZero [c.w3, c.w4, c.w5, c.w6, c.w7] = true) (hk : s.kek 0 = some k) :
    exec (.kekLoad c (some b)) s = .next (loadKek (keyed s c 6) c k b) := by
  simp only [exec, execKekLoad]
  rw [startKey_runs h hh (by simp [hc, h1, h2, h3]), kek_keyed, hk]
  rfl

theorem keyClear_runs {c : CmdEntry} {s : State} (hh : s.lock.holder = holderCode (.ep c.ep)) (hc : cmdHeadOk c 0 = true)
    (h : runsCommand s c 7 = true) (h1 : c.w1.toNat < 1024) (h2 : wordsZero [c.w2, c.w3, c.w4, c.w5, c.w6, c.w7] = true) :
    exec (.keyClear c) s = .next ((keyed s c 7).writeNext c.ep c.ring (c.w1.field 0 10) {}) := by
  simp only [exec, execKeyClear]
  rw [startKey_runs h hh (by simp [hc, h1, h2])]

theorem keySwap_runs {c : CmdEntry} {s : State} (hh : s.lock.holder = holderCode (.ep c.ep)) (hc : cmdHeadOk c 0 = true)
    (h : runsCommand s c 8 = true) (h1 : c.w1.toNat < 1024) (h2 : wordsZero [c.w2, c.w3, c.w4, c.w5, c.w6, c.w7] = true) :
    exec (.keySwap c) s = .next { keyed s c 8 with lock := { (keyed s c 8).lock with
      swaps := (keyed s c 8).lock.swaps ++ [(c.w1.field 0 10, c.ep, c.ring)] } } := by
  simp only [exec, execKeySwap]
  rw [startKey_runs h hh (by simp [hc, h1, h2])]

/-- A blob that unwraps to good attributes becomes the next half; one that does not unwrap changes none. -/
theorem loadBlob_loads {s u : State} {c : CmdEntry} (h : Executing s u c) (hn : u.nextLatched (c.w1.field 0 10) = false)
    (k : List Byte) (b : Bytes) :
    (loadBlob u c k b).half (c.w1.field 0 10) 0 = u.half (c.w1.field 0 10) 0 ∧
    (∀ (x : List Byte) (g : KeyHalf), unwrapKey k ((List.range c.w3.toNat).map (byteAt b)) = some x →
      loadedHalf (c.w1.field 0 10) x = some g → (loadBlob u c k b).half (c.w1.field 0 10) 1 = g ∧
      (loadBlob u c k b).lock.resultCode = 0 ∧ commandEnded s (loadBlob u c k b) c 0 0 (BitVec.ofNat 64 (c.w1.field 0 10))) ∧
    (unwrapKey k ((List.range c.w3.toNat).map (byteAt b)) = none → (loadBlob u c k b).lock.halves = u.lock.halves ∧
      (loadBlob u c k b).lock.resultCode = 2 ∧ commandEnded s (loadBlob u c k b) c 5 2 (BitVec.ofNat 64 (c.w1.field 0 10))) := by
  have hfail : ∀ code : Nat, (u.keyDone c.ep c.ring (c.w1.field 0 10) code (BitVec.ofNat 64 (c.w1.field 0 10))).half
      (c.w1.field 0 10) 0 = u.half (c.w1.field 0 10) 0 := by
    intro code
    rw [State.half, (keyDone_lock _ _ _ _ _ _).2.1]
    rfl
  unfold loadBlob
  cases hx : unwrapKey k ((List.range c.w3.toNat).map (byteAt b)) with
  | none =>
    obtain ⟨h1, h2, -, -⟩ := keyDone_lock u c.ep c.ring (c.w1.field 0 10) 2 (BitVec.ofNat 64 (c.w1.field 0 10))
    exact ⟨hfail 2, fun x g hc => (nomatch hc), fun _ => ⟨h2, h1, keyDone_ended h _ 2 _⟩⟩
  | some x =>
    dsimp only
    cases hg : loadedHalf (c.w1.field 0 10) x with
    | none =>
      refine ⟨hfail 3, fun y g hy hl => ?_, fun hc => (nomatch hc)⟩
      cases hy
      rw [hg] at hl
      cases hl
    | some g =>
      obtain ⟨⟨h1, h2⟩, h3, h4⟩ := writeNext_writes h hn g
      refine ⟨h2, fun y g' hy hl => ?_, fun hc => (nomatch hc)⟩
      cases hy
      rw [hg] at hl
      cases hl
      exact ⟨h1, h3, h4⟩

/-- A blob of a KEK becomes that KEK, or changes none. -/
theorem loadKek_loads {s u : State} {c : CmdEntry} (h : Executing s u c) (k : List Byte) (b : Bytes) :
    ((loadKek u c k b).ring c.ep c.ring).running = none ∧
    (∀ x : List Byte, unwrapKey k ((List.range 56).map (byteAt b)) = some x → kekAttrsOk c.w1.toNat x = true →
      Table.find? c.w1.toNat (loadKek u c k b).lock.keks = some (BitVec.ofNat 256 (beNat (x.drop 16))) ∧
      (loadKek u c k b).lock.resultCode = 0) ∧
    (unwrapKey k ((List.range 56).map (byteAt b)) = none →
      (loadKek u c k b).lock.keks = u.lock.keks ∧ (loadKek u c k b).lock.resultCode = 2) := by
  unfold loadKek
  cases hx : unwrapKey k ((List.range 56).map (byteAt b)) with
  | none =>
    obtain ⟨h1, -, h3, -⟩ := keyDone_lock u c.ep c.ring c.w1.toNat 2 (BitVec.ofNat 64 c.w1.toNat)
    exact ⟨(keyDone_ended h _ 2 _).1, fun x hc => (nomatch hc), fun _ => ⟨h3, h1⟩⟩
  | some x =>
    dsimp only
    split
    · have hk : Executing s { u with lock := { u.lock with
          keks := Table.insert c.w1.toNat (BitVec.ofNat 256 (beNat (x.drop 16))) u.lock.keks } } c := h
      obtain ⟨h1, -, h3, -⟩ := keyDone_lock { u with lock := { u.lock with
          keks := Table.insert c.w1.toNat (BitVec.ofNat 256 (beNat (x.drop 16))) u.lock.keks } } c.ep c.ring c.w1.toNat 0
        (BitVec.ofNat 64 c.w1.toNat)
      refine ⟨(keyDone_ended hk _ 0 _).1, fun y hy _ => ⟨?_, h1⟩, fun hc => (nomatch hc)⟩
      cases hy
      rw [h3]
      simp
    · next hbad =>
      refine ⟨(keyDone_ended h _ 3 _).1, fun y hy hok => ?_, fun hc => (nomatch hc)⟩
      cases hy
      exact absurd hok hbad

/-- A key command of an owner that does not hold the key lock. -/
theorem refused_lock (s : State) (c : CmdEntry) (opc slot : Nat) :
    ∃ t : State, t = (s.takeCommand c opc).keyDone c.ep c.ring slot 1 (BitVec.ofNat 64 slot) ∧ t.lock.resultCode = 1 ∧
      (t.ring c.ep c.ring).running = none ∧ t.lock.halves = s.lock.halves ∧ t.lock.keks = s.lock.keks ∧
      t.lock.swaps = s.lock.swaps ∧ Keeps (andBell [.rings, .lock]) s t := by
  obtain ⟨h1, h2, h3, h4⟩ := keyDone_lock (s.takeCommand c opc) c.ep c.ring slot 1 (BitVec.ofNat 64 slot)
  have hk := keeps_takeCommand s c opc
  have hl : (s.takeCommand c opc).lock = s.lock := Keeps.lock hk rfl rfl rfl
  rw [hl] at h2 h3 h4
  exact ⟨_, rfl, h1, (keyDone_ended (executing_takeCommand s c opc) slot 1 _).1, h2, h3, h4,
    Keeps.step (keeps_keyDone _ _ _ _ _ _) rfl (Keeps.mono hk rfl)⟩

/-- Settles O41: what each key command leaves of the halves, the KEKs and the swaps, and its end. -/
theorem keyCommands : Obligations.KeyCommands := by
  refine ⟨fun c s hh hc => ⟨fun k b h h1 h2 h3 h4 hk hn => ?_, fun k b h h1 h2 h3 hk => ?_, fun h h1 h2 hn => ?_,
    fun h h1 h2 => ?_⟩, fun c b s hh x hx h => ?_⟩
  · have he := keyLoad_runs (b := b) hh hc h h1 h2 h3 h4 hk
    obtain ⟨l1, l2, l3⟩ := loadBlob_loads (executing_keyed s c 5) ((nextLatched_keyed s c 5 _).trans hn) k b
    rw [half_keyed] at l1
    rw [show (keyed s c 5).lock.halves = s.lock.halves from Keeps.lock_halves (keeps_keyed s c 5) rfl] at l3
    exact ⟨_, he, l1, l2, l3, Keeps.mono (keeps_execKeyLoad c (some b) s _ he) rfl⟩
  · have he := kekLoad_runs (b := b) hh hc h h1 h2 h3 hk
    obtain ⟨l1, l2, l3⟩ := loadKek_loads (executing_keyed s c 6) k b
    rw [show (keyed s c 6).lock.keks = s.lock.keks from congrArg (·.keks) (keyed_lock s c 6)] at l3
    exact ⟨_, he, l1, l2, l3, Keeps.mono (keeps_execKekLoad c (some b) s _ he) rfl⟩
  · have he := keyClear_runs hh hc h h1 h2
    obtain ⟨⟨l1, l2⟩, l3, l4⟩ := writeNext_writes (executing_keyed s c 7) ((nextLatched_keyed s c 7 _).trans hn) {}
    rw [half_keyed] at l2
    exact ⟨_, he, l1, l2, l3, l4, Keeps.mono (keeps_execKeyClear c s _ he) rfl⟩
  · have he := keySwap_runs hh hc h h1 h2
    have hsw : (keyed s c 8).lock.swaps = s.lock.swaps := congrArg (·.swaps) (keyed_lock s c 8)
    refine ⟨_, he, congrArg (· ++ _) hsw, ?_, ?_⟩
    · exact congrArg (fun r : Ring => r.running.map (·.opc)) (takeCommand_ring s c 8)
    · exact Keeps.with_lock (.inr rfl) (.inr ⟨rfl, rfl, rfl⟩) (.inl rfl) (keeps_keyed s c 8)
  · simp only [List.mem_cons, List.not_mem_nil, or_false] at hx
    rcases hx with rfl | rfl | rfl | rfl
    · obtain ⟨t, rfl, ht⟩ := refused_lock s c 5 (c.w1.field 0 10)
      exact ⟨_, congrArg Host.Outcome.next (startKey_refused h hh _), ht⟩
    · obtain ⟨t, rfl, ht⟩ := refused_lock s c 6 c.w1.toNat
      exact ⟨_, congrArg Host.Outcome.next (startKey_refused h hh _), ht⟩
    · obtain ⟨t, rfl, ht⟩ := refused_lock s c 7 (c.w1.field 0 10)
      exact ⟨_, congrArg Host.Outcome.next (startKey_refused h hh _), ht⟩
    · obtain ⟨t, rfl, ht⟩ := refused_lock s c 8 (c.w1.field 0 10)
      exact ⟨_, congrArg Host.Outcome.next (startKey_refused h hh _), ht⟩

end Sys2Proof.Proofs.KeyCommands

/-! SUPPORT. Erasures of the key store, and writes of a next half that waited (R310, R317 to R320). -/

namespace Sys2Proof.Proofs.Erasure

open Sys2Proof.Machine Sys2Proof.Safety Sys2Proof.Laws Sys2Proof.Proofs.RegisterBehaviour Sys2Proof.Proofs.Commands
  Sys2Proof.Proofs.Seals Sys2Proof.Proofs.KeyCommands

/-- The key store of a state has been erased by an alarm. -/
def Erased (s : State) (code : Nat) : Prop :=
  s.lock.halves = [] ∧ s.lock.keks = [] ∧ s.lock.kek0 = none ∧ s.lock.erased = true ∧ s.lock.alarm = code

theorem Erased.of_lock {s t : State} {code : Nat} (h : Erased s code) (hl : t.lock = s.lock) : Erased t code := by
  rwa [Erased, hl]

/-- A command that ends leaves an erased store erased. -/
theorem Erased.endCommand {s : State} {code : Nat} (h : Erased s code) (e : Ep) (k status detail : Nat) (r : Word) :
    Erased (s.endCommand e k status detail r) code := by
  have hl := endCommand_lock s e k status detail r
  obtain ⟨h1, h2, h3, h4, h5⟩ := h
  exact ⟨(congrArg (·.halves) hl :).trans h1, (congrArg (·.keks) hl :).trans h2, (congrArg (·.kek0) hl :).trans h3,
    (congrArg (·.erased) hl :).trans h4, (congrArg (·.alarm) hl :).trans h5⟩

theorem Erased.keyDone {s : State} {code : Nat} (h : Erased s code) (e : Ep) (k slot res : Nat) (r : Word) :
    Erased (s.keyDone e k slot res r) code :=
  Erased.endCommand (s := resulted s slot res) h e k _ res r

theorem Erased.foldl {α : Type} {code : Nat} {f : State → α → State} (hf : ∀ (u : State) (a : α), Erased u code → Erased (f u a) code)
    (l : List α) {s : State} (h : Erased s code) : Erased (l.foldl f s) code := by
  induction l generalizing s with
  | nil => exact h
  | cons a l ih => exact ih (hf s a h)

/-- An alarm erases the store. -/
theorem eraseKeys_erased (s : State) (code : Nat) : Erased (s.eraseKeys code) code := by
  have hraise : ∀ u : State, Erased u code → Erased ((u.count Reg.lockErases).raise 7) code := fun u h =>
    h.of_lock ((Keeps.lock (keeps_raise _ _) rfl rfl rfl).trans (Keeps.lock (keeps_count _ _) rfl rfl rfl))
  unfold State.eraseKeys
  exact hraise _ (Erased.foldl (fun u x h => h.keyDone _ _ _ _ _) _ (Erased.foldl (fun u x h => h.keyDone _ _ _ _ _) _
    ⟨rfl, rfl, rfl, rfl, rfl⟩))

/-- Nothing runs on a ring whose command has ended. -/
theorem endCommand_running (s : State) (e : Ep) (k status detail : Nat) (r : Word) :
    ((s.endCommand e k status detail r).ring e k).running = none := by
  unfold State.endCommand
  split
  · next h => exact h
  · dsimp only
    have hp := fun cq c => (postCompletion_falls (s.modRing e k (fun r => { r with running := none })) e cq c).2 e k
    split
    · rw [Keeps.ring (keeps_kmRelease _) rfl, hp, modRing_ring_same]
    · rw [hp, modRing_ring_same]

theorem regAt_lockZeroize : regAt Reg.lockZeroize = some ({ base := 262168, wc := 1, guarded := true }, 0) := by decide

/-- ZEROIZE as it reaches the Locksmith. -/
theorem write_zeroize {s : State} {p : Path} {val : Word} (h : canWrite s p Reg.lockZeroize val = true) (h0 : val.bit 0 = true) :
    s.write p Reg.lockZeroize val = .next (((s.setLock p false).clearLost p Reg.lockZeroize).eraseKeys 6) := by
  refine (write_reaches_wc regAt_lockZeroize rfl rfl (by decide) rfl (by decide) rfl h rfl).trans ?_
  simp [State.writeEffect, State.lockEffect, Reg.lockZeroize, Reg.scrivRecSel, Reg.scrivHashIn, h0]

/-- The state without a write of a next half that waited. -/
def pendingLeft (s : State) (x : Nat × KeyHalf × Ep × Nat) : State :=
  { s with lock := { s.lock with pending := s.lock.pending.erase x } }

theorem keeps_pendingLeft (s : State) (x : Nat × KeyHalf × Ep × Nat) : Keeps [.lock] s (pendingLeft s x) :=
  Keeps.with_lock (.inr rfl) (.inr ⟨rfl, rfl, rfl⟩) (.inl rfl) (Keeps.refl _ s)

/-- Settles O42: the waiting write is made, and each alarm erases the store. -/
theorem eraseAndWaitingWrites : Obligations.EraseAndWaitingWrites := by
  refine ⟨fun slot x s hx hn => ?_, fun c s h hh hz => ?_, fun p val s h h0 => ?_, fun code s hp => ?_, fun s hr => ?_⟩
  · have he : exec (.nextHalfWrite slot) s = .next (((pendingLeft s x).setHalf slot 1 x.2.1).keyDone x.2.2.1 x.2.2.2 slot 0
        (BitVec.ofNat 64 slot)) := by
      simp only [exec, execNextHalfWrite, hx, hn, Bool.false_eq_true, if_false]
      rfl
    obtain ⟨h1, h2, -, -⟩ := keyDone_lock ((pendingLeft s x).setHalf slot 1 x.2.1) x.2.2.1 x.2.2.2 slot 0 (BitVec.ofNat 64 slot)
    have hhalf : ∀ w : Nat, (((pendingLeft s x).setHalf slot 1 x.2.1).keyDone x.2.2.1 x.2.2.2 slot 0
        (BitVec.ofNat 64 slot)).half slot w = ((pendingLeft s x).setHalf slot 1 x.2.1).half slot w := by
      intro w
      rw [State.half, h2]
      rfl
    refine ⟨_, he, ?_, ?_, h1, Keeps.step (keeps_keyDone _ _ _ _ _ _) rfl (Keeps.step (keeps_setHalf _ _ _ _) rfl
      (Keeps.mono (keeps_pendingLeft s x) rfl))⟩
    · rw [hhalf, setHalf_half _ slot 1 x.2.1 slot 1 (by decide) (by decide), if_pos ⟨rfl, rfl⟩]
    · rw [hhalf, setHalf_half _ slot 1 x.2.1 slot 0 (by decide) (by decide), if_neg (by simp)]
      rfl
  · have he : exec (.zeroize c) s = .next (((s.takeCommand c 9).eraseKeys 6).endCmd c 0 0 0) := by
      simp [exec, execZeroize, startCommand_runs h, hh, hz]
    obtain ⟨h1, h2, h3, h4, h5⟩ := (eraseKeys_erased (s.takeCommand c 9) 6).endCommand c.ep c.ring 0 0 0
    exact ⟨_, he, h1, h2, h3, h4, h5, endCommand_running _ _ _ _ _ _, Keeps.mono (keeps_execZeroize c s _ he) rfl⟩
  · obtain ⟨h1, h2, h3, h4, h5⟩ := eraseKeys_erased ((s.setLock p false).clearLost p Reg.lockZeroize) 6
    exact ⟨_, write_zeroize h h0, h1, h2, h3, h4, h5,
      Keeps.step (keeps_eraseKeys _ _) rfl (Keeps.mono (keeps_setLock_clearLost s p false _) rfl)⟩
  · have he : exec (.alarm code) s = .next (s.eraseKeys code) := congrArg Host.Outcome.next (if_neg hp)
    obtain ⟨h1, h2, h3, h4, h5⟩ := eraseKeys_erased s code
    exact ⟨_, he, h1, h2, h3, h4, h5, Keeps.mono (keeps_eraseKeys s code) rfl⟩
  · have he : exec .drbgAlarm s = .next (s.eraseKeys 7) := congrArg Host.Outcome.next (if_pos hr)
    obtain ⟨h1, h2, h3, h4, h5⟩ := eraseKeys_erased s 7
    exact ⟨_, he, h1, h2, h3, h4, h5, Keeps.mono (keeps_eraseKeys s 7) rfl⟩

end Sys2Proof.Proofs.Erasure

/-! SUPPORT. The key management lock, KEK0 and the DRBG (R311, R314, R315, R317, R318, R320, R321). -/

namespace Sys2Proof.Proofs.KeyLock

open Sys2Proof.Machine Sys2Proof.Safety Sys2Proof.Laws Sys2Proof.Proofs.RegisterBehaviour Sys2Proof.Proofs.Captures
  Sys2Proof.Proofs.Decoding

theorem regAt_lockCmd : regAt Reg.lockCmd = some ({ base := 262160, wc := 1 }, 0) := by decide

theorem regAt_lockKmLock : regAt Reg.lockKmLock = some ({ base := 262176, wc := 768 }, 0) := by decide

theorem regAt_lockSlotSel : regAt Reg.lockSlotSel = some ({ base := 262208, rwi := 2047, live := 18446744073709549568 }, 0) := by
  decide

/-- The state in which a write of the Locksmith's registers takes effect. -/
def lockOpened (s : State) (p : Path) (off : Nat) : State := (s.setLock p false).clearLost p off

theorem keeps_lockOpened (s : State) (p : Path) (off : Nat) : Keeps [.locks, .parity] s (lockOpened s p off) :=
  keeps_setLock_clearLost s p false off

theorem lockOpened_lock (s : State) (p : Path) (off : Nat) : (lockOpened s p off).lock = s.lock :=
  (Keeps.lock (keeps_lockOpened s p off) rfl rfl rfl :)

/-- ACK as it reaches the Locksmith. -/
theorem write_lockCmd {s : State} {p : Path} {val : Word} (h : canWrite s p Reg.lockCmd val = true) (h0 : val.bit 0 = true) :
    s.write p Reg.lockCmd val = .next { lockOpened s p Reg.lockCmd with lock := { (lockOpened s p Reg.lockCmd).lock with erased := false } } := by
  refine (write_reaches_wc regAt_lockCmd rfl rfl (by decide) rfl (by decide) rfl h rfl).trans ?_
  simp [State.writeEffect, State.lockEffect, Reg.lockZeroize, Reg.lockCmd, Reg.scrivRecSel, Reg.scrivHashIn, h0, lockOpened]

/-- KM_LOCK as it reaches the Locksmith. -/
theorem write_kmLock {s : State} {p : Path} {val : Word} (h : canWrite s p Reg.lockKmLock val = true) :
    s.write p Reg.lockKmLock val = .next ((lockOpened s p Reg.lockKmLock).kmWrite p val) := by
  refine (write_reaches_wc regAt_lockKmLock rfl rfl (by decide) rfl (by decide) rfl h rfl).trans ?_
  simp [State.writeEffect, State.lockEffect, Reg.lockZeroize, Reg.lockCmd, Reg.lockKmLock, Reg.scrivRecSel, Reg.scrivHashIn,
    lockOpened]

/-- SLOT_SEL as it reaches the Locksmith. -/
theorem writeEffect_slotSel (u : State) (a : Access) (hold : Bool) (ha : a.off = Reg.lockSlotSel) :
    u.writeEffect a hold = u.captureSlot (u.reg Reg.lockSlotSel) := by
  simp [State.writeEffect, State.lockEffect, ha, Reg.lockZeroize, Reg.lockCmd, Reg.lockKmLock, Reg.lockSlotSel, Reg.scrivRecSel,
    Reg.scrivHashIn]

theorem keyBusy_of_keeps {l : List Part} {s t : State} (h : Keeps l s t) (hl : l.contains .rings = false) (e : Ep) :
    t.keyBusy e = s.keyBusy e := by
  simp only [State.keyBusy, Keeps.ring h hl]

/-- With no key command executing the lock is released at once. -/
theorem kmRelease_frees {s : State} (ha : s.keyBusy .a = false) (hb : s.keyBusy .b = false) : s.kmRelease.lock.holder = 0 := by
  simp [State.kmRelease, ha, hb]

/-- The state in which the source's failure of its health test has been counted. -/
def healthFailed (s : State) : State :=
  State.count { s with lock := { s.lock with healthFail := true, retryAt := s.time.now + 1000000000 } } Reg.lockHealthFails

theorem keeps_healthFailed (s : State) : Keeps [.lock, .counters] s (healthFailed s) :=
  Keeps.step (keeps_count _ _) rfl (Keeps.with_lock (.inr rfl) (.inr ⟨rfl, rfl, rfl⟩) (.inl rfl) (Keeps.refl _ s))

theorem keeps_unitFault_288 (s : State) : Keeps (andBell [.srcs, .stew]) s (s.unitFault 288 0) :=
  keeps_unitFault_none (fun r => by simp [reactAllowed]) 0

/-- Settles O43: each rule acts on the Locksmith's unit alone, beside the clock and the counters. -/
theorem keyLockAndDrbg : Obligations.KeyLockAndDrbg := by
  refine ⟨⟨fun s hl hw hk hs => ?_, fun p val s => ⟨fun h h0 => ?_, fun h h8 h9 hf => ?_, fun h h8 h9 hf ha hb => ?_, fun h => ?_⟩,
    fun s hf ha hb => ?_⟩, fun s => ⟨fun h => ?_, fun h hh => ?_, ?_, fun h => ?_, fun h => ?_⟩⟩
  · have he : exec .kek0Derive s = .next { s with lock := { s.lock with kek0 := some s.sys.secretNo } } := by
      simp [exec, execKek0Derive, hl, hw, hk, hs]
    exact ⟨_, he, rfl, rfl, Keeps.mono (keeps_execKek0Derive s _ he) rfl⟩
  · refine ⟨_, write_lockCmd h h0, ?_, ?_⟩
    · rw [lockOpened_lock]
    · exact Keeps.with_lock (.inr rfl) (.inr ⟨rfl, rfl, rfl⟩) (.inl rfl) (Keeps.mono (keeps_lockOpened s p _) rfl)
  · have hl := lockOpened_lock s p Reg.lockKmLock
    have hk := keeps_lockOpened s p Reg.lockKmLock
    have he : (lockOpened s p Reg.lockKmLock).kmWrite p val = { lockOpened s p Reg.lockKmLock with
        lock := { (lockOpened s p Reg.lockKmLock).lock with holder := holderCode p, holderAt := s.time.now, releaseDue := false } } := by
      simp only [State.kmWrite, h8, h9, State.kmClaim, hl, hf, if_true, Bool.false_eq_true, if_false, Keeps.time_now hk rfl]
    refine ⟨_, (write_kmLock h).trans (congrArg Host.Outcome.next he), rfl, rfl, ?_⟩
    exact Keeps.with_lock (.inr rfl) (.inr ⟨rfl, rfl, rfl⟩) (.inl rfl) (Keeps.mono hk rfl)
  · have hl := lockOpened_lock s p Reg.lockKmLock
    have hk := keeps_lockOpened s p Reg.lockKmLock
    have he : (lockOpened s p Reg.lockKmLock).kmWrite p val = (lockOpened s p Reg.lockKmLock).kmRelease := by
      simp only [State.kmWrite, h8, h9, State.kmReleaseBy, hl, hf, if_true, Bool.false_eq_true, if_false]
    refine ⟨_, (write_kmLock h).trans (congrArg Host.Outcome.next he), kmRelease_frees ?_ ?_, ?_⟩
    · rw [keyBusy_of_keeps hk rfl, ha]
    · rw [keyBusy_of_keeps hk rfl, hb]
    · exact Keeps.step (keeps_kmRelease _) rfl (Keeps.mono hk rfl)
  · obtain ⟨u, he, hk, hreg, -⟩ := write_reaches_rwi regAt_lockSlotSel rfl (by decide) rfl rfl (by decide) rfl (by decide) h rfl
    have hf1 : (u.reg Reg.lockSlotSel).field 0 10 = val.field 0 10 := fld_rwi hreg (by decide)
    have hf2 : (u.reg Reg.lockSlotSel).field 10 1 = val.field 10 1 := fld_rwi hreg (by decide)
    have hh : u.half (val.field 0 10) (val.field 10 1) = s.half (val.field 0 10) (val.field 10 1) := Keeps.half hk rfl _ _
    rw [writeEffect_slotSel u _ _ rfl] at he
    refine ⟨_, he, ?_, ?_, Keeps.step (keeps_captureSlot _ _) rfl (Keeps.mono hk rfl)⟩
    · simp [State.captureSlot, hf1, hf2, hh]
    · simp [State.captureSlot, hf1, hf2, hh]
  · have he : exec .kmTimeout s = .next
        ((s.advanceTo (s.lock.holderAt + 1000000 * s.fld Reg.lockKmCtl 0 16)).count Reg.lockKmTimeouts).kmRelease :=
      congrArg Host.Outcome.next (if_neg hf)
    have hk := Keeps.mono (m := [.clock, .lock, .counters]) (keeps_execKmTimeout s _ he) rfl
    refine ⟨_, he, kmRelease_frees ha hb, (Keeps.time_now (keeps_kmRelease _) rfl :), ?_, hk⟩
    rw [Keeps.counter (keeps_kmRelease _) rfl, count_counter, if_pos rfl]
    rfl
  · have he : exec .drbgInstantiate s = .next
        { s with lock := { s.lock with drbgReady := true, healthFail := false, reseedAt := s.time.now } } := by
      simp [exec, execDrbgInstantiate, h]
    exact ⟨_, he, rfl, rfl, keeps_execDrbgInstantiate s _ he⟩
  · have he : exec .drbgReseed s = .next
        (State.count { s with lock := { s.lock with reseedAt := s.time.now } } Reg.lockReseeds) := by
      simp [exec, execDrbgReseed, h, hh]
    refine ⟨_, he, rfl, ?_, Keeps.mono (keeps_execDrbgReseed s _ he) rfl⟩
    rw [count_counter, if_pos rfl]
    rfl
  · have hk := Keeps.lock (keeps_unitFault_288 (healthFailed s)) rfl rfl rfl
    exact ⟨(healthFailed s).unitFault 288 0, rfl, (congrArg (·.healthFail) hk :), (congrArg (·.retryAt) hk :),
      (congrArg (·.halves) hk :), keeps_execHealthTestFail s _ rfl⟩
  · have he : exec (.entropyRetry true) s = .next (let u := s.advanceTo s.lock.retryAt
        { u with lock := { u.lock with healthFail := false, retryAt := u.lock.retryAt } }) := by
      simp [exec, execEntropyRetry, h]
    exact ⟨_, he, rfl, rfl, keeps_execEntropyRetry _ s _ he⟩
  · have he : exec (.entropyRetry false) s = .next (let u := s.advanceTo s.lock.retryAt
        { u with lock := { u.lock with healthFail := true, retryAt := u.lock.retryAt + 1000000000 } }) := by
      simp [exec, execEntropyRetry, h]
    exact ⟨_, he, rfl, rfl, rfl, keeps_execEntropyRetry _ s _ he⟩

end Sys2Proof.Proofs.KeyLock

/-! SUPPORT. The Steward's fault sources, its commands and its pins (R403 to R417). -/

namespace Sys2Proof.Proofs.FaultSources

open Sys2Proof.Machine Sys2Proof.Safety Sys2Proof.Laws Sys2Proof.Proofs.RegisterBehaviour

/-! ## The events of a source -/

theorem anySyndrome_none {s : State} {f : Nat} (h1 : f ≠ 291) (h2 : f ≠ 292) : s.anySyndrome f = (s, 0) := by
  simp [State.anySyndrome, h1, h2]

/-- What the change of a source's rails does to the source. -/
def railed (rails : Nat) (x : FaultSrc) : FaultSrc := { x with rails := rails, level := (railLevel rails).getD 2 }

theorem setRails_src (s : State) (f rails g : Nat) :
    (s.setRails f rails).src g = if g = f then railed rails (s.src f) else s.src g := modSrc_src s f (railed rails) g

theorem setRails_src_self (s : State) (f rails : Nat) : (s.setRails f rails).src f = railed rails (s.src f) := by
  rw [setRails_src, if_pos rfl]

/-- A source with one more event in its newest sub-bucket. -/
def bucketed (x : FaultSrc) : FaultSrc := { x with buckets := listMod (fun n => min (n + 1) 255) 0 x.buckets }

/-- An event of a NORMAL source below its threshold is counted and enters the newest sub-bucket, and no more. -/
theorem stewEvent_counted {s : State} {f syn : Nat} (hu : faultUsed f = true) (hst : (s.src f).st = 0)
    (hw : (s.src f).window = none) (ht : (bucketed (s.src f)).buckets.sum < s.threshOf f) :
    s.stewEvent f syn = (s.count (Reg.stewEvents f)).modSrc f bucketed := by
  have hc : (s.count (Reg.stewEvents f)).src f = s.src f := Keeps.src (keeps_count s _) rfl f
  have hb : ((s.count (Reg.stewEvents f)).modSrc f bucketed).src f = bucketed (s.src f) := by
    rw [modSrc_src, if_pos rfl, hc]
  have hth : ((s.count (Reg.stewEvents f)).modSrc f bucketed).threshOf f = s.threshOf f := rfl
  have hlt : ¬ ((s.count (Reg.stewEvents f)).modSrc f bucketed).threshOf f ≤
      (((s.count (Reg.stewEvents f)).modSrc f bucketed).src f).buckets.sum := by
    rw [hb, hth]
    exact Nat.not_le.mpr ht
  unfold State.stewEvent
  simp only [hu, hst, hw, Bool.not_true, Bool.false_or, Option.isSome_none, Bool.false_eq_true, if_false, ne_eq,
    not_true_eq_false]
  exact if_neg hlt

/-- Under an open consequence window an event is counted as a shadow, and no more. -/
theorem stewEvent_shadow {s : State} {f syn : Nat} (hu : faultUsed f = true) (hst : (s.src f).st = 0)
    (hw : (s.src f).window.isSome = true) :
    s.stewEvent f syn = (s.modSrc f (fun x => { x with quietAt := s.time.now })).count (Reg.stewShadow f) := by
  unfold State.stewEvent
  simp [hu, hst, hw]

/-- An event of a source that is QUIET, not the Pantry's or the Storeroom's. -/
theorem exec_faultEvent {s : State} {f : Nat} (hu : faultUsed f = true) (hl : (s.src f).level = 0) (h1 : f ≠ 291) (h2 : f ≠ 292) :
    exec (.faultEvent f) s = .next ((s.setRails f 2).stewEvent f 0) := by
  simp only [exec, execFaultEvent, hu, hl, and_self, if_true, anySyndrome_none h1 h2]

theorem keeps_faultEvent_counted (s : State) (f rails o : Nat) (g : FaultSrc → FaultSrc) :
    Keeps [.srcs, .counters] s (((s.setRails f rails).count o).modSrc f g) :=
  Keeps.step (keeps_modSrc _ _ _) rfl (Keeps.step (keeps_count _ _) rfl (Keeps.mono (keeps_setRails s f rails) rfl))

/-- The source of a broken wire, its level invalid and marked. -/
def wireBroken (s : State) (f rails : Nat) : State :=
  ((s.setRails f rails).modSrc f (fun x => { x with broken := true })).count Reg.stewBrokenEvents

theorem keeps_wireBroken (s : State) (f rails : Nat) : Keeps [.srcs, .counters] s (wireBroken s f rails) :=
  Keeps.step (keeps_count _ _) rfl (Keeps.step (keeps_modSrc _ _ _) rfl (Keeps.mono (keeps_setRails s f rails) rfl))

theorem wireBroken_src (s : State) (f rails : Nat) :
    (wireBroken s f rails).src f = { railed rails (s.src f) with broken := true } := by
  rw [wireBroken, Keeps.src (keeps_count _ _) rfl, modSrc_src, if_pos rfl, setRails_src_self]

/-- Settles O44: each event goes through the change of the rails and one of `stewEvent`'s branches. -/
theorem faultEvents : Obligations.FaultEvents := by
  intro f s hu
  have hself := setRails_src_self s f 2
  have hother : ∀ g : Nat, g ≠ f → (s.setRails f 2).src g = s.src g := fun g hg => by rw [setRails_src, if_neg hg]
  refine ⟨fun hl hst hw h1 h2 ht => ?_, fun hl hst hw h1 h2 => ?_, fun high hl hst => ?_, fun fault hl => ?_⟩
  · have he := exec_faultEvent hu hl h1 h2
    rw [stewEvent_counted hu (by rw [hself]; exact hst) (by rw [hself]; exact hw) (by rw [hself]; exact ht)] at he
    have hsrc : ∀ g : Nat, (((s.setRails f 2).count (Reg.stewEvents f)).modSrc f bucketed).src g =
        if g = f then bucketed (railed 2 (s.src f)) else s.src g := by
      intro g
      rw [modSrc_src, Keeps.src (keeps_count _ _) rfl, hself, Keeps.src (keeps_count _ _) rfl]
      split
      · rfl
      · next hg => exact hother g hg
    refine ⟨_, he, ?_, ?_, ?_, ?_, fun g hg => ?_, keeps_faultEvent_counted s f 2 _ _⟩
    · rw [hsrc, if_pos rfl]
      rfl
    · rw [hsrc, if_pos rfl]
      exact hst
    · rw [hsrc, if_pos rfl]
      rfl
    · rw [Keeps.counter (keeps_modSrc _ _ _) rfl, count_counter, if_pos rfl]
      rfl
    · rw [hsrc, if_neg hg]
  · have he := exec_faultEvent hu hl h1 h2
    rw [stewEvent_shadow hu (by rw [hself]; exact hst) (by rw [hself]; exact hw)] at he
    refine ⟨_, he, ?_, ?_, ?_, fun g hg => ?_, Keeps.step (keeps_count _ _) rfl (Keeps.step (keeps_modSrc _ _ _) rfl
      (Keeps.mono (keeps_setRails s f 2) rfl))⟩
    · rw [Keeps.src (keeps_count _ _) rfl, modSrc_src, if_pos rfl, hself]
      rfl
    · rw [Keeps.src (keeps_count _ _) rfl, modSrc_src, if_pos rfl, hself]
      rfl
    · rw [count_counter, if_pos rfl]
      rfl
    · rw [Keeps.src (keeps_count _ _) rfl, modSrc_src, if_neg hg, hother g hg]
  · have hn : (s.src f).st ≠ 0 ∧ (s.src f).st ≠ 3 := by omega
    have he : exec (.brokenWire f high) s = .next (wireBroken s f (if high then 3 else 0)).stewPins := by
      have hw : ∀ rails : Nat, (if (s.src f).st = 0 then
          ((wireBroken s f rails).anySyndrome f).1.classify f ((wireBroken s f rails).anySyndrome f).2
          else (wireBroken s f rails).stewPins) = (wireBroken s f rails).stewPins := fun rails => if_neg hn.1
      rw [← hw]
      exact congrArg Host.Outcome.next (if_neg (by simp [hu, hn.2, hl]))
    have hlevel : (railLevel (if high then 3 else 0)).getD 2 = 2 := by cases high <;> decide
    refine ⟨_, he, ?_, ?_, ?_, Keeps.step (keeps_stewPins _) rfl (Keeps.mono (keeps_wireBroken s f _) rfl)⟩
    · rw [Keeps.src (keeps_stewPins _) rfl, wireBroken_src]
      exact hlevel
    · rw [Keeps.src (keeps_stewPins _) rfl, wireBroken_src]
    · rw [Keeps.src (keeps_stewPins _) rfl, wireBroken_src]
      rfl
  · have he : exec (.levelRestored f fault) s = .next ((s.setRails f (if fault then 2 else 1)).modSrc f
        (fun x => { x with quietAt := s.time.now })) := congrArg Host.Outcome.next (if_pos (.inl hl))
    have hlevel : (railLevel (if fault then 2 else 1)).getD 2 = if fault then 1 else 0 := by cases fault <;> decide
    refine ⟨_, he, ?_, ?_, fun g hg => ?_, keeps_execLevelRestored f fault s _ he⟩
    · rw [modSrc_src, if_pos rfl, setRails_src_self]
      exact hlevel
    · rw [modSrc_src, if_pos rfl]
    · rw [modSrc_src, if_neg hg, setRails_src, if_neg hg]

/-! ## The times of a source -/

/-- A source but for its consequence window. -/
def unwindowed (x : FaultSrc) : FaultSrc := { x with window := none }

/-- Consequence windows change nothing else of a source. -/
theorem openWindows_src (s : State) (ns : List Nat) (f : Nat) : unwindowed ((s.openWindows ns).src f) = unwindowed (s.src f) := by
  unfold State.openWindows
  generalize s.time.now + 1000 * s.fld Reg.stewCtl 0 14 = e
  induction ns generalizing s with
  | nil => rfl
  | cons n ns ih =>
    rw [List.foldl_cons, ih, Keeps.src (keeps_count _ _) rfl, modSrc_src]
    split
    · next h => rw [h]; rfl
    · rfl

/-- What a recovery leaves of its source. -/
theorem recoverSrc_src (s : State) (f : Nat) (commanded : Bool) :
    ((s.recoverSrc f commanded).src f).st = 0 ∧ ((s.recoverSrc f commanded).src f).react = 0 ∧
      ((s.recoverSrc f commanded).src f).rcnt = if commanded then (s.src f).rcnt else min ((s.src f).rcnt + 1) 15 := by
  have hlast : ∀ u : State, (((u.count (Reg.stewRecoveries f)).raise 15).stewPins).src f = u.src f := fun u => by
    rw [Keeps.src (keeps_stewPins _) rfl, Keeps.src (keeps_raise _ _) rfl, Keeps.src (keeps_count _ _) rfl]
  unfold State.recoverSrc
  dsimp only
  rw [hlast, modSrc_src, if_pos rfl]
  have hr : ((if (s.src f).react = 4 then s.modPort (f - 136) (fun q => { q with suspSteward := false })
      else (s.unitRejoin f).openWindows (f :: (s.src f).deps)).src f).rcnt = (s.src f).rcnt := by
    split
    · rfl
    · exact (congrArg (·.rcnt) (openWindows_src (s.unitRejoin f) _ f) :).trans
        (congrArg (·.rcnt) (Keeps.src (keeps_unitRejoin s f) rfl f))
  rw [hr]
  exact ⟨rfl, rfl, rfl⟩

/-- Settles O45: each time moves the clock forward and changes its source. -/
theorem faultTimes : Obligations.FaultTimes := by
  intro f s
  refine ⟨fun hu => ?_, fun hst hr => ?_, fun e hw hl => ?_, fun hst hl => ?_⟩
  · have he : exec (.subBucketAdvance f) s = .next ((s.advanceTo ((s.src f).bucketAt + s.bucketNs f)).modSrc f
        (fun x => { x with buckets := 0 :: x.buckets.take 15, bucketAt := (s.src f).bucketAt + s.bucketNs f })) :=
      congrArg Host.Outcome.next (if_pos hu)
    refine ⟨_, he, ?_, ?_, rfl, keeps_execSubBucketAdvance f s _ he⟩
    · rw [modSrc_src, if_pos rfl]
      rfl
    · rw [modSrc_src, if_pos rfl]
  · have he : exec (.rcntDecay f) s = .next ((s.advanceTo ((s.src f).normalAt + 86400000000000)).modSrc f
        (fun x => { x with rcnt := x.rcnt - 1, normalAt := (s.src f).normalAt + 86400000000000 })) :=
      congrArg Host.Outcome.next (if_pos ⟨hst, hr⟩)
    refine ⟨_, he, ?_, rfl, keeps_execRcntDecay f s _ he⟩
    rw [modSrc_src, if_pos rfl]
    rfl
  · have hsrc : ((s.advanceTo e).modSrc f (fun x => { x with window := none })).src f = unwindowed (s.src f) := by
      rw [modSrc_src, if_pos rfl]
      rfl
    have he : exec (.windowClose f) s = .next ((s.advanceTo e).modSrc f (fun x => { x with window := none })) := by
      simp only [exec, execWindowClose, hw]
      rw [if_neg (by rw [hsrc]; exact hl)]
    refine ⟨_, he, ?_, rfl, Keeps.step (keeps_modSrc _ _ _) rfl (Keeps.mono (keeps_advanceTo s e) rfl)⟩
    rw [hsrc]
    rfl
  · have he : exec (.recovery f) s = .next ((s.advanceTo ((s.src f).quietAt + s.quietNs f)).recoverSrc f false) :=
      congrArg Host.Outcome.next (if_pos ⟨hst, hl⟩)
    obtain ⟨h1, h2, h3⟩ := recoverSrc_src (s.advanceTo ((s.src f).quietAt + s.quietNs f)) f false
    have hk : Keeps [.clock] s (s.advanceTo ((s.src f).quietAt + s.quietNs f)) := keeps_advanceTo _ _
    exact ⟨_, he, h1, h2, h3, Keeps.time_now (keeps_recoverSrc _ f false) rfl, keeps_execRecovery f s _ he⟩

/-! ## STEW.CMD and the pins -/

theorem regAt_stewCmd : regAt Reg.stewCmd = some ({ base := 131088, wc := 983551, guarded := true }, 0) := by decide

/-- STEW.CMD as it reaches the Steward. -/
theorem write_stewCmd {s : State} {p : Path} {val : Word} (h : canWrite s p Reg.stewCmd val = true) : ∃ u : State,
    s.write p Reg.stewCmd val = .next (u.stewCmd val) ∧ Keeps [.locks, .parity] s u := by
  refine ⟨_, (write_reaches_wc regAt_stewCmd rfl rfl (by decide) rfl (by decide) rfl h rfl).trans ?_,
    keeps_setLock_clearLost s p false Reg.stewCmd⟩
  simp [State.writeEffect, State.unitEffect, Reg.stewCmd, Reg.hostOwnHb, Reg.drayTxqCmd, Reg.bellPendClr, Reg.scrivRecSel,
    Reg.scrivHashIn, Reg.lockZeroize, Reg.lockCmd, Reg.lockKmLock, Reg.lockSlotSel]

/-- The state with the record of severe cores that the pins leave. -/
def coresKept (s : State) : State :=
  { s with stew := { s.stew with coreSevere := s.stew.coreSevere.filter (fun f => s.fltSource f (s.src f)) } }

/-- The pins of a powered device follow their conditions. -/
theorem stewPins_powered {s : State} (hp : s.sys.pwr = 0) :
    s.stewPins.stew.flt = (pinNext s.stew.flt (coresKept s).fltDue s.stew.fltAt s.time.now 1000000).1 ∧
      s.stewPins.stew.alert = (pinNext s.stew.alert (s.stew.started && (coresKept s).alertDue) s.stew.alertAt s.time.now 10000).1 := by
  have h2 : ¬ (coresKept s).sys.pwr = 2 := by rw [show (coresKept s).sys.pwr = s.sys.pwr from rfl, hp]; decide
  have h3 : ¬ (coresKept s).sys.pwr = 3 := by rw [show (coresKept s).sys.pwr = s.sys.pwr from rfl, hp]; decide
  have he : s.stewPins = _ := (if_neg h2).trans (if_neg h3)
  exact ⟨congrArg (·.stew.flt) he, congrArg (·.stew.alert) he⟩

/-- With the condition of FLT_N ended, what the pins do to the record of severe cores leaves it ended. -/
theorem fltDue_coresKept {s : State} (h : s.fltDue = false) : (coresKept s).fltDue = false := by
  simp only [State.fltDue, Bool.or_eq_false_iff, List.any_eq_false] at h ⊢
  obtain ⟨h1, h2⟩ := h
  refine ⟨h1, fun x hx hc => h2 x hx ?_⟩
  simp only [coresKept, State.fltSource, State.sevOf, State.fld, State.reg, List.contains_eq_mem, List.mem_filter,
    Bool.and_eq_true, Bool.or_eq_true, decide_eq_true_eq] at hc ⊢
  exact ⟨hc.1.imp decide_eq_true And.left, hc.2⟩

theorem pinNext_released (due : Bool) {since now least : Nat} (hd : due = false) (h : since + least ≤ now) (low : Bool) :
    (pinNext low due since now least).1 = false := by
  have : ¬ now < since + least := Nat.not_lt.mpr h
  simp [pinNext, hd, this]

theorem pinNext_high (since now least : Nat) : (pinNext false false since now least).1 = false := rfl

/-- Settles O46: STEW.CMD acts on the source it names; the pins follow their conditions. -/
theorem stewardCommandsAndPins : Obligations.StewardCommandsAndPins := by
  refine ⟨fun p val s h => ?_, fun s hp => ⟨?_, fun hf hd ha hs => ?_⟩⟩
  · obtain ⟨u, he, hk⟩ := write_stewCmd h
    have hus : ∀ g : Nat, u.src g = s.src g := Keeps.src hk rfl
    refine ⟨fun h16 h17 h18 h19 => ?_, fun h16 h17 h18 => ?_, fun h16 h17 h18 hst => ?_⟩
    · have hc : u.stewCmd val = (u.modSrc (val.field 0 9) (fun x => { x with sticky := false, broken := false })).stewPins := by
        simp [State.stewCmd, h16, h17, h18, h19]
      have hsrc : ∀ g : Nat, (u.stewCmd val).src g =
          if g = val.field 0 9 then { s.src (val.field 0 9) with sticky := false, broken := false } else s.src g := fun g => by
        rw [hc, Keeps.src (keeps_stewPins _) rfl, modSrc_src, hus, hus]
      refine ⟨_, he, ?_, ?_, ?_, fun g hg => ?_, ?_⟩
      · rw [hsrc, if_pos rfl]
      · rw [hsrc, if_pos rfl]
      · rw [hsrc, if_pos rfl]
      · rw [hsrc, if_neg hg]
      · rw [hc]
        exact Keeps.step (keeps_stewPins _) rfl (Keeps.step (keeps_modSrc _ _ _) rfl (Keeps.mono hk rfl))
    · have hc : u.stewCmd val = (u.modSrc (val.field 0 9) (fun x => { x with rcnt := 0 })).stewPins := by
        simp [State.stewCmd, h16, h17, h18]
      have hsrc : ∀ g : Nat, (u.stewCmd val).src g =
          if g = val.field 0 9 then { s.src (val.field 0 9) with rcnt := 0 } else s.src g := fun g => by
        rw [hc, Keeps.src (keeps_stewPins _) rfl, modSrc_src, hus, hus]
      refine ⟨_, he, ?_, fun g hg => ?_, ?_⟩
      · rw [hsrc, if_pos rfl]
      · rw [hsrc, if_neg hg]
      · rw [hc]
        exact Keeps.step (keeps_stewPins _) rfl (Keeps.step (keeps_modSrc _ _ _) rfl (Keeps.mono hk rfl))
    · have hc : u.stewCmd val = (u.recoverSrc (val.field 0 9) true).stewPins := by
        simp [State.stewCmd, h16, h17, h18, hus, hst]
      obtain ⟨h1, h2, h3⟩ := recoverSrc_src u (val.field 0 9) true
      have hsrc : (u.stewCmd val).src (val.field 0 9) = (u.recoverSrc (val.field 0 9) true).src (val.field 0 9) := by
        rw [hc, Keeps.src (keeps_stewPins _) rfl]
      refine ⟨_, he, ?_, ?_, ?_, ?_⟩
      · rw [hsrc, h1]
      · rw [hsrc, h3, hus]
        rfl
      · rw [hsrc, h2]
      · rw [hc]
        exact Keeps.step (keeps_stewPins _) rfl (Keeps.step (keeps_recoverSrc u _ true) rfl (Keeps.mono hk rfl))
  · refine ⟨State.stewPins { s with stew := { s.stew with wdog := true } }, rfl, ?_, ?_, keeps_execWatchdogTrip s _ rfl⟩
    · simp [State.stewPins, hp, State.fltDue, pinNext]
    · simp [State.stewPins, hp]
  · have he : exec .minimumLowTime s = .next (s.advanceTo (s.stew.fltAt + 1000000)).stewPins := by
      simp [exec, execMinimumLowTime, ha, hf, hd]
    have hn : s.stew.fltAt + 1000000 ≤ (s.advanceTo (s.stew.fltAt + 1000000)).time.now := Nat.le_max_right _ _
    generalize hu : s.advanceTo (s.stew.fltAt + 1000000) = u at he hn
    have hs' : u.stew = s.stew := by rw [← hu]; rfl
    have hdu : u.fltDue = false := by rw [← hu]; exact hd
    have hsu : (u.stew.started && u.alertDue) = false := by rw [← hu]; exact hs
    have hpu : u.sys.pwr = 0 := by rw [← hu]; exact hp
    rw [← hs'] at ha hn
    obtain ⟨h1, h2⟩ := stewPins_powered hpu
    refine ⟨_, he, h1.trans (pinNext_released _ (fltDue_coresKept hdu) hn _), ?_, ?_, keeps_execMinimumLowTime s _ he⟩
    · rw [h2, ha, show (coresKept u).alertDue = u.alertDue from rfl, hsu]
      rfl
    · rw [Keeps.time_now (keeps_stewPins u) rfl, ← hu]
      rfl

end Sys2Proof.Proofs.FaultSources

/-! SUPPORT. Wakes: recorded, counted and acknowledged (R137 to R139, R141). -/

namespace Sys2Proof.Proofs.WakeCauses

open Sys2Proof.Machine Sys2Proof.Safety Sys2Proof.Laws Sys2Proof.Proofs.RegisterBehaviour

/-- The state in which a wake is on record. -/
def wakeRecorded (s : State) (port cause : Nat) : State :=
  { s with xcvr := { s.xcvr with wakePort := port, wakeCause := cause } }

theorem keeps_wakeRecorded (s : State) (port cause : Nat) : Keeps [.xcvr] s (wakeRecorded s port cause) :=
  Keeps.with_xcvr rfl (Keeps.refl _ s)

/-- In RUN, with no power move, a wake raises source 4. -/
theorem wakeActs_run {s : State} (hp : s.sys.pwr = 0) : s.wakeActs = s.raise 4 := by
  simp [State.wakeActs, hp]

/-- The first wake is recorded. -/
theorem wake_records {s : State} (hp : s.sys.pwr = 0) (hm : s.sys.moving = none) (hc : s.xcvr.wakeCause = 0) (port cause : Nat) :
    s.wake port cause = (wakeRecorded s port cause).raise 4 := by
  have hm' : (wakeRecorded s port cause).sys.moving.isSome = false := by simp [wakeRecorded, hm]
  rw [← wakeActs_run (s := wakeRecorded s port cause) hp]
  unfold State.wake
  rw [if_pos hc]
  exact if_neg (ne_true_of_eq_false hm')

/-- A later wake is counted. -/
theorem wake_counts {s : State} (hp : s.sys.pwr = 0) (hm : s.sys.moving = none) (hc : s.xcvr.wakeCause ≠ 0) (port cause : Nat) :
    s.wake port cause = (s.count Reg.xcvrWakeMore).raise 4 := by
  have hm' : (s.count Reg.xcvrWakeMore).sys.moving.isSome = false := by simp [hm]
  rw [← wakeActs_run (s := s.count Reg.xcvrWakeMore) hp]
  unfold State.wake
  rw [if_neg hc]
  exact if_neg (ne_true_of_eq_false hm')

/-- What the record of the first wake shows, and what the wake changes. -/
theorem wake_recorded {s : State} (hp : s.sys.pwr = 0) (hm : s.sys.moving = none) (hc : s.xcvr.wakeCause = 0) (port cause : Nat) :
    (s.wake port cause).xcvr = { s.xcvr with wakePort := port, wakeCause := cause } ∧ Keeps (andBell [.xcvr]) s (s.wake port cause) := by
  rw [wake_records hp hm hc]
  exact ⟨Keeps.xcvr (keeps_raise _ _) rfl, Keeps.step (keeps_raise _ _) rfl (Keeps.mono (keeps_wakeRecorded s port cause) rfl)⟩

/-! ## The wake-up frame -/

theorem regAt_xcvrCmd : regAt Reg.xcvrCmd = some ({ base := 1376520, wc := 196863 }, 0) := by decide

/-- WAKE_ACK as it reaches the transceivers. -/
theorem write_wakeAck {s : State} {p : Path} {val : Word} (h : canWrite s p Reg.xcvrCmd val = true) (h16 : val.bit 16 = false)
    (h17 : val.bit 17 = true) : s.write p Reg.xcvrCmd val = .next ((s.setLock p false).clearLost p Reg.xcvrCmd).ackWake := by
  refine (write_reaches_wc regAt_xcvrCmd rfl rfl (by decide) rfl (by decide) rfl h rfl).trans ?_
  simp [State.writeEffect, State.unitEffect, State.xcvrCmd, Reg.xcvrCmd, Reg.stewCmd, Reg.tinkSliceSel, Reg.hostOwnHb,
    Reg.drayTxqCmd, Reg.bellPendClr, Reg.scrivRecSel, Reg.scrivHashIn, Reg.lockZeroize, Reg.lockCmd, Reg.lockKmLock,
    Reg.lockSlotSel, h16, h17]

/-- Settles O51: the first wake is recorded, a later one counted, and an acknowledgement clears the record. -/
theorem wakes : Obligations.Wakes := by
  refine ⟨fun s hp hm hc => ⟨fun p dom1 rec' dom2 total hd h1 h2 h3 h4 => ?_, fun p ident dlc ide data hd hw => ?_, fun hpow => ?_⟩,
    fun s hp hm hpow hc => ?_, fun p ident dlc ide remote data s hd he => ?_, fun p val s h h16 h17 => ?_⟩
  · obtain ⟨hx, hk⟩ := wake_recorded hp hm hc p 1
    have he : exec (.wakeUpPattern p dom1 rec' dom2 total) s = .next (s.wake p 1) :=
      congrArg Host.Outcome.next (if_pos ⟨hd, h1, h2, h3, h4⟩)
    exact ⟨_, he, (congrArg (·.wakePort) hx :), (congrArg (·.wakeCause) hx :), hk⟩
  · generalize hu : s.modIp p (fun t => { t with wufErr := t.wufErr - 1 }) = u
    have hku : Keeps [.xcvr] s u := hu ▸ keeps_modIp s p _
    have hcu : u.xcvr.wakeCause = 0 := by rw [← hu]; exact hc
    have hwu : u.wakeMatch p ide ident dlc data = true := by rw [← hu]; exact hw
    obtain ⟨hx, hk⟩ := wake_recorded ((Keeps.sys_pwr hku rfl).trans hp) ((Keeps.sys_moving hku rfl).trans hm) hcu p 2
    have he : exec (.wakeUpFrame p ide ident dlc false false false data) s = .next (u.wake p 2) := by
      simp [exec, execWakeUpFrame, hd, hu, hwu]
    refine ⟨_, he, (congrArg (·.wakePort) hx :), (congrArg (·.wakeCause) hx :), ?_, Keeps.trans (Keeps.mono hku rfl) hk⟩
    have hip : (u.wake p 2).ip p = u.ip p := by simp only [State.ip, hx]
    rw [hip, ← hu, modIp_ip, if_pos rfl]
  · obtain ⟨hx, hk⟩ := wake_recorded hp hm hc 255 4
    have he : exec .wakeN s = .next (s.wake 255 4) := congrArg Host.Outcome.next (if_pos hpow)
    exact ⟨_, he, (congrArg (·.wakePort) hx :), (congrArg (·.wakeCause) hx :), hk⟩
  · have he : exec .wakeN s = .next (s.wake 255 4) := congrArg Host.Outcome.next (if_pos hpow)
    rw [wake_counts hp hm hc] at he
    have hk : Keeps bellParts s ((s.count Reg.xcvrWakeMore).raise 4) :=
      Keeps.step (keeps_raise _ _) rfl (Keeps.mono (keeps_count s _) rfl)
    have hx := Keeps.xcvr hk rfl
    exact ⟨_, he, (congrArg (·.wakePort) hx :), (congrArg (·.wakeCause) hx :), hk⟩
  · have hlt : ¬ 31 < (s.ip p).wufErr + 1 := by omega
    have hex : exec (.wakeUpFrame p ide ident dlc remote false true data) s = .next
        (s.modIp p (fun t => { t with wufErr := t.wufErr + 1 })) := by
      simp [exec, execWakeUpFrame, hd, hlt]
    refine ⟨_, hex, ?_, rfl, keeps_modIp s p _⟩
    rw [modIp_ip, if_pos rfl]
  · exact ⟨_, write_wakeAck h h16 h17, rfl, rfl,
      (congrArg (·.ip) (Keeps.xcvr (keeps_setLock_clearLost s p false Reg.xcvrCmd) rfl) :),
      Keeps.with_xcvr rfl (Keeps.mono (keeps_setLock_clearLost s p false _) rfl)⟩

end Sys2Proof.Proofs.WakeCauses

/-! SUPPORT. The Tinker's slices, outcomes, golden check and switch of the pairs (R419 to R429). -/

namespace Sys2Proof.Proofs.TinkerSlices

open Sys2Proof.Machine Sys2Proof.Safety Sys2Proof.Laws Sys2Proof.Proofs.RegisterBehaviour Sys2Proof.Proofs.Captures
  Sys2Proof.Proofs.Decoding Sys2Proof.Proofs.FaultSources

/-! ## The rotation and the stop -/

theorem rotate_underway {s : State} (h : s.tink.next ≠ 174) : s.rotate = s := if_neg fun hc => h hc.1

theorem tinkStopCheck_running {s : State} (h : s.tink.st = .running) : s.tinkStopCheck = s :=
  if_neg fun hc => by rw [h] at hc; exact absurd hc.1 (by decide)

/-- Neither the rotation nor the end of a stop touches the outcomes and the tests. -/
theorem rotate_stopCheck_tink (s : State) :
    s.rotate.tinkStopCheck.tink.outcomes = s.tink.outcomes ∧ s.rotate.tinkStopCheck.tink.tests = s.tink.tests := by
  have hr : s.rotate.tink.outcomes = s.tink.outcomes ∧ s.rotate.tink.tests = s.tink.tests := by
    unfold State.rotate
    split <;> exact ⟨rfl, rfl⟩
  generalize s.rotate = u at hr ⊢
  unfold State.tinkStopCheck
  split <;> exact hr

theorem sliceOutcome_get (s : State) (n : Nat) (f : SliceOutcome → SliceOutcome) :
    Table.get (fun _ => {}) (s.sliceOutcome n f).tink.outcomes n = f (Table.get (fun _ => {}) s.tink.outcomes n) := by
  rw [State.sliceOutcome, get_set, if_pos rfl]

/-! ## A slice that is skipped -/

/-- The state in which the outcome of a skipped slice stands and its skip is counted. -/
def skipCounted (s : State) (n reason : Nat) : State :=
  let u := s.sliceOutcome n (fun o => { o with skip := reason, tai := s.tai })
  State.count { u with tink := { u.tink with
    tests := u.tink.tests.filter (fun t => t.slice != n), notBefore := u.time.now + u.gapNs } } Reg.tinkSkips

theorem skipSlice_running {s : State} {n reason : Nat} (hst : s.tink.st = .running) (hn : s.tink.next ≠ 174) :
    s.skipSlice n reason = skipCounted s n reason := by
  have hr : (skipCounted s n reason).rotate = skipCounted s n reason := rotate_underway hn
  have hs : (skipCounted s n reason).tinkStopCheck = skipCounted s n reason := tinkStopCheck_running hst
  show (skipCounted s n reason).rotate.tinkStopCheck = skipCounted s n reason
  rw [hr, hs]

/-! ## A free engine held for its test -/

/-- The turn moved on past slice n, at the instant of the step. -/
def turned (s : State) (n : Nat) : State :=
  let u := s.advanceTo s.tink.notBefore
  { u with tink := { u.tink with next := n } }

theorem keeps_turned (s : State) (n : Nat) : Keeps [.clock, .tink] s (turned s n) :=
  Keeps.with_tink rfl (Keeps.mono (keeps_advanceTo s s.tink.notBefore) rfl)

/-- A running Tinker whose turn is at a slice below 173 tests the slice or skips it. -/
def AtTurn (s : State) : Prop :=
  s.tink.st = .running ∧ s.cellar.pfail = false ∧ s.sys.pwr = 0 ∧ s.sys.moving = none ∧ s.tink.tests = [] ∧
    0 < s.fld Reg.tinkCtl 8 2 ∧ s.tink.next < 173

/-- What a running Tinker's turn does to its slice. -/
def turnTaken (s u : State) : State :=
  let n := s.tink.next
  match s.skipReason n with
  | some r => State.skipSlice { u with tink := { u.tink with next := n + 1 } } n r
  | none => State.freeSlice { u with tink := { u.tink with next := if isPipeSlice n && n % 2 == 0 then n + 2 else n + 1 } } n

theorem exec_sliceSelect {s : State} (h : AtTurn s) : exec .sliceSelect s = .next (turnTaken s (s.advanceTo s.tink.notBefore)) := by
  obtain ⟨hst, hp, hpw, hm, ht, hf, hn⟩ := h
  have hcond : ¬ (s.tink.st ≠ .running ∨ s.cellar.pfail ∨ 174 ≤ s.tink.next ∨ s.sys.pwr ≠ 0 ∨ s.sys.moving.isSome ∨
      s.fld Reg.tinkCtl 8 2 ≤ s.tink.tests.length ∨
      (isMgmtSlice s.tink.next ∧ s.tink.tests.any (fun t => isMgmtSlice t.slice))) := by
    have h1 : ¬ 174 ≤ s.tink.next := by omega
    have h2 : ¬ s.fld Reg.tinkCtl 8 2 ≤ 0 := by omega
    simp [hst, hp, hpw, hm, ht, h1, h2]
  have hadv : (s.tink.tests.map (fun t => t.since + 100000)).foldl max s.tink.notBefore = s.tink.notBefore := by rw [ht]; rfl
  refine congrArg Host.Outcome.next ((if_neg hcond).trans ?_)
  dsimp only
  rw [hadv]
  rfl

theorem exec_sliceSelect_skip {s : State} (h : AtTurn s) {r : Nat} (hr : s.skipReason s.tink.next = some r) :
    exec .sliceSelect s = .next (skipCounted (turned s (s.tink.next + 1)) s.tink.next r) := by
  obtain ⟨hst, -, -, -, -, -, hn⟩ := id h
  have hne : (turned s (s.tink.next + 1)).tink.next ≠ 174 := fun hc => by
    have : s.tink.next + 1 = 174 := hc
    omega
  rw [exec_sliceSelect h, turnTaken, hr, ← skipSlice_running (s := turned s (s.tink.next + 1)) hst hne]
  rfl

/-- A free engine put under test at its turn. -/
def engineHeld (s : State) (n : Nat) : State :=
  let u := ((turned s (n + 1)).addTest n true none).modEngine n (fun e => { e with tested := true })
  let v := { u with tink := { u.tink with tests := u.tink.tests.map (fun (t : SliceTest) =>
    if t.slice = n then { t with held := true, since := u.time.now } else t) } }
  v.modSrc n (fun x => { x with st := 3, normalAt := u.time.now - x.normalAt })

theorem keeps_engineHeld (s : State) (n : Nat) : Keeps [.clock, .tink, .engines, .srcs] s (engineHeld s n) := by
  refine Keeps.step (keeps_modSrc _ _ _) rfl (Keeps.with_tink rfl (Keeps.step (keeps_modEngine _ _ _) rfl ?_))
  exact Keeps.with_tink rfl (Keeps.mono (keeps_turned s (n + 1)) rfl)

theorem exec_sliceSelect_held {s : State} (h : AtTurn s) (hn : s.tink.next < 136) (hr : s.skipReason s.tink.next = none)
    (hf : s.engineFree s.tink.next = true) : exec .sliceSelect s = .next (engineHeld s s.tink.next) := by
  have hnf : s.sliceFaulted s.tink.next = false := by
    by_contra hc
    rw [Bool.not_eq_false] at hc
    simp only [State.skipReason, hc] at hr
    split_ifs at hr
  have hpipe : isPipeSlice s.tink.next = false := by
    simp [isPipeSlice]
    omega
  have hsrc : sliceSources s.tink.next = [s.tink.next] := if_pos hn
  rw [exec_sliceSelect h, turnTaken, hr, hpipe]
  show Host.Outcome.next ((turned s (s.tink.next + 1)).freeSlice s.tink.next) = _
  have hf' : (turned s (s.tink.next + 1)).engineFree s.tink.next = true := hf
  have hnf' : ((turned s (s.tink.next + 1)).addTest s.tink.next true none).sliceFaulted s.tink.next = false := hnf
  rw [State.freeSlice, if_pos hn, if_pos hf', State.holdSlice, if_neg (by rw [hnf']; decide)]
  simp only [if_pos hn, hsrc]
  rfl

/-! ## The result of an engine's test -/

/-- An event of an engine's source leaves the Tinker. -/
theorem stewEvent_engine_tink (s : State) {f : Nat} (hf : f < 136) (syn : Nat) : (s.stewEvent f syn).tink = s.tink := by
  refine Keeps.tink (l := andBell [.inForce, .staged, .held, .engines, .ports, .frames, .lock, .rings, .routes, .cells, .firmware,
    .free, .srcs, .stew]) (keeps_stewEvent_react rfl (fun u v => ?_) s) rfl
  have hr : u.reactOf f ≤ 2 := by
    unfold State.reactOf
    dsimp only
    split
    · next ha =>
      by_contra hc
      simp [reactAllowed] at ha
      omega
    · exact Nat.zero_le 2
  have hfence : ∀ spare : Bool, v.fenceUnit f spare = v.fenceEngine f spare := fun spare => if_pos hf
  unfold State.react
  interval_cases u.reactOf f
  · exact Keeps.refl _ v
  · exact hfence false ▸ Keeps.mono (keeps_fenceEngine v f false) rfl
  · exact hfence true ▸ Keeps.mono (keeps_fenceEngine v f true) rfl

/-- The state of a test's end once the mask has ended and the mismatches have given their events. -/
def testEnded (s : State) (n bad : Nat) : State :=
  let u := { s with tink := { s.tink with
    tests := s.tink.tests.filter (fun t => t.slice != n), notBefore := s.time.now + s.gapNs } }
  let v := u.maskEnd [n] ((s.tink.tests.find? (fun t => t.slice == n)).bind (·.port))
  (List.range bad).foldl (fun s _ => s.stewEvent n 0) v

theorem endTest_engine {s : State} {n : Nat} (hn : n < 136) (bad : Nat) :
    s.endTest n bad = (((testEnded s n bad).releaseSlice n).rotate.tinkStopCheck).stewPins := by
  have hsrc : sliceSources n = [n] := if_pos hn
  rw [State.endTest, hsrc]
  rfl

theorem foldl_stewEvent_tink {n : Nat} (hn : n < 136) (l : List Nat) (s : State) :
    (l.foldl (fun s _ => s.stewEvent n 0) s).tink = s.tink := by
  induction l generalizing s with
  | nil => rfl
  | cons x l ih => rw [List.foldl_cons, ih, stewEvent_engine_tink s hn]

/-- The end of an engine's test leaves every outcome, and no test of the engine. -/
theorem endTest_tink {s : State} {n : Nat} (hn : n < 136) (bad : Nat) :
    (s.endTest n bad).tink.outcomes = s.tink.outcomes ∧
      (s.endTest n bad).tink.tests = s.tink.tests.filter (fun t => t.slice != n) := by
  have hrel : ∀ u : State, (u.releaseSlice n).tink = u.tink := fun u => Keeps.tink (keeps_releaseSlice u n) rfl
  have ht : (testEnded s n bad).tink = { s.tink with
      tests := s.tink.tests.filter (fun t => t.slice != n), notBefore := s.time.now + s.gapNs } :=
    (foldl_stewEvent_tink hn _ _).trans (Keeps.tink (keeps_maskEnd _ _ _) rfl)
  obtain ⟨h1, h2⟩ := rotate_stopCheck_tink ((testEnded s n bad).releaseSlice n)
  rw [endTest_engine hn, Keeps.tink (keeps_stewPins _) rfl, h1, h2, hrel, ht]
  exact ⟨rfl, rfl⟩

/-- A test that ends well gives the engine and its source back. -/
theorem endTest_back {s : State} {n : Nat} (hn : n < 136) :
    ((s.endTest n 0).engine n).tested = false ∧ ((s.endTest n 0).src n).st = 0 := by
  have hk : ∀ u : State, Keeps [.counters, .tink, .stew] u ((u.rotate).tinkStopCheck).stewPins := fun u =>
    Keeps.step (keeps_stewPins _) rfl (Keeps.step (keeps_tinkStopCheck _) rfl (Keeps.mono (keeps_rotate u) rfl))
  rw [endTest_engine hn, Keeps.engine (hk _) rfl, Keeps.src (hk _) rfl, Keeps.src (keeps_releaseSlice _ _) rfl]
  refine ⟨?_, ?_⟩
  · rw [State.releaseSlice, if_pos hn, modEngine_engine, if_pos rfl]
  · rw [testEnded, List.range_zero, List.foldl_nil, State.maskEnd, List.foldl_cons, List.foldl_nil]
    refine (congrArg (·.st) (openWindows_src _ _ n) :).trans ?_
    rw [modSrc_src, if_pos rfl]
    rfl

/-- The state of an engine's test once its outcome is on record and counted. -/
def testJudged (s : State) (x : SliceTest) (r : Nat) (misr golden : Word) : State :=
  let u := s.sliceOutcome x.slice (fun _ => {
    result := r, skip := 0, seedset := s.tink.seedset, misr := misr, golden := golden, tai := s.tai })
  let v := (u.count (if r = 1 then Reg.tinkPasses else if r = 2 then Reg.tinkMismatches else Reg.tinkRestoreFails)).raiseIf (r != 1) 16
  if r = 3 then v.openWindows ((sliceSources x.slice) ++
    (sliceSources x.slice).flatMap (fun f => if f < 136 then portDeps x.port else v.dependants f)) else v

theorem testJudged_tink (s : State) (x : SliceTest) (r : Nat) (misr golden : Word) :
    (testJudged s x r misr golden).tink.tests = s.tink.tests ∧
      (Table.get (fun _ => {}) (testJudged s x r misr golden).tink.outcomes x.slice).result = r := by
  have hk : ∀ u : State, Keeps (andBell [.srcs]) u (let v := (u.count (if r = 1 then Reg.tinkPasses else if r = 2 then
      Reg.tinkMismatches else Reg.tinkRestoreFails)).raiseIf (r != 1) 16
    if r = 3 then v.openWindows ((sliceSources x.slice) ++
      (sliceSources x.slice).flatMap (fun f => if f < 136 then portDeps x.port else v.dependants f)) else v) := fun u =>
    Keeps.trans (Keeps.mono (Keeps.step (keeps_raiseIf _ _ _) rfl (Keeps.mono (m := bellParts) (keeps_count u _) rfl)) rfl)
      (Keeps.ite (Keeps.mono (keeps_openWindows _ _) rfl) (Keeps.refl _ _))
  have ht : (testJudged s x r misr golden).tink = _ := Keeps.tink (hk _) rfl
  rw [ht]
  exact ⟨rfl, congrArg (·.result) (sliceOutcome_get s x.slice _)⟩

/-- The first result of the only test, of a held engine. -/
theorem exec_testResult {x : SliceTest} {saved reloaded : Bytes} {s : State} {misr : Word} {r : Nat} (ht : s.tink.tests = [x])
    (hh : x.held = true) (hx : x.slice < 136) (hb : x.bad = 0)
    (hr : (if crc32c saved ≠ crc32c reloaded then 3
      else if misr = Config.goldenSignature (sliceType x.slice) s.tink.seedset then 1 else 2) = r) :
    exec (.testResult x.slice misr saved reloaded) s = .next
      ((testJudged s x r misr (Config.goldenSignature (sliceType x.slice) s.tink.seedset)).endTest x.slice (if r = 1 then 0 else 1)) := by
  have hfind : s.tink.tests.find? (fun t => t.slice == x.slice && t.held) = some x := by simp [ht, hh]
  have hpipe : isPipeSlice x.slice = false := by
    simp [isPipeSlice]
    omega
  simp only [exec, execTestResult, hfind, hr, hpipe, hb, Bool.false_and, Bool.false_eq_true, if_false, Nat.zero_add]
  rfl

/-- After the result no test of the engine stands, and the outcome is the result's. -/
theorem testResult_outcome {x : SliceTest} {s : State} (ht : s.tink.tests = [x]) (hx : x.slice < 136) (r bad : Nat)
    (misr golden : Word) :
    ((testJudged s x r misr golden).endTest x.slice bad).tink.tests = [] ∧
      (Table.get (fun _ => {}) ((testJudged s x r misr golden).endTest x.slice bad).tink.outcomes x.slice).result = r := by
  obtain ⟨h1, h2⟩ := endTest_tink (s := testJudged s x r misr golden) hx bad
  obtain ⟨h3, h4⟩ := testJudged_tink s x r misr golden
  rw [h1, h2, h3, ht]
  exact ⟨by simp, h4⟩

theorem regAt_tinkSliceSel : regAt Reg.tinkSliceSel = some ({ base := 196672, rwi := 255, live := 18446744073709551360, clamps := [{ lo := 0, len := 8, min := 0, max := 173, zero := false }] }, 0) := by
  decide

/-- SLICE_SEL as it reaches the Tinker. -/
theorem writeEffect_sliceSel (u : State) (p : Path) (val : Word) (hold : Bool) :
    u.writeEffect { path := p, off := Reg.tinkSliceSel, op := .plain, val := val, flashOk := true } hold =
      u.sliceSel (u.reg Reg.tinkSliceSel) := by
  simp [State.writeEffect, State.unitEffect, Reg.stewCmd, Reg.tinkSliceSel, Reg.hostOwnHb, Reg.drayTxqCmd, Reg.bellPendClr,
    Reg.scrivRecSel, Reg.scrivHashIn, Reg.lockZeroize, Reg.lockCmd, Reg.lockKmLock, Reg.lockSlotSel]

/-- Settles O50: the turn, the result, the golden check, the selection and the timer. -/
theorem tinker : Obligations.Tinker := by
  refine ⟨fun s hst hp hpw hm ht hf => ⟨fun r hn hr => ?_, fun hn hr hfree => ?_⟩, fun x saved reloaded s ht hh hx hb => ?_,
    fun s hst => ⟨?_, ?_⟩, fun p val s h hv => ?_, fun s hc hsb hcp hsw hsafe hall => ?_⟩
  · have he := exec_sliceSelect_skip ⟨hst, hp, hpw, hm, ht, hf, hn⟩ hr
    have hk : Keeps [.clock, .tink, .counters] s (skipCounted (turned s (s.tink.next + 1)) s.tink.next r) :=
      Keeps.step (keeps_count _ _) rfl (Keeps.with_tink rfl (Keeps.step (keeps_sliceOutcome _ _ _) rfl
        (Keeps.mono (keeps_turned s _) rfl)))
    refine ⟨_, he, rfl, ?_, ?_, rfl, hk⟩
    · exact (congrArg (·.skip) (sliceOutcome_get (turned s (s.tink.next + 1)) s.tink.next
        (fun o => { o with skip := r, tai := (turned s (s.tink.next + 1)).tai })) :)
    · rw [skipCounted, count_counter, if_pos rfl]
      rfl
  · have he := exec_sliceSelect_held ⟨hst, hp, hpw, hm, ht, hf, by omega⟩ hn hr hfree
    refine ⟨_, he, rfl, ?_, ?_, ?_, keeps_engineHeld s _⟩
    · exact (congrArg (·.tested) (modEngine_engine ((turned s (s.tink.next + 1)).addTest s.tink.next true none) s.tink.next
        (fun e => { e with tested := true }) s.tink.next) :).trans (by rw [if_pos rfl])
    · simp [engineHeld, State.addTest, turned, ht]
    · rw [engineHeld, modSrc_src, if_pos rfl]
  · intro golden
    refine ⟨fun hcrc => ?_, fun misr hcrc hm => ?_, fun misr hcrc => ?_⟩
    · have he := exec_testResult (misr := golden) ht hh hx hb ((if_neg (not_not.mpr hcrc)).trans (if_pos rfl))
      obtain ⟨h1, h2⟩ := testResult_outcome ht hx 1 0 golden golden
      obtain ⟨h3, h4⟩ := endTest_back (s := testJudged s x 1 golden golden) hx
      exact ⟨_, he, h1, h2, h3, h4, keeps_execTestResult _ _ _ s _ _ he⟩
    · have he := exec_testResult ht hh hx hb ((if_neg (not_not.mpr hcrc)).trans (if_neg hm))
      exact ⟨_, he, (testResult_outcome ht hx 2 1 misr golden).2, keeps_execTestResult _ _ _ s _ _ he⟩
    · have he := exec_testResult (misr := misr) ht hh hx hb (if_pos hcrc)
      exact ⟨_, he, (testResult_outcome ht hx 3 1 misr golden).2, keeps_execTestResult _ _ _ s _ _ he⟩
  · have he : exec (.goldenCheck true) s = .next { s with tink := { s.tink with
        goldErr := false, st := .running, next := 0, notBefore := s.time.now } } := by
      simp [exec, execGoldenCheck, hst]
    exact ⟨_, he, rfl, rfl, rfl, Keeps.with_tink rfl (Keeps.refl _ s)⟩
  · have he : exec (.goldenCheck false) s = .next
        (State.raise { s with tink := { s.tink with goldErr := true, st := .stopped } } 16).tinkStopCheck := by
      simp [exec, execGoldenCheck, hst]
    have ht : (State.raise { s with tink := { s.tink with goldErr := true, st := .stopped } } 16).tink =
        { s.tink with goldErr := true, st := .stopped } := Keeps.tink (keeps_raise _ _) rfl
    have hs : ∀ u : State, u.tink.st = .stopped → u.tinkStopCheck = u := fun u hu =>
      if_neg fun hc => by rw [hu] at hc; exact absurd hc.1 (by decide)
    rw [hs _ (by rw [ht])] at he
    exact ⟨_, he, by rw [ht], by rw [ht], keeps_execGoldenCheck false s _ (he.trans rfl)⟩
  · have hrange : Clamp.apply { lo := 0, len := 8, min := 0, max := 173, zero := false } val = val := by
      have : ¬ 173 < val.field 0 8 := by omega
      simp [Clamp.apply, this]
    obtain ⟨u, he, hk, hreg, -⟩ :=
      write_reaches_rwi regAt_tinkSliceSel rfl (by decide) hrange rfl (by decide) rfl (by decide) h rfl
    have hf : (u.reg Reg.tinkSliceSel).field 0 8 = val.field 0 8 := fld_rwi hreg (by decide)
    have ht : u.tink.outcomes = s.tink.outcomes := (congrArg (·.outcomes) (Keeps.tink hk rfl) :)
    have hsel : u.sliceSel (u.reg Reg.tinkSliceSel) = { u with tink := { u.tink with peek :=
        (let o := Table.get (fun _ => {}) s.tink.outcomes (val.field 0 8)
        [pack [(8, o.skip), (6, o.seedset), (0, o.result)], o.misr, o.golden, o.tai]) } } := by
      rw [State.sliceSel, hf, ht]
      exact if_pos hv
    rw [writeEffect_sliceSel, hsel] at he
    exact ⟨_, he, rfl, rfl, Keeps.with_tink rfl (Keeps.mono hk rfl)⟩
  · have he : exec .pairHandoverTimer s = .next (let u := s.advanceTo (max (s.tink.pairAt + 3600000000000 * s.fld Reg.tinkCtl2 0 16)
          s.tink.pairRetryAt)
        { u with sys := { u.sys with switchReq := some (.periodic, u.time.now + 10000000000) } }) := by
      refine congrArg Host.Outcome.next (if_pos ⟨hc, hsb, by simp [hcp], hsw, by simp [hsafe], hall⟩)
    exact ⟨_, he, rfl, rfl, keeps_execPairHandoverTimer s _ he⟩

end Sys2Proof.Proofs.TinkerSlices

/-! SUPPORT. Boot flash and its boot record, the boot, the resets and the end of a boot (R447, R448, R451, R454 to R456). -/

namespace Sys2Proof.Proofs.DeviceResets

open Sys2Proof.Machine Sys2Proof.Safety Sys2Proof.Laws Sys2Proof.Proofs.RegisterBehaviour Sys2Proof.Proofs.WakeCauses

/-! ## Boot flash -/

theorem find?_filter {α : Type} (p : Nat → Bool) (t : Table α) (j : Nat) :
    Table.find? j (t.filter (fun x => p x.1)) = if p j then Table.find? j t else none := by
  induction t with
  | nil => simp [Table.find?]
  | cons e t ih =>
    obtain ⟨i, w⟩ := e
    by_cases hi : p i
    · rw [List.filter_cons_of_pos (by exact hi)]
      simp only [Table.find?, ih]
      by_cases hij : i = j
      · simp [hij, hij ▸ hi]
      · simp [hij]
    · rw [List.filter_cons_of_neg (by exact hi), ih]
      by_cases hij : i = j
      · simp [← hij, hi]
      · simp [Table.find?, hij]

/-- An erased region reads its default, and every other byte as before. -/
theorem flashErase_read (s : State) (a n c : Nat) : (s.flashErase a n).flashRead c =
    if a ≤ c ∧ c < a + n then flashDefault s.sys.flashLost c else s.flashRead c := by
  have h := find?_filter (fun i => decide (i < a) || decide (a + n ≤ i)) s.sys.flash c
  simp only [State.flashRead, State.flashErase, Table.get, h]
  by_cases hc : a ≤ c ∧ c < a + n
  · have : ¬ c < a ∧ ¬ a + n ≤ c := by omega
    simp [hc, this]
  · have : c < a ∨ a + n ≤ c := by omega
    simp [hc, this]

/-- Bytes written to boot flash change boot flash alone. -/
theorem flashPut_eq (s : State) (a : Nat) (bs : List Byte) : ∃ f : Table Byte,
    s.flashPut a bs = { s with sys := { s.sys with flash := f } } := by
  induction bs generalizing s a with
  | nil => exact ⟨s.sys.flash, rfl⟩
  | cons b bs ih =>
    obtain ⟨f, hf⟩ := ih { s with sys := { s.sys with flash := Table.set (flashDefault s.sys.flashLost) s.sys.flash a b } } (a + 1)
    exact ⟨f, hf⟩

/-- The bytes read back where they were written, and every other byte as before. -/
theorem flashPut_read (s : State) (a : Nat) (bs : List Byte) (c : Nat) : (s.flashPut a bs).flashRead c =
    if a ≤ c then (bs[c - a]?).getD (s.flashRead c) else s.flashRead c := by
  induction bs generalizing s a with
  | nil => simp [State.flashPut]
  | cons b bs ih =>
    have hset : State.flashRead { s with sys := { s.sys with
        flash := Table.set (flashDefault s.sys.flashLost) s.sys.flash a b } } c = if c = a then b else s.flashRead c :=
      get_set _ _ _ _ _
    rw [State.flashPut, ih, hset]
    by_cases h1 : a + 1 ≤ c
    · have h2 : c - a = (c - (a + 1)) + 1 := by omega
      rw [if_pos h1, if_pos (show a ≤ c by omega), if_neg (show ¬ c = a by omega), h2, List.getElem?_cons_succ]
    · by_cases h2 : c = a
      · simp [h2]
      · rw [if_neg h1, if_neg (show ¬ a ≤ c by omega), if_neg h2]

/-! ## The boot record -/

theorem bytes_length (r : BootRecord) (seq : Nat) : (r.bytes seq).length = 32 := by
  simp [BootRecord.bytes, leBytes]

/-- Boot flash outside the sectors of the boot record reads as before, and the place of the next entry is still one of theirs. -/
def FlashStays (s t : State) : Prop :=
  s.sys.recordAt < 4096 → t.sys.recordAt < 4096 ∧ ∀ a : Nat, a < 0x20000 ∨ 0x40000 ≤ a → t.flashRead a = s.flashRead a

theorem FlashStays.trans {s t u : State} (h : FlashStays s t) (h' : FlashStays t u) : FlashStays s u := fun hr =>
  have ⟨h1, h2⟩ := h hr
  have ⟨h3, h4⟩ := h' h1
  ⟨h3, fun a ha => (h4 a ha).trans (h2 a ha)⟩

theorem FlashStays.of_eq {s t : State} (hf : t.sys.flash = s.sys.flash) (hl : t.sys.flashLost = s.sys.flashLost)
    (hr : t.sys.recordAt = s.sys.recordAt) : FlashStays s t := fun h =>
  ⟨hr ▸ h, fun a _ => by rw [State.flashRead, hf, hl]; rfl⟩

theorem FlashStays.kept {s t : State} (h : FlashStays s t) : flashKept s t := fun hr => (h hr).2

/-- The state in which the sector of the next entry is erased where the entry is its first. -/
def sectorReady (s : State) : State :=
  if s.sys.recordAt % 2048 = 0 then s.flashErase (0x20000 + 0x10000 * (s.sys.recordAt / 2048)) 0x10000 else s

theorem sectorReady_eq (s : State) : ∃ f : Table Byte, sectorReady s = { s with sys := { s.sys with flash := f } } := by
  unfold sectorReady
  split
  · exact ⟨_, rfl⟩
  · exact ⟨s.sys.flash, rfl⟩

theorem sectorReady_read (s : State) (h : s.sys.recordAt < 4096) (a : Nat) (ha : a < 0x20000 ∨ 0x40000 ≤ a) :
    (sectorReady s).flashRead a = s.flashRead a := by
  unfold sectorReady
  split
  · rw [flashErase_read, if_neg (by omega)]
  · rfl

/-- The state in which a new entry of the boot record is in force. -/
def recorded (s : State) (r : BootRecord) (n : Nat) : State :=
  { s with sys := { s.sys with record := r, recordSeq := s.sys.recordSeq + 1, recordAt := (n + 1) % 4096 } }

theorem recorded_read (s : State) (r : BootRecord) (n a : Nat) : (recorded s r n).flashRead a = s.flashRead a := rfl

theorem setRecord_put {s : State} {r : BootRecord} (h : r ≠ s.sys.record) : s.setRecord r =
    recorded ((sectorReady s).flashPut (0x20000 + 32 * s.sys.recordAt) (r.bytes ((sectorReady s).sys.recordSeq + 1))) r
      s.sys.recordAt := by
  simp only [State.setRecord, if_neg h, recorded, sectorReady]

/-- A boot record that takes new contents changes boot flash and the record's own fields. -/
theorem setRecord_eq (s : State) (r : BootRecord) : ∃ (q n : Nat) (f : Table Byte),
    s.setRecord r = { s with sys := { s.sys with record := r, recordSeq := q, recordAt := n, flash := f } } := by
  by_cases h : r = s.sys.record
  · exact ⟨s.sys.recordSeq, s.sys.recordAt, s.sys.flash, (if_pos h).trans (by rw [h])⟩
  · obtain ⟨f1, h1⟩ := sectorReady_eq s
    obtain ⟨f2, h2⟩ := flashPut_eq (sectorReady s) (0x20000 + 32 * s.sys.recordAt) (r.bytes ((sectorReady s).sys.recordSeq + 1))
    refine ⟨s.sys.recordSeq + 1, (s.sys.recordAt + 1) % 4096, f2, (setRecord_put h).trans ?_⟩
    rw [h2, h1]
    rfl

theorem setRecord_stays (s : State) (r : BootRecord) : FlashStays s (s.setRecord r) := by
  by_cases h : r = s.sys.record
  · rw [State.setRecord, if_pos h]
    exact fun hr => ⟨hr, fun _ _ => rfl⟩
  · rw [setRecord_put h]
    refine fun hr => ⟨Nat.mod_lt _ (by decide), fun a ha => ?_⟩
    rw [recorded_read, flashPut_read, sectorReady_read s hr a ha]
    split
    · rw [List.getElem?_eq_none (by rw [bytes_length]; omega), Option.getD_none]
    · rfl

/-! ## The boot -/

/-- The state in which the boot ROM chooses the pair. -/
def bootReady (s : State) : State :=
  State.checkSlots (State.readFuses { s with sys := { s.sys with locks := 31, config := s.readConfig } })

theorem checkSlots_sys (s : State) : s.checkSlots.sys = { s.sys with slotsValid := s.checkSlots.sys.slotsValid } := by
  unfold State.checkSlots
  rfl

theorem bootReady_sys (s : State) : (bootReady s).sys =
    { s.sys with locks := 31, config := s.readConfig, slotsValid := (bootReady s).sys.slotsValid } := by
  have h := Keeps.sys (keeps_readFuses { s with sys := { s.sys with locks := 31, config := s.readConfig } }) rfl rfl rfl rfl rfl rfl
    rfl rfl
  refine (checkSlots_sys _).trans ?_
  rw [h]
  rfl

/-- The firmware's fields when the images of a pair run. -/
def running (s : State) (x : Nat × Nat) (lkg : Bool) : State :=
  { s with
    sys := { s.sys with
      phase := 2, bootCur := false, lkgBoot := lkg, trial := decide (pairCode (some x.1) (some x.2) ≠ s.sys.record.lkg)
      runMgmt := some x.1, runMicro := some x.2, fwStart := s.time.now }
    stew := { s.stew with started := true } }

/-- The state in which every engine runs the pair's microcode and CUR names the pair. -/
def pairTaken (s : State) (x : Nat × Nat) : State :=
  (s.loadMicrocode (s.slotVersion x.2)).setRecord { s.sys.record with cur := pairCode (some x.1) (some x.2) }

theorem boot_pair {s : State} {x : Nat × Nat} {lkg : Bool} (h : (bootReady s).choosePair = some (x, lkg)) :
    s.boot = (running (pairTaken (bootReady s) x) x lkg).stewPins := by
  unfold State.boot
  dsimp only
  rw [show State.checkSlots (State.readFuses { s with sys := { s.sys with locks := 31, config := s.readConfig } }) = bootReady s from rfl,
    h]
  rfl

theorem boot_safe {s : State} (h : (bootReady s).choosePair = none) :
    s.boot = { bootReady s with sys := { (bootReady s).sys with phase := 4, safe := true } } := by
  unfold State.boot
  dsimp only
  rw [show State.checkSlots (State.readFuses { s with sys := { s.sys with locks := 31, config := s.readConfig } }) = bootReady s from rfl,
    h]

theorem loadMicrocode_st (s : State) (v n : Nat) : ((s.loadMicrocode v).engine n).st = (s.engine n).st := by
  unfold State.loadMicrocode
  generalize List.range 136 = l
  induction l generalizing s with
  | nil => rfl
  | cons m l ih =>
    rw [List.foldl_cons, ih, modEngine_engine]
    split
    · next h => rw [h]
    · rfl

/-- The pair's record goes into force, and nothing else of the system's unit changes but boot flash. -/
theorem pairTaken_sys (s : State) (x : Nat × Nat) : ∃ (q n : Nat) (f : Table Byte), (pairTaken s x).sys = { s.sys with
    record := { s.sys.record with cur := pairCode (some x.1) (some x.2) }, recordSeq := q, recordAt := n, flash := f } := by
  obtain ⟨q, n, f, h⟩ := setRecord_eq (s.loadMicrocode (s.slotVersion x.2))
    { s.sys.record with cur := pairCode (some x.1) (some x.2) }
  have hs := Keeps.sys (keeps_loadMicrocode s (s.slotVersion x.2)) rfl rfl rfl rfl rfl rfl rfl rfl
  refine ⟨q, n, f, (congrArg (·.sys) h).trans ?_⟩
  dsimp only
  rw [hs]

theorem pairTaken_st (s : State) (x : Nat × Nat) (n : Nat) : ((pairTaken s x).engine n).st = (s.engine n).st :=
  (congrArg (·.st) (Keeps.engine (keeps_setRecord _ _) rfl n)).trans (loadMicrocode_st s _ n)

theorem pairTaken_stays (s : State) (x : Nat × Nat) : FlashStays s (pairTaken s x) := by
  have hs := Keeps.sys (keeps_loadMicrocode s (s.slotVersion x.2)) rfl rfl rfl rfl rfl rfl rfl rfl
  exact (FlashStays.of_eq (by rw [hs]) (by rw [hs]) (by rw [hs])).trans (setRecord_stays _ _)

/-- What a boot leaves of the state it begins with. -/
structure Booted (s t : State) : Prop where
  keeps : Keeps [.inForce, .engines, .stew, .power, .firmware, .flash] s t
  engines : ∀ n : Nat, (t.engine n).st = (s.engine n).st
  pwr : t.sys.pwr = s.sys.pwr
  cause : t.sys.bootCause = s.sys.bootCause
  fails : t.sys.bootFails = s.sys.bootFails
  sel : t.sys.bootSel = s.sys.bootSel
  rej : t.sys.record.rej = s.sys.record.rej
  recFails : t.sys.record.fails = s.sys.record.fails
  flash : FlashStays s t
  phase : t.sys.phase = 2 ∧ t.sys.safe = s.sys.safe ∨ t.sys.phase = 4 ∧ t.sys.safe = true
  safe : 2 ≤ s.sys.bootSel → t.sys.safe = true ∧ t.sys.phase = 4

theorem bootReady_engine (s : State) (n : Nat) : (bootReady s).engine n = s.engine n :=
  (Keeps.engine (keeps_checkSlots _) rfl n).trans (Keeps.engine (keeps_readFuses _) rfl n)

theorem choosePair_pins {s : State} (h : 2 ≤ s.sys.bootSel) : s.choosePair = none := by
  unfold State.choosePair
  split
  · rfl
  · split
    · next h0 => omega
    · next h1 => omega
    · rfl

theorem bootReady_stays (s : State) : FlashStays s (bootReady s) := by
  have hr := bootReady_sys s
  exact FlashStays.of_eq (by rw [hr]) (by rw [hr]) (by rw [hr])

theorem boot_booted (s : State) : Booted s s.boot := by
  have hr := bootReady_sys s
  have hst := bootReady_stays s
  have heng := bootReady_engine s
  have hsafe := @boot_safe s
  have hpair := @boot_pair s
  generalize bootReady s = u at hr hst heng hsafe hpair
  cases hc : u.choosePair with
  | none =>
    have hb := hsafe hc
    refine ⟨keeps_boot s, fun n => ?_, ?_, ?_, ?_, ?_, ?_, ?_, hst.trans ?_, .inr ⟨?_, ?_⟩, fun _ => ⟨?_, ?_⟩⟩
    all_goals rw [hb]
    · exact congrArg (·.st) (heng n)
    · exact (congrArg (·.pwr) hr :)
    · exact (congrArg (·.bootCause) hr :)
    · exact (congrArg (·.bootFails) hr :)
    · exact (congrArg (·.bootSel) hr :)
    · exact (congrArg (·.record.rej) hr :)
    · exact (congrArg (·.record.fails) hr :)
    · exact FlashStays.of_eq rfl rfl rfl
  | some y =>
    obtain ⟨x, lkg⟩ := y
    have hb := hpair hc
    obtain ⟨q, n, f, hp⟩ := pairTaken_sys u x
    have hpst := pairTaken_stays u x
    have hpe := pairTaken_st u x
    generalize pairTaken u x = w at hb hp hpst hpe
    have hs : s.boot.sys = (running w x lkg).sys := by
      rw [hb]
      exact Keeps.sys (keeps_stewPins _) rfl rfl rfl rfl rfl rfl rfl rfl
    have hsel : s.sys.bootSel < 2 := by
      by_contra h
      have hsel : u.sys.bootSel = s.sys.bootSel := congrArg (·.bootSel) hr
      have := choosePair_pins (s := u) (by omega)
      rw [hc] at this
      cases this
    refine ⟨keeps_boot s, fun n => ?_, ?_, ?_, ?_, ?_, ?_, ?_, hst.trans (hpst.trans ?_), .inl ⟨?_, ?_⟩, fun h => by omega⟩
    · rw [hb, Keeps.engine (keeps_stewPins _) rfl]
      exact (hpe n).trans (congrArg (·.st) (heng n))
    · exact (congrArg (·.pwr) hs).trans ((congrArg (·.pwr) hp :).trans (congrArg (·.pwr) hr))
    · exact (congrArg (·.bootCause) hs).trans ((congrArg (·.bootCause) hp :).trans (congrArg (·.bootCause) hr))
    · exact (congrArg (·.bootFails) hs).trans ((congrArg (·.bootFails) hp :).trans (congrArg (·.bootFails) hr))
    · exact (congrArg (·.bootSel) hs).trans ((congrArg (·.bootSel) hp :).trans (congrArg (·.bootSel) hr))
    · exact (congrArg (·.record.rej) hs).trans ((congrArg (·.record.rej) hp :).trans (congrArg (·.record.rej) hr))
    · exact (congrArg (·.record.fails) hs).trans ((congrArg (·.record.fails) hp :).trans (congrArg (·.record.fails) hr))
    · exact FlashStays.of_eq (by rw [hs]; rfl) (by rw [hs]; rfl) (by rw [hs]; rfl)
    · exact (congrArg (·.phase) hs :)
    · exact (congrArg (·.safe) hs).trans ((congrArg (·.safe) hp :).trans (congrArg (·.safe) hr))

/-! ## What a reset clears -/

/-- The device at its reset values, before a boot that did not reach READY is noted. -/
def bare (s : State) : State :=
  { State.reset with
    pending := s.pending, free := s.free, out := s.out
    cellar := { State.reset.cellar with store := s.cellar.store }
    sys := s.sys.surviving }

/-- A state from which a boot of s begins: at reset but for what survives. -/
structure Restarted (s u : State) : Prop where
  keeps : Keeps [.pending, .inForce, .engines, .xcvr, .stew, .store, .fuses, .lifecycle, .power, .debug, .firmware, .flash, .free, .out]
    State.reset u
  engines : ∀ n : Nat, (u.engine n).st = .stopped
  ip : u.xcvr.ip = []
  level : u.sys.level = 0
  auth : u.sys.auth = false
  pwr : u.sys.pwr = 0
  pending : u.pending = s.pending
  store : u.cellar.store = s.cellar.store
  flash : FlashStays s u
  fuseState : u.sys.fuseState = s.sys.fuseState
  safe : u.sys.safe = false
  lock : u.lock = State.reset.lock

theorem bare_restarted (s : State) : Restarted s (bare s) where
  keeps := by
    intro p hp
    cases p
    case pending | inForce | engines | xcvr | stew | store | fuses | lifecycle | power | debug | firmware | flash | free | out =>
      exact absurd (by decide) hp
    all_goals and_intros <;> rfl
  engines _ := rfl
  ip := rfl
  level := rfl
  auth := rfl
  pwr := rfl
  pending := rfl
  store := rfl
  flash := FlashStays.of_eq rfl rfl rfl
  fuseState := rfl
  safe := rfl
  lock := rfl

theorem Restarted.setRecord {s u : State} (h : Restarted s u) (r : BootRecord) : Restarted s (u.setRecord r) := by
  have hk := Keeps.step (keeps_setRecord u r) rfl h.keeps
  have hst := h.flash.trans (setRecord_stays u r)
  obtain ⟨q, n, f, he⟩ := setRecord_eq u r
  rw [he] at hk hst ⊢
  exact ⟨hk, h.engines, h.ip, h.level, h.auth, h.pwr, h.pending, h.store, hst, h.fuseState, h.safe, h.lock⟩

/-- What a reset notes before the boot: its cause and pins, the failed boots, and the wake on record. -/
def noted (u : State) (cause sel fails wakePort wakeCause : Nat) : State :=
  let v := wakeRecorded u wakePort wakeCause
  { v with sys := { v.sys with bootCause := cause, bootSel := sel, bootFails := fails } }

theorem keeps_noted {l : List Part} {s u : State} (hx : [Part.xcvr].all (fun p => l.contains p) = true)
    (hf : l.contains .firmware = true) (h : Keeps l s u)
    (cause sel fails wakePort wakeCause : Nat) : Keeps l s (noted u cause sel fails wakePort wakeCause) :=
  Keeps.with_sys (x1 := { u.sys with bootCause := cause, bootSel := sel, bootFails := fails })
    (.inr ⟨rfl, rfl, rfl, rfl, rfl, rfl⟩) (.inr ⟨rfl, rfl, rfl, rfl, rfl⟩) (.inr ⟨rfl, rfl, rfl, rfl⟩)
    (.inr ⟨rfl, rfl, rfl, rfl, rfl, rfl, rfl, rfl, rfl, rfl, rfl⟩) (.inl hf) (.inr ⟨rfl, rfl⟩) (.inr rfl) (.inr ⟨rfl, rfl⟩)
    (Keeps.step (keeps_wakeRecorded u wakePort wakeCause) hx h)

theorem Restarted.noted {s u : State} (h : Restarted s u) (cause sel fails wakePort wakeCause : Nat) :
    Restarted s (noted u cause sel fails wakePort wakeCause) :=
  ⟨keeps_noted rfl rfl h.keeps _ _ _ _ _, h.engines, h.ip, h.level, h.auth, h.pwr, h.pending, h.store,
    h.flash.trans (FlashStays.of_eq rfl rfl rfl), h.fuseState, h.safe, h.lock⟩

/-- A boot that begins from a restarted state is a reset of the device. -/
theorem Restarted.boot {s u : State} (h : Restarted s u) : isReset s u.boot := by
  have hb := boot_booted u
  refine ⟨Keeps.trans h.keeps (Keeps.mono hb.keeps rfl), fun n => (hb.engines n).trans (h.engines n), ?_, ?_, ?_, hb.pwr.trans h.pwr,
    ?_, ?_, (h.flash.trans hb.flash).kept, ?_, ?_⟩
  · rw [Keeps.xcvr hb.keeps rfl, h.ip]
  · rw [Keeps.sys_level hb.keeps rfl, h.level]
  · rw [Keeps.sys_auth hb.keeps rfl, h.auth]
  · rw [Keeps.pending hb.keeps rfl, h.pending]
  · rw [Keeps.cellar hb.keeps rfl rfl, h.store]
  · rw [Keeps.sys_fuseState hb.keeps rfl, h.fuseState]
  · rw [← h.safe]
    exact hb.phase

/-- The boot record as a reset leaves it: a boot that ends before READY counts unless its pair is on trial. -/
def notedRecord (u : SysUnit) : BootRecord :=
  if u.bootFailed then { u.record with fails := min (u.record.fails + 1) 255 } else u.record

theorem cleared_bare (s : State) : s.cleared = if s.sys.bootFailed then
    (bare s).setRecord { s.sys.record with fails := min (s.sys.record.fails + 1) 255 } else bare s := rfl

theorem cleared_restarted (s : State) : Restarted s s.cleared := by
  rw [cleared_bare]
  split
  · exact (bare_restarted s).setRecord _
  · exact bare_restarted s

/-- What a reset clears of the firmware's fields. -/
theorem cleared_fields (s : State) : s.cleared.sys.record = notedRecord s.sys ∧ s.cleared.sys.bootFails = 0 ∧
    s.cleared.xcvr.wakePort = 0 ∧ s.cleared.xcvr.wakeCause = 0 := by
  rw [cleared_bare, notedRecord]
  split
  · obtain ⟨q, n, f, he⟩ := setRecord_eq (bare s) { s.sys.record with fails := min (s.sys.record.fails + 1) 255 }
    rw [he]
    exact ⟨rfl, rfl, rfl, rfl⟩
  · exact ⟨rfl, rfl, rfl, rfl⟩

/-- What the failed boots count after a reset. -/
def notedFails (u : SysUnit) : Nat := if u.bootFailed then min (u.bootFails + 1) 15 else u.bootFails

theorem deviceReset_boot (s : State) (cause sel : Nat) : s.deviceReset cause sel =
    (noted s.cleared cause (sel % 4) (notedFails s.sys) s.xcvr.wakePort s.xcvr.wakeCause).boot := rfl

/-- A reset of the device, what it records, and what survives it. -/
theorem deviceReset_isReset (s : State) (cause sel : Nat) : isReset s (s.deviceReset cause sel) ∧
    (s.deviceReset cause sel).sys.bootCause = cause ∧ (s.deviceReset cause sel).sys.bootSel = sel % 4 ∧
    (s.deviceReset cause sel).xcvr.wakeCause = s.xcvr.wakeCause ∧
    (s.deviceReset cause sel).sys.record.rej = s.sys.record.rej ∧
    (s.deviceReset cause sel).sys.record.fails = (notedRecord s.sys).fails := by
  have hr := (cleared_restarted s).noted cause (sel % 4) (notedFails s.sys) s.xcvr.wakePort s.xcvr.wakeCause
  obtain ⟨hrec, -, -, -⟩ := cleared_fields s
  have hrej : (notedRecord s.sys).rej = s.sys.record.rej := by
    unfold notedRecord
    split <;> rfl
  have he := deviceReset_boot s cause sel
  have hnr : (noted s.cleared cause (sel % 4) (notedFails s.sys) s.xcvr.wakePort s.xcvr.wakeCause).sys.record =
      notedRecord s.sys := hrec
  have hnw : (noted s.cleared cause (sel % 4) (notedFails s.sys) s.xcvr.wakePort s.xcvr.wakeCause).xcvr.wakeCause =
      s.xcvr.wakeCause := rfl
  have hnc : (noted s.cleared cause (sel % 4) (notedFails s.sys) s.xcvr.wakePort s.xcvr.wakeCause).sys.bootCause = cause := rfl
  have hns : (noted s.cleared cause (sel % 4) (notedFails s.sys) s.xcvr.wakePort s.xcvr.wakeCause).sys.bootSel = sel % 4 := rfl
  generalize noted s.cleared cause (sel % 4) (notedFails s.sys) s.xcvr.wakePort s.xcvr.wakeCause = u at hr he hnr hnw hnc hns
  have hb := boot_booted u
  rw [he]
  exact ⟨hr.boot, hb.cause.trans hnc, hb.sel.trans hns, by rw [Keeps.xcvr hb.keeps rfl, hnw], by rw [hb.rej, hnr, hrej],
    by rw [hb.recFails, hnr]⟩

/-! ## The resets -/

theorem regAt_sysRstCmd : regAt Reg.sysRstCmd = some ({ base := 787488, wc := 1, guarded := true }, 0) := by decide

/-- FULL as it reaches the device. -/
theorem write_rstCmd {s : State} {p : Path} {val : Word} (h : canWrite s p Reg.sysRstCmd val = true) (h0 : val.bit 0 = true) :
    s.write p Reg.sysRstCmd val = .next (((s.setLock p false).clearLost p Reg.sysRstCmd).deviceReset 4
      ((s.setLock p false).clearLost p Reg.sysRstCmd).sys.bootSel) := by
  refine (write_reaches_wc regAt_sysRstCmd rfl rfl (by decide) rfl (by decide) rfl h rfl).trans ?_
  simp [State.writeEffect, State.sysEffect, Reg.sysRstCmd, Reg.sysPwrCtl, Reg.sysDbgCtl, Reg.sysLcCmd, Reg.scrivRecSel,
    Reg.scrivHashIn, Reg.lockZeroize, Reg.lockCmd, Reg.lockKmLock, Reg.lockSlotSel, h0]

/-- What a reset makes of a state, it makes of one with the same fuses, store and queue, and boot flash that stays. -/
theorem isReset_of_keeps {l : List Part} {s u t : State} (h : isReset u t) (hk : Keeps l s u) (hp : l.contains .pending = false)
    (hc : l.contains .store = false) (hfu : l.contains .fuses = false) (hst : FlashStays s u) : isReset s t := by
  obtain ⟨h1, h2, h3, h4, h5, h6, h7, h8, h9, h10, h11⟩ := h
  refine ⟨h1, h2, h3, h4, h5, h6, h7.trans (Keeps.pending hk hp), h8.trans (Keeps.cellar_store hk hc), fun hr a ha => ?_,
    h10.trans (Keeps.sys_fuseState hk hfu), h11⟩
  obtain ⟨hat, hread⟩ := hst hr
  exact (h9 hat a ha).trans (hread a ha)

theorem FlashStays.of_keeps {l : List Part} {s u : State} (hk : Keeps l s u) (hfl : l.contains .flash = false)
    (hfw : l.contains .firmware = false) : FlashStays s u :=
  FlashStays.of_eq (Keeps.sys_flash hk hfl) (Keeps.sys_flashLost hk hfl) (Keeps.sys_recordAt hk hfw)

/-- Power-on boots from what the reset cleared. -/
theorem powerOn_boot (sel : Nat) (s : State) :
    exec (.powerOn sel) s = .next (noted s.cleared 0 (sel % 4) s.cleared.sys.bootFails s.cleared.xcvr.wakePort
      s.cleared.xcvr.wakeCause).boot := rfl

/-- Settles O56: each of the resets boots from a cleared device. -/
theorem resets : Obligations.Resets := by
  refine ⟨fun sel s => ?_, fun sel ns s hp => ⟨fun hns => ?_, fun hns => ?_⟩, fun p val s h h0 => ?_, fun s hp hd => ?_, fun s => ?_⟩
  · have he := powerOn_boot sel s
    have hr := (cleared_restarted s).noted 0 (sel % 4) s.cleared.sys.bootFails s.cleared.xcvr.wakePort s.cleared.xcvr.wakeCause
    obtain ⟨-, hf, -, hw⟩ := cleared_fields s
    rw [hf, hw] at he hr
    generalize hu : noted s.cleared 0 (sel % 4) 0 s.cleared.xcvr.wakePort 0 = u at he hr
    have hb := boot_booted u
    refine ⟨_, he, hr.boot, hb.cause.trans (by rw [← hu]; rfl), hb.fails.trans (by rw [← hu]; rfl), ?_,
      hb.sel.trans (by rw [← hu]; rfl), fun h => hb.safe (by rw [← hu]; exact h)⟩
    rw [Keeps.xcvr hb.keeps rfl, ← hu]
    rfl
  · have hlt : ¬ ns < 1000 := by omega
    have he : exec (.resetN sel ns) s = .next (s.deviceReset 1 sel) := by
      simp only [exec, execResetN, hp, Bool.not_true, Bool.false_eq_true, if_false, if_neg hlt]
    obtain ⟨h1, h2, h3, h4, -, -⟩ := deviceReset_isReset s 1 sel
    exact ⟨_, he, h1, h2, h3, h4⟩
  · have hk : Keeps [.free] s { s with free := s.free + 1 } := Keeps.with_free rfl (Keeps.refl _ s)
    by_cases ht : Config.shortResetTaken s.free = true
    · have he : exec (.resetN sel ns) s = .next (State.deviceReset { s with free := s.free + 1 } 1 sel) := by
        simp only [exec, execResetN, hp, Bool.not_true, Bool.false_eq_true, if_false, if_pos hns, ht, if_true]
      obtain ⟨h1, h2, -, -, -, -⟩ := deviceReset_isReset { s with free := s.free + 1 } 1 sel
      exact ⟨_, he, .inl ⟨isReset_of_keeps h1 hk rfl rfl rfl (.of_keeps hk rfl rfl), h2⟩⟩
    · have he : exec (.resetN sel ns) s = .next { s with free := s.free + 1 } := by
        simp only [exec, execResetN, hp, Bool.not_true, Bool.false_eq_true, if_false, if_pos hns, ht]
      exact ⟨_, he, .inr ⟨rfl, hk⟩⟩
  · have he := write_rstCmd h h0
    have hk := keeps_setLock_clearLost s p false Reg.sysRstCmd
    generalize (s.setLock p false).clearLost p Reg.sysRstCmd = u at he hk
    obtain ⟨h1, h2, -, h4, -, -⟩ := deviceReset_isReset u 4 u.sys.bootSel
    exact ⟨_, he, isReset_of_keeps h1 hk rfl rfl rfl (.of_keeps hk rfl rfl), h2, h4.trans (congrArg (·.wakeCause) (Keeps.xcvr hk rfl) :)⟩
  · have he : exec .pfailRelease s = .next (s.deviceReset 2 s.sys.bootSel) := congrArg Host.Outcome.next (if_pos ⟨hp, hd⟩)
    obtain ⟨h1, h2, -, h4, -, -⟩ := deviceReset_isReset s 2 s.sys.bootSel
    exact ⟨_, he, h1, h2, (congrArg (·.pfail) (h1.1 .cellar (by decide)) :), h4⟩
  · have hr := cleared_restarted s
    refine ⟨_, rfl, rfl, ?_, ?_, ?_, ?_, hr.store, hr.flash.kept, hr.fuseState⟩
    · exact (congrArg (·.halves) hr.lock :)
    · exact (congrArg (·.keks) hr.lock :)
    · exact (congrArg (·.kek0) hr.lock :)
    · exact (hr.keeps .records (by decide) :)

/-! ## The end of a boot -/

/-- Rejecting a pair sets its bit and leaves the count of failed boots. -/
theorem reject_rejected (r : BootRecord) (m u : Nat) : (r.reject m u).rejected m u = true ∧ (r.reject m u).fails = r.fails := by
  unfold BootRecord.reject
  split
  · next h => exact ⟨h, rfl⟩
  · next h =>
    have hpos : 0 < 2 ^ rejBit m u := Nat.two_pow_pos _
    have hbit : r.rej / 2 ^ rejBit m u % 2 ≠ 1 := by simpa [BootRecord.rejected, natField] using h
    refine ⟨?_, rfl⟩
    simp only [BootRecord.rejected, natField, Nat.add_div_right _ hpos, pow_one, beq_iff_eq]
    omega

/-- The state in which the timeout has rejected a pair on trial. -/
def trialJudged (s : State) : State :=
  let u := s.advanceTo (s.sys.fwStart + 2000000000)
  match s.sys.trial, s.sys.runMgmt, s.sys.runMicro with
  | true, some m, some n => u.setRecord (u.sys.record.reject m n)
  | _, _, _ => u

theorem exec_bootReadyTimeout {s : State} (h : s.sys.phase = 2) : exec .bootReadyTimeout s =
    .next ((trialJudged s).deviceReset 5 (trialJudged s).sys.bootSel) := congrArg Host.Outcome.next (if_pos h)

theorem trialJudged_of_trial {s : State} {m u : Nat} (ht : s.sys.trial = true) (hm : s.sys.runMgmt = some m)
    (hu : s.sys.runMicro = some u) :
    trialJudged s = (s.advanceTo (s.sys.fwStart + 2000000000)).setRecord (s.sys.record.reject m u) := by
  rw [trialJudged, ht, hm, hu]
  rfl

theorem trialJudged_untried {s : State} (ht : s.sys.trial = false) :
    trialJudged s = s.advanceTo (s.sys.fwStart + 2000000000) := by
  rw [trialJudged, ht]

theorem trialJudged_keeps (s : State) : Keeps [.clock, .firmware, .flash] s (trialJudged s) := by
  have hk := keeps_advanceTo s (s.sys.fwStart + 2000000000)
  unfold trialJudged
  dsimp only
  split
  · exact Keeps.step (keeps_setRecord _ _) rfl (Keeps.mono hk rfl)
  · exact Keeps.mono hk rfl

theorem trialJudged_stays (s : State) : FlashStays s (trialJudged s) := by
  have h := FlashStays.of_keeps (keeps_advanceTo s (s.sys.fwStart + 2000000000)) rfl rfl
  unfold trialJudged
  dsimp only
  split
  · exact h.trans (setRecord_stays _ _)
  · exact h

/-- Settles O57: READY ends the run of failed boots; the timeout notes the failure or rejects the pair, and resets. -/
theorem bootsEnd : Obligations.BootsEnd := by
  refine fun s hph => ⟨?_, ?_⟩
  · have he : exec .firmwareReady s = .next (State.setRecord { s with
        sys := { s.sys with phase := 3, standby := true, bootFails := 0 }
        tink := { s.tink with pairAt := s.time.now } } { s.sys.record with fails := 0 }) := congrArg Host.Outcome.next (if_pos hph)
    have hk := Keeps.mono (m := [.firmware, .tink, .flash]) (keeps_execFirmwareReady s _ he) rfl
    obtain ⟨q, n, f, hq⟩ := setRecord_eq { s with
        sys := { s.sys with phase := 3, standby := true, bootFails := 0 }
        tink := { s.tink with pairAt := s.time.now } } { s.sys.record with fails := 0 }
    rw [hq] at he hk
    exact ⟨_, he, rfl, rfl, rfl, rfl, hk⟩
  · obtain ⟨h1, h2, -, -, h5, h6⟩ := deviceReset_isReset (trialJudged s) 5 (trialJudged s).sys.bootSel
    refine ⟨_, exec_bootReadyTimeout hph, isReset_of_keeps h1 (trialJudged_keeps s) rfl rfl rfl (trialJudged_stays s), h2,
      fun ht => ?_, fun m u ht hm hu _ _ _ => ?_⟩
    · have hv : (trialJudged s).sys = s.sys := by rw [trialJudged_untried ht]; rfl
      rw [h5, h6, hv]
      refine ⟨rfl, ?_⟩
      simp [notedRecord, SysUnit.bootFailed, hph, ht]
    · obtain ⟨q, n, f, hq⟩ := setRecord_eq (s.advanceTo (s.sys.fwStart + 2000000000)) (s.sys.record.reject m u)
      have hv := (trialJudged_of_trial ht hm hu).trans hq
      obtain ⟨hrej, hf⟩ := reject_rejected s.sys.record m u
      have hrec : (trialJudged s).sys.record = s.sys.record.reject m u := by rw [hv]
      have hfail : (trialJudged s).sys.bootFailed = false := by
        rw [hv]
        simp [SysUnit.bootFailed, ht]
      rw [hrec] at h5
      refine ⟨by rw [BootRecord.rejected, h5]; exact hrej, h6.trans ?_⟩
      rw [notedRecord, hfail, hrec]
      exact hf

end Sys2Proof.Proofs.DeviceResets

/-! SUPPORT. The lifecycle, the test access port and the debug sessions (R431 to R438, R445). -/

namespace Sys2Proof.Proofs.DebugSessions

open Sys2Proof.Machine Sys2Proof.Safety Sys2Proof.Laws Sys2Proof.Proofs.RegisterBehaviour Sys2Proof.Proofs.Captures
  Sys2Proof.Proofs.Erasure Sys2Proof.Proofs.DeviceResets

/-! ## An erasure leaves KEK0 withheld -/

/-- The key store emptied by an alarm, before the commands that waited end. -/
def keysEmptied (s : State) (code : Nat) : State :=
  { s with
    frames := s.frames.map (fun (x : Nat × Machine.Frame) =>
      if x.2.looked && x.2.sealed && x.2.verdictCode.isNone && !x.2.dead then (x.1, { x.2 with keyGone := true }) else x)
    lock := { s.lock with
      halves := [], keks := [], kek0 := none, erased := true, alarm := code, swaps := [], pending := [], autoDue := []
      lanes := s.lock.lanes.map (fun (l : Lane) => { l with job := l.job.map (fun (j : SealJob) => { j with keyGone := true }) }) } }

theorem keeps_eraseKeys_rest (s : State) (code : Nat) : Keeps (andBell [.lock, .rings]) (keysEmptied s code) (s.eraseKeys code) := by
  unfold State.eraseKeys
  refine Keeps.step (keeps_raise _ _) rfl (Keeps.step (keeps_count _ _) rfl (Keeps.foldl (fun u x => ?_) (Keeps.foldl (fun u x => ?_)
    (Keeps.refl _ _))))
  · exact keeps_keyDone _ _ _ _ _ _
  · exact keeps_keyDone _ _ _ _ _ _

theorem eraseKeys_withheld (s : State) (code : Nat) : (s.eraseKeys code).lock.withheld = s.lock.withheld :=
  (Keeps.lock_withheld (keeps_eraseKeys_rest s code) rfl :)

/-! ## The lifecycle -/

theorem regAt_sysLcCmd : regAt Reg.sysLcCmd = some ({ base := 786504, wc := 13, guarded := true }, 0) := by decide

/-- LC_CMD as it reaches the lifecycle. -/
theorem write_lcCmd {s : State} {p : Path} {val : Word} (h : canWrite s p Reg.sysLcCmd val = true) :
    s.write p Reg.sysLcCmd val = .next (((s.setLock p false).clearLost p Reg.sysLcCmd).lcCmd val) := by
  refine (write_reaches_wc regAt_sysLcCmd rfl rfl (by decide) rfl (by decide) rfl h rfl).trans ?_
  simp [State.writeEffect, State.sysEffect, Reg.sysPwrCtl, Reg.sysDbgCtl, Reg.sysLcCmd, Reg.scrivRecSel, Reg.scrivHashIn,
    Reg.lockZeroize, Reg.lockCmd, Reg.lockKmLock, Reg.lockSlotSel]

/-- The state in which KEK0 is withheld. -/
def kekWithheld (s : State) : State := { s with lock := { s.lock with withheld := true } }

theorem keeps_kekWithheld (s : State) : Keeps [.keks] s (kekWithheld s) :=
  Keeps.with_lock (.inr rfl) (.inl rfl) (.inr rfl) (Keeps.refl _ s)

/-- The state in which the fuses' program toward a state is under way and KEK0 is withheld. -/
def programming (s : State) (n : Nat) : State :=
  let u := kekWithheld s
  { u with sys := { u.sys with lcBusy := some n, secretGone := u.sys.secretGone || n == 3 } }

theorem keeps_programming (s : State) {n : Nat} (hn : n ≠ 3) : Keeps [.keks, .lifecycle] s (programming s n) := by
  have hg : (s.sys.secretGone || n == 3) = s.sys.secretGone := by simp [hn]
  exact Keeps.with_sys (.inr ⟨rfl, rfl, rfl, rfl, rfl, rfl⟩) (.inr ⟨rfl, rfl, rfl, rfl, hg⟩) (.inl rfl)
    (.inr (by and_intros <;> rfl)) (.inr (by and_intros <;> rfl)) (.inr ⟨rfl, rfl⟩) (.inr rfl)
    (.inr ⟨rfl, rfl⟩) (Keeps.mono (keeps_kekWithheld s) rfl)

theorem lcCmd_programs {s : State} {val : Word} (h0 : val.bit 0 = true) (hb : s.sys.lcBusy = none) (hp : s.sys.lcPending = false)
    (hw : s.sys.pwr = 0) (hm : s.sys.moving = none) (hl : s.sys.lifecycle = 1) (ht : val.field 2 2 = 2) :
    s.lcCmd val = (programming s 2).eraseKeys 5 := by
  simp [State.lcCmd, h0, hb, hp, hw, hm, hl, ht, lcAllowed, State.programFuses, programming, kekWithheld]

theorem heldTarget_none {s : State} (h : s.sys.targetHeld = none) : s.heldTarget = s := by
  rw [State.heldTarget, h]

theorem regAt_sysDbgCtl : regAt Reg.sysDbgCtl = some ({ base := 786480, rwi := 1, wc := 2, live := 18446744073709551612, guarded := true }, 0) := by
  decide

/-- END as it reaches the session. -/
theorem writeEffect_dbgCtl (u : State) (p : Path) (val : Word) (hold : Bool) (h1 : val.bit 1 = true) :
    u.writeEffect { path := p, off := Reg.sysDbgCtl, op := .plain, val := val, flashOk := true } hold = u.endSession := by
  simp [State.writeEffect, State.sysEffect, Reg.sysPwrCtl, Reg.sysDbgCtl, Reg.scrivRecSel, Reg.scrivHashIn, Reg.lockZeroize,
    Reg.lockCmd, Reg.lockKmLock, Reg.lockSlotSel, h1]

/-- A session above level 0 that is not at level 1 ends at once. -/
theorem endSession_closes {s : State} (h : s.sys.level ≠ 1) : s.endSession.sys.level = 0 ∧ s.endSession.sys.auth = false ∧
    s.endSession.sys.keysel = 0 ∧ s.endSession.sys.ir = s.sys.ir ∧ s.endSession.sys.challenge = s.sys.challenge ∧
    Keeps [.debug] s s.endSession := by
  rw [State.endSession, if_neg h]
  exact ⟨rfl, rfl, rfl, rfl, rfl, Keeps.with_sys (.inr ⟨rfl, rfl, rfl, rfl, rfl, rfl⟩) (.inr ⟨rfl, rfl, rfl, rfl, rfl⟩)
    (.inr ⟨rfl, rfl, rfl, rfl⟩) (.inl rfl) (.inr (by and_intros <;> rfl)) (.inr ⟨rfl, rfl⟩) (.inr rfl) (.inr ⟨rfl, rfl⟩)
    (Keeps.refl _ s)⟩

/-- The state of a test access port that has been reset, before a session ends. -/
def tapCleared (s : State) : State := { s with sys := { s.sys with ir := 1, challenge := none, response := none } }

theorem keeps_tapCleared (s : State) : Keeps [.debug] s (tapCleared s) :=
  Keeps.with_sys (.inr ⟨rfl, rfl, rfl, rfl, rfl, rfl⟩) (.inr ⟨rfl, rfl, rfl, rfl, rfl⟩) (.inr ⟨rfl, rfl, rfl, rfl⟩) (.inl rfl)
    (.inr (by and_intros <;> rfl)) (.inr ⟨rfl, rfl⟩) (.inr rfl) (.inr ⟨rfl, rfl⟩) (Keeps.refl _ s)

/-- Settles O53: the fuses are programmed and verified; the port's reset and END close the session. -/
theorem lifecycleAndSessions : Obligations.LifecycleAndSessions := by
  refine ⟨⟨fun p val s h h0 hb hp hw hm hl ht => ?_, fun n s hb ht => ⟨?_, ?_⟩⟩, fun s => ⟨fun hl => ?_, fun hl => ?_⟩,
    fun p val s h h1 hl => ?_⟩
  · have he := write_lcCmd h
    have hk := keeps_setLock_clearLost s p false Reg.sysLcCmd
    generalize (s.setLock p false).clearLost p Reg.sysLcCmd = u at he hk
    rw [lcCmd_programs h0 ((Keeps.sys_lcBusy hk rfl).trans hb) ((Keeps.sys_lcPending hk rfl).trans hp)
      ((Keeps.sys_pwr hk rfl).trans hw) ((Keeps.sys_moving hk rfl).trans hm) ((Keeps.sys_lifecycle hk rfl).trans hl) ht] at he
    obtain ⟨e1, e2, e3, -, e5⟩ := eraseKeys_erased (programming u 2) 5
    have hke := keeps_eraseKeys (programming u 2) 5
    exact ⟨_, he, Keeps.sys_lcBusy hke rfl, e1, e2, e3, e5, eraseKeys_withheld _ _,
      (Keeps.sys_lifecycle hke rfl :).trans (Keeps.sys_lifecycle hk rfl :),
      Keeps.step hke rfl (Keeps.step (keeps_programming u (by decide)) rfl (Keeps.mono hk rfl))⟩
  · have he : exec (.lcProgramDone true) s = .next
        { s with sys := { s.sys with lcBusy := none, fuseState := n, lcPending := true, lcResult := 1 } } := by
      simp only [exec, execLcProgramDone, hb, if_true]
      rw [heldTarget_none (by exact ht)]
    exact ⟨_, he, rfl, rfl, rfl, rfl, rfl, Keeps.with_sys (.inr ⟨rfl, rfl, rfl, rfl, rfl, rfl⟩) (.inl rfl) (.inl rfl)
      (.inr (by and_intros <;> rfl)) (.inr (by and_intros <;> rfl)) (.inr ⟨rfl, rfl⟩) (.inr rfl) (.inr ⟨rfl, rfl⟩) (Keeps.refl _ s)⟩
  · have he : exec (.lcProgramDone false) s = .next
        { s with sys := { s.sys with lcBusy := none, fuseBroken := true, lcResult := 5 } } := by
      simp only [exec, execLcProgramDone, hb, Bool.false_eq_true, if_false]
      rw [heldTarget_none (by exact ht)]
    exact ⟨_, he, rfl, rfl, rfl, rfl, Keeps.with_sys (.inr ⟨rfl, rfl, rfl, rfl, rfl, rfl⟩) (.inl rfl) (.inl rfl)
      (.inr (by and_intros <;> rfl)) (.inr (by and_intros <;> rfl)) (.inr ⟨rfl, rfl⟩) (.inr rfl) (.inr ⟨rfl, rfl⟩) (Keeps.refl _ s)⟩
  · obtain ⟨h1, h2, -, h4, h5, hk⟩ := endSession_closes (s := tapCleared s) hl
    exact ⟨_, rfl, h4, h5, h1, h2, Keeps.trans (keeps_tapCleared s) hk⟩
  · have he : exec .tapReset s = .next ((tapCleared s).deviceReset 3 (tapCleared s).sys.bootSel) :=
      congrArg Host.Outcome.next (if_pos hl)
    obtain ⟨h1, h2, -, -, -, -⟩ := deviceReset_isReset (tapCleared s) 3 (tapCleared s).sys.bootSel
    exact ⟨_, he, isReset_of_keeps h1 (keeps_tapCleared s) rfl rfl rfl (.of_keeps (keeps_tapCleared s) rfl rfl), h2⟩
  · obtain ⟨u, he, hk, -, -⟩ := write_reaches_rwi regAt_sysDbgCtl rfl (by decide) rfl rfl (by decide) rfl (by decide) h rfl
    rw [writeEffect_dbgCtl u p val _ h1] at he
    obtain ⟨e1, e2, e3, -, -, hke⟩ := endSession_closes (s := u) (by rw [Keeps.sys_level hk rfl]; exact hl)
    exact ⟨_, he, e1, e2, e3, Keeps.step hke rfl (Keeps.mono hk rfl)⟩

/-! ## The instructions of the test access port -/

/-- Settles O54: each instruction selects itself and shifts out what it captures. -/
theorem testAccessPort : Obligations.TestAccessPort := by
  intro s hp
  refine ⟨?_, fun op hop => ?_, fun hw => ?_⟩
  · have he : exec .idcode s = .next ((s.setIr 1).emit (.tdo (leBytes 4 0x1712896B))) := congrArg Host.Outcome.next (if_pos hp)
    exact ⟨_, he, rfl, rfl, keeps_execIdcode s _ he⟩
  · have he : exec (.bypass op) s = .next ((s.setIr 0xFF).emit (.tdo [0#8])) :=
      congrArg Host.Outcome.next (if_pos ⟨hp, by simpa using hop⟩)
    exact ⟨_, he, rfl, rfl, keeps_execBypass op s _ he⟩
  · have hup : s.debugUp = true := by simp [State.debugUp, hp, hw]
    refine ⟨fun v => ?_, fun v hl => ?_, fun v hl => ?_, fun a hl op hop => ?_, fun m hl => ?_⟩
    · have he : exec (.samplePreload v) s = .next (let u := (s.setIr 2).samplePins
          { u with sys := { u.sys with boundary := v.getD u.sys.boundary } }) := congrArg Host.Outcome.next (if_pos hup)
      exact ⟨_, he, rfl, rfl, rfl, rfl, keeps_execSamplePreload v s _ he⟩
    · have he : exec (.extest v) s = .next (let u := (s.setIr 0).samplePins
          { u with sys := { u.sys with boundary := v } }) := congrArg Host.Outcome.next ((if_pos hup).trans (if_pos hl))
      exact ⟨_, he, rfl, rfl, rfl, rfl, keeps_execExtest v s _ he⟩
    · have he : exec (.extest v) s = .next (s.setIr 0) := congrArg Host.Outcome.next ((if_pos hup).trans (if_neg hl))
      exact ⟨_, he, rfl, rfl, keeps_setIr s 0⟩
    · have hn : ¬ (s.setIr 0x22).sys.level ≠ 2 := not_not.mpr hl
      have he : exec (.dbgAccess op) s = .next ((s.setIr 0x22).debugData a) := by
        refine congrArg Host.Outcome.next ((if_pos hup).trans ((if_neg hn).trans ?_))
        rcases List.mem_cons.mp hop with rfl | hop
        · rfl
        · rcases List.mem_singleton.mp hop with rfl
          rfl
      exact ⟨_, he, rfl, rfl, rfl, keeps_execDbgAccess op s _ he⟩
    · have hn : ¬ (s.setIr 0x22).sys.level ≠ 2 := not_not.mpr hl
      have he : exec (.dbgAccess (.halt m)) s = .next (let u := s.setIr 0x22
          { u with sys := { u.sys with halted := setInsert m u.sys.halted } }) :=
        congrArg Host.Outcome.next ((if_pos hup).trans (if_neg hn))
      exact ⟨_, he, rfl, rfl, Keeps.with_sys (.inr ⟨rfl, rfl, rfl, rfl, rfl, rfl⟩) (.inr ⟨rfl, rfl, rfl, rfl, rfl⟩)
        (.inr ⟨rfl, rfl, rfl, rfl⟩) (.inl rfl) (.inr (by and_intros <;> rfl)) (.inr ⟨rfl, rfl⟩) (.inr rfl) (.inr ⟨rfl, rfl⟩)
        (keeps_setIr s 0x22)⟩

/-! ## Debug authentication -/

/-- What a session's opening makes of the debug port before a key store is erased. -/
def sessionSet (s : State) (level : Nat) (auth : Bool) (key : Nat) : State :=
  s.portsStep (List.range 128) (fun s => { s with sys := { s.sys with level := level, auth := auth, keysel := key } })

/-- A session's opening sets its level, its authentication and its key; the lifecycle stays, and so do the challenge and the
response. -/
theorem sessionSet_debug (s : State) (level : Nat) (auth : Bool) (key : Nat) :
    (sessionSet s level auth key).sys = { s.sys with level := level, auth := auth, keysel := key } := by
  have hk : Keeps (andBell [.ports, .rings, .cells]) { s with sys := { s.sys with level := level, auth := auth, keysel := key } }
      (sessionSet s level auth key) := by
    unfold sessionSet State.portsStep
    exact Keeps.foldl (fun u p => Keeps.ite (keeps_portDown u p) (Keeps.refl _ u)) (Keeps.refl _ _)
  exact (Keeps.sys hk rfl rfl rfl rfl rfl rfl rfl rfl :)

/-- An open session. -/
theorem openSession_opens (s : State) (level : Nat) (auth : Bool) (key : Nat) :
    (s.openSession level auth key).sys = { s.sys with level := level, auth := auth, keysel := key } ∧
    (s.sys.lifecycle = 1 ∨ s.sys.lifecycle = 2 →
      (s.openSession level auth key).lock.halves = [] ∧ (s.openSession level auth key).lock.withheld = true) := by
  have hs := sessionSet_debug s level auth key
  have hl : (sessionSet s level auth key).sys.lifecycle = s.sys.lifecycle := congrArg (·.lifecycle) hs
  have he : s.openSession level auth key = if (sessionSet s level auth key).sys.lifecycle = 1 ∨
      (sessionSet s level auth key).sys.lifecycle = 2 then (kekWithheld (sessionSet s level auth key)).eraseKeys 5
      else sessionSet s level auth key := rfl
  generalize sessionSet s level auth key = u at hs hl he
  rw [he, hl]
  split
  · next h =>
    refine ⟨?_, fun _ => ⟨(eraseKeys_erased (kekWithheld u) 5).1, eraseKeys_withheld _ _⟩⟩
    rw [Keeps.sys (keeps_eraseKeys (kekWithheld u) 5) rfl rfl rfl rfl rfl rfl rfl rfl]
    exact hs
  · next h => exact ⟨hs, fun hc => absurd hc h⟩

/-- The state in which the challenge and its response are used up. -/
def challengeUsed (s : State) : State := { s with sys := { s.sys with challenge := none, response := none } }

theorem keeps_challengeUsed (s : State) : Keeps [.debug] s (challengeUsed s) :=
  Keeps.with_sys (.inr ⟨rfl, rfl, rfl, rfl, rfl, rfl⟩) (.inr ⟨rfl, rfl, rfl, rfl, rfl⟩) (.inr ⟨rfl, rfl, rfl, rfl⟩) (.inl rfl)
    (.inr (by and_intros <;> rfl)) (.inr ⟨rfl, rfl⟩) (.inr rfl) (.inr ⟨rfl, rfl⟩) (Keeps.refl _ s)

/-- The judgement of a response. -/
theorem exec_debugAuthResult {s : State} {c : Challenge} {r : Bytes × Bytes} (hc : s.sys.challenge = some c)
    (hr : s.sys.response = some r) : exec .debugAuthResult s = .next (
      if s.responseOk c r.1 r.2 then
        if s.sys.lifecycle = 2 ∧ c.level = 2 ∧ ¬ s.flag Reg.sysDbgCtl 0 then challengeUsed s
        else (challengeUsed s).openSession c.level true c.key
      else (challengeUsed s).authFailed) := by
  simp only [exec, execDebugAuthResult, hc, hr]
  rfl

/-- Settles O55: the challenge, the response, its judgement and the lapse. -/
theorem debugAuthentication : Obligations.DebugAuthentication := by
  refine ⟨fun r s hup hlock hl hr => ⟨fun ho hkey => ?_, fun ho => ?_⟩, fun k sig s hup hc hr => ?_, fun c r s hc hr => ?_,
    fun c s hc hr => ?_⟩
  · have hup' : ¬ (!s.debugUp) = true := by simp [hup]
    have hcond : (s.sys.lockout || s.sys.level != 0 || r % 4 == 0 || r % 4 == 3) = false := by
      rcases hr with h | h <;> simp [hlock, hl, h]
    have he : exec (.dbgChal r) s = .next
        (let c : Challenge := { level := r % 4, key := r / 4 % 4, nonce := s.sys.nonceNo, issued := s.time.now }
        let u := s.setIr 0x20
        State.emit { u with sys := { u.sys with challenge := some c, response := none, nonceNo := u.sys.nonceNo + 1 } }
          (.tdo (u.challengeRecord c))) :=
      congrArg Host.Outcome.next ((if_neg hup').trans ((if_neg (ne_true_of_eq_false hcond)).trans
        ((if_neg (ne_true_of_eq_false ho)).trans (if_pos hkey))))
    refine ⟨_, _, he, rfl, rfl, rfl, rfl, hl, Keeps.step (keeps_emit _ _) rfl (Keeps.with_sys (.inr ⟨rfl, rfl, rfl, rfl, rfl, rfl⟩)
      (.inr ⟨rfl, rfl, rfl, rfl, rfl⟩) (.inr ⟨rfl, rfl, rfl, rfl⟩) (.inl rfl) (.inr (by and_intros <;> rfl)) (.inr ⟨rfl, rfl⟩)
      (.inr rfl) (.inr ⟨rfl, rfl⟩) (Keeps.mono (keeps_setIr s 0x20) rfl))⟩
  · have hup' : ¬ (!s.debugUp) = true := by simp [hup]
    have hcond : (s.sys.lockout || s.sys.level != 0 || r % 4 == 0 || r % 4 == 3) = false := by
      rcases hr with h | h <;> simp [hlock, hl, h]
    have he : exec (.dbgChal r) s = .next ((s.setIr 0x20).openSession (r % 4) false 0) :=
      congrArg Host.Outcome.next ((if_neg hup').trans ((if_neg (ne_true_of_eq_false hcond)).trans (if_pos ho)))
    obtain ⟨hs, -⟩ := openSession_opens (s.setIr 0x20) (r % 4) false 0
    exact ⟨_, he, congrArg (·.level) hs, congrArg (·.auth) hs, keeps_execDbgChal r s _ he⟩
  · have he : exec (.dbgResp k sig) s = .next (let u := s.setIr 0x21
        { u with sys := { u.sys with response := some (k, sig) } }) :=
      congrArg Host.Outcome.next ((if_pos hup).trans (if_pos ⟨hc, hr⟩))
    exact ⟨_, he, rfl, rfl, keeps_execDbgResp k sig s _ he⟩
  · have he := exec_debugAuthResult hc hr
    have hk := keeps_execDebugAuthResult s _ he
    obtain ⟨hs, hkeys⟩ := openSession_opens (challengeUsed s) c.level true c.key
    by_cases hok : s.responseOk c r.1 r.2 = true
    · by_cases hallow : s.sys.lifecycle = 2 ∧ c.level = 2 ∧ ¬ s.flag Reg.sysDbgCtl 0 = true
      · rw [if_pos hok, if_pos hallow] at he hk
        obtain ⟨h1, h2, h3⟩ := hallow
        exact ⟨_, he, rfl, rfl, fun _ hn => absurd ⟨h1, h2, by simpa using h3⟩ hn, fun _ _ _ _ => ⟨rfl, keeps_challengeUsed s⟩,
          fun hf => absurd (hok.symm.trans hf) (by decide), hk⟩
      · rw [if_pos hok, if_neg hallow] at he hk
        exact ⟨_, he, congrArg (·.challenge) hs, congrArg (·.response) hs,
          fun _ _ => ⟨congrArg (·.level) hs, congrArg (·.auth) hs, congrArg (·.keysel) hs, hkeys⟩,
          fun _ h1 h2 h3 => absurd ⟨h1, h2, by simp [h3]⟩ hallow, fun hf => absurd (hok.symm.trans hf) (by decide), hk⟩
    · rw [if_neg hok] at he hk
      refine ⟨_, he, rfl, rfl, fun h => absurd h hok, fun h => absurd h hok, fun _ => ⟨rfl, rfl, fun hf => ?_, ?_⟩, hk⟩
      · have : 4 ≤ s.sys.fails + 1 := by omega
        simp [State.authFailed, challengeUsed, this]
      · exact Keeps.step (keeps_authFailed _) rfl (Keeps.mono (keeps_challengeUsed s) rfl)
  · have he : exec .nonceLapse s = .next (let u := s.advanceTo (c.issued + 60000000000)
        { u with sys := { u.sys with challenge := none } }) := by
      simp only [exec, execNonceLapse, hc, hr]
    exact ⟨_, he, rfl, rfl, keeps_execNonceLapse s _ he⟩

end Sys2Proof.Proofs.DebugSessions

/-! SUPPORT. The firmware's commands, boot flash's programs and the switch of the pairs (R458 to R463). -/

namespace Sys2Proof.Proofs.FirmwareUpdates

open Sys2Proof.Machine Sys2Proof.Safety Sys2Proof.Laws Sys2Proof.Proofs.RegisterBehaviour Sys2Proof.Proofs.Captures
  Sys2Proof.Proofs.Lookups Sys2Proof.Proofs.DeviceResets

/-! ## FW_CMD and the result -/

theorem regAt_sysFwCmd : regAt Reg.sysFwCmd = some ({ base := 787504, wc := 1799, guarded := true }, 0) := by decide

/-- The state in which a write of FW_CMD takes effect. -/
def commanded (s : State) (p : Path) : State := (s.setLock p false).clearLost p Reg.sysFwCmd

theorem keeps_commanded (s : State) (p : Path) : Keeps [.locks, .parity] s (commanded s p) :=
  keeps_setLock_clearLost s p false Reg.sysFwCmd

/-- FW_CMD as it reaches the firmware. -/
theorem write_fwCmd {s : State} {p : Path} {val : Word} (h : canWrite s p Reg.sysFwCmd val = true) :
    s.write p Reg.sysFwCmd val = .next ((commanded s p).fwCmd val true) := by
  refine (write_reaches_wc regAt_sysFwCmd rfl rfl (by decide) rfl (by decide) rfl h rfl).trans ?_
  simp [State.writeEffect, State.sysEffect, Reg.sysPwrCtl, Reg.sysDbgCtl, Reg.sysLcCmd, Reg.sysRstCmd, Reg.sysFwCmd,
    Reg.scrivRecSel, Reg.scrivHashIn, Reg.lockZeroize, Reg.lockCmd, Reg.lockKmLock, Reg.lockSlotSel, commanded]

/-- The result in place, and the firmware's other fields as they are. -/
theorem setFwResult_sys (s : State) (r : Nat) : (s.setFwResult r).sys = { s.sys with fwResult := r } :=
  (Keeps.sys (keeps_raiseIf { s with sys := { s.sys with fwResult := r } } _ 17) rfl rfl rfl rfl rfl rfl rfl rfl :)

theorem setFwResult_counter (s : State) (r : Nat) {o : Nat} (h : o < 0x10700 ∨ 0x10c00 ≤ o) :
    (s.setFwResult r).counter o = s.counter o := by
  unfold State.setFwResult State.raiseIf
  split
  · exact (raise_counter _ _ h).trans rfl
  · rfl

/-- What the firmware reads of boot flash is the same where boot flash is. -/
theorem flashRun_of_keeps {l : List Part} {s t : State} (h : Keeps l s t) (hf : l.contains .flash = false) (a n : Nat) :
    t.flashRun a n = s.flashRun a n := by
  have hr : t.flashRead = s.flashRead := by
    funext a
    rw [State.flashRead, Keeps.sys_flash h hf, Keeps.sys_flashLost h hf]
    rfl
  simp only [State.flashRun, hr]

theorem imageValid_of_keeps {l : List Part} {s t : State} (h : Keeps l s t) (hf : l.contains .flash = false) (n : Nat) :
    t.imageValid n = s.imageValid n := by
  simp only [State.imageValid, State.header, State.headerZero, State.slotCompat, State.slotVersion, State.flashNum,
    flashRun_of_keeps h hf] <;> rfl

theorem lists_of_keeps {l : List Part} {s t : State} (h : Keeps l s t) (hf : l.contains .flash = false) (n v : Nat) :
    t.lists n v = s.lists n v := by
  simp only [State.lists, State.slotCompat, State.header, State.flashNum, flashRun_of_keeps h hf]

theorem slotVersion_of_keeps {l : List Part} {s t : State} (h : Keeps l s t) (hf : l.contains .flash = false) (n : Nat) :
    t.slotVersion n = s.slotVersion n := by
  simp only [State.slotVersion, State.header, State.flashNum, flashRun_of_keeps h hf]

theorem runningMicrocode_of_keeps {l : List Part} {s t : State} (h : Keeps l s t) (he : l.contains .engines = false) :
    t.runningMicrocode = s.runningMicrocode := by
  simp only [State.runningMicrocode, Keeps.engine h he]

theorem checkSlot_sys (s : State) (n : Nat) : (s.checkSlot n).sys = { s.sys with slotsValid := (s.checkSlot n).sys.slotsValid } := by
  unfold State.checkSlot
  rfl

/-! ## ACTIVATE, CONFIRM, REVERT and ROLL -/

/-- An activation under way. -/
def activating (s : State) (slot : Nat) : State :=
  { s with sys := { s.sys with
    standby := false, actSlot := slot, busyOp := 1, switchReq := some (.activate, s.time.now + 10000000000) } }

theorem keeps_activating (s : State) (slot : Nat) : Keeps [.firmware] s (activating s slot) :=
  Keeps.with_sys (.inr ⟨rfl, rfl, rfl, rfl, rfl, rfl⟩) (.inr ⟨rfl, rfl, rfl, rfl, rfl⟩) (.inr ⟨rfl, rfl, rfl, rfl⟩)
    (.inr (by and_intros <;> rfl)) (.inl rfl) (.inr ⟨rfl, rfl⟩) (.inr rfl) (.inr ⟨rfl, rfl⟩) (Keeps.refl _ s)

/-- An activation that nothing stands in the way of. -/
theorem fwActivate_judged {s : State} {slot : Nat} (hsafe : s.sys.safe = false) (hslot : slot < 4)
    (hlist : s.runningMicrocode.all (fun v => s.lists slot v) = true) (hroll : s.sys.roll ≠ 1) (hbusy : s.sys.busyOp ≠ 1)
    (hconf : s.sys.confirmPend = false) (hpwr : s.sys.pwr = 0) (hsb : s.standbyReady = true) :
    s.fwActivate slot = if s.imageValid slot then activating (s.checkSlot slot) slot else (s.checkSlot slot).setFwResult 2 := by
  have hk := keeps_checkSlot s slot
  have hv : (s.checkSlot slot).imageValid slot = s.imageValid slot := imageValid_of_keeps hk rfl slot
  have hl : (s.checkSlot slot).runningMicrocode.all (fun v => (s.checkSlot slot).lists slot v) = true := by
    simp only [runningMicrocode_of_keeps hk rfl, lists_of_keeps hk rfl]
    exact hlist
  have hsafe' : ¬ (s.checkSlot slot).sys.safe = true := by rw [checkSlot_sys]; simp [hsafe]
  have hbusy' : ¬ ((s.checkSlot slot).sys.roll = 1 ∨ (s.checkSlot slot).sys.busyOp = 1 ∨ (s.checkSlot slot).sys.confirmPend = true) := by
    rw [checkSlot_sys]
    simp [hroll, hbusy, hconf]
  have hready : ¬ ((s.checkSlot slot).sys.pwr ≠ 0 ∨ ¬ (s.checkSlot slot).standbyReady = true) := by
    have : (s.checkSlot slot).standbyReady = s.standbyReady := rfl
    rw [checkSlot_sys, this]
    simp [hpwr, hsb]
  unfold State.fwActivate activating
  dsimp only
  rw [if_neg hsafe', hv]
  by_cases hvalid : s.imageValid slot = true
  · rw [if_neg (by simp [hvalid, hslot]), if_neg (by rw [hl]; decide), if_neg hbusy', if_neg hready, if_pos hvalid]
  · rw [if_pos (.inr hvalid), if_neg hvalid]

/-- A pair that awaits its confirmation becomes CUR and LKG. -/
theorem fwConfirm_confirms {s : State} (hc : s.sys.confirmPend = true) (hr : s.sys.confirmRoll = false) :
    s.fwConfirm.sys.confirmPend = false ∧ s.fwConfirm.sys.fwResult = 1 ∧
      s.fwConfirm.sys.record.cur = pairCode s.sys.runMgmt s.sys.runMicro ∧
      s.fwConfirm.sys.record.lkg = pairCode s.sys.runMgmt s.sys.runMicro := by
  obtain ⟨q, n, f, h⟩ := setRecord_eq { s with sys := { s.sys with
      confirmPend := false, confirmRoll := false, trial := false, oldMgmt := none
      switchReq := if s.sys.switchReq.any (fun (q : SwitchCause × Nat) => q.1 == .revert) then none else s.sys.switchReq } }
      { s.sys.record with cur := pairCode s.sys.runMgmt s.sys.runMicro, lkg := pairCode s.sys.runMgmt s.sys.runMicro }
  unfold State.fwConfirm
  simp only [hc, hr, if_true, Bool.false_eq_true, if_false, setFwResult_sys, h, and_self]

/-- The switch back is requested. -/
theorem fwRevert_requests {s : State} (hc : s.sys.confirmPend = true) (hr : s.sys.confirmRoll = false) (hs : s.sys.switchReq = none) :
    s.fwRevert = { s with sys := { s.sys with switchReq := some (.revert, s.time.now + 10000000000) } } := by
  simp [State.fwRevert, hc, hr, hs]

/-- Every engine of a list runs the new version. -/
def rollLoaded (s : State) (l : List Nat) : State :=
  l.foldl (fun s n => s.modEngine n (fun e => { e with mcode := s.sys.rollNew })) s

theorem keeps_rollLoaded (s : State) (l : List Nat) : Keeps [.engines] s (rollLoaded s l) :=
  Keeps.foldl (fun u n => keeps_modEngine u n _) (Keeps.refl _ s)

theorem rollLoaded_mcode (s : State) (l : List Nat) (k : Nat) :
    ((rollLoaded s l).engine k).mcode = if k ∈ l then s.sys.rollNew else (s.engine k).mcode := by
  induction l generalizing s with
  | nil => rfl
  | cons n l ih =>
    have hstep : rollLoaded s (n :: l) = rollLoaded (s.modEngine n (fun e => { e with mcode := s.sys.rollNew })) l := rfl
    rw [hstep, ih, modEngine_engine]
    by_cases hk : k ∈ l
    · rw [if_pos hk, if_pos (List.mem_cons_of_mem n hk)]
      rfl
    · by_cases hn : k = n
      · simp [hn]
      · simp [hk, hn]

theorem setRecord_roll (s : State) (r : BootRecord) : (s.setRecord r).sys.roll = s.sys.roll ∧
    (s.setRecord r).sys.rollNew = s.sys.rollNew ∧ (s.setRecord r).sys.rollSlot = s.sys.rollSlot := by
  obtain ⟨q, n, f, h⟩ := setRecord_eq s r
  rw [h]
  exact ⟨rfl, rfl, rfl⟩

/-- The end of a rolling update leaves its version and its slot, and its state is not 0. -/
theorem rollEnd_sys (s : State) : s.rollEnd.sys.roll = 2 ∧ s.rollEnd.sys.rollNew = s.sys.rollNew ∧
    s.rollEnd.sys.rollSlot = s.sys.rollSlot := by
  have hcount : ∀ (u : State) (o : Nat), (u.count o).sys = u.sys := fun _ _ => rfl
  unfold State.rollEnd
  dsimp only
  split
  · simp only [hcount, setFwResult_sys, setRecord_roll, and_self]
  · split
    · simp only [setFwResult_sys, and_self]
    · simp only [setFwResult_sys, setRecord_roll, and_self]

/-- What a rolling update that runs leaves: its version, its slot, and the version in every free engine. -/
theorem rollSettle_rolls {s : State} (h : s.sys.roll = 1) : s.rollSettle.sys.roll ≠ 0 ∧ s.rollSettle.sys.rollNew = s.sys.rollNew ∧
    s.rollSettle.sys.rollSlot = s.sys.rollSlot ∧ ∀ k ∈ s.freeEngines, (s.rollSettle.engine k).mcode = s.sys.rollNew := by
  have he : s.rollSettle = if (List.range 128).any (fun p => (rollLoaded s s.freeEngines).rollPort p ||
      (rollLoaded s s.freeEngines).rollBusy p) then (List.range 128).foldl State.rollRequest (rollLoaded s s.freeEngines)
      else (rollLoaded s s.freeEngines).rollEnd := if_neg (not_not.mpr h)
  have hsys : (rollLoaded s s.freeEngines).sys = s.sys := Keeps.sys (keeps_rollLoaded s _) rfl rfl rfl rfl rfl rfl rfl rfl
  have hload : ∀ k ∈ s.freeEngines, ((rollLoaded s s.freeEngines).engine k).mcode = s.sys.rollNew := fun k hk => by
    rw [rollLoaded_mcode, if_pos hk]
  generalize rollLoaded s s.freeEngines = u at he hsys hload
  rw [he]
  split
  · have hk : Keeps [.ports] u ((List.range 128).foldl State.rollRequest u) :=
      Keeps.foldl (fun u p => keeps_rollRequest u p) (Keeps.refl _ u)
    have hs := Keeps.sys hk rfl rfl rfl rfl rfl rfl rfl rfl
    rw [hs, hsys]
    exact ⟨by rw [h]; decide, rfl, rfl, fun k hm => by rw [Keeps.engine hk rfl]; exact hload k hm⟩
  · obtain ⟨h1, h2, h3⟩ := rollEnd_sys u
    rw [h1, h2, h3, hsys]
    exact ⟨by decide, rfl, rfl, fun k hm => by rw [Keeps.engine (keeps_rollEnd u) rfl]; exact hload k hm⟩

/-- A rolling update begun. -/
def rolling (s : State) (slot v : Nat) : State :=
  { s with sys := { s.sys with
    roll := 1, rollNew := v, rollSlot := slot, rollFails := [], rollBack := false, busyOp := 4 } }

theorem keeps_rolling (s : State) (slot v : Nat) : Keeps [.firmware] s (rolling s slot v) :=
  Keeps.with_sys (.inr ⟨rfl, rfl, rfl, rfl, rfl, rfl⟩) (.inr ⟨rfl, rfl, rfl, rfl, rfl⟩) (.inr ⟨rfl, rfl, rfl, rfl⟩)
    (.inr (by and_intros <;> rfl)) (.inl rfl) (.inr ⟨rfl, rfl⟩) (.inr rfl) (.inr ⟨rfl, rfl⟩) (Keeps.refl _ s)

theorem freeEngines_of_keeps {l : List Part} {s t : State} (h : Keeps l s t) (he : l.contains .engines = false)
    (hp : l.contains .ports = false) : t.freeEngines = s.freeEngines := by
  have hport : ∀ p : Nat, t.port p = s.port p := Keeps.port h hp
  have hfree : t.engineFree = s.engineFree := by
    funext n
    simp only [State.engineFree, State.portOf, State.shadowedPort, State.serving, Keeps.engine h he, hport]
  rw [State.freeEngines, hfree]
  rfl

/-- A rolling update that nothing stands in the way of. -/
theorem fwRoll_judged {s : State} {slot m : Nat} (hm : s.sys.runMgmt = some m) (hsafe : s.sys.safe = false) (hslot : 4 ≤ slot)
    (h1 : s.lists slot (s.slotVersion m) = true) (h2 : s.lists m (s.slotVersion slot) = true)
    (h3 : s.runningMicrocode.all (fun v => s.lists m v) = true) (hbusy : s.sys.busyOp ≠ 1) (hconf : s.sys.confirmPend = false)
    (hroll : s.sys.roll ≠ 1) :
    s.fwRoll slot = if s.imageValid slot then (rolling (s.checkSlot slot) slot (s.slotVersion slot)).rollSettle
      else (s.checkSlot slot).setFwResult 3 := by
  have hk := keeps_checkSlot s slot
  have hv : (s.checkSlot slot).imageValid slot = s.imageValid slot := imageValid_of_keeps hk rfl slot
  have hmg : (s.checkSlot slot).sys.runMgmt = some m := by rw [checkSlot_sys]; exact hm
  have hsafe' : ¬ (s.checkSlot slot).sys.safe = true := by rw [checkSlot_sys]; simp [hsafe]
  have hbusy' : ¬ ((s.checkSlot slot).sys.busyOp = 1 ∨ (s.checkSlot slot).sys.confirmPend = true ∨ (s.checkSlot slot).sys.roll = 1) := by
    rw [checkSlot_sys]
    simp [hroll, hbusy, hconf]
  have hlow : ¬ slot < 4 := by omega
  unfold State.fwRoll
  dsimp only
  simp only [hmg]
  rw [if_neg hsafe', hv]
  simp only [runningMicrocode_of_keeps hk rfl, lists_of_keeps hk rfl, slotVersion_of_keeps hk rfl, h1, h2, h3]
  by_cases hvalid : s.imageValid slot = true
  · rw [if_neg (by simp [hvalid, hlow]), if_neg hbusy', if_pos hvalid]
    simp only [rolling, hmg]
  · rw [if_pos (.inr (.inl hvalid)), if_neg hvalid]

section

variable {s : State} {val : Word} {ok : Bool}

theorem fwCmd_activate (h : val.field 0 3 = 1) : s.fwCmd val ok = s.fwActivate (val.field 8 3) := by
  simp only [State.fwCmd, h]

theorem fwCmd_confirm (h : val.field 0 3 = 2) : s.fwCmd val ok = s.fwConfirm := by
  simp only [State.fwCmd, h]

theorem fwCmd_revert (h : val.field 0 3 = 3) : s.fwCmd val ok = s.fwRevert := by
  simp only [State.fwCmd, h]

theorem fwCmd_roll (h : val.field 0 3 = 4) : s.fwCmd val ok = s.fwRoll (val.field 8 3) := by
  simp only [State.fwCmd, h]

theorem fwCmd_erase (h : val.field 0 3 = 5) : s.fwCmd val ok = s.fwErase (val.field 8 3) ok := by
  simp only [State.fwCmd, h]

theorem fwCmd_program (h : val.field 0 3 = 6) : s.fwCmd val ok = s.fwProgram (val.field 8 3) ok := by
  simp only [State.fwCmd, h]

end

/-- Settles O58: each command of FW_CMD as the firmware judges it. -/
theorem firmwareCommands : Obligations.FirmwareCommands := by
  intro p val s h
  have he := write_fwCmd h
  have hk := keeps_commanded s p
  generalize commanded s p = u at he hk
  have hsys : u.sys = s.sys := Keeps.sys hk rfl rfl rfl rfl rfl rfl rfl rfl
  refine ⟨fun hop hsafe hslot hlist hroll hbusy hconf hpwr hsb => ?_, fun hop hc hr => ?_, fun hop hc hr hs => ?_,
    fun m hop hm hsafe hslot h1 h2 h3 hbusy hconf hroll => ?_⟩
  · have hsb' : u.standbyReady = true := by
      rw [State.standbyReady, hsys, Keeps.tink hk rfl]
      exact hsb
    have hlist' : u.runningMicrocode.all (fun v => u.lists (val.field 8 3) v) = true := by
      simp only [runningMicrocode_of_keeps hk rfl, lists_of_keeps hk rfl]
      exact hlist
    have hj := fwActivate_judged (s := u) (by rw [hsys]; exact hsafe) hslot hlist' (by rw [hsys]; exact hroll)
      (by rw [hsys]; exact hbusy) (by rw [hsys]; exact hconf) (by rw [hsys]; exact hpwr) hsb'
    have hw := checkSlot_sys u (val.field 8 3)
    have hkw : Keeps [.firmware, .locks, .parity] s (u.checkSlot (val.field 8 3)) :=
      Keeps.step (keeps_checkSlot u _) rfl (Keeps.mono hk rfl)
    rw [fwCmd_activate hop, hj, imageValid_of_keeps hk rfl] at he
    generalize (u.checkSlot (val.field 8 3)).sys.slotsValid = v at hw
    generalize u.checkSlot (val.field 8 3) = w at he hw hkw
    rw [hsys] at hw
    by_cases hv : s.imageValid (val.field 8 3) = true
    · rw [if_pos hv] at he
      have hnow : w.time.now = s.time.now := Keeps.time_now hkw rfl
      exact ⟨_, he, (congrArg (·.runMgmt) hw :), fun _ => ⟨rfl, rfl, rfl, by rw [← hnow]; rfl,
        Keeps.step (keeps_activating w _) rfl hkw⟩, fun hf => absurd (hv.symm.trans hf) (by decide)⟩
    · rw [if_neg hv] at he
      refine ⟨_, he, ?_, fun hf => absurd hf hv, fun _ => ⟨?_, ?_, ?_, Keeps.step (keeps_setFwResult _ _) rfl
        (Keeps.mono hkw rfl)⟩⟩
      all_goals rw [setFwResult_sys, hw]
  · obtain ⟨c1, c2, c3, c4⟩ := fwConfirm_confirms (s := u) (by rw [hsys]; exact hc) (by rw [hsys]; exact hr)
    rw [fwCmd_confirm hop] at he
    rw [hsys] at c3 c4
    exact ⟨_, he, c1, c2, c3, c4.trans c3.symm, Keeps.step (keeps_fwConfirm u) rfl (Keeps.mono hk rfl)⟩
  · rw [fwCmd_revert hop, fwRevert_requests (by rw [hsys]; exact hc) (by rw [hsys]; exact hr) (by rw [hsys]; exact hs)] at he
    refine ⟨_, he, ?_, ?_, Keeps.with_sys (.inr ⟨rfl, rfl, rfl, rfl, rfl, rfl⟩) (.inr ⟨rfl, rfl, rfl, rfl, rfl⟩)
      (.inr ⟨rfl, rfl, rfl, rfl⟩) (.inr (by and_intros <;> rfl)) (.inl rfl) (.inr ⟨rfl, rfl⟩) (.inr rfl) (.inr ⟨rfl, rfl⟩)
      (Keeps.mono hk rfl)⟩
    · rw [← (Keeps.time_now hk rfl : u.time.now = s.time.now)]
    · exact (congrArg (·.confirmPend) hsys :).trans hc
  · have hlist' : u.runningMicrocode.all (fun v => u.lists m v) = true := by
      simp only [runningMicrocode_of_keeps hk rfl, lists_of_keeps hk rfl]
      exact h3
    have hj := fwRoll_judged (s := u) (by rw [hsys]; exact hm) (by rw [hsys]; exact hsafe) hslot
      (by rw [lists_of_keeps hk rfl, slotVersion_of_keeps hk rfl]; exact h1)
      (by rw [lists_of_keeps hk rfl, slotVersion_of_keeps hk rfl]; exact h2) hlist' (by rw [hsys]; exact hbusy)
      (by rw [hsys]; exact hconf) (by rw [hsys]; exact hroll)
    rw [fwCmd_roll hop] at he
    refine ⟨_, he, fun hv => ?_, fun hv => ?_, Keeps.step (keeps_fwRoll u _) rfl (Keeps.mono hk rfl)⟩
    · rw [hj, if_pos ((imageValid_of_keeps hk rfl _).trans hv)]
      have hver : u.slotVersion (val.field 8 3) = s.slotVersion (val.field 8 3) := slotVersion_of_keeps hk rfl _
      have hfree : (u.checkSlot (val.field 8 3)).freeEngines = s.freeEngines :=
        (freeEngines_of_keeps (keeps_checkSlot u _) rfl rfl).trans (freeEngines_of_keeps hk rfl rfl)
      rw [hver]
      generalize u.checkSlot (val.field 8 3) = w at hfree
      obtain ⟨r1, r2, r3, r4⟩ := rollSettle_rolls (s := rolling w (val.field 8 3) (s.slotVersion (val.field 8 3))) rfl
      refine ⟨r2, r3, r1, fun k hm => r4 k ?_⟩
      rw [freeEngines_of_keeps (keeps_rolling w _ _) rfl rfl, hfree]
      exact hm
    · rw [hj, if_neg (by rw [imageValid_of_keeps hk rfl, hv]; decide), setFwResult_sys]
      exact ⟨rfl, congrArg (·.roll) hsys⟩

end Sys2Proof.Proofs.FirmwareUpdates

/-! SUPPORT. Boot flash's programs, the capture of a header and the switch of the pairs (R458 to R463). -/

namespace Sys2Proof.Proofs.FlashAndSwitches

open Sys2Proof.Machine Sys2Proof.Safety Sys2Proof.Laws Sys2Proof.Proofs.RegisterBehaviour Sys2Proof.Proofs.Captures
  Sys2Proof.Proofs.Lookups Sys2Proof.Proofs.DeviceResets Sys2Proof.Proofs.FirmwareUpdates

/-! ## The registers of boot flash -/

theorem regAt_sysFlData : regAt Reg.sysFlData = some ({ base := 787520, wc := 18446744073709551615 }, 0) := by decide

theorem regAt_sysFlAddr : regAt Reg.sysFlAddr = some ({ base := 787512, rwi := 8388352, live := 18446744073701163263 }, 0) := by
  decide

theorem regAt_sysFwSel : regAt Reg.sysFwSel = some ({ base := 787536, rwi := 7, live := 18446744073709551608 }, 0) := by decide

/-- FL_DATA as it reaches the page buffer. -/
theorem write_flData {s : State} {p : Path} {val : Word} (h : canWrite s p Reg.sysFlData val = true) :
    s.write p Reg.sysFlData val = .next (((s.setLock p false).clearLost p Reg.sysFlData).flWrite val) := by
  refine (write_reaches_wc regAt_sysFlData rfl rfl (by decide) rfl (by decide) rfl h rfl).trans ?_
  simp [State.writeEffect, State.sysEffect, Reg.sysPwrCtl, Reg.sysDbgCtl, Reg.sysLcCmd, Reg.sysRstCmd, Reg.sysFwCmd, Reg.sysFlData,
    Reg.scrivRecSel, Reg.scrivHashIn, Reg.lockZeroize, Reg.lockCmd, Reg.lockKmLock, Reg.lockSlotSel]

/-- FL_ADDR as it reaches the page buffer. -/
theorem writeEffect_flAddr (u : State) (p : Path) (val : Word) (hold : Bool) :
    u.writeEffect { path := p, off := Reg.sysFlAddr, op := .plain, val := val, flashOk := true } hold = u.flSelect := by
  simp [State.writeEffect, State.sysEffect, Reg.sysPwrCtl, Reg.sysDbgCtl, Reg.sysLcCmd, Reg.sysRstCmd, Reg.sysFwCmd, Reg.sysFlData,
    Reg.sysFlAddr, Reg.scrivRecSel, Reg.scrivHashIn, Reg.lockZeroize, Reg.lockCmd, Reg.lockKmLock, Reg.lockSlotSel]

/-- FW_SEL as it reaches the firmware. -/
theorem writeEffect_fwSel (u : State) (p : Path) (val : Word) (hold : Bool) :
    u.writeEffect { path := p, off := Reg.sysFwSel, op := .plain, val := val, flashOk := true } hold =
      u.captureHeader (u.reg Reg.sysFwSel) := by
  simp [State.writeEffect, State.sysEffect, Reg.sysPwrCtl, Reg.sysDbgCtl, Reg.sysLcCmd, Reg.sysRstCmd, Reg.sysFwCmd, Reg.sysFlData,
    Reg.sysFlAddr, Reg.sysFwSel, Reg.scrivRecSel, Reg.scrivHashIn, Reg.lockZeroize, Reg.lockCmd, Reg.lockKmLock, Reg.lockSlotSel]

/-- The bytes of a word, least significant first. -/
theorem leBytes_word (val : Word) (i : Nat) (hi : i < 8) : (leBytes 8 val.toNat)[i]? = some (val.extractLsb' (8 * i) 8) := by
  simp only [leBytes, List.getElem?_map, List.getElem?_range hi, Option.map_some, Option.some.injEq]
  apply BitVec.eq_of_toNat_eq
  simp only [BitVec.toNat_ofNat, BitVec.extractLsb'_toNat, Nat.shiftRight_eq_div_pow]
  rw [Nat.pow_mul, show (2 : Nat) ^ 8 = 256 from rfl, Nat.mod_mod]

/-- What FL_DATA leaves of the page buffer. -/
theorem flWrite_read (s : State) (val : Word) (a : Nat) : Memory.read 0#8 (s.flWrite val).sys.pageBuf a =
    if 8 * s.sys.bufIdx ≤ a ∧ a < 8 * s.sys.bufIdx + 8 then (((leBytes 8 val.toNat))[a - 8 * s.sys.bufIdx]?).getD 0#8
    else Memory.read 0#8 s.sys.pageBuf a := by
  have hlen : (leBytes 8 val.toNat).length = 8 := by simp [leBytes]
  refine (read_writeRun _ _ _ _ _).trans ?_
  rw [hlen]

/-! ## The program of a page -/

theorem readRun_get (b : Byte) (m : Memory) (a n : Nat) {i : Nat} (hi : i < n) :
    (Memory.readRun b m a n)[i]? = some (Memory.read b m (a + i)) := by
  induction n generalizing a i with
  | zero => omega
  | succ n ih =>
    cases i with
    | zero => rfl
    | succ i =>
      rw [Memory.readRun, List.getElem?_cons_succ, ih (a + 1) (by omega), Nat.add_right_comm, Nat.add_assoc]

theorem readRun_length (b : Byte) (m : Memory) (a n : Nat) : (Memory.readRun b m a n).length = n := by
  induction n generalizing a with
  | zero => rfl
  | succ n ih => rw [Memory.readRun, List.length_cons, ih]

theorem setFwResult_flash (s : State) (r a : Nat) : (s.setFwResult r).flashRead a = s.flashRead a := by
  simp only [State.flashRead, setFwResult_sys]

/-! ## The erasure of a slot -/

theorem slotAt_iff {a n : Nat} : slotAt a = some n ↔ n < 8 ∧ slotBase n ≤ a ∧ a < slotBase n + 0x400000 := by
  unfold slotAt slotBase
  split
  · rw [Option.some.injEq]
    omega
  · simp only [reduceCtorEq, false_iff]
    omega

theorem find?_set_other {α : Type} [DecidableEq α] (d : Nat → α) (t : Table α) {k j : Nat} (v : α) (h : j ≠ k) :
    Table.find? j (Table.set d t k v) = Table.find? j t := by
  unfold Table.set
  split
  · rw [find?_erase, if_neg h]
  · rw [find?_insert, if_neg h]

/-- Bytes written to boot flash leave the entries outside their run. -/
theorem flashPut_find (s : State) (a : Nat) (bs : List Byte) {c : Nat} (h : c < a ∨ a + bs.length ≤ c) :
    Table.find? c (s.flashPut a bs).sys.flash = Table.find? c s.sys.flash := by
  induction bs generalizing s a with
  | nil => rfl
  | cons b bs ih =>
    rw [List.length_cons] at h
    rw [State.flashPut, ih _ _ (by omega)]
    exact find?_set_other _ _ _ (by omega)

theorem recorded_flash (s : State) (r : BootRecord) (n : Nat) : (recorded s r n).sys.flash = s.sys.flash := rfl

/-- A new boot record leaves the entries outside its sectors. -/
theorem setRecord_find {s : State} (hr : s.sys.recordAt < 4096) (r : BootRecord) {c : Nat} (h : c < 0x20000 ∨ 0x40000 ≤ c) :
    Table.find? c (s.setRecord r).sys.flash = Table.find? c s.sys.flash := by
  by_cases hrec : r = s.sys.record
  · rw [State.setRecord, if_pos hrec]
  · rw [setRecord_put hrec, recorded_flash, flashPut_find (sectorReady s) _ _ (by rw [bytes_length]; omega)]
    unfold sectorReady
    split
    · refine (find?_filter (fun i => decide (i < _) || decide (_ ≤ i)) s.sys.flash c).trans (if_pos ?_)
      simp only [Bool.or_eq_true, decide_eq_true_eq]
      omega
    · rfl

/-- An address outside a slot reads as before whether or not the slot's erase had failed. -/
theorem flashDefault_other (lost : Table Nat) {a n : Nat} (h : slotAt a ≠ some n) :
    flashDefault (Table.erase n lost) a = flashDefault lost a := by
  unfold flashDefault
  cases hs : slotAt a with
  | none => rfl
  | some m =>
    have hm : m ≠ n := fun hc => h (hc ▸ hs)
    simp only [find?_erase, if_neg hm]

theorem flashDefault_erased (lost : Table Nat) {a n : Nat} (h : slotAt a = some n) : flashDefault (Table.erase n lost) a = 0xFF#8 := by
  simp only [flashDefault, h, find?_erase, if_true]

/-- The state in which a slot is erased and forgotten by the boot record. -/
def slotForgotten (s : State) (n : Nat) : State :=
  (s.flashErase (slotBase n) 0x400000).setRecord ((s.flashErase (slotBase n) 0x400000).sys.record.forget n)

/-- The state in which a slot's failed erases are forgotten too. -/
def slotClean (s : State) (n : Nat) : State := { s with sys := { s.sys with flashLost := Table.erase n s.sys.flashLost } }

theorem fwErase_done {s : State} {n : Nat} (h : s.slotInUse n = false) :
    s.fwErase n true = (slotClean (slotForgotten s n) n).setFwResult 1 := by
  simp [State.fwErase, h, slotForgotten, slotClean]

/-- What an erase of a slot leaves of boot flash. -/
theorem fwErase_read {s : State} {n : Nat} (hn : n < 8) (hr : s.sys.recordAt < 4096) (a : Nat) :
    (slotAt a = some n → (slotClean (slotForgotten s n) n).flashRead a = 0xFF#8) ∧
    (slotAt a ≠ some n → a < 0x20000 ∨ 0x40000 ≤ a → (slotClean (slotForgotten s n) n).flashRead a = s.flashRead a) := by
  have hlost : (slotForgotten s n).sys.flashLost = s.sys.flashLost := by
    obtain ⟨q, m, f, he⟩ := setRecord_eq (s.flashErase (slotBase n) 0x400000) ((s.flashErase (slotBase n) 0x400000).sys.record.forget n)
    rw [slotForgotten, he]
    rfl
  refine ⟨fun ha => ?_, fun ha hout => ?_⟩
  · obtain ⟨-, h1, h2⟩ := slotAt_iff.mp ha
    have hout : a < 0x20000 ∨ 0x40000 ≤ a := by
      unfold slotBase at h1
      omega
    have hfind : Table.find? a (slotForgotten s n).sys.flash = none := by
      refine (setRecord_find (s := s.flashErase (slotBase n) 0x400000) hr _ hout).trans ?_
      refine (find?_filter (fun i => decide (i < slotBase n) || decide (slotBase n + 0x400000 ≤ i)) s.sys.flash a).trans (if_neg ?_)
      simp only [Bool.or_eq_true, decide_eq_true_eq]
      omega
    have hget : (slotClean (slotForgotten s n) n).flashRead a = (Table.find? a (slotForgotten s n).sys.flash).getD
        (flashDefault (Table.erase n (slotForgotten s n).sys.flashLost) a) := rfl
    rw [hget, hfind, Option.getD_none, flashDefault_erased _ ha]
  · have hin : ¬ (slotBase n ≤ a ∧ a < slotBase n + 0x400000) := fun hc => ha (slotAt_iff.mpr ⟨hn, hc⟩)
    have hclean : (slotClean (slotForgotten s n) n).flashRead a = (slotForgotten s n).flashRead a := by
      have : (slotClean (slotForgotten s n) n).flashRead a = (Table.find? a (slotForgotten s n).sys.flash).getD
        (flashDefault (Table.erase n (slotForgotten s n).sys.flashLost) a) := rfl
      rw [this, flashDefault_other _ ha]
      rfl
    have hrec := (setRecord_stays (s.flashErase (slotBase n) 0x400000) ((s.flashErase (slotBase n) 0x400000).sys.record.forget n) hr).2 a hout
    rw [hclean]
    exact hrec.trans ((flashErase_read s (slotBase n) 0x400000 a).trans (if_neg hin))

theorem keeps_slotClean {l : List Part} {s t : State} (hf : l.contains .flash = true) (n : Nat) (h : Keeps l s t) :
    Keeps l s (slotClean t n) :=
  Keeps.with_sys (.inr ⟨rfl, rfl, rfl, rfl, rfl, rfl⟩) (.inr ⟨rfl, rfl, rfl, rfl, rfl⟩) (.inr ⟨rfl, rfl, rfl, rfl⟩)
    (.inr (by and_intros <;> rfl)) (.inr (by and_intros <;> rfl)) (.inl hf) (.inr rfl) (.inr ⟨rfl, rfl⟩) h

/-- PROGRAM of a slot's page. -/
theorem fwProgram_page {s : State} {n : Nat} (hc : s.flag Reg.sysFlAddr 22 = false) (hu : s.slotInUse n = false) :
    s.fwProgram n true = (s.flashPut (slotBase n + 256 * s.fld Reg.sysFlAddr 8 14) s.pageBytes).setFwResult 1 := by
  simp only [State.fwProgram, hc, hu, Bool.false_eq_true, if_false, State.programPage, if_true]

/-- What FW_PEEK shows of a slot. -/
def headerShown (s : State) (n : Nat) : Word :=
  pack [(32, s.slotVersion n), (8, s.slotCompat n % 256), (0, b2n (s.imageValid n))]

theorem slotCompat_of_keeps {l : List Part} {s t : State} (h : Keeps l s t) (hf : l.contains .flash = false) (n : Nat) :
    t.slotCompat n = s.slotCompat n := by
  simp only [State.slotCompat, State.header, State.flashNum, flashRun_of_keeps h hf]

theorem pageBytes_get (s : State) {i : Nat} (hi : i < 256) : s.pageBytes[i]? = some (Memory.read 0#8 s.sys.pageBuf i) := by
  rw [State.pageBytes, readRun_get _ _ _ _ hi, Nat.zero_add]

theorem slotInUse_of_keeps {l : List Part} {s t : State} (h : Keeps l s t) (hf : l.contains .flash = false)
    (he : l.contains .engines = false) (hfw : l.contains .firmware = false) (n : Nat) : t.slotInUse n = s.slotInUse n := by
  simp only [State.slotInUse, runningMicrocode_of_keeps h he, slotVersion_of_keeps h hf, Keeps.sys_record h hfw,
    Keeps.sys_runMgmt h hfw, Keeps.sys_runMicro h hfw, Keeps.sys_oldMgmt h hfw, Keeps.sys_oldMicro h hfw, Keeps.sys_roll h hfw,
    Keeps.sys_rollSlot h hfw, Keeps.sys_busyOp h hfw, Keeps.sys_actSlot h hfw]

/-- Settles O59: the page buffer, the programs and the capture. -/
theorem bootFlash : Obligations.BootFlash := by
  intro p val s
  dsimp only
  refine ⟨fun h hi => ?_, fun h => ?_, fun h hop hcfg huse => ?_, fun h hop huse => ?_, fun h => ?_⟩
  · have he := write_flData h
    have hk := keeps_setLock_clearLost s p false Reg.sysFlData
    generalize (s.setLock p false).clearLost p Reg.sysFlData = u at he hk
    have hsys : u.sys = s.sys := Keeps.sys hk rfl rfl rfl rfl rfl rfl rfl rfl
    have hread := flWrite_read u val
    have hidx : (u.flWrite val).sys.bufIdx = (u.sys.bufIdx + 1) % 32 := rfl
    rw [hsys] at hread hidx
    refine ⟨_, he, hidx, fun i hi8 => ?_, fun a ha => ?_, Keeps.step (keeps_flWrite u val) rfl (Keeps.mono hk rfl)⟩
    · rw [hread, if_pos (by omega), show 8 * s.sys.bufIdx + i - 8 * s.sys.bufIdx = i by omega, leBytes_word val i hi8]
      rfl
    · rw [hread, if_neg (by omega)]
  · obtain ⟨u, he, hk, -, -⟩ := write_reaches_rwi regAt_sysFlAddr rfl (by decide) rfl rfl (by decide) rfl (by decide) h rfl
    rw [writeEffect_flAddr] at he
    exact ⟨_, he, rfl, Keeps.step (keeps_flSelect u) rfl (Keeps.mono hk rfl)⟩
  · have he := write_fwCmd h
    have hk := keeps_commanded s p
    generalize commanded s p = u at he hk
    have hsys : u.sys = s.sys := Keeps.sys hk rfl rfl rfl rfl rfl rfl rfl rfl
    have hcfg' : u.flag Reg.sysFlAddr 22 = false := by rw [Keeps.flag hk rfl]; exact hcfg
    have huse' : u.slotInUse (val.field 8 3) = false := by rw [slotInUse_of_keeps hk rfl rfl rfl]; exact huse
    have hpage : u.fld Reg.sysFlAddr 8 14 = s.fld Reg.sysFlAddr 8 14 := Keeps.fld hk rfl _ _ _
    rw [fwCmd_program hop, fwProgram_page hcfg' huse', hpage] at he
    have hread : ∀ a : Nat, u.flashRead a = s.flashRead a := fun a => by rw [State.flashRead, hsys]; rfl
    generalize slotBase (val.field 8 3) + 256 * s.fld Reg.sysFlAddr 8 14 = page at he ⊢
    refine ⟨_, he, by rw [setFwResult_sys], fun i hi => ?_, fun a ha => ?_, Keeps.step (keeps_setFwResult _ _) rfl
      (Keeps.step (keeps_flashPut _ _ _) rfl (Keeps.mono hk rfl))⟩
    · rw [setFwResult_flash, flashPut_read, if_pos (by omega), show page + i - page = i by omega, pageBytes_get u hi, hsys]
      rfl
    · rw [setFwResult_flash, flashPut_read, hread]
      split
      · rw [List.getElem?_eq_none (by rw [State.pageBytes, readRun_length]; omega), Option.getD_none]
      · rfl
  · have he := write_fwCmd h
    have hk := keeps_commanded s p
    generalize commanded s p = u at he hk
    have hsys : u.sys = s.sys := Keeps.sys hk rfl rfl rfl rfl rfl rfl rfl rfl
    have huse' : u.slotInUse (val.field 8 3) = false := by rw [slotInUse_of_keeps hk rfl rfl rfl]; exact huse
    have hn : val.field 8 3 < 8 := Nat.mod_lt _ (by decide)
    have hread : ∀ a : Nat, u.flashRead a = s.flashRead a := fun a => by rw [State.flashRead, hsys]; rfl
    have herase := fun (hr : s.sys.recordAt < 4096) a => fwErase_read (s := u) hn (by rw [hsys]; exact hr) a
    rw [fwCmd_erase hop, fwErase_done huse'] at he
    refine ⟨_, he, by rw [setFwResult_sys], fun hr a ha => ?_, fun hr a ha hout => ?_, Keeps.step (keeps_setFwResult _ _) rfl
      (keeps_slotClean rfl _ (Keeps.step (keeps_setRecord _ _) rfl (Keeps.step (keeps_flashErase _ _ _) rfl (Keeps.mono hk rfl))))⟩
    · rw [setFwResult_flash]
      exact (herase hr a).1 ha
    · rw [setFwResult_flash, ← hread]
      exact (herase hr a).2 ha hout
  · obtain ⟨u, he, hk, hreg, -⟩ := write_reaches_rwi regAt_sysFwSel rfl (by decide) rfl rfl (by decide) rfl (by decide) h rfl
    have hf : (u.reg Reg.sysFwSel).field 0 3 = val.field 0 3 := fld_rwi hreg (by decide)
    rw [writeEffect_fwSel] at he
    refine ⟨_, he, ?_, Keeps.step (keeps_captureHeader u _) rfl (Keeps.mono hk rfl)⟩
    have hc : Keeps [.firmware, .inForce, .locks, .parity] s (u.checkSlot (val.field 0 3)) :=
      Keeps.step (keeps_checkSlot u _) rfl (Keeps.mono hk rfl)
    have hcap : (u.captureHeader (u.reg Reg.sysFwSel)).sys.fwPeek = headerShown (u.checkSlot (val.field 0 3)) (val.field 0 3) := by
      rw [← hf]
      rfl
    rw [hcap, headerShown, slotVersion_of_keeps hc rfl, imageValid_of_keeps hc rfl, slotCompat_of_keeps hc rfl]

end Sys2Proof.Proofs.FlashAndSwitches

/-! SUPPORT. The switch of the pairs, its timeout and its reversal (R459 to R462). -/

namespace Sys2Proof.Proofs.PairRoles

open Sys2Proof.Machine Sys2Proof.Safety Sys2Proof.Laws Sys2Proof.Proofs.Lookups Sys2Proof.Proofs.DeviceResets
  Sys2Proof.Proofs.FirmwareUpdates

/-- The system's unit once the active role has moved to the other pair. -/
theorem switchPair_sys (s : State) (standby : Bool) :
    (s.switchPair standby).sys = { s.sys with pair := 1 - s.sys.pair, standby := standby, switchReq := none } :=
  (Keeps.sys (keeps_raise (State.count { s with sys := { s.sys with pair := 1 - s.sys.pair, standby := standby, switchReq := none } }
    Reg.sysFwHandovers) 17) rfl rfl rfl rfl rfl rfl rfl rfl :)

theorem switchPair_counter (s : State) (standby : Bool) {o : Nat} (h : o < 0x10700 ∨ 0x10c00 ≤ o) :
    (s.switchPair standby).counter o = if o = Reg.sysFwHandovers then satAdd (s.counter Reg.sysFwHandovers) 1 else s.counter o :=
  (raise_counter _ 17 h).trans (count_counter _ _ _)

/-- The record that a reversal of a pair leaves: the pair is rejected. -/
def revertRecord (u : SysUnit) : BootRecord :=
  match u.runMgmt, u.runMicro with
  | some m, some n => u.record.reject m n
  | _, _ => u.record

/-- The state in which the old management image runs again. -/
def oldRuns (s : State) : State := { s with sys := { s.sys with confirmPend := false, runMgmt := s.sys.oldMgmt } }

theorem revertPair_eq (s : State) (standby : Bool) : s.revertPair standby =
    (((oldRuns (s.switchPair standby)).setRecord (revertRecord (s.switchPair standby).sys)).count Reg.sysFwReverts).setFwResult 6 := by
  simp only [State.revertPair, revertRecord, oldRuns] <;> rfl

/-- What a reversal leaves: the other pair, the old management image, and its result. -/
theorem revertPair_reverts (s : State) (standby : Bool) : (s.revertPair standby).sys.pair = 1 - s.sys.pair ∧
    (s.revertPair standby).sys.switchReq = none ∧ (s.revertPair standby).sys.confirmPend = false ∧
    (s.revertPair standby).sys.runMgmt = s.sys.oldMgmt ∧ (s.revertPair standby).sys.fwResult = 6 := by
  have hsw := switchPair_sys s standby
  rw [revertPair_eq, setFwResult_sys]
  generalize s.switchPair standby = u at hsw
  obtain ⟨q, n, f, h⟩ := setRecord_eq (oldRuns u) (revertRecord u.sys)
  rw [h]
  exact ⟨(congrArg (·.pair) hsw :), (congrArg (·.switchReq) hsw :), rfl, (congrArg (·.oldMgmt) hsw :), rfl⟩

theorem revertPair_counter (s : State) (standby : Bool) {o : Nat} (h : o < 0x10700 ∨ 0x10c00 ≤ o) :
    (s.revertPair standby).counter o = if o = Reg.sysFwReverts then satAdd ((s.switchPair standby).counter Reg.sysFwReverts) 1
      else (s.switchPair standby).counter o := by
  have hk : Keeps [.firmware, .flash] (s.switchPair standby)
      ((oldRuns (s.switchPair standby)).setRecord (revertRecord (s.switchPair standby).sys)) :=
    Keeps.step (keeps_setRecord _ _) rfl (Keeps.with_sys (.inr ⟨rfl, rfl, rfl, rfl, rfl, rfl⟩) (.inr ⟨rfl, rfl, rfl, rfl, rfl⟩)
      (.inr ⟨rfl, rfl, rfl, rfl⟩) (.inr (by and_intros <;> rfl)) (.inl rfl) (.inr ⟨rfl, rfl⟩) (.inr rfl) (.inr ⟨rfl, rfl⟩)
      (Keeps.refl _ _))
  rw [revertPair_eq, setFwResult_counter _ _ h, count_counter, Keeps.counter hk rfl, Keeps.counter hk rfl]

/-- The state in which the switch's instant is on record. -/
def switchedAt (s : State) : State := { s with tink := { s.tink with pairAt := s.time.now } }

/-- The state in which an activation awaits its confirmation. -/
def awaiting (s : State) : State :=
  { s with sys := { s.sys with
    oldMgmt := s.sys.runMgmt, runMgmt := some s.sys.actSlot, busyOp := 0, confirmPend := true, confirmRoll := false
    confirmAt := s.time.now + 1000000000 * s.fld Reg.sysFwCtl 0 17 } }

theorem exec_pairSwitch {s : State} (h : s.commandsQuiet = true) {c : SwitchCause} {d : Nat} (hr : s.sys.switchReq = some (c, d)) :
    (c = .activate → exec .pairSwitch s = .next (((switchedAt (awaiting s)).switchPair true).setFwResult 1)) ∧
    (c = .revert → exec .pairSwitch s = .next ((switchedAt s).revertPair true)) ∧
    (c ≠ .activate → c ≠ .revert → exec .pairSwitch s = .next ((switchedAt s).switchPair true)) := by
  refine ⟨fun hc => ?_, fun hc => ?_, fun h1 h2 => ?_⟩
  · subst hc
    simp only [exec, execPairSwitch, h, hr, Bool.not_true, Bool.false_eq_true, if_false, switchedAt, awaiting]
  · subst hc
    simp only [exec, execPairSwitch, h, hr, Bool.not_true, Bool.false_eq_true, if_false, switchedAt]
  · cases c with
    | activate => exact absurd rfl h1
    | revert => exact absurd rfl h2
    | periodic =>
      simp only [exec, execPairSwitch, h, hr, Bool.not_true, Bool.false_eq_true, if_false, switchedAt]
    | fence =>
      simp only [exec, execPairSwitch, h, hr, Bool.not_true, Bool.false_eq_true, if_false, switchedAt]

/-- What becomes of a switch that was not made, by its cause. -/
theorem switchTimeout_of {s : State} {c : SwitchCause} {d : Nat} (hr : s.sys.switchReq = some (c, d)) :
    (c = .activate → exec .switchTimeout s = .next (State.setFwResult { s.advanceTo d with
      sys := { (s.advanceTo d).sys with switchReq := none, standby := true, busyOp := 0 } } 10)) ∧
    (c = .revert → exec .switchTimeout s = .next ((switchedAt (s.advanceTo d)).failCommands.revertPair true)) ∧
    (c ≠ .activate → c ≠ .revert → exec .switchTimeout s = .next { s.advanceTo d with
      sys := { (s.advanceTo d).sys with switchReq := none }
      tink := { (s.advanceTo d).tink with pairRetryAt := (s.advanceTo d).time.now + 3600000000000 } }) := by
  refine ⟨fun hc => ?_, fun hc => ?_, fun h1 h2 => ?_⟩
  · subst hc
    simp only [exec, execSwitchTimeout, hr]
  · subst hc
    simp only [exec, execSwitchTimeout, hr, switchedAt]
  · cases c with
    | activate => exact absurd rfl h1
    | revert => exact absurd rfl h2
    | periodic => simp only [exec, execSwitchTimeout, hr]
    | fence => simp only [exec, execSwitchTimeout, hr]

/-- Settles O60: the switch by its cause, what becomes of one that was not made, and the request of the reversal. -/
theorem pairSwitches : Obligations.PairSwitches := by
  refine ⟨fun c d s hq hr => ?_, fun c d s hr => ?_, fun s hc hr hs => ?_⟩
  · obtain ⟨ha, hv, hp⟩ := exec_pairSwitch hq hr
    by_cases h1 : c = .activate
    · have he := ha h1
      have hk := keeps_execPairSwitch s _ he
      have hsw := switchPair_sys (switchedAt (awaiting s)) true
      have hcnt := switchPair_counter (switchedAt (awaiting s)) true (o := Reg.sysFwHandovers) (by decide)
      have hn := setFwResult_counter ((switchedAt (awaiting s)).switchPair true) 1 (o := Reg.sysFwHandovers) (by decide)
      have hres := setFwResult_sys ((switchedAt (awaiting s)).switchPair true) 1
      rw [hsw] at hres
      exact ⟨_, he, (congrArg (·.pair) hres :), (congrArg (·.switchReq) hres :), hn.trans (hcnt.trans (if_pos rfl)),
        fun _ => ⟨(congrArg (·.confirmPend) hres :), (congrArg (·.runMgmt) hres :), (congrArg (·.oldMgmt) hres :),
          (congrArg (·.fwResult) hres :), (congrArg (·.confirmAt) hres :)⟩,
        fun h2 => absurd (h1.symm.trans h2) (by decide), Keeps.mono hk rfl⟩
    · by_cases h2 : c = .revert
      · have he := hv h2
        have hk := keeps_execPairSwitch s _ he
        obtain ⟨r1, r2, r3, r4, r5⟩ := revertPair_reverts (switchedAt s) true
        have hc1 := switchPair_counter (switchedAt s) true (o := Reg.sysFwHandovers) (by decide)
        have hc2 := switchPair_counter (switchedAt s) true (o := Reg.sysFwReverts) (by decide)
        have hv1 := revertPair_counter (switchedAt s) true (o := Reg.sysFwHandovers) (by decide)
        have hv2 := revertPair_counter (switchedAt s) true (o := Reg.sysFwReverts) (by decide)
        rw [if_pos rfl] at hc1 hv2
        rw [if_neg (by decide)] at hc2 hv1
        refine ⟨_, he, r1, r2, hv1.trans hc1, fun h => absurd h h1, fun _ => ⟨r3, r4, r5, ?_⟩, Keeps.mono hk rfl⟩
        rw [hv2, hc2]
        rfl
      · have he := hp h1 h2
        have hk := keeps_execPairSwitch s _ he
        have hsw := switchPair_sys (switchedAt s) true
        have hcnt := switchPair_counter (switchedAt s) true (o := Reg.sysFwHandovers) (by decide)
        exact ⟨_, he, (congrArg (·.pair) hsw :), (congrArg (·.switchReq) hsw :), hcnt.trans (if_pos rfl), fun h => absurd h h1,
          fun h => absurd h h2, Keeps.mono hk rfl⟩
  · obtain ⟨ha, hv, hp⟩ := switchTimeout_of hr
    by_cases h1 : c = .activate
    · have he := ha h1
      have hk := keeps_execSwitchTimeout s _ he
      have hkr := keeps_setFwResult { s.advanceTo d with
        sys := { (s.advanceTo d).sys with switchReq := none, standby := true, busyOp := 0 } } 10
      have hres := setFwResult_sys { s.advanceTo d with
        sys := { (s.advanceTo d).sys with switchReq := none, standby := true, busyOp := 0 } } 10
      refine ⟨_, he, (congrArg (·.switchReq) hres :), (Keeps.time_now hkr rfl :), fun _ => ⟨(congrArg (·.standby) hres :),
          (congrArg (·.busyOp) hres :), (congrArg (·.fwResult) hres :), (congrArg (·.pair) hres :), Keeps.step hkr rfl ?_⟩,
        fun h => absurd (h1.symm.trans h) (by decide), fun h => absurd (h1.symm.trans h) (by decide), hk⟩
      exact Keeps.with_sys (.inr ⟨rfl, rfl, rfl, rfl, rfl, rfl⟩) (.inr ⟨rfl, rfl, rfl, rfl, rfl⟩)
        (.inr ⟨rfl, rfl, rfl, rfl⟩) (.inr (by and_intros <;> rfl)) (.inl rfl) (.inr ⟨rfl, rfl⟩) (.inr rfl) (.inr ⟨rfl, rfl⟩)
        (Keeps.mono (keeps_advanceTo s d) rfl)
    · by_cases h2 : c = .revert
      · have he := hv h2
        have hk := keeps_execSwitchTimeout s _ he
        have hkf := keeps_failCommands (switchedAt (s.advanceTo d))
        have hkr := keeps_revertPair (switchedAt (s.advanceTo d)).failCommands true
        obtain ⟨r1, r2, r3, r4, -⟩ := revertPair_reverts (switchedAt (s.advanceTo d)).failCommands true
        exact ⟨_, he, r2, (Keeps.time_now hkr rfl).trans (Keeps.time_now hkf rfl), fun h => absurd h h1,
          fun h => absurd (h2.symm.trans h) (by decide),
          fun _ => ⟨r1.trans (congrArg (1 - ·) (Keeps.sys_pair hkf rfl :)), r3, r4.trans (Keeps.sys_oldMgmt hkf rfl :)⟩, hk⟩
      · have he := hp h1 h2
        have hk := keeps_execSwitchTimeout s _ he
        refine ⟨_, he, rfl, rfl, fun h => absurd h h1, fun _ => ⟨rfl, rfl, ?_⟩, fun h => absurd h h2, hk⟩
        exact Keeps.with_tink_sys rfl (.inr ⟨rfl, rfl, rfl, rfl, rfl, rfl⟩) (.inr ⟨rfl, rfl, rfl, rfl, rfl⟩)
          (.inr ⟨rfl, rfl, rfl, rfl⟩) (.inr (by and_intros <;> rfl)) (.inl rfl) (.inr ⟨rfl, rfl⟩) (.inr rfl) (.inr ⟨rfl, rfl⟩)
          (Keeps.mono (keeps_advanceTo s d) rfl)
  · have he : exec .confirmTimeout s = .next (s.advanceTo s.sys.confirmAt).fwRevert := congrArg Host.Outcome.next (if_pos hc)
    rw [fwRevert_requests (s := s.advanceTo s.sys.confirmAt) hc hr hs] at he
    exact ⟨_, he, rfl, rfl, Keeps.with_sys (.inr ⟨rfl, rfl, rfl, rfl, rfl, rfl⟩) (.inr ⟨rfl, rfl, rfl, rfl, rfl⟩)
      (.inr ⟨rfl, rfl, rfl, rfl⟩) (.inr (by and_intros <;> rfl)) (.inl rfl) (.inr ⟨rfl, rfl⟩) (.inr rfl) (.inr ⟨rfl, rfl⟩)
      (Keeps.mono (keeps_advanceTo s _) rfl)⟩

end Sys2Proof.Proofs.PairRoles

/-! SUPPORT. What the operations on NAND blocks leave alone: the Cellar's state beside the store, and of the store the newest
sealed checkpoint and the mark; a block that is bad stays bad, and a page under way stays that page (R364, R377 to R380). -/

namespace Sys2Proof.Proofs.Nand

open Sys2Proof.Machine Sys2Proof.Safety Sys2Proof.Laws Sys2Proof.Proofs.Lookups

/-- The Cellar's unit, but for what an operation on NAND blocks may write. -/
def offNand (c : CellarUnit) : CellarUnit := { c with store := {}, severe := false, nextTarget := 0, program := none }

/-- The store, but for its blocks. -/
def offBlocks (st : Store) : Store := { st with blocks := [], bad := [], lastPages := [] }

/-- What an operation on NAND blocks leaves alone. -/
structure NandStep (s t : State) : Prop where
  unit : offNand t.cellar = offNand s.cellar
  store : offBlocks t.cellar.store = offBlocks s.cellar.store
  bad : s.cellar.store.bad ⊆ t.cellar.store.bad
  page : t.cellar.program.map (·.page) = s.cellar.program.map (·.page)
  flushes : t.counter Reg.cellFlushes = s.counter Reg.cellFlushes

namespace NandStep

theorem refl (s : State) : NandStep s s := ⟨rfl, rfl, List.Subset.refl _, rfl, rfl⟩

theorem trans {s t u : State} (h : NandStep s t) (k : NandStep t u) : NandStep s u :=
  ⟨k.unit.trans h.unit, k.store.trans h.store, List.Subset.trans h.bad k.bad, k.page.trans h.page, k.flushes.trans h.flushes⟩

theorem ite {c : Prop} [Decidable c] {s t u : State} (ht : NandStep s t) (hu : NandStep s u) : NandStep s (if c then t else u) := by
  split
  · exact ht
  · exact hu

theorem foldl {α : Type} {f : State → α → State} (hf : ∀ (u : State) (a : α), NandStep u (f u a)) (l : List α) (s : State) :
    NandStep s (l.foldl f s) := by
  induction l generalizing s with
  | nil => exact refl s
  | cons a l ih => exact (hf s a).trans (ih _)

/-- An operation that leaves the whole Cellar alone. -/
theorem of_cellar {s t : State} (h : t.cellar = s.cellar) (hc : t.counter Reg.cellFlushes = s.counter Reg.cellFlushes) :
    NandStep s t := ⟨by rw [h], by rw [h], by rw [h]; exact List.Subset.refl _, by rw [h], hc⟩

theorem count {s t : State} (h : NandStep s t) {a : Nat} (ha : Reg.cellFlushes ≠ a) : NandStep s (t.count a) :=
  h.trans (of_cellar rfl (by rw [count_counter, if_neg ha]))

theorem modStore {s t : State} (h : NandStep s t) {f : Store → Store} (ho : offBlocks (f t.cellar.store) = offBlocks t.cellar.store)
    (hb : t.cellar.store.bad ⊆ (f t.cellar.store).bad) : NandStep s (t.modStore f) :=
  h.trans ⟨rfl, ho, hb, rfl, rfl⟩

theorem modBlock {s t : State} (h : NandStep s t) (b : Nat) (f : Block → Block) :
    NandStep s (t.modStore (fun st => st.modBlock b f)) := h.modStore rfl (List.Subset.refl _)

theorem st {s t : State} (h : NandStep s t) : t.cellar.st = s.cellar.st := congrArg (·.st) h.unit
theorem flush {s t : State} (h : NandStep s t) : t.cellar.flush = s.cellar.flush := congrArg (·.flush) h.unit
theorem heldRecs {s t : State} (h : NandStep s t) : t.cellar.heldRecs = s.cellar.heldRecs := congrArg (·.heldRecs) h.unit
theorem checkpoint {s t : State} (h : NandStep s t) : t.cellar.checkpoint = s.cellar.checkpoint := congrArg (·.checkpoint) h.unit
theorem degraded {s t : State} (h : NandStep s t) : t.cellar.degraded = s.cellar.degraded := congrArg (·.degraded) h.unit
theorem ckptBase {s t : State} (h : NandStep s t) : t.cellar.ckptBase = s.cellar.ckptBase := congrArg (·.ckptBase) h.unit
theorem sealedId {s t : State} (h : NandStep s t) : t.cellar.store.sealedId = s.cellar.store.sealedId := congrArg (·.sealedId) h.store
theorem mark {s t : State} (h : NandStep s t) : t.cellar.store.mark = s.cellar.store.mark := congrArg (·.mark) h.store

end NandStep

/-- A page under way is that page after the operation. -/
theorem NandStep.program {s t : State} (h : NandStep s t) {q : PageProgram} (hq : s.cellar.program = some q) :
    ∃ r : PageProgram, t.cellar.program = some r ∧ r.page = q.page := by
  have hp := h.page
  rw [hq] at hp
  exact Option.map_eq_some_iff.mp hp

/-! ## One operation after the other -/

theorem cellarSevere_step (s : State) : NandStep s s.cellarSevere := by
  have hr : ∀ r : Nat, reactAllowed 298 r = (r == 0) := fun r => by simp [reactAllowed]
  refine NandStep.trans (t := { s with cellar := { s.cellar with severe := true } }) ⟨rfl, rfl, List.Subset.refl _, rfl, rfl⟩
    (NandStep.of_cellar ?_ ?_)
  · exact Keeps.cellar (keeps_unitFault _ _ _) rfl rfl
  · exact unitFault_none_counter hr (by decide) (by decide) (by decide) (by decide) _ 0

theorem readPage_step (s : State) (b : Nat) (r : PageRead) : NandStep s (s.readPage b r) := by
  have hr : ∀ r : Nat, reactAllowed 297 r = (r == 0) := fun r => by simp [reactAllowed]
  have hn : ∀ (u : State) (a n : Nat), Reg.cellFlushes ≠ a → NandStep u (u.countN a n) := fun u a n ha =>
    NandStep.of_cellar rfl (by simp [State.counter, State.countN, ha])
  have hs := (((NandStep.refl s).modBlock b (fun k => { k with reads := k.reads + 1 })).trans
    (hn _ Reg.cellEccCorr (r.words.filter (fun w => !w.lost && decide (0 < w.bits))).length (by decide))).trans
    (hn _ Reg.cellRetries (r.words.map (·.retries)).sum (by decide))
  refine NandStep.ite ((hs.trans (hn _ Reg.cellEccFail (max (r.words.filter (·.lost)).length 1) (by decide))).trans (NandStep.of_cellar ?_ ?_)) hs
  · exact Keeps.cellar (keeps_unitFault _ _ _) rfl rfl
  · exact unitFault_none_counter hr (by decide) (by decide) (by decide) (by decide) _ 0

theorem putPage_step (s : State) (g : NandGeometry) (b : Nat) (p : StorePage) : NandStep s (s.putPage g b p) :=
  ⟨rfl, rfl, List.Subset.refl _, rfl, rfl⟩

theorem badBlock_step (s : State) (g : NandGeometry) (b : Nat) (worn : Bool) : NandStep s (s.badBlock g b worn) := by
  have hb := (NandStep.refl s).modStore (f := fun st =>
    { (st.modBlock b (fun k => { k with role := .bad, pages := [] })) with bad := setInsert b st.bad }) rfl
    (fun n h => (mem_setInsert _ _ _).mpr (.inr h))
  have hc := hb.count (a := if worn then Reg.cellWorn else Reg.cellGrownBad) (by cases worn <;> decide)
  exact NandStep.ite (hc.trans (cellarSevere_step _)) hc

theorem badBlock_bad (s : State) (g : NandGeometry) (b : Nat) (worn : Bool) : b ∈ (s.badBlock g b worn).cellar.store.bad := by
  have h : b ∈ setInsert b s.cellar.store.bad := (mem_setInsert _ _ _).mpr (.inl rfl)
  unfold State.badBlock
  lift_lets -underBinder
  intro u v st
  have hv : b ∈ v.cellar.store.bad := h
  clear_value v
  split
  · exact (cellarSevere_step v).bad hv
  · exact hv

theorem eraseBlock_step (s : State) (g : NandGeometry) (b : Nat) : NandStep s (s.eraseBlock g b) := by
  have he := ((NandStep.refl s).modBlock b (fun k => { k with erases := k.erases + 1, reads := 0, pages := [] })).count
    (a := Reg.cellErases) (by decide)
  exact NandStep.ite (badBlock_step _ _ _ _) (NandStep.ite (he.trans (badBlock_step _ _ _ _)) he)

theorem claimBlock_step (s : State) (g : NandGeometry) (role : BlockRole) (b : Nat) : NandStep s (s.claimBlock g role b).1 := by
  unfold State.claimBlock
  dsimp only
  have he : NandStep s (if (s.cellar.store.block b).pages = [] then s else s.eraseBlock g b) :=
    NandStep.ite (NandStep.refl s) (eraseBlock_step _ _ _)
  generalize (if (s.cellar.store.block b).pages = [] then s else s.eraseBlock g b) = u at he
  split
  · exact he
  · split
    · exact he.trans (badBlock_step _ _ _ _)
    · exact he.modBlock b _

theorem takeBlock_step (s : State) (g : NandGeometry) (role : BlockRole) (k n : Nat) : NandStep s (s.takeBlock g role k n).1 := by
  induction n generalizing s with
  | zero => exact NandStep.refl s
  | succ n ih =>
    unfold State.takeBlock
    split
    · exact NandStep.refl s
    · rename_i b _
      have hc := claimBlock_step s g role b
      dsimp only
      split
      · exact hc
      · exact hc.trans (ih _)

theorem copyPages_step (s : State) (g : NandGeometry) (b n : Nat) (pages : List StorePage) : NandStep s (s.copyPages g b n pages) := by
  have hf := ((NandStep.refl s).modBlock b (fun k => { k with reads := k.reads + pages.length })).trans
    (NandStep.foldl (f := fun u p => u.putPage g n p) (fun u p => putPage_step u g n p) pages _)
  refine hf.trans ⟨rfl, rfl, List.Subset.refl _, ?_, rfl⟩
  refine (Option.map_map _ _ _).trans (congrArg (fun f => Option.map f _) (funext fun q => ?_))
  simp only [Function.comp]
  split <;> rfl

theorem retireBlock_step (s : State) (g : NandGeometry) (b : Nat) (pages : List StorePage) : NandStep s (s.retireBlock g b pages) := by
  have hb := badBlock_step s g b false
  unfold State.retireBlock
  dsimp only
  split
  · exact hb
  · have ht := hb.trans (takeBlock_step (s.badBlock g b false) g (s.cellar.store.block b).role (b / g.blocks) g.total)
    split <;> rename_i h <;> rw [h] at ht
    · exact ht.trans (copyPages_step _ _ _ _ _)
    · exact ht.trans (cellarSevere_step _)

theorem retireBlock_bad (s : State) (g : NandGeometry) (b : Nat) (pages : List StorePage) :
    b ∈ (s.retireBlock g b pages).cellar.store.bad := by
  have hb := badBlock_bad s g b false
  unfold State.retireBlock
  dsimp only
  split
  · exact hb
  · have ht := (takeBlock_step (s.badBlock g b false) g (s.cellar.store.block b).role (b / g.blocks) g.total).bad hb
    split <;> rename_i h <;> rw [h] at ht
    · exact (copyPages_step _ _ _ _ _).bad ht
    · exact (cellarSevere_step _).bad ht

/-! ## Roots, moves and the settling of the NAND -/

theorem putRoot_step (s : State) (g : NandGeometry) (b : Nat) : NandStep s (s.putRoot g b) :=
  ((NandStep.refl s).modBlock b _).trans (putPage_step _ _ _ _)

theorem updateRoot_step (s : State) (g : NandGeometry) (n : Nat) : NandStep s (s.updateRoot g n) := by
  induction n generalizing s with
  | zero => exact NandStep.refl s
  | succ n ih =>
    unfold State.updateRoot
    dsimp only
    split
    · exact NandStep.refl s
    · rename_i b _
      have he := eraseBlock_step s g b
      exact NandStep.ite ((badBlock_step _ _ _ _).trans (ih _)) (NandStep.ite (putRoot_step _ _ _)
        (NandStep.ite (NandStep.ite (he.trans (ih _)) (he.trans (putRoot_step _ _ _))) (NandStep.refl s)))

theorem refreshRoot_step (s : State) (g : NandGeometry) : NandStep s (s.refreshRoot g) := by
  unfold State.refreshRoot
  dsimp only
  split
  · exact NandStep.ite (NandStep.refl s) (updateRoot_step _ _ _)
  · exact updateRoot_step _ _ _

theorem rewriteRoot_step (s : State) (g : NandGeometry) (b : Nat) : NandStep s (s.rewriteRoot g b) := by
  have hu : NandStep s (if (g.roots.map s.cellar.store.rootNumber).foldl max 0 = s.cellar.store.rootNumber b then s.updateRoot g 3 else s) :=
    NandStep.ite (updateRoot_step _ _ _) (NandStep.refl s)
  unfold State.rewriteRoot
  dsimp only
  generalize (if (g.roots.map s.cellar.store.rootNumber).foldl max 0 = s.cellar.store.rootNumber b then s.updateRoot g 3 else s) = u at hu
  have he := hu.trans (eraseBlock_step u g b)
  exact NandStep.ite (NandStep.ite he (he.trans (putRoot_step _ _ _))) (NandStep.refl s)

theorem moveTo_step (s : State) (g : NandGeometry) (b n : Nat) : NandStep s (s.moveTo g b n) :=
  (copyPages_step _ _ _ _ _).modBlock b _

theorem moveBlock_step (s : State) (g : NandGeometry) (b : Nat) : NandStep s (s.moveBlock g b) := by
  unfold State.moveBlock
  dsimp only
  split
  · exact rewriteRoot_step _ _ _
  · have ht := takeBlock_step s g (s.cellar.store.block b).role (b / g.blocks) g.total
    split <;> rename_i h <;> rw [h] at ht
    · exact ht.trans (moveTo_step _ _ _ _)
    · exact ht

theorem disturbCheck_step (s : State) (g : NandGeometry) (b : Nat) : NandStep s (s.disturbCheck g b) :=
  NandStep.ite ((moveBlock_step s g b).count (by decide)) (NandStep.refl s)

theorem readyTarget_step (s : State) (g : NandGeometry) (k n : Nat) : NandStep s (s.readyTarget g k n) := by
  induction n generalizing s with
  | zero => exact NandStep.refl s
  | succ n ih =>
    unfold State.readyTarget
    dsimp only
    refine NandStep.ite (NandStep.refl s) ?_
    split
    · exact NandStep.refl s
    · exact (eraseBlock_step _ _ _).trans (ih _)

theorem readyBlocks_step (s : State) (g : NandGeometry) : NandStep s (s.readyBlocks g) :=
  NandStep.foldl (fun u k => readyTarget_step u g k _) _ s

theorem settleNand_step (s : State) (g : NandGeometry) : NandStep s (s.settleNand g) :=
  ((NandStep.foldl (fun u b => disturbCheck_step u g b) _ s).trans (readyBlocks_step _ g)).trans (refreshRoot_step _ g)

theorem levelWear_step (s : State) (g : NandGeometry) : NandStep s (s.levelWear g) := by
  unfold State.levelWear
  dsimp only
  refine NandStep.ite (NandStep.refl s) ?_
  split
  · rename_i b n _ _
    have hc := claimBlock_step s g (s.cellar.store.block b).role n
    exact NandStep.ite (((hc.trans (moveTo_step _ _ _ _)).count (by decide)).trans (settleNand_step _ _)) hc
  · exact NandStep.refl s

/-! ## Places and programs -/

theorem nextPlace_step (s : State) (g : NandGeometry) (role : BlockRole) (k : Nat) : NandStep s (s.nextPlace g role k).1 := by
  have h1 : NandStep s { s with cellar := { s.cellar with nextTarget := (s.cellar.nextTarget % g.nTargets + 1) % g.nTargets } } :=
    ⟨rfl, rfl, List.Subset.refl _, rfl, rfl⟩
  unfold State.nextPlace
  dsimp only
  split
  · exact h1
  · exact h1.trans (takeBlock_step _ _ _ _ _)

theorem programStore_step (s : State) (g : NandGeometry) (role : BlockRole) (k : Nat) (p : StorePage) (n : Nat) :
    NandStep s (s.programStore g role k p n).1 := by
  induction n generalizing s with
  | zero => exact NandStep.refl s
  | succ n ih =>
    have hp := nextPlace_step s g role k
    unfold State.programStore
    split <;> rename_i h <;> rw [h] at hp
    · exact hp
    · split
      · exact (hp.trans (retireBlock_step _ _ _ _)).trans (ih _)
      · exact hp.trans (putPage_step _ _ _ _)

theorem flushPages_step (s : State) (g : NandGeometry) (ls : List (List StoreRec)) : NandStep s (s.flushPages g ls) := by
  induction ls generalizing s with
  | nil => exact NandStep.refl s
  | cons l ls ih =>
    have hp := programStore_step s g .journal 0 (storePage 3 s.cellar.store.sealedId false s.cellar.store.mark 0 l) g.total
    exact (NandStep.ite (hp.count (a := Reg.cellJpages) (by decide)) hp).trans (ih _)

end Sys2Proof.Proofs.Nand

/-! SUPPORT. The flush buffer, journal pages and their programs (R370, R371, R377). -/

namespace Sys2Proof.Proofs.Journal

open Sys2Proof.Machine Sys2Proof.Safety Sys2Proof.Laws Sys2Proof.Proofs.Nand

/-- The Cellar while a command runs during which programs and erases fail on some blocks. -/
def failingOn (s : State) (l : List Nat) : State := { s with cellar := { s.cellar with failing := l } }

theorem withFailing_eq (s : State) (l : List Nat) (run : State → State) :
    s.withFailing l run = failingOn (run (failingOn s l)) [] := rfl

theorem fillBucket_failingOn (s : State) (l : List Nat) : (failingOn s l).fillBucket = failingOn s.fillBucket l := by
  have h : (failingOn s l).cellar.st = s.cellar.st := rfl
  unfold State.fillBucket
  rw [h]
  split <;> rfl

/-- Filling the bucket changes its level and the instant of its last fill alone. -/
theorem fillBucket_fields (s : State) : s.fillBucket.cellar.flush = s.cellar.flush ∧ s.fillBucket.cellar.heldRecs = s.cellar.heldRecs ∧
    s.fillBucket.cellar.store = s.cellar.store ∧ s.fillBucket.cellar.nextTarget = s.cellar.nextTarget ∧
    s.fillBucket.cellar.geom = s.cellar.geom := by
  simp only [State.fillBucket]
  split
  · exact ⟨rfl, rfl, rfl, rfl, rfl⟩
  · exact ⟨rfl, rfl, rfl, rfl, rfl⟩

/-- The page that a journal program takes, and the program in block b. -/
def journalPage (s : State) (g : NandGeometry) (b : Nat) : PageProgram :=
  { target := b / g.blocks, block := b
    page := storePage 3 s.cellar.store.sealedId false s.cellar.store.mark 0 ((s.cellar.flush.take g.perPage).map (·.1)) }

/-- The state in which a journal page has begun in the open block b of the next target. -/
def pageBegun (s : State) (g : NandGeometry) (b : Nat) : State :=
  { s with cellar := { s.cellar with
    nextTarget := (s.cellar.nextTarget % g.nTargets + 1) % g.nTargets
    flush := s.cellar.flush.drop g.perPage, program := some (journalPage s g b) } }

theorem journalBegin_open {s : State} {g : NandGeometry} {b : Nat} (c : Bool)
    (h : s.cellar.store.openBlock g .journal 0 (s.cellar.nextTarget % g.nTargets) = some b) :
    s.journalBegin g c = ((((pageBegun s g b).countIf c Reg.cellOverdraftPages).spend g.pageBytes).drainHeld).levelWear g := by
  simp only [State.journalBegin, State.nextPlace, h, Option.isNone_some, Bool.false_and, Bool.false_eq_true, if_false, pageBegun,
    journalPage]

/-- Paying for a page changes the bucket's level alone of the Cellar. -/
theorem spend_cellar (s : State) (n : Nat) :
    (s.spend n).cellar = { s.cellar with tokens := s.cellar.tokens - 1000000 * n } :=
  (Keeps.cellar (keeps_raiseIf { s with cellar := { s.cellar with tokens := s.cellar.tokens - 1000000 * n } } _ _) rfl rfl :)

/-- With no record held back there is nothing to drain. -/
theorem drainHeld_none {s : State} (h : s.cellar.heldRecs = []) :
    s.drainHeld.cellar.flush = s.cellar.flush ∧ s.drainHeld.cellar.program = s.cellar.program := by
  simp only [State.drainHeld, h, List.take_nil, List.foldl_nil]
  split
  · exact ⟨rfl, rfl⟩
  · exact ⟨rfl, rfl⟩

theorem countIf_cellar (s : State) (c : Bool) (a : Nat) : (s.countIf c a).cellar = s.cellar := by
  cases c <;> rfl

/-- A page begun in an open block takes the oldest records of the buffer, and stays under way. -/
theorem journalBegin_begins {s : State} {g : NandGeometry} {b : Nat} (c : Bool)
    (h : s.cellar.store.openBlock g .journal 0 (s.cellar.nextTarget % g.nTargets) = some b) (hh : s.cellar.heldRecs = []) :
    (∃ q : PageProgram, (s.journalBegin g c).cellar.program = some q ∧ q.page = (journalPage s g b).page) ∧
    (s.journalBegin g c).cellar.flush = s.cellar.flush.drop g.perPage := by
  have hc : (((pageBegun s g b).countIf c Reg.cellOverdraftPages).spend g.pageBytes).cellar =
      { (pageBegun s g b).cellar with tokens := (pageBegun s g b).cellar.tokens - 1000000 * g.pageBytes } := by
    rw [spend_cellar, countIf_cellar]
  rw [journalBegin_open c h]
  generalize ((pageBegun s g b).countIf c Reg.cellOverdraftPages).spend g.pageBytes = u at hc
  obtain ⟨hf, hp⟩ := drainHeld_none (s := u) ((congrArg (·.heldRecs) hc).trans hh)
  exact ⟨(levelWear_step _ g).program (hp.trans (congrArg (·.program) hc)),
    (levelWear_step _ g).flush.trans (hf.trans (congrArg (·.flush) hc))⟩

/-- A page programmed lies at the end of its block, with the block's erase count. -/
theorem putPage_pages (s : State) (g : NandGeometry) (b : Nat) (p : StorePage) : ((s.putPage g b p).cellar.store.block b).pages =
    (s.cellar.store.block b).pages ++ [{ p with erases := s.cellar.store.eraseCount b }] := by
  simp [State.putPage, State.modStore, State.emit, Store.modBlock, Store.block]

theorem putBack_store (s : State) (l : List StoreRec) : (s.putBack l).cellar.store = s.cellar.store := rfl

/-- The state in which no page program is under way. -/
def noProgram (s : State) : State := { s with cellar := { s.cellar with program := none } }

/-- The program of a page that failed goes on in a block taken for it, or ends. -/
def programAgain (s : State) (g : NandGeometry) (q : PageProgram) : State :=
  match s.takeBlock g .journal q.target g.total with
  | (s, some b) => { s with cellar := { s.cellar with program := some { q with target := b / g.blocks, block := b } } }
  | (s, none) => (noProgram s).cellarSevere.putBack q.page.recs

theorem programAgain_bad (s : State) (g : NandGeometry) (q : PageProgram) :
    s.cellar.store.bad ⊆ (programAgain s g q).cellar.store.bad := by
  have ht := (takeBlock_step s g .journal q.target g.total).bad
  unfold programAgain
  split <;> rename_i h <;> rw [h] at ht
  · exact ht
  · rw [putBack_store]
    exact List.Subset.trans ht (cellarSevere_step (noProgram _)).bad

theorem pageProgramDone_failed {s : State} {g : NandGeometry} {q : PageProgram} (failing : List Nat) (hg : s.cellar.geom = some g)
    (hq : s.cellar.program = some q) (hb : s.cellar.store.bad.contains q.block = false) :
    exec (.pageProgramDone q.target false failing) s = .next (failingOn ((programAgain ((failingOn s failing).retireBlock g q.block
      (s.cellar.store.block q.block).pages) g q).settleNand g) []) := by
  simp only [exec, execPageProgramDone, hg, hq, ne_eq, not_true_eq_false, if_false, Bool.false_and, Bool.false_eq_true,
    withFailing_eq, programAgain, noProgram, failingOn, hb] <;> rfl

/-- Settles O48: a page under way stays that page through every move of its block (`NandStep`), and a bad block stays bad. -/
theorem journalPages : Obligations.JournalPages := by
  unfold Obligations.JournalPages
  refine ⟨fun x r s hf => ?_, fun g s hg hd ht hh ho => ?_, fun g q s hg hq hb => ⟨fun failing hst => ?_, fun failing => ?_⟩⟩
  · refine ⟨_, by simp only [exec, execBatchExpire, hf], rfl, ?_, keeps_advanceTo _ _⟩
    simp only [State.batchDue, State.advanceTo, hf]
    exact decide_eq_true (le_max_right _ _)
  · obtain ⟨b, hb⟩ := Option.isSome_iff_exists.mp ho
    obtain ⟨hfl, hhe, hst, hnt, -⟩ := fillBucket_fields s
    have hx : exec (.journalPageProgram []) s = .next (failingOn ((failingOn s.fillBucket []).journalBegin g false) []) := by
      have hd' : (failingOn s.fillBucket []).journalDue g = true := hd
      simp only [exec, execJournalPageProgram, hg, withFailing_eq, fillBucket_failingOn, hd', Bool.not_true, Bool.false_eq_true, if_false]
      rw [if_pos (show _ ≤ (failingOn s.fillBucket []).cellar.tokens from ht)]
    have hb' : (failingOn s.fillBucket []).cellar.store.openBlock g .journal 0 ((failingOn s.fillBucket []).cellar.nextTarget % g.nTargets) =
        some b := by
      show s.fillBucket.cellar.store.openBlock g .journal 0 (s.fillBucket.cellar.nextTarget % g.nTargets) = some b
      rw [hst, hnt, hb]
    obtain ⟨⟨q, hq, hp⟩, hfr⟩ := journalBegin_begins false hb' (hhe.trans hh)
    refine ⟨_, q, hx, hq, by rw [hp]; rfl, by rw [hp, ← hfl]; rfl, hfr.trans (by rw [← hfl]; rfl), keeps_execJournalPageProgram s [] _ hx⟩
  · have hx : exec (.pageProgramDone q.target true failing) s = .next (s.journalProgrammed g q) := by
      have hr : (s.journalProgrammed g q).cellar.st ≠ .running := fun h => absurd (hst.symm.trans h) (by decide)
      simp only [exec, execPageProgramDone, hg, hq, ne_eq, not_true_eq_false, if_false, hb, Bool.not_false, Bool.and_self, if_true, hr,
        false_and, and_false]
    refine ⟨_, hx, rfl, putPage_pages s g q.block q.page, ?_, Keeps.mono (keeps_journalProgrammed s g q) rfl⟩
    show s.cellar.stopPages + (if s.cellar.st = .stopping then 1 else 0) = _
    rw [if_pos hst]
  · have hx := pageProgramDone_failed failing hg hq hb
    exact ⟨_, hx, (settleNand_step _ g).bad (programAgain_bad _ g q (retireBlock_bad _ g q.block _)),
      keeps_execPageProgramDone q.target false s failing _ hx⟩

end Sys2Proof.Proofs.Journal

/-! SUPPORT. Checkpoints begin, are programmed and sealed; a scrub reads a page (R372 to R374, R376, R380); the commands of the
Cellar as they begin (R385). -/

namespace Sys2Proof.Proofs.Checkpoints

open Sys2Proof.Machine Sys2Proof.Safety Sys2Proof.Laws Sys2Proof.Proofs.Nand Sys2Proof.Proofs.Journal Sys2Proof.Proofs.Commands

/-! ## Commands of the Cellar -/

/-- The entry of a CELLAR command has been taken, and its subcommand executes on its ring. -/
def cellarRuns (s : State) (c : CmdEntry) (sub : Nat) : State :=
  (s.takeCommand c 10).modRing c.ep c.ring (fun r => { r with running := r.running.map (fun (x : Running) => { x with arg := sub }) })

theorem startCellarCmd_runs {s : State} {c : CmdEntry} {sub : Nat} (h : runsCommand s c 10 = true) (hh : cmdHeadOk c 0 = true)
    (h1 : c.w1 = BitVec.ofNat 64 sub) (hz : wordsZero [c.w3, c.w4, c.w5, c.w6, c.w7] = true) {w2 : Bool} (h2 : w2 = true)
    (run : State → State) : s.startCellarCmd c sub w2 run = run (cellarRuns s c sub) := by
  simp [State.startCellarCmd, startCommand_runs h, h1, hh, hz, h2, cellarRuns]

theorem keeps_cellarRuns (s : State) (c : CmdEntry) (sub : Nat) : Keeps [.rings, .counters] s (cellarRuns s c sub) :=
  Keeps.step (keeps_modRing _ _ _ _) rfl (Keeps.mono (keeps_takeCommand s c 10) rfl)

theorem cellarRuns_cellar (s : State) (c : CmdEntry) (sub : Nat) : (cellarRuns s c sub).cellar = s.cellar :=
  Keeps.cellar (keeps_cellarRuns s c sub) rfl rfl

theorem cellarRuns_ring (s : State) (c : CmdEntry) (sub : Nat) : (cellarRuns s c sub).ring c.ep c.ring = { s.ring c.ep c.ring with
    devPos := ((s.ring c.ep c.ring).devPos + 1) % (s.ring c.ep c.ring).size
    running := some { cmd := c, opc := 10, inFreeze := s.gen.freeze, swap := false, arg := sub } } := by
  rw [cellarRuns, modRing_ring_same, takeCommand_ring] <;> rfl

theorem executing_cellarRuns (s : State) (c : CmdEntry) (sub : Nat) : Executing s (cellarRuns s c sub) c := by
  rw [Executing, cellarRuns_ring]
  exact ⟨rfl, rfl⟩

/-! ## A checkpoint begins -/

/-- The checkpoint that begins now. -/
def nextCheckpoint (s : State) : Checkpoint := { ckptId := s.cellar.store.sealedId + 1, s := s.cellar.seq }

theorem startCheckpoint_begins {s : State} (forced : Bool) (h : s.cellar.checkpoint = none) :
    (s.startCheckpoint forced).cellar.checkpoint = some (nextCheckpoint s) := by
  simp only [State.startCheckpoint, h, Option.isSome_none, Bool.false_eq_true, if_false, countIf_cellar, nextCheckpoint]

theorem keeps_startCheckpoint_timed (s : State) : Keeps [.cellar] s (s.startCheckpoint false) :=
  Keeps.ite (Keeps.refl _ _) (Keeps.with_cellar (.inr rfl) (.inl rfl) (Keeps.refl _ _))

/-! ## What programming the pages of a checkpoint leaves -/

/-- The checkpoint under way and the newest sealed one stay. -/
structure SealStep (s t : State) : Prop where
  checkpoint : t.cellar.checkpoint = s.cellar.checkpoint
  sealedId : t.cellar.store.sealedId = s.cellar.store.sealedId

theorem SealStep.trans {s t u : State} (h : SealStep s t) (k : SealStep t u) : SealStep s u :=
  ⟨k.checkpoint.trans h.checkpoint, k.sealedId.trans h.sealedId⟩

theorem SealStep.of_nand {s t : State} (h : NandStep s t) : SealStep s t := ⟨h.checkpoint, h.sealedId⟩

theorem fillBucket_seal (s : State) : SealStep s s.fillBucket := by
  unfold State.fillBucket
  split
  · exact ⟨rfl, rfl⟩
  · exact ⟨rfl, rfl⟩

theorem awaitTokens_seal (s : State) (n : Nat) : SealStep s (s.awaitTokens n) :=
  (fillBucket_seal s).trans (SealStep.trans (t := s.fillBucket.advanceTo _) ⟨rfl, rfl⟩ (fillBucket_seal _))

theorem spend_seal (s : State) (n : Nat) : SealStep s (s.spend n) := by
  constructor
  · rw [spend_cellar]
  · rw [spend_cellar]

/-- A page of the checkpoint is counted for STOP. -/
def stopCounted (s : State) (n : Nat) : State := { s with cellar := { s.cellar with stopPages := s.cellar.stopPages + n } }

theorem checkpointPage_seal (s : State) (g : NandGeometry) (k : Nat) (p : StorePage) : SealStep s (s.checkpointPage g k p).1 := by
  have h := (awaitTokens_seal s g.pageBytes).trans (SealStep.of_nand (programStore_step _ g .checkpoint k p g.total))
  unfold State.checkpointPage
  dsimp only
  generalize (s.awaitTokens g.pageBytes).programStore g .checkpoint k p g.total = x at h
  exact h.trans (SealStep.trans (t := stopCounted x.1 (b2n (x.2 && x.1.cellar.st == .stopping))) ⟨rfl, rfl⟩ (spend_seal (stopCounted x.1 (b2n (x.2 && x.1.cellar.st == .stopping))) _))

theorem checkpointPages_seal (s : State) (g : NandGeometry) (k : Nat) (ps : List StorePage) :
    SealStep s (s.checkpointPages g k ps).1 := by
  induction ps generalizing s with
  | nil => exact ⟨rfl, rfl⟩
  | cons p ps ih =>
    have h := checkpointPage_seal s g k p
    unfold State.checkpointPages
    dsimp only
    split
    · exact h.trans (ih _)
    · exact h

theorem sealWrites_seal (s : State) (g : NandGeometry) (k : Checkpoint) : SealStep s (s.sealWrites g k).1 := by
  have ht : ∀ u : State, u.touchAll.cellar = u.cellar := fun u => Keeps.cellar (keeps_touchAll u) rfl rfl
  unfold State.sealWrites
  lift_lets -underBinder
  intro u recs v c w
  have hv : SealStep s v := ⟨(congrArg (·.checkpoint) (ht u)).trans rfl, (congrArg (·.store.sealedId) (ht u)).trans rfl⟩
  have hw : SealStep v w := ⟨rfl, rfl⟩
  exact (hv.trans hw).trans (checkpointPages_seal w g _ _)

theorem readPages_step (s : State) (reads : List PageOutcome) (l : List (Nat × Nat × StorePage)) : NandStep s (s.readPages reads l) := by
  unfold State.readPages
  exact NandStep.foldl (fun u x => readPage_step u x.1 (readOutcome reads x.1 x.2.1)) l s

/-! ## The seal -/

/-- The state in which a checkpoint has become the newest sealed one. -/
def sealedNow (s : State) (k : Checkpoint) : State :=
  let u := s.modStore (fun st => { (st.freeOld k.s k.ckptId (s.cellar.program.map (·.block))) with
    sealedId := k.ckptId, sealedTai := s.tai, mark := k.s })
  { u with cellar := { u.cellar with checkpoint := none, ckptBase := u.time.now, degraded := false, drop := 0, severe := false } }

theorem sealCheckpoint_eq (s : State) (k : Checkpoint) : s.sealCheckpoint k =
    (((sealedNow s k).count Reg.cellCkpts).endCellar 2 0 0 (BitVec.ofNat 64 k.ckptId)).drainHeld := by
  unfold State.sealCheckpoint sealedNow; rfl

/-- Draining the held records changes the two lists of records alone. -/
theorem drainHeld_cellar (s : State) : s.drainHeld.cellar =
    { s.cellar with flush := s.drainHeld.cellar.flush, heldRecs := s.drainHeld.cellar.heldRecs } := by
  unfold State.drainHeld
  split
  · rfl
  · rfl

theorem sealCheckpoint_sealed (s : State) (k : Checkpoint) : (s.sealCheckpoint k).cellar.store.sealedId = k.ckptId ∧
    (s.sealCheckpoint k).cellar.store.mark = k.s ∧ (s.sealCheckpoint k).cellar.checkpoint = none ∧
    (s.sealCheckpoint k).cellar.degraded = false ∧ (s.sealCheckpoint k).cellar.ckptBase = s.time.now := by
  have he : (((sealedNow s k).count Reg.cellCkpts).endCellar 2 0 0 (BitVec.ofNat 64 k.ckptId)).cellar = (sealedNow s k).cellar :=
    (Keeps.cellar (keeps_endCellar ((sealedNow s k).count Reg.cellCkpts) _ _ _ _) rfl rfl :)
  rw [sealCheckpoint_eq, drainHeld_cellar, he]
  exact ⟨rfl, rfl, rfl, rfl, rfl⟩

theorem failingOn_none {s : State} (h : s.cellar.failing = []) : failingOn s [] = s := by
  have hs : s = failingOn s s.cellar.failing := rfl
  rw [h] at hs
  exact hs.symm

/-- The pages of a checkpoint are programmed; it is sealed where every one of them reads correctly. -/
theorem checkpointSeal_programmed {s : State} {g : NandGeometry} {k : Checkpoint} (reads : List PageOutcome)
    (hg : s.cellar.geom = some g) (hk : s.cellar.checkpoint = some k) (hp : s.cellar.pfail = false) (hf : s.cellar.failing = [])
    (hw : (s.sealWrites g k).2 = true) {u : State} (hu : (s.sealWrites g k).1 = u) :
    exec (.checkpointSeal reads []) s = .next (failingOn (if (u.cellar.store.checkpointPlaces k.ckptId).all (fun x =>
        !PageRead.fails (readOutcome reads x.1 x.2.1)) then
      ((u.readPages reads (u.cellar.store.checkpointPlaces k.ckptId)).sealCheckpoint k).settleNand g
      else (u.readPages reads (u.cellar.store.checkpointPlaces k.ckptId)).settleNand g) []) := by
  have hx : s.sealWrites g k = (u, true) := by rw [← hu, ← hw]
  simp only [exec, execCheckpointSeal, hg, hk, hp, Bool.false_eq_true, if_false, withFailing_eq, failingOn_none hf, hx]

theorem readOutcome_nil (b i : Nat) : PageRead.fails (readOutcome [] b i) = false := rfl

/-! ## The scrub -/

theorem readPage_clean {s : State} {b : Nat} {r : PageRead} (h : PageRead.fails r = false) : ∃ n m : Nat, s.readPage b r =
    ((s.modStore (fun st => st.modBlock b (fun k => { k with reads := k.reads + 1 }))).countN Reg.cellEccCorr n).countN Reg.cellRetries m :=
  ⟨_, _, by simp only [State.readPage, h, Bool.false_eq_true, if_false] <;> rfl⟩

/-- A page read clean counts a read of its block, whose pages stay. -/
theorem readPage_block {s : State} {b : Nat} {r : PageRead} (h : PageRead.fails r = false) :
    (s.readPage b r).cellar.store.block b = { s.cellar.store.block b with reads := (s.cellar.store.block b).reads + 1 } := by
  obtain ⟨n, m, e⟩ := readPage_clean (s := s) (b := b) h
  rw [e]
  simp [State.countN, State.modStore, Store.modBlock, Store.block]

theorem keeps_readPage_clean {s : State} {b : Nat} {r : PageRead} (h : PageRead.fails r = false) :
    Keeps [.counters, .store] s (s.readPage b r) := by
  obtain ⟨n, m, e⟩ := readPage_clean (s := s) (b := b) h
  rw [e]
  exact Keeps.step (keeps_countN _ _ _) rfl (Keeps.step (keeps_countN _ _ _) rfl (Keeps.mono (keeps_modStore _ _) rfl))

/-- Settles O49: the checkpoint's own fields pass untouched through every operation on blocks (`NandStep`, `SealStep`). -/
theorem checkpoints : Obligations.Checkpoints := by
  unfold Obligations.Checkpoints
  refine ⟨fun c s hr hh h1 h2 hz hst hc => ?_, fun s hst hc hp => ?_, fun g k s hg hk hp hf hw => ⟨?_, fun reads x hx hfail => ?_⟩,
    fun g b i p anew read failing s hg hn hst hp hfail hbits hreads => ?_⟩
  · have hce := cellarRuns_cellar s c 2
    refine ⟨_, ?_, ?_, Keeps.trans (Keeps.mono (keeps_cellarRuns s c 2) rfl) (Keeps.mono (keeps_startCheckpoint (cellarRuns s c 2) true) rfl)⟩
    · simp only [exec, execCellarCheckpoint]
      rw [startCellarCmd_runs hr hh h1 hz (by rw [h2] <;> rfl), hce, if_pos hst]
    · rw [startCheckpoint_begins true ((congrArg (·.checkpoint) hce).trans hc), nextCheckpoint, hce]
  · have hx : exec .checkpointTimer s =
        .next ((s.advanceTo (s.cellar.ckptBase + 3600000000000 * s.fld Reg.cellCtl 32 16)).startCheckpoint false) := by
      simp only [exec, execCheckpointTimer, hst, hc, hp, Bool.false_eq_true, not_false_eq_true, and_self, if_true]
    have ha := keeps_advanceTo s (s.cellar.ckptBase + 3600000000000 * s.fld Reg.cellCtl 32 16)
    exact ⟨_, hx, (startCheckpoint_begins (s := s.advanceTo _) false hc).trans rfl, (Keeps.time_now (keeps_startCheckpoint_timed _) rfl :),
      Keeps.step (keeps_startCheckpoint_timed _) rfl (Keeps.mono ha rfl)⟩
  · have hx := checkpointSeal_programmed [] hg hk hp hf hw rfl
    rw [if_pos (List.all_eq_true.mpr (fun x _ => by rw [readOutcome_nil] <;> rfl))] at hx
    have hkeep := keeps_execCheckpointSeal s [] [] _ hx
    have hnow := Keeps.time_now (keeps_readPages (s.sealWrites g k).1 []
      ((s.sealWrites g k).1.cellar.store.checkpointPlaces k.ckptId)) rfl
    obtain ⟨h1, h2, h3, h4, h5⟩ := sealCheckpoint_sealed
      ((s.sealWrites g k).1.readPages [] ((s.sealWrites g k).1.cellar.store.checkpointPlaces k.ckptId)) k
    have hn := settleNand_step (((s.sealWrites g k).1.readPages [] ((s.sealWrites g k).1.cellar.store.checkpointPlaces k.ckptId)).sealCheckpoint k) g
    exact ⟨_, hx, hn.sealedId.trans h1, hn.mark.trans h2, hn.checkpoint.trans h3, hn.degraded.trans h4,
      hn.ckptBase.trans (h5.trans hnow), hkeep⟩
  · have hx' := checkpointSeal_programmed reads hg hk hp hf hw rfl
    have hall : ((s.sealWrites g k).1.cellar.store.checkpointPlaces k.ckptId).all (fun x =>
        !PageRead.fails (readOutcome reads x.1 x.2.1)) = false := List.all_eq_false.mpr ⟨x, hx, by simp [hfail]⟩
    simp only [hall, Bool.false_eq_true, if_false] at hx'
    have hs := (sealWrites_seal s g k).trans (SealStep.of_nand ((readPages_step _ reads
      ((s.sealWrites g k).1.cellar.store.checkpointPlaces k.ckptId)).trans (settleNand_step _ g)))
    exact ⟨_, hx', hs.checkpoint.trans hk, hs.sealedId, keeps_execCheckpointSeal s reads [] _ hx'⟩
  · have ha : ∃ v : State, (failingOn s failing).scrubAdvance b i anew = v ∧ Keeps [.clock, .cellar] s v ∧
        v.cellar.store = s.cellar.store := ⟨_, rfl, Keeps.trans (Keeps.with_cellar (.inr rfl) (.inl rfl) (Keeps.refl _ s) : Keeps _ s (failingOn s failing))
          (keeps_scrubAdvance (failingOn s failing) b i anew), rfl⟩
    obtain ⟨v, hv, hkv, hstv⟩ := ha
    have hb := readPage_block (s := v) (b := b) hfail
    have hk := Keeps.trans (Keeps.mono (m := [.clock, .counters, .store, .cellar]) hkv rfl) (Keeps.mono (keeps_readPage_clean (s := v) (b := b) hfail) rfl)
    rw [hstv] at hb
    refine ⟨failingOn (v.readPage b read) [], ?_, (congrArg (·.reads) hb :), (congrArg (·.pages) hb :),
      Keeps.with_cellar (.inl rfl) (.inl rfl) hk⟩
    have hfld : ∀ lo w : Nat, (v.readPage b read).fld Reg.cellMedia lo w = s.fld Reg.cellMedia lo w := fun lo w => Keeps.fld hk rfl _ _ _
    have hlt : ¬ 1000 * s.fld Reg.cellMedia 0 8 ≤ (s.cellar.store.block b).reads + 1 := by omega
    simp only [exec, execScrub, hg, hn, hst, hp, Bool.false_eq_true, or_self, if_false, withFailing_eq, hv, hfail, hfld, hbits, hb, hlt]

end Sys2Proof.Proofs.Checkpoints

/-! SUPPORT. CELLAR START on a ring that is none of the 256 of the two endpoints (R330, R385): the ring number of an entry is any
number in the model, and the end of a CELLAR command is looked for on the rings that there are. -/

namespace Sys2Proof.Proofs.CellarCommands

open Sys2Proof.Machine Sys2Proof.Proofs.Checkpoints

/-- Media of which chip enable 0 of channel 0 is absent: they do not mount. -/
def noMedia : NandGeometry where
  targets := 0
  uniform := true
  luns := 1
  spare := 0
  rawMib := 0
  pageCode := 0
  pages := 0
  blocks := 0
  tprogUs := 0
  slcOk := true
  factoryBad := []
  badRoots := []

/-- CELLAR START, read from ring 300 of endpoint A. -/
def strayStart : CmdEntry where
  ep := .a
  ring := 300
  w0 := 10
  w1 := 0
  w2 := 0
  w3 := 0
  w4 := 0
  w5 := 0
  w6 := 0
  w7 := 0

/-- The block right after reset, with a command ring of that number in which an entry waits. -/
def strayState : State := { rings := [(300, { st := .running, useCtl := 786688, hostPos := 1 })] }

theorem noMedia_mount : strayState.mount noMedia = .inl 1 := by decide

/-- The state in which the command executes, and the media have been found missing. -/
def strayExecuting : State :=
  let s := cellarRuns strayState strayStart 0
  { s with cellar := { s.cellar with noRestore := false, st := .stopped, startHeld := false, heldMedia := none } }

theorem strayStart_exec : exec (.cellarStart strayStart noMedia) strayState = .next (strayExecuting.endCellar 0 5 1 0) := by
  have hr := startCellarCmd_runs (s := strayState) (c := strayStart) (sub := 0) (by decide) (by decide) (by decide) (by decide)
    (w2 := decide (strayStart.w2.toNat < 2)) (by decide)
  simp only [exec, execCellarStart, hr]
  rfl

/-- Where no CELLAR command executes on any of the rings, none ends. -/
theorem endCellar_none {s : State} (h : ∀ r ∈ allRings, (s.ring r.1 r.2).running = none) (sub status detail : Nat) (result : Word) :
    s.endCellar sub status detail result = s := by
  unfold State.endCellar
  generalize allRings = l at h
  induction l with
  | nil => rfl
  | cons r l ih =>
    simp only [List.foldl_cons, h r List.mem_cons_self]
    exact ih (fun r' hr' => h r' (List.mem_cons_of_mem r hr'))

theorem strayExecuting_rings : strayExecuting.rings = [(300, strayExecuting.ring .a 300)] := by decide

theorem strayExecuting_idle : ∀ r ∈ allRings, (strayExecuting.ring r.1 r.2).running = none := by
  intro r hr
  have hk : 128 * r.1.idx + r.2 ≠ 300 := by
    simp only [allRings, List.mem_append, List.mem_map, List.mem_range] at hr
    obtain ⟨k, hk, rfl⟩ | ⟨k, hk, rfl⟩ := hr
    · simp only [Ep.idx]; omega
    · simp only [Ep.idx]; omega
  rw [State.ring, strayExecuting_rings]
  simp [Table.get, Table.find?, Ne.symm hk]

theorem strayStart_runs : (strayExecuting.ring .a 300).running.isSome = true := by decide

/-- Refutes O47: START of media that do not mount, from ring 300, goes on executing, for its end is looked for on rings 0 to 127. -/
theorem not_cellarStates : ¬ Obligations.CellarStates := by
  intro h
  obtain ⟨t, he, -, ⟨hrun, -⟩, -⟩ := (h.1.1 strayStart strayState (by decide) (by decide) (by decide)).2.1 noMedia 1 rfl (by decide)
    rfl rfl noMedia_mount
  rw [strayStart_exec, endCellar_none strayExecuting_idle] at he
  cases he
  have hsome := strayStart_runs
  rw [show strayExecuting.ring .a 300 = strayExecuting.ring strayStart.ep strayStart.ring from rfl, hrun] at hsome
  exact absurd hsome (by decide)

end Sys2Proof.Proofs.CellarCommands

/-! SUPPORT. Power moves, loss of power's warning, the flush and the temperature (R381, R384, R440 to R443, R487). -/

namespace Sys2Proof.Proofs.Power

open Sys2Proof.Machine Sys2Proof.Safety Sys2Proof.Laws Sys2Proof.Proofs.RegisterBehaviour Sys2Proof.Proofs.Captures
  Sys2Proof.Proofs.Rings Sys2Proof.Proofs.DebugSessions Sys2Proof.Proofs.Nand Sys2Proof.Proofs.Journal

/-! ## A TARGET -/

theorem regAt_sysPwrCtl : regAt Reg.sysPwrCtl = some ({ base := 786440, rwi := 3, live := 18446744073709551612, guarded := true }, 0) := by
  decide

theorem writeEffect_pwrCtl (u : State) (p : Path) (val : Word) (hold : Bool) :
    u.writeEffect { path := p, off := Reg.sysPwrCtl, op := .plain, val := val, flashOk := true } hold =
      u.writeTarget (u.fld Reg.sysPwrCtl 0 2) := by
  simp [State.writeEffect, State.sysEffect, Reg.sysPwrCtl, Reg.scrivRecSel, Reg.scrivHashIn, Reg.lockZeroize, Reg.lockCmd,
    Reg.lockKmLock, Reg.lockSlotSel]

/-- A TARGET other than the power state begins the move, where nothing holds it. -/
theorem writeTarget_moves {s : State} {n : Nat} (hp : s.sys.pwr < 2) (hm : s.sys.moving = none) (hb : s.sys.lcBusy = none)
    (hn : n ≠ s.sys.pwr) : s.writeTarget n = { s with sys := { s.sys with moving := some n } } := by
  simp [State.writeTarget, State.requestMove, Nat.not_le.mpr hp, hm, hb, hn]

/-! ## The end of a move -/

theorem heldWakes_none {s : State} (h : s.xcvr.wakeHeld = []) : s.heldWakes = s := by
  have hs : s = { s with xcvr := { s.xcvr with wakeHeld := s.xcvr.wakeHeld } } := rfl
  rw [h] at hs
  simp only [State.heldWakes, h, List.foldl_nil]
  exact hs.symm

/-- A move has ended, with no wake and no TARGET held. -/
def moveEnded (s : State) : State := (State.count { s with sys := { s.sys with moving := none } } Reg.sysPwrMoves).stewPins

theorem endMove_eq {s : State} (hw : s.xcvr.wakeHeld = []) (ht : s.sys.targetHeld = none) : s.endMove = moveEnded s := by
  have hk := keeps_stewPins (State.count { s with sys := { s.sys with moving := none } } Reg.sysPwrMoves)
  have ht' : (moveEnded s).sys.targetHeld = none := (congrArg (·.targetHeld) (Keeps.sys hk rfl rfl rfl rfl rfl rfl rfl rfl) :).trans ht
  rw [State.endMove, heldWakes_none (by exact hw)]
  exact heldTarget_none ht'

theorem moveEnded_sys (s : State) : (moveEnded s).sys = { s.sys with moving := none } :=
  (Keeps.sys (keeps_stewPins (State.count { s with sys := { s.sys with moving := none } } Reg.sysPwrMoves))
    rfl rfl rfl rfl rfl rfl rfl rfl :)

theorem moveEnded_moves (s : State) : (moveEnded s).counter Reg.sysPwrMoves = satAdd (s.counter Reg.sysPwrMoves) 1 :=
  (Keeps.counter (keeps_stewPins _) rfl Reg.sysPwrMoves).trans (by rw [count_counter, if_pos rfl] <;> rfl)

theorem keeps_moveEnded (s : State) : Keeps [.power, .counters, .stew] s (moveEnded s) :=
  Keeps.step (keeps_stewPins _) rfl (Keeps.step (keeps_count _ _) rfl (Keeps.with_sys (.inl rfl) (.inr ⟨rfl, rfl, rfl, rfl, rfl⟩)
    (.inr ⟨rfl, rfl, rfl, rfl⟩) (.inr (by and_intros <;> rfl)) (.inr (by and_intros <;> rfl)) (.inr ⟨rfl, rfl⟩) (.inr rfl)
    (.inr ⟨rfl, rfl⟩) (Keeps.refl _ s)))

/-- The state of a device that has moved between RUN and TRIM. -/
def moved (s : State) (n : Nat) (standby : Bool) : State := { s with sys := { s.sys with pwr := n, standby := standby } }

theorem keeps_moved (s : State) (n : Nat) (standby : Bool) : Keeps [.power, .firmware, .counters, .stew] s (moveEnded (moved s n standby)) :=
  Keeps.step (keeps_moveEnded _) rfl (Keeps.with_sys (.inl rfl) (.inr ⟨rfl, rfl, rfl, rfl, rfl⟩)
    (.inr ⟨rfl, rfl, rfl, rfl⟩) (.inr (by and_intros <;> rfl)) (.inl rfl) (.inr ⟨rfl, rfl⟩) (.inr rfl)
    (.inr ⟨rfl, rfl⟩) (Keeps.refl _ s))

/-- A move between RUN and TRIM ends. -/
theorem moved_ends {s : State} (hw : s.xcvr.wakeHeld = []) (ht : s.sys.targetHeld = none) (n : Nat) (standby : Bool) :
    (moved s n standby).endMove = moveEnded (moved s n standby) := endMove_eq hw ht

/-! ## Both links go down -/

/-- An endpoint whose link goes down. -/
def unlinked (p : Endpoint) : Endpoint := { p with link := false, width := 0, speed := 0 }

theorem linksDown_eq (s : State) : s.linksDown = (s.endpointChange .a unlinked).endpointChange .b unlinked := by
  unfold State.linksDown unlinked; rfl

theorem usable_of_link {s : State} {e : Ep} (h : (s.ep e).link = false) : s.usable e = false := by
  simp [State.usable, Endpoint.usable, h]

theorem endpointChange_unlinked (s : State) (e : Ep) : ((s.endpointChange e unlinked).ep e).link = false :=
  (congrArg (·.link) (endpointChange_ep s e unlinked).1 :)

/-- A change of an endpoint leaves the other's conditions. -/
theorem endpointChange_other (s : State) {d e : Ep} (h : d ≠ e) (f : Endpoint → Endpoint) :
    ((s.endpointChange e f).ep d).link = (s.ep d).link := by
  have ho : ∀ (u : State) (g : Endpoint → Endpoint), (u.modEp e g).ep d = u.ep d := fun u g => by simp [h]
  have hl : ∀ {u v : State}, EpStep u v → (v.ep d).link = (u.ep d).link := fun k => (congrArg (·.link) (k d).1 :)
  unfold State.endpointChange
  dsimp only
  split
  · rw [hl (endpointLost_step _ e), ho, ho]
  · split
    · rw [hl (((postEvent_epStep _ _ _ _).trans (msixFlushAll_epStep _ _)).trans (bellService_epStep _)), ho]
    · rw [ho]

theorem linksDown_link (s : State) (e : Ep) : (s.linksDown.ep e).link = false := by
  rw [linksDown_eq]
  cases e
  · rw [endpointChange_other _ (by decide)]
    exact endpointChange_unlinked s .a
  · exact endpointChange_unlinked _ .b

/-! ## The device at rest -/

theorem modIp_pins (s : State) (p : Nat) (f : Transceiver → Transceiver) :
    (s.modIp p f).xcvr.stbLow = s.xcvr.stbLow ∧ (s.modIp p f).xcvr.wakeHeld = s.xcvr.wakeHeld := ⟨rfl, rfl⟩

/-- The pins at rest: every STB_n is high, and the wakes held stay. -/
theorem pinsRest_pins (s : State) : s.pinsRest.xcvr.stbLow = [] ∧ s.pinsRest.xcvr.wakeHeld = s.xcvr.wakeHeld := by
  unfold State.pinsRest
  dsimp only
  refine List.foldlRecOn (List.range 32) _ (motive := fun (u : State) => u.xcvr.stbLow = [] ∧ u.xcvr.wakeHeld = s.xcvr.wakeHeld) ⟨rfl, rfl⟩
    (fun u hu p _ => ?_)
  obtain ⟨h1, h2⟩ := modIp_pins u p (fun t => { t with modeEff := b2n (decide (u.sys.pwr = 2) &&
    (u.flag (Reg.xcvrIpCtl p) 8 || u.flag (Reg.xcvrIpCtl p) 9)), settleAt := none })
  exact ⟨h1.trans hu.1, h2.trans hu.2⟩

/-- The state of a device that has come to rest in power state n. -/
def rested (s : State) (n : Nat) (osc : Bool) : State :=
  State.pinsRest { s with sys := { s.sys with pwr := n, locks := 0, osc25 := osc } }

theorem rested_sys (s : State) (n : Nat) (osc : Bool) : (rested s n osc).sys = { s.sys with pwr := n, locks := 0, osc25 := osc } :=
  (Keeps.sys (keeps_pinsRest { s with sys := { s.sys with pwr := n, locks := 0, osc25 := osc } }) rfl rfl rfl rfl rfl rfl rfl rfl :)

theorem keeps_rested (s : State) (n : Nat) (osc : Bool) : Keeps [.xcvr, .power] s (rested s n osc) :=
  Keeps.step (keeps_pinsRest _) rfl (Keeps.with_sys (.inl rfl) (.inr ⟨rfl, rfl, rfl, rfl, rfl⟩)
    (.inr ⟨rfl, rfl, rfl, rfl⟩) (.inr (by and_intros <;> rfl)) (.inr (by and_intros <;> rfl)) (.inr ⟨rfl, rfl⟩) (.inr rfl)
    (.inr ⟨rfl, rfl⟩) (Keeps.refl _ s))

/-- A device comes to rest: no STB_n is low, and its endpoints and its key store stay as they are. -/
theorem rested_ends {u : State} {n : Nat} {osc : Bool} (hw : u.xcvr.wakeHeld = []) (ht : u.sys.targetHeld = none)
    (hl : ∀ e : Ep, (u.ep e).link = false) :
    (rested u n osc).endMove = moveEnded (rested u n osc) ∧ (moveEnded (rested u n osc)).sys.pwr = n ∧
    (moveEnded (rested u n osc)).sys.moving = none ∧ (∀ e : Ep, (moveEnded (rested u n osc)).usable e = false) ∧
    (moveEnded (rested u n osc)).xcvr.stbLow = [] ∧ (moveEnded (rested u n osc)).lock = u.lock := by
  have hs := rested_sys u n osc
  have hk := Keeps.step (m := [.xcvr, .power, .counters, .stew]) (keeps_moveEnded (rested u n osc)) rfl (Keeps.mono (keeps_rested u n osc) rfl)
  have hm := moveEnded_sys (rested u n osc)
  obtain ⟨h1, h2⟩ := pinsRest_pins { u with sys := { u.sys with pwr := n, locks := 0, osc25 := osc } }
  refine ⟨endMove_eq (h2.trans hw) ((congrArg (·.targetHeld) hs :).trans ht), ?_, congrArg (·.moving) hm, fun e => ?_, ?_,
    Keeps.lock hk rfl rfl rfl⟩
  · exact (congrArg (·.pwr) hm :).trans (congrArg (·.pwr) hs :)
  · exact usable_of_link (by rw [Keeps.ep hk rfl rfl]; exact hl e)
  · exact (congrArg (·.stbLow) (Keeps.xcvr (keeps_moveEnded (rested u n osc)) rfl) :).trans h1

/-- The state after a move to OFF, in which no TARGET is held either. -/
def offState (s : State) : State := { s with sys := { s.sys with moving := none, targetHeld := none } }

theorem emptyKeys_lock (s : State) : s.emptyKeys.lock.halves = [] ∧ s.emptyKeys.lock.keks = [] ∧ s.emptyKeys.lock.kek0 = none :=
  ⟨rfl, rfl, rfl⟩

theorem powerMoveStart_depot {s : State} (hp : s.cellar.pfail = false) (hm : s.sys.moving = some 2) (hr : s.restReady = true) :
    exec .powerMoveStart s = .next (rested s.linksDown.stewPins 2 s.linksDown.stewPins.frameArmed).endMove := by
  simp only [exec, execPowerMoveStart, hp, Bool.false_eq_true, if_false, hm, hr, if_true, rested]

theorem powerMoveStart_off {s : State} (hp : s.cellar.pfail = false) (hm : s.sys.moving = some 3) (hr : s.restReady = true) :
    exec .powerMoveStart s = .next (offState (rested s.linksDown.emptyKeys 3 false).endMove) := by
  simp only [exec, execPowerMoveStart, hp, Bool.false_eq_true, if_false, hm, hr, if_true, rested, offState]

/-! ## PFAIL -/

/-- The Cellar's flush set is fixed, and a self-test under way is dropped. -/
def shed (s : State) : State := { s with cellar := s.cellar.failed, tink := { s.tink with tests := [] } }

theorem pfail_shed {s : State} (h1 : s.cellar.pfail = false) (h2 : s.sys.pwr ≠ 3) (h3 : s.sys.powered = true) :
    exec .pfail s = .next (s.portsStep (List.range 128) shed).linksDown := by
  simp only [exec, execPfail, h1, h2, h3, Bool.false_eq_true, not_true_eq_false, or_self, if_false]
  rfl

theorem shed_cellar (s : State) : (s.portsStep (List.range 128) shed).linksDown.cellar = s.cellar.failed := by
  have hk : Keeps (andBell [.ports, .rings, .cells]) (shed s) (s.portsStep (List.range 128) shed) :=
    Keeps.foldl (fun u p => Keeps.ite (keeps_portDown u p) (Keeps.refl _ u)) (Keeps.refl _ (shed s))
  exact (Keeps.cellar (keeps_linksDown _) rfl rfl).trans (Keeps.cellar hk rfl rfl)

theorem portUp_pfail {s : State} (h : s.cellar.pfail = true) (p : Nat) : s.portUp p = false := by
  simp [State.portUp, h]

/-! ## The flush -/

/-- The Cellar's state stays, and no flush is counted. -/
structure FlushStep (s t : State) : Prop where
  st : t.cellar.st = s.cellar.st
  flushes : t.counter Reg.cellFlushes = s.counter Reg.cellFlushes

theorem FlushStep.of_nand {s t : State} (h : NandStep s t) : FlushStep s t := ⟨h.st, h.flushes⟩

theorem FlushStep.trans {s t u : State} (h : FlushStep s t) (k : FlushStep t u) : FlushStep s u :=
  ⟨k.st.trans h.st, k.flushes.trans h.flushes⟩

theorem journalProgrammed_flush (s : State) (g : NandGeometry) (q : PageProgram) : FlushStep s (s.journalProgrammed g q) :=
  ⟨rfl, (count_counter (s.putPage g q.block q.page) Reg.cellJpages Reg.cellFlushes).trans (if_neg (by decide))⟩

/-- A page program under way ends, or is programmed again where it fails. -/
def programEnds (s : State) : State :=
  match s.cellar.geom, s.cellar.program with
  | some g, some q =>
    if s.cellar.failing.contains q.block ∨ s.cellar.store.bad.contains q.block then
      (s.retireBlock g q.block (s.cellar.store.block q.block).pages).flushPages g [q.page.recs]
    else s.journalProgrammed g q
  | _, _ => s

/-- The flush buffer is programmed. -/
def bufferProgrammed (s : State) : State :=
  match s.cellar.geom with
  | some g =>
    if s.cellar.flushFill && !s.cellar.flush.isEmpty then
      s.flushPages g (chunks g.perPage (s.cellar.flush.length + 1) (s.cellar.flush.map (fun (x : StoreRec × Nat) => x.1)))
    else s
  | none => s

theorem programEnds_step (s : State) : FlushStep s (programEnds s) := by
  unfold programEnds
  split
  · split
    · exact .of_nand ((retireBlock_step _ _ _ _).trans (flushPages_step _ _ _))
    · exact journalProgrammed_flush _ _ _
  · exact .of_nand (.refl s)

theorem bufferProgrammed_step (s : State) : FlushStep s (bufferProgrammed s) := by
  unfold bufferProgrammed
  split
  · exact .of_nand (.ite (flushPages_step _ _ _) (.refl s))
  · exact .of_nand (.refl s)

/-- The flush is over: the buffer is empty, and the flush is counted. -/
def flushEnded (s : State) : State :=
  State.count { s with cellar := { s.cellar with flushDone := true, program := none, flush := [] } } Reg.cellFlushes

theorem flushEnded_counter (s : State) : (flushEnded s).counter Reg.cellFlushes = satAdd (s.counter Reg.cellFlushes) 1 := by
  rw [flushEnded, count_counter, if_pos rfl] <;> rfl

theorem flushComplete_ends {s : State} (h1 : s.cellar.pfail = true) (h2 : s.cellar.flushDone = false) (failing : List Nat) :
    exec (.flushComplete failing) s =
      .next (failingOn (flushEnded (bufferProgrammed (programEnds (failingOn s failing)))) []) := by
  simp only [exec, execFlushComplete, h1, h2, not_true_eq_false, Bool.false_eq_true, or_self, if_false, withFailing_eq, flushEnded,
    bufferProgrammed, programEnds] <;> rfl

/-! ## The temperature -/

/-- The fold of max is one of the values, and none is above it. -/
theorem foldl_max_spec (x : Int) (l : List Int) : l.foldl max x ∈ x :: l ∧ ∀ y ∈ x :: l, y ≤ l.foldl max x := by
  induction l generalizing x with
  | nil => simp
  | cons a l ih =>
    obtain ⟨h1, h2⟩ := ih (max x a)
    have hle := h2 (max x a) List.mem_cons_self
    refine ⟨?_, fun y hy => ?_⟩
    · rw [List.foldl_cons]
      rcases List.mem_cons.mp h1 with h | h
      · rcases max_choice x a with h' | h' <;> rw [h, h'] <;> simp
      · simp [h]
    · rw [List.foldl_cons]
      rcases List.mem_cons.mp hy with rfl | hy
      · exact (le_max_left _ _).trans hle
      · rcases List.mem_cons.mp hy with rfl | hy
        · exact (le_max_right _ _).trans hle
        · exact h2 y (List.mem_cons_of_mem _ hy)

/-- Settles O52: a move that ends is counted once, and both links stay down whatever follows their loss. -/
theorem powerStates : Obligations.PowerStates := by
  unfold Obligations.PowerStates
  refine ⟨fun p val s h hp hm hb hn => ?_, fun s hpf ht hw => ⟨fun hm hp htests hsw => ?_, fun hm hp => ?_, fun n hn hm hr => ?_⟩,
    fun s h1 h2 h3 => ?_, fun failing s h1 h2 => ?_, fun x xs s => ?_⟩
  · obtain ⟨u, he, hk, hreg, -⟩ := write_reaches_rwi regAt_sysPwrCtl rfl (by decide) rfl rfl (by decide) rfl (by decide) h rfl
    have hf : u.fld Reg.sysPwrCtl 0 2 = val.field 0 2 := fld_rwi hreg (by decide)
    have hsys : u.sys = s.sys := Keeps.sys hk rfl rfl rfl rfl rfl rfl rfl rfl
    rw [writeEffect_pwrCtl, hf, writeTarget_moves (by rw [hsys]; exact hp) (by rw [hsys]; exact hm) (by rw [hsys]; exact hb)
      (by rw [hsys]; exact hn)] at he
    exact ⟨_, he, rfl, (congrArg (·.pwr) hsys :), Keeps.with_sys (.inl rfl) (.inr ⟨rfl, rfl, rfl, rfl, rfl⟩)
      (.inr ⟨rfl, rfl, rfl, rfl⟩) (.inr (by and_intros <;> rfl)) (.inr (by and_intros <;> rfl)) (.inr ⟨rfl, rfl⟩) (.inr rfl)
      (.inr ⟨rfl, rfl⟩) (Keeps.mono hk rfl)⟩
  · have he : exec .powerMoveStart s = .next (moved s 1 false).endMove := by
      simp [exec, execPowerMoveStart, hpf, hm, htests, hsw, hp, moved]
    rw [moved_ends hw ht] at he
    have hs := moveEnded_sys (moved s 1 false)
    exact ⟨_, he, (congrArg (·.pwr) hs :), (congrArg (·.moving) hs :), (congrArg (·.standby) hs :), moveEnded_moves _,
      Keeps.mono (keeps_moved s 1 false) rfl⟩
  · have he : exec .powerMoveStart s = .next (moved s 0 s.standbyDue).endMove := by
      simp [exec, execPowerMoveStart, hpf, hm, hp, moved]
    rw [moved_ends hw ht] at he
    have hs := moveEnded_sys (moved s 0 s.standbyDue)
    exact ⟨_, he, (congrArg (·.pwr) hs :), (congrArg (·.moving) hs :), moveEnded_moves _, Keeps.mono (keeps_moved s 0 s.standbyDue) rfl⟩
  · rcases hn with rfl | rfl
    · have hk := Keeps.step (m := andBell [.frames, .rings, .stew]) (keeps_stewPins s.linksDown) rfl (Keeps.mono (keeps_linksDown s) rfl)
      have hw' : s.linksDown.stewPins.xcvr.wakeHeld = [] := (congrArg (·.wakeHeld) (Keeps.xcvr hk rfl) :).trans hw
      have ht' : s.linksDown.stewPins.sys.targetHeld = none :=
        (congrArg (·.targetHeld) (Keeps.sys hk rfl rfl rfl rfl rfl rfl rfl rfl) :).trans ht
      have hl : ∀ e : Ep, (s.linksDown.stewPins.ep e).link = false := fun e => by
        rw [Keeps.ep (keeps_stewPins s.linksDown) rfl rfl]
        exact linksDown_link s e
      obtain ⟨h0, h1, h2, h3, h4, -⟩ := rested_ends (n := 2) (osc := s.linksDown.stewPins.frameArmed) hw' ht' hl
      have he := powerMoveStart_depot hpf hm hr
      rw [h0] at he
      exact ⟨_, he, h1, h2, h3 .a, h3 .b, h4, fun h => absurd h (by decide), keeps_execPowerMoveStart s _ he⟩
    · have hk := Keeps.step (m := andBell [.frames, .rings, .halves, .keks, .lock]) (keeps_emptyKeys s.linksDown) rfl
        (Keeps.mono (keeps_linksDown s) rfl)
      have hw' : s.linksDown.emptyKeys.xcvr.wakeHeld = [] := (congrArg (·.wakeHeld) (Keeps.xcvr hk rfl) :).trans hw
      have ht' : s.linksDown.emptyKeys.sys.targetHeld = none :=
        (congrArg (·.targetHeld) (Keeps.sys hk rfl rfl rfl rfl rfl rfl rfl rfl) :).trans ht
      have hl : ∀ e : Ep, (s.linksDown.emptyKeys.ep e).link = false := fun e => linksDown_link s e
      obtain ⟨h0, h1, -, h3, h4, h5⟩ := rested_ends (n := 3) (osc := false) hw' ht' hl
      have he := powerMoveStart_off hpf hm hr
      rw [h0] at he
      have hkeep := keeps_execPowerMoveStart s _ he
      have hlock := emptyKeys_lock s.linksDown
      rw [← h5] at hlock
      generalize moveEnded (rested s.linksDown.emptyKeys 3 false) = v at he h1 h3 h4 hlock hkeep
      exact ⟨_, he, h1, rfl, h3 .a, h3 .b, h4, fun _ => hlock, hkeep⟩
  · have he := pfail_shed h1 h2 h3
    have hc := shed_cellar s
    have hlink := linksDown_link (s.portsStep (List.range 128) shed)
    exact ⟨_, he, (congrArg (·.pfail) hc :), (congrArg (·.st) hc :), (congrArg (·.checkpoint) hc :), usable_of_link (hlink .a),
      usable_of_link (hlink .b), portUp_pfail (congrArg (·.pfail) hc :), keeps_execPfail s _ he⟩
  · have he := flushComplete_ends h1 h2 failing
    have hs : FlushStep s (bufferProgrammed (programEnds (failingOn s failing))) :=
      FlushStep.trans (t := failingOn s failing) ⟨rfl, rfl⟩ ((programEnds_step (failingOn s failing)).trans (bufferProgrammed_step _))
    refine ⟨_, he, rfl, rfl, rfl, hs.st, ?_, keeps_execFlushComplete s failing _ he⟩
    exact (flushEnded_counter _).trans (by rw [hs.flushes])
  · obtain ⟨h1, h2⟩ := foldl_max_spec x xs
    exact ⟨_, rfl, h1, rfl, h2, keeps_execTempUpdate (x :: xs) s _ rfl⟩

end Sys2Proof.Proofs.Power

/-! SUPPORT. A header of a format that is not enabled, on a bus whose engine's committed EWL takes its TEC past 255 (R89, R96,
R158): the engine stops, its spare takes the port, and the exception that the header began is lost. -/

namespace Sys2Proof.Proofs.Headers

open Sys2Proof.Machine

/-- An XL header. -/
def xlHeader : BusFrame :=
  { fmt := 4, ident := 0, dlc := 0, brs := false, esi := false, sec := false, sdt := 0, vcid := 0, af := 0, data := [] }

/-- The engine of port 0: it stops, its TEC lies past 255, and words of CTL (with PEX) and EWL wait for the end of the frame. -/
def strayEngine : Engine := { st := .stopping, tec := 300, heldWords := [(0x80, 64), (0xC0, 0)] }

/-- The block right after reset with that engine, a spare that shadows port 0, and port 0's transceiver on the bus. -/
def strayState : State :=
  { engines := [(0, strayEngine)], ports := [(0, { serving := 0, shadow := some 128 })]
    xcvr := { ip := [(0, { modeEff := 2 })], unpowered := [false] } }

/-- Engine 0 is in protocol exception after an answer. -/
def inException : Answer → Bool
  | .next t => (t.engine 0).pex
  | _ => false

theorem strayHeader_noException : inException (exec (.rxHeader 0 xlHeader 0) strayState) = false := by decide

/-- Refutes O22: the end of the frame brings the engine, whose TEC is 300, to bus-off; as it is STOPPING it stops, and the switch to
its spare takes the exception of the old engine away. -/
theorem not_headersEnterFlight : ¬ Obligations.HeadersEnterFlight := by
  intro h
  obtain ⟨t, he, hpex, -⟩ := (h 0 0 xlHeader strayState (by decide) (by decide) (by decide)).2.1 (by decide) (by decide)
  have hno : (t.engine 0).pex = false := (congrArg inException he).symm.trans strayHeader_noException
  exact absurd (hpex.symm.trans hno) (by decide)

end Sys2Proof.Proofs.Headers

/-! SUPPORT. The transmit choice of an engine whose previous words are noted as replaced at an instant yet to come (R26, R102,
R107): they apply to the frame that starts, and with them MODE 3. -/

namespace Sys2Proof.Proofs.Choices

open Sys2Proof.Machine

/-- A running engine whose CTL word before its last commit had MODE 3, the instant of the commit lying ahead. -/
def strayEngine : Engine := { st := .running, prevWords := [(0x80, 6)], prevAt := 5 }

/-- A closed classic packet without data. -/
def headPacket : Packet where
  closed := true
  abandon := false
  fmt := 0
  brs := false
  ident := 0
  len := 0
  dlc := 0
  tag := 0
  expire := none
  cset := 0
  ingress := 0
  host := none
  xl := 0
  cells := []
  words := 0
  attempts := 0
  failStatus := 0
  failDetail := 0
  dropNext := false

/-- The block right after reset with that engine serving port 0, its transceiver in mode NORMAL with its supply, MODE 0 in force, and
that packet at the head of class 0. -/
def strayState : State :=
  { engines := [(0, strayEngine)], ports := [(0, { serving := 0, queues := [[headPacket], [], [], []] })]
    regs := { inForce := [(Reg.portCtl 0, 0)] }
    xcvr := { ip := [(0, { modeEff := 3 })], unpowered := [false], uv := [false] } }

/-- Something sent is a frame on a bus. -/
def isFrame : Out → Bool
  | .frame _ _ => true
  | _ => false

/-- A frame has been sent after an answer. -/
def sentFrames : Answer → Bool
  | .next t => t.out.any isFrame
  | _ => false

theorem strayChoice_silent : sentFrames (exec (.txChoice 0) strayState) = false := by decide

/-- Refutes O23: the replaced words apply to the frame that starts, whose MODE is then 3, and no frame goes out. -/
theorem not_choicesAndSelfAborts : ¬ Obligations.ChoicesAndSelfAborts := by
  intro h
  obtain ⟨t, he, -, -, -, hsent, -⟩ := h.1 0 0 headPacket [] strayState (by decide) (by decide) (by decide) (by decide) (by decide)
    (by decide) (by decide) (by decide) (by decide)
    (fun d hd => by
      obtain _ | _ | _ | _ | d := d
      · exact absurd rfl hd
      all_goals rfl)
    (by decide) (by decide) (by decide) (by decide)
  have hany : t.out.any isFrame = true := List.any_eq_true.mpr ⟨_, hsent (by decide), rfl⟩
  have hnone : t.out.any isFrame = false := (congrArg sentFrames he).symm.trans strayChoice_silent
  exact absurd (hany.symm.trans hnone) (by decide)

end Sys2Proof.Proofs.Choices

/-! SUPPORT. What the canonical form of boot flash rests on when a slot is erased whose earlier erase failed (R458, log entry 4):
the boot record's place is any number in the model, so that the record may fall into the slot. -/

namespace Sys2Proof.Proofs.MemoryForm

open Sys2Proof.Machine Sys2Proof.Safety Sys2Proof.Laws Sys2Proof.Proofs.DeviceResets Sys2Proof.Proofs.FirmwareUpdates
  Sys2Proof.Proofs.FlashAndSwitches

/-- ERASE of slot 0 waits in the queue; an earlier erase of it failed with free value w, and the next place of the boot record is
slot 0's base. -/
def strayState (w : Nat) : State :=
  { pending := [.fwCmdErase (.ep .a) 5 true]
    regs := { unlockedA := true }
    sys := { flashLost := [(0, w)], record := { rej := 1 }, recordAt := 520192 } }

/-- The state that the fabric hands to the erase. -/
def strayEntered (w : Nat) : State := commanded { strayState w with pending := [] } (.ep .a)

theorem strayState_step (w : Nat) : step (strayState w) = .next ((slotClean (slotForgotten (strayEntered w) 0) 0).setFwResult 1) := by
  have h0 : canWrite { strayState 0 with pending := [] } (.ep .a) Reg.sysFwCmd 5 = true := by decide
  have hw : canWrite { strayState w with pending := [] } (.ep .a) Reg.sysFwCmd 5 = true :=
    (show canWrite { strayState w with pending := [] } (.ep .a) Reg.sysFwCmd 5 =
      canWrite { strayState 0 with pending := [] } (.ep .a) Reg.sysFwCmd 5 by unfold canWrite; rfl).trans h0
  have hu0 : { strayState 0 with pending := [] : State }.slotInUse 0 = false := by decide
  have hu : (strayEntered w).slotInUse 0 = false := by
    rw [strayEntered, slotInUse_of_keeps (keeps_commanded _ _) rfl rfl rfl]
    exact (show { strayState w with pending := [] : State }.slotInUse 0 = { strayState 0 with pending := [] : State }.slotInUse 0 by
      unfold State.slotInUse; rfl).trans hu0
  exact (write_fwCmd hw).trans (congrArg Host.Outcome.next (fwErase_done hu))

/-- Byte 8 of the boot record, its CUR, lies at slot 0's base plus 8: 0xFF. -/
theorem slotForgotten_read (w : Nat) : (slotForgotten (strayEntered w) 0).flashRead 0x1000008 = 0xFF#8 := by
  have hsys : (strayEntered w).sys = (strayState w).sys :=
    (Keeps.sys (keeps_commanded { strayState w with pending := [] } (.ep .a)) rfl rfl rfl rfl rfl rfl rfl rfl :)
  unfold slotForgotten
  generalize strayEntered w = u at hsys
  have hr : (u.flashErase (slotBase 0) 0x400000).sys.record = { rej := 1 } := (congrArg (·.record) hsys :)
  have hat : (u.flashErase (slotBase 0) 0x400000).sys.recordAt = 520192 := (congrArg (·.recordAt) hsys :)
  have hf : BootRecord.forget { rej := 1 } 0 = {} := by decide
  rw [hr, hf, setRecord_put (by rw [hr]; decide), recorded_read, flashPut_read, hat]
  rfl

/-- An entry that is found stands in the table. -/
theorem mem_of_find? {α : Type} {k : Nat} {v : α} {t : Table α} (h : Table.find? k t = some v) : (k, v) ∈ t := by
  induction t with
  | nil => cases h
  | cons e t ih =>
    simp only [Table.find?] at h
    split at h
    · next hk =>
      cases h
      exact hk ▸ List.mem_cons_self
    · exact List.mem_cons_of_mem e (ih h)

/-- A canonical table lists no byte that its default gives. -/
theorem find?_of_wf {d : Nat → Byte} {t : Table Byte} (h : Table.wf d t = true) {k : Nat} {v : Byte} (hf : Table.find? k t = some v) :
    v ≠ d k := by
  obtain ⟨-, hall⟩ := Bool.and_eq_true_iff.mp h
  exact of_decide_eq_true (List.all_eq_true.mp hall _ (mem_of_find? hf))

/-- Slot 0 as the erase leaves it: the free value of its earlier failure is still its default until the erase has ended. -/
theorem slotForgotten_lost (w : Nat) : (slotForgotten (strayEntered w) 0).sys.flashLost = [(0, w)] := by
  have hsys : (strayEntered w).sys = (strayState w).sys :=
    (Keeps.sys (keeps_commanded { strayState w with pending := [] } (.ep .a)) rfl rfl rfl rfl rfl rfl rfl rfl :)
  unfold slotForgotten
  generalize strayEntered w = u at hsys
  obtain ⟨q, n, f, he⟩ := setRecord_eq (u.flashErase (slotBase 0) 0x400000) ((u.flashErase (slotBase 0) 0x400000).sys.record.forget 0)
  rw [he]
  exact (congrArg (·.flashLost) hsys :)

/-- Where the free value of the failed erase stands for another byte than 0xFF at CUR's place, the step from that canonical state leaves
boot flash in a form that is not canonical: CUR, 0xFF, is listed against the slot's old default, and is the slot's new one. Whether
it does stand for another byte is not for the model to say, whose free bytes are any. -/
theorem step_breaks_form {w : Nat} (hw : Config.freeByte w 0x1000008 ≠ 0xFF#8) :
    memoryCanonical (strayState w) = true ∧ ∃ t : State, step (strayState w) = .next t ∧ memoryCanonical t = false := by
  refine ⟨by rfl, _, strayState_step w, Bool.eq_false_iff.mpr fun hc => ?_⟩
  have hlost := slotForgotten_lost w
  have hread := slotForgotten_read w
  generalize slotForgotten (strayEntered w) 0 = v at hc hlost hread
  have hold : flashDefault v.sys.flashLost 0x1000008 = Config.freeByte w 0x1000008 := by rw [hlost] <;> rfl
  have hfind : Table.find? 0x1000008 v.sys.flash = some 0xFF#8 := by
    rw [State.flashRead, Table.get, hold] at hread
    cases hf : Table.find? 0x1000008 v.sys.flash with
    | none => exact absurd (by simpa [hf] using hread) hw
    | some b => simpa [hf] using hread
  have hwf : Table.wf (flashDefault (Table.erase 0 v.sys.flashLost)) v.sys.flash = true := by
    simp only [memoryCanonical, setFwResult_sys, Bool.and_eq_true] at hc
    exact hc.1.1.2
  exact find?_of_wf hwf hfind (flashDefault_erased v.sys.flashLost rfl).symm

end Sys2Proof.Proofs.MemoryForm
